-- ==== Sys2Proof/Word.lean ====
section
/-!
DEFINITION. Word.lean: the machine's words and the packets that cross its boundary.
A word is 64 bits, a tile 64 KiB, a stack line 64 bytes (R15). A command packet is Table 4.1, a
transfer is the 64-byte header of Table 15.1 with its payload.
-/
namespace Sys2Proof

/-- One byte. -/
abbrev Byte := BitVec 8

/-- A word is 64 bits (R15). -/
abbrev Word := BitVec 64

/-- The contents of one 64 KiB tile, byte 0 least significant (R15). -/
abbrev Tile := BitVec 524288

/-- The contents of one 64-byte stack line. -/
abbrev LineData := BitVec 512

/-- Sparse data by number: a list of key and value pairs, keys strictly rising. -/
abbrev FMap (α : Type) := List (Nat × α)

/-- A command packet: the header flit of Table 4.1 (its OPCODE is the constructor of `Instr`) and its
parameter words. LENGTH is the number of parameter words. -/
structure Cmd where
  flags    : Byte := 0
  tag      : BitVec 16 := 0
  ctx      : BitVec 4 := 0
  hint     : BitVec 4 := 0
  rsv      : Byte := 0
  a        : Word := 0
  b        : Word := 0
  deadline : BitVec 32 := 0
  count    : BitVec 32 := 0
  params   : List Word := []
deriving DecidableEq, Repr

/-- A transfer on a peel: the 64-byte header of Table 15.1 (byte 0 in bits 7..0) and its payload bytes
(R348). -/
structure Xfer where
  hdr     : BitVec 512 := 0
  payload : List Byte := []
deriving DecidableEq, Repr

/-- What the pins show the engine at the frame boundary that starts a plan: hall time (R102), how long the
plan took to build (R105), the chip's power envelope (R58), peel saturation (R48), stack temperatures
(R60), refresh cycles of the last frame (R43), stack acknowledges (R59), and whether the firmware's table
invariants held (R20). A list shorter than the slices or peels leaves the rest at the pin's reset value. -/
structure FrameIn where
  tick     : Word := 0
  buildNs  : BitVec 32 := 0
  envelope : BitVec 16 := 0
  sat      : List (BitVec 2) := []
  therm    : List (BitVec 10) := []
  refresh  : List Nat := []
  stackAck : List Bool := []
  tablesOk : Bool := true
deriving DecidableEq, Repr

end Sys2Proof
end

