-- ==== Sys2Proof/Config.lean ====
section
/-!
DEFINITION. Config.lean: what the spec fixes once for every part, and the values it leaves open.
An open value is an opaque constant: nothing in Lean can evaluate it, so no statement rests on it.
-/
namespace Sys2Proof.Config

/-- Whole 64 KiB tiles of a 72 GB stack (R38). -/
def stackTiles : Nat := 1098632

/-- Bytes of a tile (R15). -/
def tileBytes : Nat := 65536

/-- Slices of Rallith-L and Rallith-S (Table 0.1). -/
def slicesL : Nat := 24
def slicesS : Nat := 4

/-- Admission limits (R89). -/
def admitPerContext : Nat := 256
def admitInAll : Nat := 1024

/-- Entries of the parked set (R71), the fault-once list (R67), the remap table (R66), the general part of the range
table (R64). -/
def parkedMax : Nat := 2048
def faultOnceMax : Nat := 128
def remapMax : Nat := 32
def generalRanges : Nat := 1020
def allRanges : Nat := 1024

/-- Proof copies running and queued on a slice (R76). -/
def copiesMax : Nat := 4
def copyQueueMax : Nat := 1024

/-- Events the engine queues while the event ring is full (R83). -/
def eventQueueMax : Nat := 64

/-- Waiters for other engines' COMPARE-WAITs (R363), request slots of a peel and those kept for class U, PROBE and
COUNTER (R353), transfers of a wake buffer (R439). -/
def waitersMax : Nat := 512
def slotsMax : Nat := 1024
def slotsReserved : Nat := 64
def wakeMax : Nat := 64

/-- Ledger entries (R340). -/
def ledgerMax : Nat := 64

/-- Full rate of a stack: 3.6 TB/s (R110), link payload rate 1.65 TB/s (R115), one peel's payload 500.6 GB/s (R115);
in bytes a microsecond. -/
def stackRate : Nat := 3600000
def linkRate : Nat := 1650000
def peelRate : Nat := 500600

/-- The firmware's ROM image (R457): the manual does not give it. -/
opaque romImage : List Byte

/-- The member's rack position as a context without a group configuration knows it: only GROUP_CONFIG names it. -/
opaque homePosition : BitVec 5

/-- Static power of the engine with its clock stopped, in 0.125 W units (R434, R438): the manual gives none. -/
opaque stoppedStatic : BitVec 16

/-- The sign of a NaN that an operation makes of operands that are no NaN, or of several NaNs whose signs differ (R164, Table 9.1):
by operation and operands. -/
opaque nanSign : Nat → List (BitVec 32) → Bool

/-- Values the spec leaves open (the pool line a record takes, R248), by number of use. -/
opaque freeValue : Nat → BitVec 32

/-- Contents of a tile that the spec leaves open, or that another engine supplies (R29, R331), by number of use. -/
opaque freeTile : Nat → Tile

end Sys2Proof.Config
end

