-- ==== Sys2Proof/Syntax.lean ====
section
/-!
DEFINITION. Syntax.lean: the commands of the block, one constructor for each row of
spec/opcode_table.json, in the table's order. A command on the command link carries its packet (Table 4.1);
an inbound transfer carries the peel it came by and itself (Table 15.1); every other row carries what its
event shows the engine at the boundary.
-/
namespace Sys2Proof

/-- The block's commands, one for each row of the opcode table. -/
inductive Instr where
  /-- COLD_RESET (R454). rst_cold_n rises; the engine starts frozen with cause boot and enters phase FUSE. -/
  | coldReset
  /-- FUSE_SENSE_DONE (R54). fuse_sense_done rises; the engine reads pages 0-15 once, merges calibration and enters BOOT_WAIT. -/
  | fuseSenseDone (pages : List (BitVec 1024))
  /-- BOOT_GO (R456). A write of GO to LYX_BOOT in phase BOOT_WAIT starts the firmware load. -/
  | bootGo (value : Word)
  /-- IMAGE_AUTHENTICATED (R457). Hashing of the loaded image completes and its digest is matched against the fuse slots, or the load fails. -/
  | imageAuthenticated (poisoned : Bool)
  /-- SELFTEST_DONE (R459). The checker self-test of every unit completes; success enters TICK_WAIT, failure enters FAILED. -/
  | selftestDone (failing : List Nat)
  /-- ENGINE_READY (R461). At the first frame boundary with lock and both rings enabled, the engine thaws, sends EV_READY and starts fetching commands. -/
  | engineReady (tick : Word)
  /-- WARM_RESET (R462). rst_warm_n goes low; the engine begins a warm reset and enters TEARDOWN. -/
  | warmReset
  /-- TEARDOWN_DONE (R463). Teardown completes after outstanding reads return: gate tables emptied, global release, state cleared, phase BOOT_WAIT entered. -/
  | teardownDone
  /-- GUARD_STATUS (R469). Management operation returning the guard status word. -/
  | guardStatus (req : BitVec 32)
  /-- GUARD_FREEZE (R467). Management operation freezing the engine with cause guard. -/
  | guardFreeze (req : BitVec 32)
  /-- GUARD_THAW (R468). Management operation ending a guard freeze. -/
  | guardThaw (req : BitVec 32)
  /-- GUARD_RESET (R470). Management operation requesting a warm reset, optionally a debug load. -/
  | guardReset (req : BitVec 32)
  /-- CONTEXT_RESET (R466). GUARD_RESET with the CONTEXT bit ends one context at once without unrise and frees its resources. -/
  | contextReset (req : BitVec 32)
  /-- GUARD_COUNTERS (R471). Management operation returning a counter word or a guard counter. -/
  | guardCounters (req : BitVec 32)
  /-- GUARD_UNKNOWN_OP (R52). A management request with an unknown operation code is answered result 0x1. -/
  | guardUnknownOp (req : BitVec 32)
  /-- CMD_DOORBELL (R480). A write to LYX_CMD_DOORBELL starts or extends the fetch of command slots up to the tail. -/
  | cmdDoorbell (value : Word)
  /-- EVQ_HEAD_WRITE (R83). The driver advances LYX_EVQ_HEAD, freeing event-ring slots for queued flits. -/
  | evqHeadWrite (value : Word)
  /-- REGISTER_WRITE (R474). A write to a configuration register without behaviour of its own updates its writable fields, clamped where required. -/
  | registerWrite (addr : BitVec 16) (value : Word)
  /-- EVENT_RING_WRITE (R83). A queued reply or event flit is written to the event ring once a slot is free. -/
  | eventRingWrite
  /-- MALFORMED_COMMAND (R49). A command whose last flit disagrees with L, whose L is 512 or more, or which cannot fit the ring is discarded and answered BAD_LENGTH. -/
  | malformedCommand (opcode : Byte) (tag : BitVec 16) (ctx : BitVec 4) (len : BitVec 16) (flits : Nat)
  /-- NOP (R94). Command that does nothing and completes DONE. -/
  | nop (c : Cmd)
  /-- PING (R94). Command that completes DONE echoing operand A. -/
  | ping (c : Cmd)
  /-- QUERY_CAPS (R476). Command writing LYX_CAPS, LYX_ID, LYX_FW_VERSION and LYX_FUSE_STATE to a result buffer. -/
  | queryCaps (c : Cmd)
  /-- READ_COUNTERS (R485). Command writing counter words sampled in one cycle to a result buffer. -/
  | readCounters (c : Cmd)
  /-- SET_EVENT_MASK (R97). Command setting the context or engine-wide event suppression mask. -/
  | setEventMask (c : Cmd)
  /-- SET_FRAME (R103). Command requesting a new frame period exponent. -/
  | setFrame (c : Cmd)
  /-- FRAME_PERIOD_SWITCH (R104). At the qualifying boundary the new frame period takes effect, deadlines are converted and SET_FRAME completes. -/
  | framePeriodSwitch (tick : Word)
  /-- CTX_OPEN (R86). Command opening a closed context with its random-bit mode. -/
  | ctxOpen (c : Cmd)
  /-- CTX_CLOSE (R387). Command closing a context, freeing its pools, map store and pantry extents. -/
  | ctxClose (c : Cmd)
  /-- CTX_SET_TILEMAP (R127). Command loading a tile map, placing entries and taking the map store. -/
  | ctxSetTilemap (c : Cmd)
  /-- CTX_SET_SEED (R227). Command setting the context seed for later commands. -/
  | ctxSetSeed (c : Cmd)
  /-- REGION_DEFINE (R132). Command defining a region with class, default group and tile count, installing PROTECT entries. -/
  | regionDefine (c : Cmd)
  /-- REGION_SET_CLASS (R137). Command changing a region's coverage class, deferred to a change seal in a grouped context. -/
  | regionSetClass (c : Cmd)
  /-- REGION_RELEASE (R132). Command releasing a region of the context. -/
  | regionRelease (c : Cmd)
  /-- POOL_SIZE (R145). Command growing or shrinking a pool and setting margin floor or branch reserve. -/
  | poolSize (c : Cmd)
  /-- GROUP_CONFIG (R239). Command setting the context's group configuration n, k, m, members and root. -/
  | groupConfig (c : Cmd)
  /-- GROUP_JOIN (R240). Command joining the group through the broadcast tree, computing placement and taking the crust pool. -/
  | groupJoin (c : Cmd)
  /-- GROUP_KEY (R356). Command installing a next group key or making the next key current. -/
  | groupKey (c : Cmd)
  /-- GROUP_LEAVE (R242). Command leaving the group, discarding open and sealed crumbs and freeing the crust pool. -/
  | groupLeave (c : Cmd)
  /-- PROG_LOAD (R162). Command loading an update program into a slot. -/
  | progLoad (c : Cmd)
  /-- PGROUP_SET (R158). Command writing a parameter group. -/
  | pgroupSet (c : Cmd)
  /-- STEP_BEGIN (R269). Command opening a step, fixing its verdict counter and computing group constants. -/
  | stepBegin (c : Cmd)
  /-- STEP_GRAD_READY (R152). Command naming master tiles whose gradients are ready, or RAW tiles for a covered-write. -/
  | stepGradReady (c : Cmd)
  /-- MASTER_TILE_UPDATE (R152). A slice begins a master tile once its streams are available, runs the program, writes state and forms the crumb. -/
  | masterTileUpdate (ctx : BitVec 4) (tile : Nat) (checkerBusy : Bool)
  /-- STEP_ACCUMULATE (R171). Command adding gradients into accumulator tiles with nearest or stochastic rounding. -/
  | stepAccumulate (c : Cmd)
  /-- STEP_LOSS (R271). Command closing the step with its loss bits. -/
  | stepLoss (c : Cmd)
  /-- RISK_LEVEL_PUBLISH (R288). Once the step's work is done the member MAXes its published level into the step's risk counter. -/
  | riskLevelPublish (ctx : BitVec 4)
  /-- STEP_FINDING_ADD (R272). Once STEP_LOSS is taken and the step's tiles are done, the member ADDs its finding to the verdict counter. -/
  | stepFindingAdd (ctx : BitVec 4)
  /-- VERDICT_DECIDE (R274). The owner's local wait reaches the expected findings and it writes FINAL and VERDICT into the counter. -/
  | verdictDecide (ctx : BitVec 4)
  /-- VERDICT_CLEAN (R277). A COMPARE-WAIT returns FINAL with a clean verdict; recast, flip, relabel, ledger, loss scale, events and reply follow. -/
  | verdictClean (ctx : BitVec 4)
  /-- VERDICT_OVERFLOW (R278). A COMPARE-WAIT returns an overflow verdict; the step's fresh crumbs are unrisen in class U. -/
  | verdictOverflow (ctx : BitVec 4)
  /-- UNRISE_DONE (R279). The unrise of a step completes and STEP_BEGIN's final reply leaves. -/
  | unriseDone (ctx : BitVec 4)
  /-- STEP_PUBLISH (R177). Command publishing working copies to a target after the step's verdict and lease release. -/
  | stepPublish (c : Cmd)
  /-- PUBLISH_WRITE (R177). Once the verdict is clean and leases allow, the engine writes the version buffer and issues the flag store. -/
  | publishWrite (ctx : BitVec 4) (target : BitVec 4)
  /-- PUBLISH_TARGETS (R174). Command setting and resetting a publish target. -/
  | publishTargets (c : Cmd)
  /-- LOSS_SCALE_SET (R208). Command setting the loss-scale exponent and growth interval. -/
  | lossScaleSet (c : Cmd)
  /-- CADENCE_SET (R287). Command setting the bake intervals and the risk counters. -/
  | cadenceSet (c : Cmd)
  /-- BAKE_SEAL_NOW (R293). Command making a seal due at the next clean step. -/
  | bakeSealNow (c : Cmd)
  /-- BAKE_STATUS (R305). Command writing the bake status block to a result buffer. -/
  | bakeStatus (c : Cmd)
  /-- BAKE_JOBWIDE (R304). Command committing the sealed bake job-wide, ending LIMBO and freeing old records and generations. -/
  | bakeJobwide (c : Cmd)
  /-- BAKE_SEAL (R294). Once the publish is done and hold entries are free, the member seals the bake: hold, relabel, record, trap, drain start. -/
  | bakeSeal (ctx : BitVec 4)
  /-- CRUMB_DRAIN (R252). A drain piece ships a sealed crumb or full value to each keeper of its batch. -/
  | crumbDrain (ctx : BitVec 4) (tile : Nat)
  /-- SEAL_NOTICE_SEND (R256). After shipping every crumb of the bake to a keeper, the source sends it a seal notice. -/
  | sealNoticeSend (ctx : BitVec 4) (keeper : BitVec 5)
  /-- CRUMB (R254). An inbound crumb piece is landed and, when whole and valid, applied into the rising crust. -/
  | crumb (peel : Nat) (x : Xfer)
  /-- SEAL_NOTICE (R256). An inbound seal notice is recorded and may complete a batch commit. -/
  | sealNotice (peel : Nat) (x : Xfer)
  /-- RACK_COMMIT (R303). The root's wait on BAKE_CTR reaches the commit total; it clears the counter and raises EV_BAKE_COMMITTED. -/
  | rackCommit (ctx : BitVec 4)
  /-- FENCE_MEMBER (R316). Command fencing a position, refusing its traffic and completing requests to it. -/
  | fenceMember (c : Cmd)
  /-- ADOPT_POSITION (R327). Command taking over a lost position on a spare from a map holder's adoption record. -/
  | adoptPosition (c : Cmd)
  /-- REBUILD_START (R329). Command rebuilding the adopter's held covered tiles and optionally its crust. -/
  | rebuildStart (c : Cmd)
  /-- DEMAND_REBUILD (R330). A HOLD on an unbuilt tile queues its loaf for rebuild at the head of class D. -/
  | demandRebuild (slice : Nat) (tile : Nat)
  /-- REBUILD_PROGRESS (R333). Every 128 frames during rebuild the adopter raises EV_REBUILD_PROGRESS. -/
  | rebuildProgress (ctx : BitVec 4)
  /-- REBUILD_DONE (R333). The last data or crust loaf is rebuilt and EV_REBUILD_DONE is raised. -/
  | rebuildDone (ctx : BitVec 4) (kind : Bool)
  /-- ROLLBACK (R323). Command returning the context to its rollback target by unrise, decode and proof copies. -/
  | rollback (c : Cmd)
  /-- REPLAY_CHECK (R342). Command comparing a replayed step's loss and digest with the loss ledger. -/
  | replayCheck (c : Cmd)
  /-- MEND_TILE (R338). Command mending tiles by decoding them from their batches. -/
  | mendTile (c : Cmd)
  /-- MEND (R336). A mend of an uncorrectable covered tile runs at the head of class D, decodes it, rewrites it and releases it. -/
  | mend (ctx : BitVec 4) (tile : Nat)
  /-- KNEAD_HINT (R383). Command promoting or demoting tiles between tiers. -/
  | kneadHint (c : Cmd)
  /-- KNEAD_PIN (R383). Command pinning or unpinning tiles to a tier. -/
  | kneadPin (c : Cmd)
  /-- KNEAD_POLICY (R376). Command setting the pantry window and knead policy. -/
  | kneadPolicy (c : Cmd)
  /-- KNEAD_IDLE_DEMOTE (R384). A tile idle for 2^IDLE_LOG2 frames becomes a candidate for automatic demotion. -/
  | kneadIdleDemote (ctx : BitVec 4) (tile : Nat)
  /-- DEMOTION (R379). A tile is packed, stored to the pantry, its directory entry written and it is marked tier 1. -/
  | demotion (ctx : BitVec 4) (tile : Nat)
  /-- PROMOTION (R380). A tier-1 tile's extent is loaded, checked, written home, its directory cleared and the tile released. -/
  | promotion (ctx : BitVec 4) (tile : Nat)
  /-- EXPORT_BEGIN (R392). Command opening an export of the committed bake with a parent. -/
  | exportBegin (c : Cmd)
  /-- EXPORT_NEXT (R397). Command writing tile and manifest records of an export to a result buffer. -/
  | exportNext (c : Cmd)
  /-- RESTORE_BEGIN (R399). Command opening a restore with a manifest seal and holding the context. -/
  | restoreBegin (c : Cmd)
  /-- RESTORE_NEXT (R401). Command taking staged manifest and tile records and writing tiles. -/
  | restoreNext (c : Cmd)
  /-- RESTORE_COMMIT (R403). Command checking shard digests and committing the restore. -/
  | restoreCommit (c : Cmd)
  /-- BRANCH_TAKE (R410). Command taking a copy-on-write branch of a region. -/
  | branchTake (c : Cmd)
  /-- BRANCH_RESTORE (R412). Command resetting a region to a branch. -/
  | branchRestore (c : Cmd)
  /-- BRANCH_FORK (R413). Command writing a branch's value into another region. -/
  | branchFork (c : Cmd)
  /-- BRANCH_DROP (R415). Command freeing a branch, its copies and reservation. -/
  | branchDrop (c : Cmd)
  /-- POWER_ENVELOPE (R58). Command setting the driver's power envelope. -/
  | powerEnvelope (c : Cmd)
  /-- CAL_USER_SET (R445). Command writing a user calibration trim. -/
  | calUserSet (c : Cmd)
  /-- RISK_WEIGHTS (R449). Command setting risk weights, thresholds and decay. -/
  | riskWeights (c : Cmd)
  /-- HEALTH_MODE (R450). Command setting the engine's health mode. -/
  | healthMode (c : Cmd)
  /-- SAMPLE_ROW (R228). Command drawing one index from a row of scores by Gumbel-max. -/
  | sampleRow (c : Cmd)
  /-- COUNTER_OP (R493). Command performing a proving-counter operation locally or remotely. -/
  | counterOp (c : Cmd)
  /-- CHECKBIT_WRITE (R429). Command writing a data word with chosen check bits to internal storage. -/
  | checkbitWrite (c : Cmd)
  /-- RAW_READ (R430). Command reading an internal word and check bits without correction. -/
  | rawRead (c : Cmd)
  /-- GATE_FORCE (R94). Command forcing a tile's state in the fast state bitmap. -/
  | gateForce (c : Cmd)
  /-- CANCEL_TAG (R99). Command cancelling one admitted command by tag. -/
  | cancelTag (c : Cmd)
  /-- CANCEL_CONTEXT (R100). Command cancelling every admitted command of its context. -/
  | cancelContext (c : Cmd)
  /-- GATE_REQUEST (R68). A memory-controller request is answered PASS, HOLD, REDIRECT or FAULT in the same cycle. -/
  | gateRequest (slice : Nat) (line : BitVec 31) (write : Bool) (src : BitVec 4) (wdata : LineData)
  /-- PROOF_COPY_DONE (R76). A proof copy finishes writing every copy the tile owes and the tile is released. -/
  | proofCopyDone (slice : Nat) (tile : Nat)
  /-- SPARE_LINE_ACCESS (R40). The controller reads or writes a spare line after a REDIRECT. -/
  | spareLineAccess (slice : Nat) (write : Bool) (idx : BitVec 5) (wdata : LineData) (wmask : BitVec 64)
  /-- MC_ERROR_REPORT (R42). A controller error report is counted and, for uncorrectable kinds, the tile is held for mend or fault-once. -/
  | mcErrorReport (slice : Nat) (kind : BitVec 3) (line : BitVec 31)
  /-- MEM_READ_RESPONSE (R45). Read data returns on the engine's port; poisoned lines are treated as uncorrectable reads. -/
  | memReadResponse (slice : Nat) (tag : BitVec 10) (data : List LineData) (poison : BitVec 32)
  /-- PROBE (R312). An inbound presence probe is answered by the peel logic. -/
  | probe (peel : Nat) (x : Xfer)
  /-- COUNTER (R25). An inbound proving-counter operation is applied atomically, or a COMPARE-WAIT becomes a waiter. -/
  | counter (peel : Nat) (x : Xfer)
  /-- DECODE_REQ (R319). An inbound decode request makes the member supply its tiles as of a bake times its coefficient. -/
  | decodeReq (peel : Nat) (x : Xfer)
  /-- DECODE_PART (R321). An inbound decode part is summed at a tray head or root, or delivered as the decoded tile. -/
  | decodePart (peel : Nat) (x : Xfer)
  /-- BCAST (R368). An inbound broadcast is acted on once per generation and forwarded to the node's children. -/
  | bcast (peel : Nat) (x : Xfer)
  /-- BCAST_UP (R368). An inbound upward broadcast record or final mask is collected and passed up. -/
  | bcastUp (peel : Nat) (x : Xfer)
  /-- RECORD (R326). An inbound adoption-record piece is stored by a map holder or taken by an adopter. -/
  | record (peel : Nat) (x : Xfer)
  /-- INBOUND_RESPONSE (R351). A response to the engine's own request completes its slot by status, or is dropped as a late arrival. -/
  | inboundResponse (peel : Nat) (x : Xfer)
  /-- FABRIC_REQUEST_TIMEOUT (R362). A fabric request reaches its class timeout and completes as timed out, its tag quarantined. -/
  | fabricRequestTimeout (peel : Nat) (slot : BitVec 10)
  /-- TAG_QUARANTINE_END (R365). The 4-frame quarantine of a timed-out tag ends and the slot may be reused. -/
  | tagQuarantineEnd (peel : Nat) (slot : BitVec 10)
  /-- COMPARE_WAIT_LIMIT (R363). A remote waiter's limit passes and the owner drops it without response. -/
  | compareWaitLimit (peel : Nat) (src : BitVec 5) (tag : BitVec 16)
  /-- LOCAL_WAIT_TIMEOUT (R493). A local COMPARE-WAIT reaches the class U period and completes FABRIC_TIMEOUT or is reissued. -/
  | localWaitTimeout (ctx : BitVec 4) (tag : BitVec 16)
  /-- BCAST_CHILD_TIMEOUT (R369). A broadcast child does not answer in time and is skipped by repair. -/
  | bcastChildTimeout (ctx : BitVec 4) (child : BitVec 5)
  /-- SEAL_WAIT_EXPIRY (R313). A seal notice is missing SEAL_WAIT frames after the first notice, making the source suspect or lost. -/
  | sealWaitExpiry (ctx : BitVec 4) (position : BitVec 5)
  /-- KEY_GRACE_END (R358). Four frames after a key change the previous epoch is no longer accepted. -/
  | keyGraceEnd (ctx : BitVec 4)
  /-- FRAME_PLAN_BUILD (R105). At a frame boundary the sequencer builds the frame plan: credits, pieces, power, stack states and risk. -/
  | framePlanBuild (inp : FrameIn)
  /-- PLAN_CUTOFF (R105). 10 µs before the next boundary the plan is retired and carried pieces handed on. -/
  | planCutoff
  /-- FRAME_WATCHDOG (R20). A plan not retired by the next tick fires the watchdog and freezes the engine. -/
  | frameWatchdog
  /-- FIRMWARE_DIGEST_CHECK (R20). Every 1,024 frames the code image digest is recomputed and compared. -/
  | firmwareDigestCheck (digest : BitVec 256)
  /-- DEADLINE_MISS (R120). A command's deadline frame has passed at plan build; EV_DEADLINE_MISS is raised and its cheaper path taken. -/
  | deadlineMiss (ctx : BitVec 4) (tag : BitVec 16)
  /-- PIECE_AGED (R113). A queued piece reaches the age limit and is served ahead of other work. -/
  | pieceAged (piece : Nat)
  /-- TICK_LOCK_LOSS (R122). Loss of tick lock is found; the plan is retired and no new pieces are issued. -/
  | tickLockLoss
  /-- TICK_LOCK_REGAINED (R53). After 1,024 good cycles and at the next frame boundary, lock returns and the frame number is recomputed. -/
  | tickLockRegained (tick : Word)
  /-- RISK_LEVEL_FALL (R448). After 256 frames with the raw level below it, the risk level falls by one. -/
  | riskLevelFall
  /-- POWER_CAP_EVENT (R437). Unconstrained demand exceeds the envelope and EV_POWER_CAP is raised, again every 1,024 frames. -/
  | powerCapEvent
  /-- SENSOR_STALE (R60). A stack reading unchanged for 64 frames counts as a failed sensor and raises EV_THERMAL. -/
  | sensorStale (slice : Nat)
  /-- POWER_STATE_ACK (R56). pwr_state_ack rises and the new operating point is in force. -/
  | powerStateAck
  /-- CLOCK_STOP_WAKE (R439). At point 011 an inbound transfer or command requests 0.55 GHz and is held in the wake buffer. -/
  | clockStopWake (peel : Nat) (x : Option Xfer)
  /-- STACK_STATE_EXIT (R59). pwr_stack_ack falls as a stack leaves its requested state and the exit is counted. -/
  | stackStateExit (slice : Nat)
  /-- STORAGE_SCRUB (R423). Every 64 clk_eng cycles each unit's next word is scrubbed and corrected. -/
  | storageScrub (addr : BitVec 32)
  /-- COLD_RESET_ASSERT (R462). rst_cold_n goes low asynchronously; outputs take their reset values, and any warm reset in progress is abandoned. -/
  | coldResetAssert
  /-- MAIN_SUPPLY_FALL (R443). The die's main supply falls and the engine loses everything it holds except the fuses. -/
  | mainSupplyFall
  /-- PEEL_LINK_UP_CHANGE (R46). peelX_link_up changes; the engine stops or resumes offering beats on that peel, and requests are rerouted to the remaining peel (R352). -/
  | peelLinkUpChange (peel : Nat) (up : Bool)
  /-- MALFORMED_TRANSFER (R360). An inbound transfer with bad framing, an invalid TYPE, non-zero reserved bits or a bad DIGEST is dropped whole and counted, with no response. -/
  | malformedTransfer (peel : Nat) (check : Nat)
  /-- CRUMB_LANDING_TIMEOUT (R253). A crumb still incomplete in a keeper's landing buffer when its transfers time out is discarded, and its reservation is freed. -/
  | crumbLandingTimeout (ctx : BitVec 4) (batch : BitVec 32) (row : BitVec 2) (slot : BitVec 5) (offset : BitVec 5)
  /-- BACKGROUND_FOLD (R250). A background fold piece in class K completes, folding a tile's pending record into its open base record and freeing lines. -/
  | backgroundFold (ctx : BitVec 4) (tile : Nat)
deriving DecidableEq, Repr

end Sys2Proof
end

