-- ==== Sys2Proof/WellFormed.lean ====
section
/-!
DEFINITION. WellFormed.lean: what a command of the block must satisfy to be one that the hardware's pins and packets can carry: numbers
within the fields that carry them. `exec` is total on every command; this is what a sender can really send.
-/
namespace Sys2Proof

/-- A packet: LENGTH is a 16-bit field (Table 4.1). -/
def Cmd.wf (c : Cmd) : Bool := decide (c.params.length < 2 ^ 16)
/-- A transfer: at most 16 units of 256 bytes (Table 15.1). -/
def Xfer.wf (x : Xfer) : Bool := decide (x.payload.length ≤ 4096)
/-- A slice, a stack tile of it, a logical tile, a peel. -/
def sliceWf (i : Nat) : Bool := decide (i < Config.slicesL)
def stackWf (t : Nat) : Bool := decide (t < Config.stackTiles)
def tileWf (t : Nat) : Bool := decide (t < 2 ^ 32)
def peelWf (p : Nat) : Bool := decide (p < 2)
/-- What the pins show at a boundary: a list no longer than the slices or peels it speaks of. -/
def FrameIn.wf (i : FrameIn) : Bool :=
  decide (i.sat.length ≤ 2) && decide (i.therm.length ≤ Config.slicesL) && decide (i.refresh.length ≤ Config.slicesL)
    && decide (i.stackAck.length ≤ Config.slicesL)

/-- A well-formed command. -/
def Instr.wf : Instr → Bool
  | .coldReset => true
  | .fuseSenseDone pages => decide (pages.length = 16)
  | .bootGo _ => true
  | .imageAuthenticated _ => true
  | .selftestDone failing => failing.all (fun u => decide (u < 32))
  | .engineReady _ => true
  | .warmReset => true
  | .teardownDone => true
  | .guardStatus _ => true
  | .guardFreeze _ => true
  | .guardThaw _ => true
  | .guardReset _ => true
  | .contextReset _ => true
  | .guardCounters _ => true
  | .guardUnknownOp _ => true
  | .cmdDoorbell _ => true
  | .evqHeadWrite _ => true
  | .registerWrite _ _ => true
  | .eventRingWrite => true
  | .malformedCommand _ _ _ _ _ => true
  | .nop c => c.wf
  | .ping c => c.wf
  | .queryCaps c => c.wf
  | .readCounters c => c.wf
  | .setEventMask c => c.wf
  | .setFrame c => c.wf
  | .framePeriodSwitch _ => true
  | .ctxOpen c => c.wf
  | .ctxClose c => c.wf
  | .ctxSetTilemap c => c.wf
  | .ctxSetSeed c => c.wf
  | .regionDefine c => c.wf
  | .regionSetClass c => c.wf
  | .regionRelease c => c.wf
  | .poolSize c => c.wf
  | .groupConfig c => c.wf
  | .groupJoin c => c.wf
  | .groupKey c => c.wf
  | .groupLeave c => c.wf
  | .progLoad c => c.wf
  | .pgroupSet c => c.wf
  | .stepBegin c => c.wf
  | .stepGradReady c => c.wf
  | .masterTileUpdate _ tile _ => tileWf tile
  | .stepAccumulate c => c.wf
  | .stepLoss c => c.wf
  | .riskLevelPublish _ => true
  | .stepFindingAdd _ => true
  | .verdictDecide _ => true
  | .verdictClean _ => true
  | .verdictOverflow _ => true
  | .unriseDone _ => true
  | .stepPublish c => c.wf
  | .publishWrite _ _ => true
  | .publishTargets c => c.wf
  | .lossScaleSet c => c.wf
  | .cadenceSet c => c.wf
  | .bakeSealNow c => c.wf
  | .bakeStatus c => c.wf
  | .bakeJobwide c => c.wf
  | .bakeSeal _ => true
  | .crumbDrain _ tile => tileWf tile
  | .sealNoticeSend _ _ => true
  | .crumb peel x => peelWf peel && x.wf
  | .sealNotice peel x => peelWf peel && x.wf
  | .rackCommit _ => true
  | .fenceMember c => c.wf
  | .adoptPosition c => c.wf
  | .rebuildStart c => c.wf
  | .demandRebuild slice tile => sliceWf slice && stackWf tile
  | .rebuildProgress _ => true
  | .rebuildDone _ _ => true
  | .rollback c => c.wf
  | .replayCheck c => c.wf
  | .mendTile c => c.wf
  | .mend _ tile => tileWf tile
  | .kneadHint c => c.wf
  | .kneadPin c => c.wf
  | .kneadPolicy c => c.wf
  | .kneadIdleDemote _ tile => tileWf tile
  | .demotion _ tile => tileWf tile
  | .promotion _ tile => tileWf tile
  | .exportBegin c => c.wf
  | .exportNext c => c.wf
  | .restoreBegin c => c.wf
  | .restoreNext c => c.wf
  | .restoreCommit c => c.wf
  | .branchTake c => c.wf
  | .branchRestore c => c.wf
  | .branchFork c => c.wf
  | .branchDrop c => c.wf
  | .powerEnvelope c => c.wf
  | .calUserSet c => c.wf
  | .riskWeights c => c.wf
  | .healthMode c => c.wf
  | .sampleRow c => c.wf
  | .counterOp c => c.wf
  | .checkbitWrite c => c.wf
  | .rawRead c => c.wf
  | .gateForce c => c.wf
  | .cancelTag c => c.wf
  | .cancelContext c => c.wf
  | .gateRequest slice _ _ _ _ => sliceWf slice
  | .proofCopyDone slice tile => sliceWf slice && stackWf tile
  | .spareLineAccess slice _ _ _ _ => sliceWf slice
  | .mcErrorReport slice _ _ => sliceWf slice
  | .memReadResponse slice _ data _ => sliceWf slice && decide (data.length ≤ 32)
  | .probe peel x => peelWf peel && x.wf
  | .counter peel x => peelWf peel && x.wf
  | .decodeReq peel x => peelWf peel && x.wf
  | .decodePart peel x => peelWf peel && x.wf
  | .bcast peel x => peelWf peel && x.wf
  | .bcastUp peel x => peelWf peel && x.wf
  | .record peel x => peelWf peel && x.wf
  | .inboundResponse peel x => peelWf peel && x.wf
  | .fabricRequestTimeout peel _ => peelWf peel
  | .tagQuarantineEnd peel _ => peelWf peel
  | .compareWaitLimit peel _ _ => peelWf peel
  | .localWaitTimeout _ _ => true
  | .bcastChildTimeout _ _ => true
  | .sealWaitExpiry _ _ => true
  | .keyGraceEnd _ => true
  | .framePlanBuild inp => inp.wf
  | .planCutoff => true
  | .frameWatchdog => true
  | .firmwareDigestCheck _ => true
  | .deadlineMiss _ _ => true
  | .pieceAged _ => true
  | .tickLockLoss => true
  | .tickLockRegained _ => true
  | .riskLevelFall => true
  | .powerCapEvent => true
  | .sensorStale slice => sliceWf slice
  | .powerStateAck => true
  | .clockStopWake peel x => peelWf peel && (x.map Xfer.wf).getD true
  | .stackStateExit slice => sliceWf slice
  | .storageScrub _ => true
  | .coldResetAssert => true
  | .mainSupplyFall => true
  | .peelLinkUpChange peel _ => peelWf peel
  | .malformedTransfer peel check => peelWf peel && decide (1 ≤ check) && decide (check ≤ 3)
  | .crumbLandingTimeout _ _ _ _ _ => true
  | .backgroundFold _ tile => tileWf tile

end Sys2Proof
end

