-- ==== Sys2Proof/Decode.lean ====
section
/-!
DEFINITION. Decode.lean: the command that a word spells by the bits of spec/opcode_table.json. The table gives no row bits: a command
packet carries its opcode in a header flit with its operands (Table 4.1), an inbound transfer its type in its header, and every other row is an
event, so no word alone is a command.
-/
namespace Sys2Proof

/-- No row of the table has bits. -/
def decodeTableWord (_nbits _w : Nat) : Option Instr := none

end Sys2Proof
end

