-- ==== Sys2Proof/Machine/Maps.lean ====
section
/-!
DEFINITION. Machine/Maps.lean: sparse data by number, the engine's tables.
A map is a list of key and value pairs with strictly rising keys; `set` and `erase` keep that form.
-/
namespace Sys2Proof.Machine

/-- The value at a key, if the map lists one. -/
def mget {α : Type} : FMap α → Nat → Option α
  | [], _ => none
  | (k, v) :: m, i => if k = i then some v else mget m i

/-- The value at a key, or `d` where none is listed. -/
def mgetD {α : Type} (m : FMap α) (i : Nat) (d : α) : α := (mget m i).getD d

/-- The map with `v` at key `i`. -/
def mset {α : Type} : FMap α → Nat → α → FMap α
  | [], i, v => [(i, v)]
  | (k, w) :: m, i, v =>
    if i < k then (i, v) :: (k, w) :: m
    else if i = k then (i, v) :: m
    else (k, w) :: mset m i v

/-- The map without key `i`. -/
def merase {α : Type} : FMap α → Nat → FMap α
  | [], _ => []
  | (k, w) :: m, i => if k = i then m else (k, w) :: merase m i

/-- Set or erase at key `i`. -/
def mput {α : Type} (m : FMap α) (i : Nat) : Option α → FMap α
  | some v => mset m i v
  | none => merase m i

/-- The keys, ascending. -/
def mkeys {α : Type} (m : FMap α) : List Nat := List.map Prod.fst m

/-- The values in key order. -/
def mvals {α : Type} (m : FMap α) : List α := List.map Prod.snd m

/-- `f` at every value. -/
def mmap {α : Type} (m : FMap α) (f : Nat → α → α) : FMap α := List.map (fun p => (p.1, f p.1 p.2)) m

/-- The map holds only the entries that pass. -/
def mkeep {α : Type} (m : FMap α) (f : Nat → α → Bool) : FMap α := List.filter (fun p => f p.1 p.2) m

/-- Strictly rising keys. -/
def mwf {α : Type} : FMap α → Bool
  | [] => true
  | [_] => true
  | (k, _) :: (k', v) :: m => decide (k < k') && mwf ((k', v) :: m)

/-- Insert in ascending order, without repeats. -/
def insertAsc : List Nat → Nat → List Nat
  | [], i => [i]
  | k :: l, i => if i < k then i :: k :: l else if i = k then k :: l else k :: insertAsc l i

/-- The first index at which a predicate holds. -/
def findIdx {α : Type} (p : α → Bool) : List α → Option Nat
  | [] => none
  | a :: l => if p a then some 0 else (findIdx p l).map (· + 1)

/-- The list with its first element that passes replaced. -/
def replaceFirst {α : Type} (p : α → Bool) (f : α → α) : List α → List α
  | [] => []
  | a :: l => if p a then f a :: l else a :: replaceFirst p f l

/-- The list without its first element that passes. -/
def dropFirst {α : Type} (p : α → Bool) : List α → List α
  | [] => []
  | a :: l => if p a then l else a :: dropFirst p l

/-- `f 0`, …, `f (n − 1)` in turn on a value. -/
def iter {α : Type} (n : Nat) (f : Nat → α → α) (a : α) : α := (List.range n).foldl (fun x i => f i x) a

/-- Sum of a list. -/
def sum (l : List Nat) : Nat := l.foldl (· + ·) 0

/-- The largest of a list, 0 of none. -/
def maxOf (l : List Nat) : Nat := l.foldl max 0

/-- ⌈a / b⌉ (R15 writes it so). -/
def ceilDiv (a b : Nat) : Nat := (a + b - 1) / b

/-- Insertion sort by a key, stable, ascending. -/
def insertBy {α : Type} (key : α → Nat) (x : α) : List α → List α
  | [] => [x]
  | y :: l => if key x < key y then x :: y :: l else y :: insertBy key x l

/-- Ascending by key, stable. -/
def sortBy {α : Type} (key : α → Nat) (l : List α) : List α := l.foldl (fun acc x => insertBy key x acc) []

/-- Pieces of `n` elements, the last one shorter; at most `fuel` of them. -/
def chunks {α : Type} (n : Nat) : Nat → List α → List (List α)
  | 0, _ => []
  | _ + 1, [] => []
  | fuel + 1, l => l.take n :: chunks n fuel (l.drop n)

end Sys2Proof.Machine
end

