-- ==== Sys2Proof/Machine/State.lean ====
section
/-!
DEFINITION. Machine/State.lean: the state of the Lysyx engine as plain data.
Each field's comment gives the rule of spec/ that names it, its width where it is a word, and its reset value.
A value the spec leaves to the part at reset is marked there and logged in notes/assumptions.
-/
namespace Sys2Proof.Machine

/-- Start-up phases (Table 21.1, R454). -/
inductive Phase where
  | fuse | bootWait | load | selftest | tickWait | ringWait | ready | teardown | failed
deriving DecidableEq, Repr

/-- Tile states of the fast state bitmap (Table 3.1, R63). -/
inductive TileState where
  | normal | held | trapped | exempt
deriving DecidableEq, Repr

/-- Coverage classes (Table 1.5, R26). -/
inductive Cover where
  | delta | snapshot | replica | uncovered
deriving DecidableEq, Repr

/-- Classes of work (Table 5.1, R108). -/
inductive Cls where
  | u | d | k | m
deriving DecidableEq, Repr

/-- A range-table entry (Table 3.2, R64). -/
structure RangeEntry where
  first    : Nat := 0
  last     : Nat := 0
  kind     : BitVec 2 := 0
  coarse   : Bool := false
  draining : Bool := false
  ctx      : BitVec 4 := 0
deriving DecidableEq, Repr

/-- One proof copy that a slice runs or queues: the stack tile it copies, and whether it has been counted as a
stall (R75, R76). -/
structure CopyJob where
  tile    : Nat
  stalled : Bool := false
deriving DecidableEq, Repr

/-- A crumb landing at a keeper until every piece of it has come (R253). -/
structure Landing where
  ctx    : BitVec 4
  batch  : BitVec 32
  row    : BitVec 2
  slot   : BitVec 5
  offset : BitVec 5
  src    : BitVec 5
  bake   : BitVec 32
  desc   : BitVec 21
  got    : FMap (List Byte) := []
deriving DecidableEq, Repr

/-- What one slice may move in a frame, by the division of R111 (Table 5.2). -/
structure Grant where
  credit : Nat := 0
  aged   : Nat := 0
  d      : Nat := 0
  kLow   : Nat := 0
  u      : Nat := 0
  kHigh  : Nat := 0
  m      : Nat := 0
deriving DecidableEq, Repr

/-- One stack slice: its share of the gate, its spare lines, its proof copies, and what the power manager and
the health monitor keep of its stack. -/
structure Slice where
  /-- [R62, R63] fast state bitmap, 2 bits a tile; a tile not listed is NORMAL. Reset: empty. -/
  bitmap : FMap TileState := []
  /-- [R64] range table, 1,024 entries; an entry not listed is empty. Reset: empty. -/
  ranges : FMap RangeEntry := []
  /-- [R66, R427] remap table, 32 entries: the line of each valid entry. Reset: empty. -/
  remap : FMap (BitVec 31) := []
  /-- [R40, R426] spare lines, 32 of 512 bits. Reset: zero through the valid bits (R425). -/
  spare : FMap LineData := []
  /-- [R40, Table 2.2] gate_spare_rdata and gate_spare_rvalid: the last line read. Reset: 0, invalid. -/
  spareRd : Option LineData := none
  /-- [R67] fault-once list, 128 lines, oldest first. Reset: empty. -/
  faultOnce : List (BitVec 31) := []
  /-- [R71] parked set, 2,048 tiles, ascending. Reset: empty. -/
  parked : List Nat := []
  /-- [R73] overflow flag of the parked set. Reset: 0. -/
  overflow : Bool := false
  /-- [R35, Table 2.2] gate_ans, 2 bits. Reset: 00. -/
  ans : BitVec 2 := 0
  /-- [R40, Table 2.2] gate_redir_addr, 31 bits. Reset: 0. -/
  redir : BitVec 31 := 0
  /-- [R39, R72] gate_release strobes driven, in order, 21 bits each. Reset: none driven. -/
  released : List (BitVec 21) := []
  /-- [R74] why each HELD tile is held, one bit a reason: 0 mend, 1 mend failed, 2 unbuilt, 3 tier 1, 4 proof copy,
  5 moving between tiers, 6 restore, 7 forced. Reset: none. -/
  holds : FMap (BitVec 8) := []
  /-- [R76] proof copies running, at most 4. Reset: none. -/
  copies : List CopyJob := []
  /-- [R76] proof copies queued, at most 1,024, and after them those that wait for a queue place. Reset: none. -/
  copyQ : List CopyJob := []
  /-- [R426] the 64 most recent corrected lines with the frame of each report, oldest first. Reset: none. -/
  corrected : List (BitVec 31 × BitVec 32) := []
  /-- [Table 2.6] lines queued for rewrite in class M after a correction by scrub. Reset: none. -/
  rewrites : List (BitVec 31) := []
  /-- [R336, R426] lines that a mend has rewritten. Reset: none. -/
  mended : List (BitVec 31) := []
  /-- [R45, Table 2.7] engine reads outstanding: tag and first line. Reset: none. -/
  reads : List (BitVec 10 × BitVec 31) := []
  /-- [R45] lines returned poisoned whose controller report has not come: it is not counted again. Reset: none. -/
  poisoned : List (BitVec 31) := []
  /-- [R253, R440] landing buffer: crumbs not yet whole, and whole ones that wait for the coding array. Reset: empty. -/
  landing : List Landing := []
  /-- [R262] contexts whose share of the crumb pool is in the early-seal stage. Reset: none. -/
  earlySeal : List Nat := []
  /-- [R267] contexts in the hold stage on this slice. Reset: none. -/
  holdStage : List Nat := []
  /-- [R57] slice_pg_en bit. Reset: 0. -/
  gated : Bool := false
  /-- [R440] coding array gated this frame. Reset: 0. -/
  arrayGated : Bool := false
  /-- [R59, Table 2.14] pwr_stack_state, 2 bits. Reset: 00. -/
  stackState : BitVec 2 := 0
  /-- [R59, Table 2.14] pwr_stack_cap, 8 bits. Reset: 0xFF. -/
  stackCap : BitVec 8 := 0xFF
  /-- [R59, Table 2.14] pwr_stack_ack as last seen. Reset: 0. -/
  stackAck : Bool := false
  /-- [R60] therm_stack as last sampled, 10 bits. Reset: 0x200, no reading. -/
  therm : BitVec 10 := 0x200
  /-- [R60] frames the reading has stayed unchanged. Reset: 0. -/
  thermSame : Nat := 0
  /-- [R60, R483] the sensor counts as failed. Reset: 0. -/
  sensorFailed : Bool := false
  /-- [R442, R483] effective temperature of the last frame, 16 bits signed, 0.25 °C. Reset: 0. -/
  effTemp : BitVec 16 := 0
  /-- [R442] EV_THERMAL kind 0 has been raised and the stack has not cooled since. Reset: 0. -/
  thermHot : Bool := false
  /-- [R483] the thermal cap is below 255. Reset: 0. -/
  capped : Bool := false
  /-- [R43] mc_refresh_busy cycles counted in the last frame. Reset: 0. -/
  refresh : Nat := 0
  /-- [R434] lines answered PASS or REDIRECT this frame, any source. Reset: 0. -/
  lines : Nat := 0
  /-- [R435] of those, lines from sources other than 0x0. Reset: 0. -/
  otherLines : Nat := 0
  /-- [R441] a request, of any answer, reached the gate this frame. Reset: 0. -/
  touched : Bool := false
  /-- [R441] consecutive frames without a request. Reset: 0. -/
  quiet : Nat := 0
  /-- [R441] consecutive frames with traffic below a quarter of full rate. Reset: 0. -/
  slow : Nat := 0
  /-- [R441] frames a woken stack is still held at active. Reset: 0. -/
  awake : Nat := 0
  /-- [R494] bytes of class U work queued on the slice. Reset: 0. -/
  uQueued : Nat := 0
  /-- [R124, R494] bytes served this frame, classes U, D, K, M. Reset: 0. -/
  served : List Nat := [0, 0, 0, 0]
  /-- [R494] class U bytes served in the last frame. Reset: 0. -/
  uPrev : Nat := 0
  /-- [R438] bytes that master tiles moved this frame and the elements of those tiles, and the same of the last frame that
  had any. Reset: 0. -/
  mastersNow : Nat × Nat := (0, 0)
  masters : Nat × Nat := (0, 0)
  /-- [R451] parked tiles that a request of sources 0x1 to 0x4 waits for. Reset: none. -/
  outer : List Nat := []
  /-- [R112] bytes charged beyond the last credit. Reset: 0. -/
  debt : Nat := 0
  /-- [R110, R111] the plan's credit and its division. Reset: 0. -/
  grant : Grant := {}
  /-- [R435] power bytes of the plan. Reset: 0. -/
  powerBytes : Nat := 0
  /-- [R424] corrections this frame by unit. Reset: none. -/
  corrNow : FMap Nat := []
  /-- [R428] EV_REMAP_FULL has been raised this frame. Reset: 0. -/
  remapFull : Bool := false
  /-- [R79, R80] a region is held here for coarsening this frame. Reset: 0. -/
  coarsening : Bool := false
deriving DecidableEq, Repr

/-- A crumb record: its descriptor (Table 11.5) and its body, kept unpacked (R246 to R249). -/
structure Crumb where
  delta  : Tile
  planes : BitVec 2 := 0
  len    : Nat := 0
  raw    : Bool := false
  erased : Bool := false
  line   : BitVec 32 := 0
deriving DecidableEq, Repr

/-- The contribution record of a BF16 accumulator tile: step input and q (R224). -/
structure Contrib where
  step : Word
  q    : BitVec 32
deriving DecidableEq, Repr

/-- The map-store entry of a logical tile (Table 6.7, R148), with the values its locators name. -/
structure TileRec where
  /-- [R126] W0 MAP_WORD0, 64 bits. Reset: 0. -/
  word0 : Word := 0
  /-- [R128] the slice of the tile's tier-0 home. -/
  slice : Nat := 0
  /-- [R128] the stack tile of the tile's tier-0 home. -/
  stack : Nat := 0
  /-- [R249] W1 CRUMB_F, the fresh record. Reset: none. -/
  f : Option Crumb := none
  /-- [R249] W2 CRUMB_O, the open base record. Reset: none. -/
  o : Option Crumb := none
  /-- [R249] W3 CRUMB_P, the open pending record. Reset: none. -/
  p : Option Crumb := none
  /-- [R249] W4 CRUMB_S_BASE, the sealed base record. Reset: none. -/
  sb : Option Crumb := none
  /-- [R249] W5 CRUMB_S_PEND, the sealed pending record. Reset: none. -/
  sp : Option Crumb := none
  /-- [R394] W6 EXPORT_REC, the export record. Reset: none. -/
  ex : Option Crumb := none
  /-- [R377] W7 DIRECTORY, 64 bits. Reset: 0. -/
  dir : Word := 0
  /-- [R224] W8, W9 and CONTRIB_VALID: the contribution record. Reset: none. -/
  contrib : Option Contrib := none
  /-- [R226] W9, W10 and BEGIN_VALID: the record as of STEP_BEGIN. Reset: none. -/
  begun : Option Contrib := none
  /-- [R401] W11 TILE_CRC of a restored tile. Reset: none. -/
  crc : Option Word := none
  /-- [R392, R394] W12 EXPORT_COPY. Reset: none. -/
  exCopy : Option Tile := none
  /-- [R297] W13 PROOF_OLD, the copy in the rollback target's generation. Reset: none. -/
  proofOld : Option Tile := none
  /-- [R297] W13 PROOF_NEW, the copy in the sealed generation. Reset: none. -/
  proofNew : Option Tile := none
  /-- [Table 14.4] the proof copy of the target's generation is lost. Reset: 0. -/
  proofLost : Bool := false
  /-- [R297] the tile owes a copy to the newest bake generation. Reset: 0. -/
  owesBake : Bool := false
  /-- [R407] W14 BRANCH_OWED, 64 bits. Reset: 0. -/
  owed : BitVec 64 := 0
  /-- [R391] W15 DIRTY. Reset: 0. -/
  dirty : Bool := false
  /-- [R157] W15 OTHER_CURRENT. Reset: 0. -/
  other : Bool := false
  /-- [R264] W15 ERASED_OPEN. Reset: 0. -/
  erasedOpen : Bool := false
  /-- [R265] W15 ERASED_SEALED. Reset: 0. -/
  erasedSealed : Bool := false
  /-- [Table 14.4] W15 DAMAGED. Reset: 0. -/
  damaged : Bool := false
  /-- [R372] W15 TIER1. Reset: 0. -/
  tier1 : Bool := false
  /-- [R383] W15 PIN0. Reset: 0. -/
  pin0 : Bool := false
  /-- [R383] W15 PIN1. Reset: 0. -/
  pin1 : Bool := false
  /-- [R379, R380] W15 KNEAD_BUSY. Reset: 0. -/
  busy : Bool := false
  /-- [R392] W15 IN_EXPORT. Reset: 0. -/
  inExport : Bool := false
  /-- [R327] W15 UNBUILT. Reset: 0. -/
  unbuilt : Bool := false
  /-- [R74] W15 RETURN, the return state. Reset: NORMAL. -/
  ret : TileState := .normal
  /-- [R74] W15 BASE at 1: the base state is EXEMPT. Reset: 0. -/
  exempt : Bool := false
  /-- [R384] W15 IDLE, 16 bits. Reset: 0. -/
  idle : BitVec 16 := 0
  /-- [R384] an access in the present frame. Reset: 0. -/
  used : Bool := false
deriving DecidableEq, Repr

/-- A change of class that waits for the change seal (R137): the new class, none for a release, and the command
that asked. -/
structure Change where
  goal : Option Cover
  word : Word := 0
  tag  : BitVec 16 := 0
deriving DecidableEq, Repr

/-- A region (R132). -/
structure Region where
  first   : Nat
  count   : Nat
  cls     : Cover
  pgroup  : Byte := 0
  replica : Word := 0
  change  : Option Change := none
deriving DecidableEq, Repr

/-- One of the four pools of a context (Table 6.5): its stack tiles, and whether POOL_SIZE has sized it. -/
structure Pool where
  tiles : List (Nat × Nat) := []
  sized : Bool := false
deriving DecidableEq, Repr

/-- A publish target (Table 7.10, R174): its words, its next version, and the buffer tiles of a local one. -/
structure Target where
  words : List Word
  next  : Word := 1
  buf   : List (Nat × Nat) := []
deriving DecidableEq, Repr

/-- The tallies of saturated elements by group, destination and format (R203). -/
structure Tally where
  group : Byte
  dest  : BitVec 4
  fmt   : BitVec 4
  n     : Nat
deriving DecidableEq, Repr

/-- What the shadow checker found on one sampled tile (R214, R215). -/
structure Shadow where
  tile  : Nat
  elems : Nat
  ulp   : BitVec 32
  group : Byte
deriving DecidableEq, Repr

/-- The step a context has open, awaits or holds (R269 to R283). -/
structure Step where
  num       : Word
  ord       : Nat
  vctr      : BitVec 12
  owner     : BitVec 5
  expected  : BitVec 16
  tag       : BitVec 16
  /-- K0 to K15 of every set group (R160). -/
  consts    : FMap (List (BitVec 32)) := []
  /-- the programs and groups in force at STEP_BEGIN (R158, R162). -/
  progs     : FMap (List (BitVec 32)) := []
  groups    : FMap (List Word) := []
  seed      : Word := 0
  shadowCfg : Word := 0
  /-- master tiles named by a STEP_GRAD_READY of the step (R153). -/
  named     : List Nat := []
  /-- master tiles the step has updated (R157, R341). -/
  updated   : List Nat := []
  /-- STEP_LOSS's loss bits and tag (R271). -/
  loss      : Option Word := none
  lossTag   : Option (BitVec 16) := none
  /-- local finding is overflow (R168). -/
  overflow  : Bool := false
  /-- the MAX on the risk counter has gone out, and its response has come (R288). -/
  riskSent  : Bool := false
  riskDone  : Bool := false
  /-- the ADD of the finding has gone out, and its response has come (R272). -/
  sent      : Bool := false
  addBack   : Bool := false
  /-- the owner has written FINAL (R274). -/
  decided   : Bool := false
  /-- the verdict counter's value with FINAL set, once read (R274). -/
  final     : Option Word := none
  held      : Bool := false
  /-- a cancel has reached the step: the tag of the CANCEL_TAG, or none for CANCEL_CONTEXT (R282). -/
  cancel    : Option (Option (BitVec 16)) := none
  marked    : Bool := false
  /-- the step's unrise has been done and its final reply is due (R279). -/
  unrisen   : Bool := false
  /-- withdrawn before FINAL was read: the next STEP_BEGIN waits for FINAL (R283). -/
  awaitOnly : Bool := false
  tallies   : List Tally := []
  mxClip    : Nat := 0
  shadows   : List Shadow := []
deriving DecidableEq, Repr

/-- A group configuration (Table 4.4, Table 11.2). -/
structure GroupCfg where
  n       : Nat
  k       : Nat
  m       : Nat
  safe    : Bool
  own     : BitVec 5
  members : BitVec 32
  root    : BitVec 5
  bakeCtr : BitVec 12
  opA     : Word
  word    : Word
deriving DecidableEq, Repr

/-- What a member's join record says of one region: class and tile count (R240). -/
structure RegionRec where
  region : Nat
  cls    : Cover
  tiles  : Nat
deriving DecidableEq, Repr

/-- A member's record in a join broadcast (Table 15.6). -/
structure JoinRec where
  position : BitVec 5
  opA      : Word
  word     : Word
  regions  : List RegionRec
deriving DecidableEq, Repr

/-- One home of a crust loaf: the values of its valid tiles by offset (R257). -/
abbrev Home := FMap Tile

/-- A crust loaf that the member keeps (R257). -/
structure Crust where
  pointer : Bool := false
  limbo   : Bool := false
  touched : Bool := false
  h0      : Home := []
  h1      : Home := []
  /-- applied masks by offset, one bit a data slot (R254). -/
  applied : FMap (BitVec 32) := []
  /-- slots whose crumb at the offset carried ERASED (R266). -/
  erased  : FMap (BitVec 32) := []
  /-- the same of the bake last committed here, and of the one before it, to which a revert returns (R260, R318). -/
  erasedC : FMap (BitVec 32) := []
  erasedB : FMap (BitVec 32) := []
  unbuilt : Bool := false
deriving DecidableEq, Repr

/-- A broadcast that this node has seen or started (R368). -/
structure Bcast where
  kind     : Byte
  orig     : BitVec 5
  gen      : BitVec 32
  parent   : Option (BitVec 5)
  /-- children still awaited. -/
  awaiting : List (BitVec 5) := []
  mask     : BitVec 32 := 0
  records  : List JoinRec := []
  /-- children that have been reached. -/
  kids     : List (BitVec 5) := []
  upSent   : Bool := false
  phase2   : Bool := false
deriving DecidableEq, Repr

/-- The records a seal keeps with its bake (R294). -/
structure BakeRec where
  step    : Word
  e       : BitVec 8
  g       : BitVec 32
  c       : BitVec 32
  seed    : Word
  contrib : FMap Contrib := []
  verBit  : Bool := false
  erased  : List Nat := []
deriving DecidableEq, Repr

/-- Bakes and cadence of a context (file 13). -/
structure Bake where
  /-- [R286] rollback target: last job-wide committed bake, 32 bits. Reset: 0. -/
  committed : BitVec 32 := 0
  /-- [R285] sealed bake not yet committed job-wide, 32 bits, 0 none. Reset: 0. -/
  sealed : BitVec 32 := 0
  /-- [R294] records of the target and of the sealed bake, by bake number. Reset: none. -/
  recs : FMap BakeRec := []
  /-- [R290] step of the last seal not abandoned. Reset: 0. -/
  sLast : Word := 0
  /-- [R287] cadence words in force and those that govern from the next STEP_BEGIN. Reset: Table 13.1. -/
  cadence : List Word := [0x0004000800100020, 0x0001000100010002]
  cadenceNext : List Word := [0x0004000800100020, 0x0001000100010002]
  /-- [R287] first risk counter and its owner, once CADENCE_SET gave one. Reset: none. -/
  risk : Option (BitVec 12 × BitVec 5) := none
  riskNext : Option (BitVec 12 × BitVec 5) := none
  /-- [R288] levels read, by step ordinal. Reset: none. -/
  levels : FMap (BitVec 3) := []
  /-- [R293] tags of pending BAKE_SEAL_NOW commands, each with the next step's ordinal at admission. Reset: none. -/
  sealNow : List (BitVec 16 × Nat) := []
  /-- [R290] a seal is due after this step, its level and interval, until BAKE_SEAL takes it. Reset: none. -/
  due : Option Word := none
  /-- [R293] ordinal of the step after which the seal is due. Reset: 0. -/
  dueOrd : Nat := 0
  /-- [R305] level used at the last decision. Reset: 0. -/
  lastLevel : BitVec 3 := 0
  /-- [R305] interval used at the last decision. Reset: 0. -/
  lastInterval : BitVec 16 := 0
  /-- [R292] a due seal has been deferred. Reset: 0. -/
  deferred : Bool := false
  /-- [R290] BAKE_JOBWIDE was admitted after the STEP_BEGIN of the step in progress. Reset: 0. -/
  jobSinceBegin : Bool := false
  /-- [R308, R404] the next seal contributes full values of every covered tile. Reset: 0. -/
  full : Bool := false
  /-- [R404] a full-value seal is due at the first clean step begun after RESTORE_COMMIT. Reset: 0. -/
  restoreDue : Bool := false
  /-- [R252] covered tiles of the sealed bake not yet shipped. Reset: none. -/
  toShip : List Nat := []
  /-- [R252] keepers that have their crumb of a tile still to ship to others. Reset: none. -/
  part : FMap (List Nat) := []
  /-- [R138, R308] tiles that contribute full values to the sealed bake. Reset: none. -/
  fullTiles : List Nat := []
  /-- [R138] regions as they were before the change seal of the sealed bake, until its job-wide commit. Reset: none. -/
  leaving : FMap Region := []
  /-- [R139] every region that the change seal of the sealed bake changed, as it was before. Reset: none. -/
  was : FMap Region := []
  /-- [R256] crumbs of the sealed bake shipped to each keeper. Reset: none. -/
  shipped : FMap Nat := []
  /-- [R256] keepers whose seal notice has been sent. Reset: none. -/
  noticed : List Nat := []
  /-- [R265] batches whose keepers get no notice, for an undecodable tile. Reset: none. -/
  blocked : List (BitVec 32) := []
  /-- [Table 14.4] the member has stopped shipping the sealed bake. Reset: 0. -/
  stopShip : Bool := false
  /-- [R302] batches committed this frame and not yet added to BAKE_CTR. Reset: 0. -/
  commitAdd : Nat := 0
  /-- [R303] the root's wait has reached the commit total. Reset: 0. -/
  rackDone : Bool := false
deriving DecidableEq, Repr

/-- The group a context has configured and joined (files 11, 15). -/
structure Group where
  /-- [R239] group configuration. Reset: none. -/
  cfg : Option GroupCfg := none
  /-- [R239] the context has joined. Reset: 0. -/
  joined : Bool := false
  /-- [R240] GROUP_JOIN admitted: tag, generation, root. Reset: none. -/
  joining : Option (BitVec 16 × BitVec 32 × Bool) := none
  /-- [R244] the members' region records, exchanged at the join. Reset: none. -/
  recs : List JoinRec := []
  /-- [R257] crust loaves kept, by batch id × 4 + row. Reset: none. -/
  crust : FMap Crust := []
  /-- [R256] notices received for the bake being formed: crumbs shipped, by source. Reset: none. -/
  notices : FMap (BitVec 32) := []
  /-- [R256] crumbs applied for the bake being formed, by source. Reset: none. -/
  applied : FMap Nat := []
  /-- [R258] batches committed for the bake being formed. Reset: none. -/
  committed : List (BitVec 32) := []
  /-- [R313] frame of the first notice of the bake, and sources found missing. Reset: none. -/
  firstNotice : Option (BitVec 32) := none
  missing : List (Nat × Bool) := []
  /-- [R266] EV_MARGIN_REDUCED with cause 0 raised for this bake. Reset: none. -/
  marginRaised : Bool := false
  /-- [R326] stack tiles that hold other members' adoption records. Reset: none. -/
  heldTiles : List (Nat × Nat) := []
  /-- [R321] adopted positions' trays of reach. Reset: none. -/
  reach : FMap Nat := []
  /-- [R327] position adopted by this member. Reset: none. -/
  adopted : Option (BitVec 5) := none
  /-- [R327] adoption in progress: tag, position, survivor, stage, pieces of the record. Reset: none. -/
  adopting : Option (BitVec 16 × BitVec 5 × BitVec 5) := none
  adoptParts : FMap (List Byte) := []
  adoptReached : Bool := false
  /-- [R368] last broadcast seen of each kind and originator. Reset: none. -/
  bcasts : List Bcast := []
  /-- [R368] adoption notices this member has sent. Reset: 0. -/
  notesSent : Nat := 0
  /-- [R329] REBUILD_START admitted: tag, crust too. Reset: none. -/
  rebuild : Option (BitVec 16 × Bool) := none
  rebuildFrame : BitVec 32 := 0
  rebuiltData : Nat := 0
  rebuiltCrust : Nat := 0
  rebuiltAll : Nat := 0
  demand : Nat := 0
  rebuildData : Bool := false
  rebuildCrust : Bool := false
  rebuildBad : Option Nat := none
deriving DecidableEq, Repr

/-- Group keys of a context (R356 to R359). -/
structure Keys where
  /-- [R356] current key, 128 bits. Reset: none. -/
  cur : Option (BitVec 128) := none
  /-- [R356] next key. Reset: none. -/
  nxt : Option (BitVec 128) := none
  /-- [R358] previous key while its grace runs, and the frame it ends. Reset: none. -/
  prev : Option (BitVec 128 × BitVec 32) := none
  /-- [R356] epoch of the current key, 8 bits. Reset: 0. -/
  epoch : BitVec 8 := 0
  /-- [R359] SEQUENCE of the last tagged transfer sent under the epoch, 56 bits. Reset: 0. -/
  seq : BitVec 56 := 0
deriving DecidableEq, Repr

/-- An entry of the loss ledger (R340). -/
structure Ledger where
  step   : Word
  loss   : Word
  digest : Word
  replay : Option Word := none
deriving DecidableEq, Repr

/-- A move of a tile between tiers, or a far read of it (R374, R379, R380). -/
structure KneadJob where
  /-- 0 demotion, 1 promotion, 2 far read. -/
  kind     : Nat
  /-- who asked: 0 hint, 1 pin, 2 idleness or demand, 3 update, 4 read. -/
  cause    : Nat := 2
  tag      : Option (BitVec 16) := none
  deadline : BitVec 32 := 0
  /-- 0 queued, 1 extent transfers outstanding, 2 directory store outstanding, 3 decoding, 4 value held for its reader. -/
  stage    : Nat := 0
  /-- responses awaited. -/
  left     : Nat := 0
  bad      : Bool := false
  got      : FMap (List Byte) := []
  /-- directory entry of the extent (Table 16.3). -/
  entry    : Word := 0
  value    : Option Tile := none
deriving DecidableEq, Repr

/-- Knead policy and pantry window (Table 16.2). -/
structure Knead where
  /-- [R379, R380] moves and far reads in progress, by logical tile. Reset: none. -/
  jobs : FMap KneadJob := []
  /-- [R376] knead-policy word, 64 bits. Reset: 0. -/
  word : Word := 0
  /-- [R377] the window has been set and its directory not yet initialised. Reset: 0. -/
  fresh : Bool := false
  /-- [R382] EV_KNEAD_FAR raised, and far reads, this frame. Reset: 0. -/
  farRaised : Bool := false
  farNow : Nat := 0
deriving DecidableEq, Repr

/-- The open export and the last complete one (R392 to R397). -/
structure Export where
  /-- [R392] last export id given, 32 bits. Reset: 0. -/
  ids : BitVec 32 := 0
  /-- [R392] open export: id, bake, parent. Reset: none. -/
  open? : Option (BitVec 32 × BitVec 32 × BitVec 32) := none
  /-- [R392] the set X, ascending. Reset: none. -/
  set : List Nat := []
  /-- [R397] tiles of X not yet written. Reset: none. -/
  left : List Nat := []
  /-- [R390] CRCs of tiles written. Reset: none. -/
  crcs : FMap Word := []
  /-- [R397] manifest pieces written. Reset: 0. -/
  pieces : Nat := 0
  /-- [R392] dirty bits the export cleared. Reset: none. -/
  cleared : List Nat := []
  /-- [R394] overtaken: pool that fell short and tiles short, as a detail. Reset: none. -/
  overtaken : Option Nat := none
  /-- [R392, R402] last complete export: id and seal. Reset: none. -/
  last : Option (BitVec 32 × BitVec 256) := none
  /-- [R398] records of the export's bake. Reset: none. -/
  bake : Option BakeRec := none
deriving DecidableEq, Repr

/-- The open restore (R399 to R404). -/
structure Restore where
  ids : BitVec 32 := 0
  open? : Option (BitVec 32 × BitVec 256) := none
  /-- manifest pieces kept, by piece number (R401). -/
  pieces : FMap (List Byte) := []
  passed : Bool := false
  failed : Bool := false
  /-- the context is held for a restore (R399). -/
  holding : Bool := false
  /-- tiles restored, with their CRCs (R403). -/
  tiles : FMap Word := []
  /-- seal recorded by the last RESTORE_COMMIT since CTX_OPEN (R402). -/
  parentSeal : Option (BitVec 256) := none
deriving DecidableEq, Repr

/-- A context (R86). -/
structure Ctx where
  /-- [R86] the context is open. Reset: closed. -/
  isOpen : Bool := false
  /-- [R97] event mask, 16 bits. Reset: 0. -/
  mask : BitVec 16 := 0
  /-- [R211] random-bit mode: EIGHT. Reset: FULL. -/
  eight : Bool := false
  /-- [R220] context seed, 64 bits. Reset: 0. -/
  seed : Word := 0
  /-- [R206] loss-scale exponent, 8 bits signed. Reset: 16 at CTX_OPEN. -/
  e : BitVec 8 := 16
  /-- [R206] growth interval. Reset: 2,000 at CTX_OPEN. -/
  g : BitVec 32 := 2000
  /-- [R206] growth count. Reset: 0. -/
  c : BitVec 32 := 0
  /-- [R157] working-copy version bit. Reset: 0. -/
  verBit : Bool := false
  /-- [R127] map entries N, 32 bits; 0 with no map. Reset: 0. -/
  n : Nat := 0
  /-- [R128] foreign-layout mode of the map. Reset: 0. -/
  foreign : Bool := false
  /-- [R130] the map area: die address, and its stack tiles. Reset: none. -/
  mapAddr : Word := 0
  mapArea : List (Nat × Nat) := []
  /-- [R129] stack tiles of the map store. Reset: none. -/
  store : List (Nat × Nat) := []
  /-- [R148] map-store entries by logical tile. Reset: none. -/
  tiles : FMap TileRec := []
  /-- [R132] regions by number. Reset: none. -/
  regions : FMap Region := []
  /-- [R142] pools. Reset: unsized. -/
  crumb : Pool := {}
  proof : Pool := {}
  crustPool : Pool := {}
  publish : Pool := {}
  /-- [R145] margin floor. Reset: 1. -/
  floor : Nat := 1
  /-- [R142] branch reserve. Reset: 0. -/
  reserve : Nat := 0
  /-- [R162] program slots. Reset: empty. -/
  progs : FMap (List (BitVec 32)) := []
  /-- [R158] parameter groups. Reset: unset. -/
  groups : FMap (List Word) := []
  /-- [R269] the step open, awaited or held. Reset: none. -/
  step : Option Step := none
  /-- [R220] last step begun. Reset: none. -/
  lastStep : Option Word := none
  /-- [R177] last step whose verdict was clean. Reset: none. -/
  lastClean : Option Word := none
  /-- [R275] first verdict counter and owner of the last STEP_BEGIN. Reset: none. -/
  verdictAt : Option (BitVec 12 × BitVec 5) := none
  /-- [R270] ordinal of the next STEP_BEGIN. Reset: 0. -/
  ordinal : Nat := 0
  /-- [R155] master tiles the previous step named, in order. Reset: none. -/
  predicted : List Nat := []
  /-- [R197] sparse faults this frame: count, first tile, kind, index, and the tag of the command whose work the first
  one arose in. Reset: none. -/
  sparse : Option (Nat × Nat × Nat × Nat × BitVec 16) := none
  /-- [R197] EV_SPARSE_FAULT has been raised this frame. Reset: 0. -/
  sparseRaised : Bool := false
  /-- [R262] EV_CRUMB_PRESSURE raised for spill this frame; holds this frame. Reset: 0. -/
  spillRaised : Bool := false
  holdsNow : Nat := 0
  /-- [R174] publish targets. Reset: none. -/
  targets : FMap Target := []
  group : Group := {}
  bake : Bake := {}
  keys : Keys := {}
  /-- [R316] fenced positions, each with the epoch current at the FENCE_MEMBER. Reset: none. -/
  fences : FMap (BitVec 8) := []
  /-- [R340] loss ledger, oldest first. Reset: empty. -/
  ledger : List Ledger := []
  /-- [R343] stopped by a replay mismatch. Reset: 0. -/
  stopped : Bool := false
  knead : Knead := {}
  exp : Export := {}
  rst : Restore := {}
  /-- [R451] what ran this frame: rebuild, replay, stall, useful. Reset: none. -/
  ranRebuild : Bool := false
  ranReplay : Bool := false
  ranStall : Bool := false
  ranUseful : Bool := false
  /-- [R451] highest step begun before the last ROLLBACK or RESTORE_COMMIT. Reset: none. -/
  highStep : Option Word := none
deriving DecidableEq, Repr

/-- A live branch (R406). -/
structure Branch where
  ctx     : BitVec 4
  region  : Nat
  copies  : FMap Tile := []
  /-- proof tiles reserved on each slice (R409). -/
  space   : FMap Nat := []
  damaged : Option Nat := none
deriving DecidableEq, Repr

/-- A reply (Table 4.10). -/
structure Reply where
  tag      : BitVec 16
  status   : BitVec 16
  detail   : BitVec 32
  frame    : BitVec 32
  progress : BitVec 16
  opcode   : Byte
  ctx      : BitVec 4
deriving DecidableEq, Repr

/-- An event (R97). -/
structure Event where
  code    : BitVec 16
  sev     : Byte
  ctx     : Byte
  time    : Word
  payload : BitVec 128
  seq     : BitVec 24
deriving DecidableEq, Repr

/-- A flit that leaves on cmd_tx (R50). -/
inductive Flit where
  | reply (r : Reply)
  | event (e : Event)
deriving DecidableEq, Repr

/-- An admitted command that has not sent its final reply (R89). -/
structure Adm where
  op       : Byte
  c        : Cmd
  /-- false while it waits to begin (R91, R122, R467). -/
  begun    : Bool := false
  /-- expected frame of the last DEFERRED (R90). -/
  deferred : Option (BitVec 32) := none
  /-- units done (R96). -/
  done     : Nat := 0
  /-- tiles or units still to do, in order. -/
  work     : List Nat := []
  /-- progress bound (R21). -/
  bound    : Nat := 0
  /-- frame of admission. -/
  frame    : BitVec 32 := 0
  /-- its miss has been found (R120). -/
  missed   : Bool := false
  /-- first failed tile, or another value the command keeps. -/
  aux      : Option Nat := none
  /-- seed and step input fixed at admission (R220). -/
  seed     : Word := 0
  stepIn   : Word := 0
  /-- the first tile that failed (R310, R334, R338). -/
  bad      : Option Nat := none
  /-- admitted inside an open step (R141). -/
  inStep   : Bool := false
  /-- saturations of work outside a step, counted at its end (R204). -/
  tallies  : List Tally := []
deriving DecidableEq, Repr

/-- The command link (file 04, Table 22.7). -/
structure Link where
  /-- [R480] LYX_CMDQ_BASE [63:12], 64 bits. Reset: 0. -/
  cmdBase : Word := 0
  /-- [R480] LYX_CMDQ_SIZE, 17 bits. Reset: 0, ring disabled. -/
  cmdSize : BitVec 17 := 0
  /-- [R480] LYX_CMDQ_HEAD, 16 bits. Reset: 0. -/
  cmdHead : BitVec 16 := 0
  /-- [R480] LYX_CMDQ_TAIL, 16 bits. Reset: 0. -/
  cmdTail : BitVec 16 := 0
  /-- [R480] LYX_EVQ_BASE [63:12], 64 bits. Reset: 0. -/
  evBase : Word := 0
  /-- [R480] LYX_EVQ_SIZE, 17 bits. Reset: 0, ring disabled. -/
  evSize : BitVec 17 := 0
  /-- [R480] LYX_EVQ_HEAD, 16 bits. Reset: 0. -/
  evHead : BitVec 16 := 0
  /-- [R480] LYX_EVQ_TAIL, 16 bits. Reset: 0. -/
  evTail : BitVec 16 := 0
  /-- [R480] a doorbell written before EV_READY is recorded. Reset: 0. -/
  bell : Bool := false
  /-- [R480] tail up to which slots are fetched, 16 bits. Reset: 0. -/
  fetchTo : BitVec 16 := 0
  /-- [R83] flits produced and not yet in the event ring, oldest first. Reset: none. -/
  outq : List Flit := []
  /-- [R82] slots of the event ring written, 256 bits each. Reset: none. -/
  ring : FMap (BitVec 256) := []
  /-- [R84] next event sequence number, 24 bits. Reset: 0. -/
  evSeq : BitVec 24 := 0
  /-- [R479] EVENT_DROP. Reset: 0. -/
  evDrop : Bool := false
  /-- [R97] engine-wide event mask, 16 bits. Reset: 0. -/
  mask : BitVec 16 := 0
  /-- [R89] admitted commands, oldest first. Reset: none. -/
  admitted : List Adm := []
deriving DecidableEq, Repr

/-- A piece of class D, K or M work waiting for or under a plan (R107). -/
structure Piece where
  id     : Nat
  cls    : Cls
  slice  : Nat
  ctx    : BitVec 4 := 0
  tag    : Option (BitVec 16) := none
  /-- numbers of the tiles it moves, at most 32. -/
  tiles  : List Nat := []
  bytes  : Nat := 0
  born   : BitVec 32 := 0
  aged   : Bool := false
  /-- issued under the plan in force. -/
  issued : Bool := false
  pinned : Option (BitVec 32) := none
deriving DecidableEq, Repr

/-- Frames and plans (file 05). -/
structure Frames where
  /-- [R102] period exponent j, 3 bits. Reset: 3. -/
  j : BitVec 3 := 3
  /-- [R102] frame number, 32 bits. Reset: 0. -/
  frame : BitVec 32 := 0
  /-- [R53, R482] hall time as last sampled, 64 bits. Reset: 0. -/
  tick : Word := 0
  /-- [R53] the engine holds tick lock. Reset: 0. -/
  lock : Bool := false
  /-- [R103] SET_FRAME pending: context, tag, new j, boundary of the switch. Reset: none. -/
  pending : Option (BitVec 4 × BitVec 16 × BitVec 3 × Word) := none
  /-- [R105] a plan is in force and not retired. Reset: none. -/
  planned : Bool := false
  /-- [R107] pieces queued and issued. Reset: none. -/
  pieces : List Piece := []
  nextPiece : Nat := 0
  /-- [R114, R481] shares: D cap, K floor, K cap, M cap, fabric share in percent, age limit in frames.
  Reset: 30, 10, 40, 15, 40, 16. -/
  dCap : BitVec 7 := 30
  kFloor : BitVec 7 := 10
  kCap : BitVec 7 := 40
  mCap : BitVec 7 := 15
  fabShare : BitVec 7 := 40
  ageLimit : BitVec 8 := 16
  /-- [R115] fabric credit of the plan in bytes. Reset: 0. -/
  fabCredit : Nat := 0
  /-- [R116] outbound fabric bytes of the plan by class. Reset: none. -/
  fabUsed : FMap Nat := []
  /-- [R113] classes and levels (2 × class + level) that have moved an aged fabric piece under the plan. Reset: none. -/
  agedOut : List Nat := []
  /-- [R20] frames since the code digest was last checked. Reset: 0. -/
  sinceDigest : Nat := 0
deriving DecidableEq, Repr

/-- What a fabric request or a local wait is for. -/
inductive Why where
  | command | finding | mark | verdict | riskMax | riskRead | commit (n : Nat)
  | probe | crumb (batch : BitVec 32) (tile : Nat) (bake : BitVec 32) | notice | decode (job : Nat) | part
  | bcast (gen : BitVec 32) | record | adopt | store (target : BitVec 4) (v : Word) | flag (target : BitVec 4) (v : Word)
  | demote (tile : Nat) | directory (tile : Nat) | load (tile : Nat) (piece : Nat) | replica (tile : Nat)
deriving DecidableEq, Repr

/-- An outstanding request slot (R353). -/
structure Req where
  peel : Nat
  slot : BitVec 10
  ctx  : BitVec 4
  cls  : Cls
  typ  : Byte
  dst  : BitVec 5
  seq  : BitVec 56
  tag  : BitVec 16 := 0
  why  : Why
  x    : Xfer := {}
deriving DecidableEq, Repr

/-- A request to be sent again under a later plan after RETRY_LATER (R351). -/
structure Retry where
  req : Req
deriving DecidableEq, Repr

/-- A quarantined tag and the frame its quarantine ends (R365). -/
structure Quar where
  peel  : Nat
  slot  : BitVec 10
  until_ : BitVec 32
deriving DecidableEq, Repr

/-- A COMPARE-WAIT of another engine (R363). -/
structure Waiter where
  peel    : Nat
  x       : Xfer
  ctr     : BitVec 12
  operand : Word
deriving DecidableEq, Repr

/-- A COMPARE-WAIT of this engine on its own counter (R493, R274). -/
structure LocalWait where
  ctx     : BitVec 4
  tag     : BitVec 16
  ctr     : BitVec 12
  operand : Word
  why     : Why
deriving DecidableEq, Repr

/-- Why a decode was asked (R321). -/
inductive DecodeFor where
  | mend | rollback | rebuild | crust | drain | exporting | promote
deriving DecidableEq, Repr

/-- A decode request that this member made (R319, R320): one tile offset of a batch as of a bake. -/
structure DecodeJob where
  id      : Nat
  ctx     : BitVec 4
  why     : DecodeFor
  tile    : Nat
  batch   : BitVec 32
  lost    : Nat
  offset  : Nat
  bake    : BitVec 32
  avail   : List Nat := []
  refused : List Nat := []
  tag     : Option (BitVec 16) := none
  cls     : Cls := .d
  parts   : FMap (List Byte) := []
  /-- the request goes out again with the next plan (R319, R322). -/
  again   : Bool := false
deriving DecidableEq, Repr

/-- A sum of decode parts that this member forms as tray head or root (R321). -/
structure PartSum where
  ctx    : BitVec 4
  batch  : BitVec 32
  bake   : BitVec 32
  lost   : Nat
  offset : Nat
  avail  : BitVec 32
  asker  : BitVec 5
  cls    : Cls
  have_  : BitVec 32 := 0
  sum    : Tile := 0
  parts  : FMap (List Byte) := []
  /-- this member's own product is in the sum. -/
  mine   : Bool := false
deriving DecidableEq, Repr

/-- What the engine has seen of one position in one context (R313, R314). -/
structure Sign where
  timeouts : Nat := 0
  nowTimeout : Bool := false
  nowReply : Bool := false
  lost     : Bool := false
  /-- occurrences since the last EV_MEMBER_SUSPECT and the frame of that event, by reason. -/
  occ      : FMap Nat := []
  last     : FMap (BitVec 32) := []
  rejects  : Nat := 0
  authRaised : Bool := false
deriving DecidableEq, Repr

/-- An adoption record held for another member (Table 14.3): pieces by part and index. -/
structure HeldRec where
  parts : FMap (List Byte) := []
deriving DecidableEq, Repr

/-- One peel (R46). -/
structure Peel where
  linkUp : Bool := false
  sat    : BitVec 2 := 0
  /-- [R46] transfers that wait for the link, in order: rack level, class, transfer. Reset: none. -/
  offered : List (Bool × Cls × Xfer) := []
  wake   : List Xfer := []
  late   : Option (BitVec 5 × BitVec 16) := none
  lateNow : Nat := 0
deriving DecidableEq, Repr

/-- The fabric side (file 15). -/
structure Fabric where
  /-- [R46] peels 0 and 1. Reset: link down, not saturated. -/
  peels : FMap Peel := []
  /-- [R348] transfers given to the endpoint, in order: peel, rack level, transfer. Reset: none. -/
  tx : List (Nat × Bool × Xfer) := []
  /-- [R353] request slots outstanding. Reset: none. -/
  reqs : List Req := []
  /-- [R351] requests to be sent again under a later plan. Reset: none. -/
  retries : List Retry := []
  /-- [R365] quarantined tags. Reset: none. -/
  quar : List Quar := []
  /-- [R363] waiters of other engines, at most 512. Reset: none. -/
  waiters : List Waiter := []
  /-- [R493] waits of this engine on its own counters. Reset: none. -/
  locals : List LocalWait := []
  /-- [R320] decode requests of this member. Reset: none. -/
  jobs : List DecodeJob := []
  nextJob : Nat := 0
  /-- [R321] sums formed for others' decodes. Reset: none. -/
  sums : List PartSum := []
  /-- [R314] signs by context × 32 + position. Reset: none. -/
  signs : FMap Sign := []
  /-- [R326] adoption records held, by context × 32 + member. Reset: none. -/
  held : FMap HeldRec := []
  /-- [R450] last 8 positions to complete a barrier, by context. Reset: none. -/
  lateness : FMap (List (BitVec 5)) := []
  /-- [R434] fabric payload bytes sent this frame and in the last one. Reset: 0. -/
  sentNow : Nat := 0
  sentPrev : Nat := 0
  /-- [R441] transfers came in during the last frame, and in this one. Reset: 0. -/
  rxPrev : Bool := false
  rxNow : Bool := false
  /-- [R467] outcomes of requests that wait for the thaw of a guard freeze: the peel, the slot, and the response, or none for a
  timeout. Reset: none. -/
  heldRsp : List (Nat × BitVec 10 × Option Xfer) := []
deriving DecidableEq, Repr

/-- Power manager (file 20). -/
structure Power where
  /-- [R56, Table 2.15] pwr_state_req, 3 bits. Reset: 010. -/
  opReq : BitVec 3 := 2
  /-- [R438] the operating point before the change in progress. Reset: 010. -/
  opOld : BitVec 3 := 2
  /-- [R56] pwr_state_ack. Reset: 0. -/
  opAck : Bool := false
  /-- [R58, R483] ENVELOPE of LYX_POWER_ENVELOPE, 16 bits. Reset: 0. -/
  envelope : BitVec 16 := 0
  /-- [R483] IN_FORCE, 16 bits. Reset: 0. -/
  inForce : BitVec 16 := 0
  /-- [R483] DEMAND, 16 bits. Reset: 0. -/
  demand : BitVec 16 := 0
  /-- [R437] the EV_POWER_CAP condition holds, and frames since the event was raised. Reset: 0. -/
  capped : Bool := false
  capFrames : Nat := 0
  /-- [R437] unconstrained demand of the plan, 16 bits. Reset: 0. -/
  uncapped : Nat := 0
deriving DecidableEq, Repr

/-- Health monitor (file 20). -/
structure Health where
  /-- [R450] health mode, 2 bits. Reset: normal. -/
  mode : BitVec 2 := 0
  /-- [R449] user risk weights, 0 for factory. Reset: 0. -/
  weights : List Byte := [0, 0, 0, 0, 0, 0, 0, 0]
  /-- [R449] user thresholds TH_1 to TH_7; none for factory. Reset: none. -/
  thresholds : Option (List Byte) := none
  /-- [R449] user DECAY_LOG2; 0 for factory. Reset: 0. -/
  decay : BitVec 4 := 0
  /-- [R446] decayed counts a_0 to a_7, 32 bits. Reset: 0. -/
  a : List Nat := [0, 0, 0, 0, 0, 0, 0, 0]
  /-- [R446] events counted this frame, and x_i of the last frame. Reset: 0. -/
  now : List Nat := [0, 0, 0, 0, 0, 0, 0, 0]
  x : List Nat := [0, 0, 0, 0, 0, 0, 0, 0]
  /-- [R447] LYX_RISK_SCORE fields. Reset: 0. -/
  score : BitVec 8 := 0
  raw : BitVec 3 := 0
  thermal : BitVec 8 := 0
  frame : BitVec 32 := 0
  /-- [R448] risk level, 3 bits, and frames with the raw level below it. Reset: 0. -/
  level : BitVec 3 := 0
  below : Nat := 0
  /-- [R448] frame of the last fall of the level. Reset: none. -/
  fellAt : Option (BitVec 32) := none
  /-- [R424] corrections this frame in the units of the whole engine. Reset: none. -/
  corrNow : FMap Nat := []
deriving DecidableEq, Repr

/-- Registers of the window with no other home (file 22). -/
structure Window where
  /-- [R456] LYX_PATCH_ADDR, 64 bits. Reset: 0. -/
  patchAddr : Word := 0
  /-- [R456] LYX_BOOT, 64 bits. Reset: 0. -/
  boot : Word := 0
  /-- [R216] LYX_SHADOW_CFG, 64 bits. Reset: ENABLE 1, RATE_LOG2 12, ULP_MAX 1, REL_LOG2 20. -/
  shadow : Word := 0x14010C01
  /-- [R315] LYX_MEMBER_CFG, 64 bits. Reset: 8, 16, 1,024, 64, 0. -/
  member : Word := 0x0040040000100008
  /-- [R362] LYX_FABRIC_CFG, 64 bits. Reset: 200, 500, 2,000, 4,000. -/
  fabric : Word := 0x0FA007D001F400C8
  /-- [R315, R474] LYX_MEMBER_CFG as the last plan build took it, 64 bits. Reset: as LYX_MEMBER_CFG. -/
  memberNow : Word := 0x0040040000100008
  /-- [R362, R474] LYX_FABRIC_CFG as the last plan build took it, 64 bits. Reset: as LYX_FABRIC_CFG. -/
  fabricNow : Word := 0x0FA007D001F400C8
  /-- [R482] LYX_CTR_SELECT, 64 bits. Reset: 0. -/
  ctrSel : Word := 0
  /-- [R491] LYX_VIEW_SEL, 64 bits. Reset: 0. -/
  viewSel : Word := 0
  /-- [R491] TILE of LYX_TILE_PROBE, 21 bits. Reset: 0. -/
  probe : BitVec 21 := 0
  /-- [R51] cfg_rsp_err of the last access. Reset: 0. -/
  err : Bool := false
  /-- [R445] user trims by index, 16 bits. Reset: 0. -/
  trims : FMap (BitVec 16) := []
deriving DecidableEq, Repr

/-- A management response (Table 2.10): operation, sequence, result and the 64-bit value of its data beats. -/
structure MgtRsp where
  op     : BitVec 4
  seq    : BitVec 4
  result : BitVec 4
  data   : Option Word := none
deriving DecidableEq, Repr

/-- Start-up, resets and the guard (file 21). -/
structure Boot where
  /-- [R31, Table 2.1] the die's main supply is up. Reset: up. -/
  supply : Bool := true
  /-- [R32, Table 2.1] rst_cold_n. Reset: 0. -/
  coldN : Bool := false
  /-- [R454] phase. Reset: FUSE. -/
  phase : Phase := .fuse
  /-- [R469] FAIL_CAUSE, 4 bits. Reset: 0. -/
  failCause : BitVec 4 := 0
  /-- [R459] FAIL_UNIT, 5 bits. Reset: 0. -/
  failUnit : BitVec 5 := 0
  /-- [R455] boot freeze. Reset: 1. -/
  bootFrz : Bool := true
  /-- [R467] guard freeze held. Reset: 0. -/
  guardFrz : Bool := false
  /-- [R22] fault freeze: detail code 1 to 3, 0 none. Reset: 0. -/
  fault : BitVec 2 := 0
  /-- [R458] the present load is a debug load. Reset: 0. -/
  debugLoad : Bool := false
  /-- [R458] DEBUG_IMAGE. Reset: 0. -/
  debugImage : Bool := false
  /-- Phase LOAD has authenticated the image of this start-up (R457, R478). -/
  authed : Bool := false
  /-- [R457] AUTH_SLOT, 2 bits. Reset: 0. -/
  authSlot : BitVec 2 := 0
  /-- [R469] PATCHED. Reset: 0. -/
  patched : Bool := false
  /-- [R457] digest of the authenticated image, 256 bits. Reset: 0. -/
  digest : BitVec 256 := 0
  /-- [R478] VERSION of LYX_FW_VERSION, 32 bits. Reset: 0. -/
  version : BitVec 32 := 0
  /-- [R469] LAST_RESET, 2 bits. Reset: 00. -/
  lastReset : BitVec 2 := 0
  /-- [R54] the 16 fuse pages as read, 1,024 bits each; empty before sensing. Reset: empty. -/
  fuses : List (BitVec 1024) := []
  /-- [R444] calibration fields defaulted. Reset: 0. -/
  defaulted : Nat := 0
  /-- [R52] the last management response. Reset: none. -/
  mgt : Option MgtRsp := none
  /-- [R471] guard counters 0xF00 to 0xF07. Reset: 0. -/
  guardCtr : FMap Word := []
deriving DecidableEq, Repr

/-- A word of the engine's own storage written with chosen check bits: its data and check bits, and the word that its unit
held then, where the model holds the unit's contents (R429). -/
structure RawWord where
  data : Word
  chk  : BitVec 16
  was  : Option Word := none
deriving DecidableEq, Repr

/-- The block's state. -/
structure State where
  /-- commands waiting, first in, first out. Reset: empty. -/
  pending : List Instr := []
  boot : Boot := {}
  win : Window := {}
  link : Link := {}
  frames : Frames := {}
  fab : Fabric := {}
  power : Power := {}
  health : Health := {}
  /-- [R17] stack slices 0 to 23. Reset: each as `Slice` gives. -/
  slices : FMap Slice := []
  /-- [R86] contexts 0 to 15. Reset: closed. -/
  ctxs : FMap Ctx := []
  /-- [R406] live branches 0 to 63. Reset: none. -/
  branches : FMap Branch := []
  /-- [R25] proving counters 0 to 4,095, 64 bits. Reset: 0. -/
  pctr : FMap Word := []
  /-- [R422] poisoned proving counters. Reset: none. -/
  poison : List Nat := []
  /-- [R486] engine counter bank, words 0 to 119. Reset: 0. -/
  engCtr : FMap Word := []
  /-- [R487] slice counter banks, slice × 80 + word. Reset: 0. -/
  slcCtr : FMap Word := []
  /-- [R488] context counter banks, context × 184 + word. Reset: 0. -/
  ctxCtr : FMap Word := []
  /-- [R419, R429] internal words written with chosen check bits and not yet read, by internal word address. Reset: none
  (valid bits clear, R425). -/
  sram : FMap RawWord := []
  /-- [R126, R425, file 02] bytes of the stacks by die address, slice × 2^37 + byte. Reset: none listed. -/
  mem : List Host.Cell := []
  /-- the model's own counter of free values, not the spec's. Reset: 0. -/
  freeIdx : Nat := 0
deriving DecidableEq, Repr

/-- A command that stops the block with a fault: the spec gives none, so there is no such fault. -/
inductive Fault where
deriving DecidableEq, Repr

/-- Why a command has no outcome. -/
inductive Refusal where
  /-- Raised by an arm of exec whose command has no meaning yet: safe. -/
  | notModelled (mnemonic : String)
deriving DecidableEq, Repr

/-- The block in cold reset (R454, R455, Table 21.6): rst_cold_n low, phase FUSE, frozen with cause boot, every
register at its reset value, nothing queued. -/
def State.reset : State := {}

end Sys2Proof.Machine
end

