-- ==== Sys2Proof/Machine/Ops.lean ====
section
/-!
DEFINITION. Machine/Ops.lean: the named operations every command's meaning is built from: reading and updating one slice,
context, tile or counter; the units the fuses leave present; the bytes of the stacks; replies and events; holding and
releasing a stack tile.
-/
namespace Sys2Proof.Machine

/-! ### Parts of the state -/

def State.slice (s : State) (i : Nat) : Slice := mgetD s.slices i {}
def State.modSlice (s : State) (i : Nat) (f : Slice → Slice) : State :=
  { s with slices := mset s.slices i (f (s.slice i)) }
def State.ctx (s : State) (c : Nat) : Ctx := mgetD s.ctxs c {}
def State.modCtx (s : State) (c : Nat) (f : Ctx → Ctx) : State :=
  { s with ctxs := mset s.ctxs c (f (s.ctx c)) }
/-- The member's own position in a context: GROUP_CONFIG gives it (R239). -/
def Ctx.own (x : Ctx) : Nat :=
  match x.group.cfg with
  | some g => g.own.toNat
  | none => Config.homePosition.toNat
def State.tile? (s : State) (c t : Nat) : Option TileRec := mget (s.ctx c).tiles t
def State.tile (s : State) (c t : Nat) : TileRec := (s.tile? c t).getD {}
/-- A tile that the map does not list stays unlisted. -/
def State.modTile (s : State) (c t : Nat) (f : TileRec → TileRec) : State :=
  match s.tile? c t with
  | none => s
  | some r => s.modCtx c fun x => { x with tiles := mset x.tiles t (f r) }
def State.peel (s : State) (p : Nat) : Peel := mgetD s.fab.peels p {}
def State.modPeel (s : State) (p : Nat) (f : Peel → Peel) : State :=
  { s with fab := { s.fab with peels := mset s.fab.peels p (f (s.peel p)) } }

/-- Counters of the engine bank (R486), of a slice bank (R487) and of a context bank (R488). They wrap modulo 2^64. -/
def State.count (s : State) (w : Nat) (n : Nat := 1) : State :=
  if n = 0 then s else { s with engCtr := mset s.engCtr w (mgetD s.engCtr w 0 + BitVec.ofNat 64 n) }
def State.countSlice (s : State) (i b : Nat) (n : Nat := 1) : State :=
  if n = 0 then s else { s with slcCtr := mset s.slcCtr (i * 80 + b) (mgetD s.slcCtr (i * 80 + b) 0 + BitVec.ofNat 64 n) }
def State.countCtx (s : State) (c k : Nat) (n : Nat := 1) : State :=
  if n = 0 then s else { s with ctxCtr := mset s.ctxCtr (c * 184 + k) (mgetD s.ctxCtr (c * 184 + k) 0 + BitVec.ofNat 64 n) }
/-- A row marked *value* of a context bank (R484): `n` itself, or the peak so far. -/
def State.setCtxValue (s : State) (c k n : Nat) : State := { s with ctxCtr := mset s.ctxCtr (c * 184 + k) (BitVec.ofNat 64 n) }
def State.peakCtx (s : State) (c k n : Nat) : State :=
  if n > (mgetD s.ctxCtr (c * 184 + k) 0).toNat then s.setCtxValue c k n else s
/-- Peel block of the engine bank: words 32 to 55 and 56 to 79 (R486). -/
def State.countPeel (s : State) (p off : Nat) (n : Nat := 1) : State := s.count (32 + 24 * p + off) n

/-- Place of a class in a row of four counters. -/
def Cls.idx : Cls → Nat
  | .u => 0 | .d => 1 | .k => 2 | .m => 3
/-- Bytes that work of a class moves through a slice, which is not gated then (R57), and the lines they take (R124, R434). -/
def State.serve (s : State) (i : Nat) (w : Cls) (n : Nat) : State :=
  (s.countSlice i (20 + w.idx) n).modSlice i fun sl =>
    { sl with served := sl.served.set w.idx (sl.served.getD w.idx 0 + n), lines := sl.lines + n / 64, gated := false }
/-- The same for a logical tile's home. -/
def State.serveTile (s : State) (c t : Nat) (w : Cls) (n : Nat := 65536) : State := s.serve (s.tile c t).slice w n

/-! ### Bits and fields -/

/-- Bits [lo + w − 1 : lo] of a word, as a number. -/
def fld {n : Nat} (x : BitVec n) (lo w : Nat) : Nat := (x.toNat >>> lo) % 2 ^ w
/-- The word whose fields are given as (lowest bit, value); the values fit. -/
def pack {n : Nat} (fs : List (Nat × Nat)) : BitVec n := BitVec.ofNat n (fs.foldl (fun a f => a ||| (f.2 <<< f.1)) 0)
def bit (b : Bool) : Nat := if b then 1 else 0
/-- Signed value of a field. -/
def signed (w n : Nat) : Int := (BitVec.ofNat w n).toInt
/-- `n` modulo `2 ^ w`. -/
def low (w n : Nat) : Nat := n % 2 ^ w
/-- `n`, at most `m`. -/
def sat (m n : Nat) : Nat := min n m

/-- Little-endian number of a byte list (R15), and back. -/
def natOfBytes (l : List Byte) : Nat := l.foldr (fun b a => 256 * a + b.toNat) 0
def bytesOfNat : Nat → Nat → List Byte
  | 0, _ => []
  | k + 1, n => BitVec.ofNat 8 n :: bytesOfNat k (n / 256)
def bytesOfWord (w : Word) : List Byte := bytesOfNat 8 w.toNat
def wordAt (l : List Byte) (off : Nat) : Word := BitVec.ofNat 64 (natOfBytes ((l.drop off).take 8))
/-- Exactly `n` bytes: the list cut, or followed by zeros. -/
def padTo (n : Nat) (l : List Byte) : List Byte := (l.take n) ++ List.replicate (n - l.length) 0

/-! ### The units present (R55, R476) -/

def State.page (s : State) (p : Nat) : BitVec 1024 := s.boot.fuses.getD p 0
def State.sensed (s : State) : Bool := !s.boot.fuses.isEmpty
/-- PART of fuse page 0: Rallith-S. -/
def State.partS (s : State) : Bool := (s.page 0).getLsbD 8
def State.fieldLock (s : State) : Bool := (s.page 0).getLsbD 0
def State.slicesOfPart (s : State) : Nat := if s.partS then Config.slicesS else Config.slicesL
def State.present (s : State) (i : Nat) : Bool :=
  s.sensed && decide (i < s.slicesOfPart) && !(s.page 0).getLsbD (16 + i)
/-- Present slices, ascending. -/
def State.presentSlices (s : State) : List Nat := (List.range 24).filter (fun i => s.present i)
/-- Present slice i of R128. -/
def State.presentSlice (s : State) (i : Nat) : Nat := s.presentSlices.getD i 0
def State.hasDensity (s : State) : Bool := s.sensed && !s.partS && !(s.page 0).getLsbD 40
def State.hasKnead (s : State) : Bool := s.sensed && !s.partS && !(s.page 0).getLsbD 41
def State.hasPeel1 (s : State) : Bool := s.sensed && !s.partS && !(s.page 0).getLsbD 42
def State.hasShadow (s : State) : Bool := s.sensed && !(s.page 0).getLsbD 43
def State.peelsPresent (s : State) : Nat := if s.sensed then (if s.hasPeel1 then 2 else 1) else 0

/-! ### Freezes (R467, R22, R455) -/

def State.frozen (s : State) : Bool := s.boot.bootFrz || s.boot.guardFrz || decide (s.boot.fault ≠ 0)
/-- The sequencer serves commands: phase READY and no fault or boot freeze. -/
def State.live (s : State) : Bool := decide (s.boot.phase = .ready) && !s.boot.bootFrz && decide (s.boot.fault = 0)
/-- The sequencer may write gate state and send on the fabric. -/
def State.running (s : State) : Bool := s.live && !s.boot.guardFrz

/-! ### The stacks' bytes -/

/-- What a byte that no cell lists reads as. -/
def memDefault : Byte := 0
def readByte (m : List Host.Cell) (a : Nat) : Byte := ((m.find? (fun c => c.1 == a)).map Prod.snd).getD memDefault
/-- The cells of `l` laid from address `a` on; a byte equal to the default is not listed. -/
def cellsOf (a : Nat) : List Byte → List Host.Cell
  | [] => []
  | b :: l => if b = memDefault then cellsOf (a + 1) l else (a, b) :: cellsOf (a + 1) l
/-- The bytes of `l` written from address `a` on, every other byte kept. -/
def writeMem (m : List Host.Cell) (a : Nat) (l : List Byte) : List Host.Cell :=
  m.filter (fun c => decide (c.1 < a)) ++ cellsOf a l ++ m.filter (fun c => decide (a + l.length ≤ c.1))
/-- `n` bytes from `a` on, of cells in rising order none of which lies below `a`. -/
def takeBytes : Nat → Nat → List Host.Cell → List Byte
  | 0, _, _ => []
  | n + 1, _, [] => List.replicate (n + 1) memDefault
  | n + 1, a, c :: m => if c.1 = a then c.2 :: takeBytes n (a + 1) m else memDefault :: takeBytes n (a + 1) (c :: m)
def readMem (m : List Host.Cell) (a n : Nat) : List Byte := takeBytes n a (m.filter (fun c => decide (a ≤ c.1)))
/-- Strictly rising addresses, and no entry that reads as the default. -/
def Memory.wf : List Host.Cell → Bool
  | [] => true
  | [c] => decide (c.2 ≠ memDefault)
  | c :: d :: m => decide (c.2 ≠ memDefault) && decide (c.1 < d.1) && Memory.wf (d :: m)

/-- Die address of byte 0 of a stack tile (file 04, "Addresses in operands"). -/
def dieAddr (slice tile : Nat) : Nat := slice * 2 ^ 37 + tile * 65536
/-- 64-byte lines of a tile, and the tile of a line (R38). -/
def lineTile (line : Nat) : Nat := line / 1024

def tileOfBytes (l : List Byte) : Tile := BitVec.ofNat 524288 (natOfBytes l)
def bytesOfTile (v : Tile) : List Byte := bytesOfNat 65536 v.toNat
def lineOfBytes (l : List Byte) : LineData := BitVec.ofNat 512 (natOfBytes l)
def bytesOfLine (v : LineData) : List Byte := bytesOfNat 64 v.toNat

/-- Spare lines in force that name a line of a stack tile: remap index and line (R66). -/
def Slice.remapsOf (sl : Slice) (tile : Nat) : List (Nat × Nat) :=
  (sl.remap.filter (fun e => lineTile e.2.toNat == tile)).map (fun e => (e.1, e.2.toNat))
def Slice.remapOf (sl : Slice) (line : Nat) : Option Nat := (sl.remap.find? (fun e => e.2.toNat == line)).map Prod.fst
def Slice.spareLine (sl : Slice) (i : Nat) : LineData := mgetD sl.spare i 0

/-- Bytes of the stacks through the engine's port: a remapped line is read from its spare line (R68 row 4). The
range lies in one stack tile. -/
def State.readBytes (s : State) (slice byte n : Nat) : List Byte :=
  let sl := s.slice slice
  let raw := readMem s.mem (slice * 2 ^ 37 + byte) n
  match sl.remapsOf (byte / 65536) with
  | [] => raw
  | rs => rs.foldl (fun l r =>
      let base := r.2 * 64
      let sp := bytesOfLine (sl.spareLine r.1)
      (List.range n).map (fun i =>
        if base ≤ byte + i ∧ byte + i < base + 64 then sp.getD (byte + i - base) 0 else l.getD i 0)) raw

/-- Bytes written through the engine's port (R68 rows 4, 5): bytes of a remapped line go to the spare line. -/
def State.writeBytes (s : State) (slice byte : Nat) (l : List Byte) : State :=
  let sl := s.slice slice
  let old := readMem s.mem (slice * 2 ^ 37 + byte) l.length
  match sl.remapsOf (byte / 65536) with
  | [] => { s with mem := writeMem s.mem (slice * 2 ^ 37 + byte) l }
  | rs =>
    let inside := fun (i : Nat) => rs.any (fun r => decide (r.2 * 64 ≤ byte + i) && decide (byte + i < r.2 * 64 + 64))
    let kept := (List.range l.length).map (fun i => if inside i then old.getD i 0 else l.getD i 0)
    let spare := rs.foldl (fun sp r =>
      let base := r.2 * 64
      let cur := bytesOfLine (mgetD sp r.1 0)
      mset sp r.1 (lineOfBytes ((List.range 64).map (fun i =>
        if byte ≤ base + i ∧ base + i < byte + l.length then l.getD (base + i - byte) 0 else cur.getD i 0)))) sl.spare
    { s.modSlice slice (fun x => { x with spare := spare }) with mem := writeMem s.mem (slice * 2 ^ 37 + byte) kept }

def State.readTile (s : State) (slice tile : Nat) : Tile := tileOfBytes (s.readBytes slice (tile * 65536) 65536)
def State.writeTile (s : State) (slice tile : Nat) (v : Tile) : State := s.writeBytes slice (tile * 65536) (bytesOfTile v)
/-- A logical tile's value at its tier-0 home. -/
def State.homeVal (s : State) (c t : Nat) : Tile := s.readTile (s.tile c t).slice (s.tile c t).stack
def State.setHome (s : State) (c t : Nat) (v : Tile) : State := s.writeTile (s.tile c t).slice (s.tile c t).stack v

/-- Split of a die address: slice and byte in the stack. -/
def addrSlice (a : Nat) : Nat := a / 2 ^ 37
def addrByte (a : Nat) : Nat := a % 2 ^ 37
/-- A die address whose byte lies in a present slice's whole tiles (file 04, R93). -/
def State.validAddr (s : State) (a : Nat) : Bool :=
  decide (a < 2 ^ 42) && s.present (addrSlice a) && decide (addrByte a < Config.stackTiles * Config.tileBytes)
/-- Bytes at a die address that may span tiles of one stack. -/
def State.readDie (s : State) (a n : Nat) : List Byte :=
  let first := addrByte a
  let tiles := (List.range (ceilDiv (first % 65536 + n) 65536)).map (fun i => first / 65536 + i)
  tiles.foldl (fun l t =>
    let lo := max first (t * 65536)
    let hi := min (first + n) ((t + 1) * 65536)
    l ++ s.readBytes (addrSlice a) lo (hi - lo)) []
def State.writeDie (s : State) (a : Nat) (l : List Byte) : State :=
  let first := addrByte a
  let tiles := (List.range (ceilDiv (first % 65536 + l.length) 65536)).map (fun i => first / 65536 + i)
  tiles.foldl (fun s t =>
    let lo := max first (t * 65536)
    let hi := min (first + l.length) ((t + 1) * 65536)
    s.writeBytes (addrSlice a) lo ((l.drop (lo - first)).take (hi - lo))) s

/-! ### Replies and events -/

/-- Free slots of the event ring (R480, R83); none while it is disabled. -/
def ringOk (size : BitVec 17) : Bool :=
  [64, 128, 256, 512, 1024, 2048, 4096, 8192, 16384, 32768, 65536].any (fun n => size.toNat == n)
def Link.evFree (l : Link) : Nat :=
  if ringOk l.evSize then
    l.evSize.toNat - 1 - (l.evTail.toNat + l.evSize.toNat - l.evHead.toNat % l.evSize.toNat) % l.evSize.toNat
  else 0
def Flit.isEvent : Flit → Bool
  | .event _ => true
  | .reply _ => false
/-- Events that wait in the 64-entry queue: those behind the flits that the ring can take (R83). -/
def Link.evWaiting (l : Link) : Nat := ((l.outq.drop l.evFree).filter Flit.isEvent).length

/-- Payload of an event: (byte offset, value) pairs (R97). -/
def payload (fs : List (Nat × Nat)) : BitVec 128 := pack (fs.map (fun f => (8 * f.1, f.2)))

/-- Raise an event (R83, R84, R97, R22): nothing leaves before EV_READY or after a check of Table 1.2 has fired; the
masks suppress severities 0 to 2; an event that finds the queue full is dropped, its sequence number spent. -/
def State.emit (s : State) (code : Nat) (sev : Nat) (ctx : Option Nat) (pl : List (Nat × Nat)) : State :=
  if !s.live then s
  else
    let g := code / 16 % 16
    let masked := decide (sev ≤ 2) && (s.link.mask.getLsbD g ||
      (match ctx with | some c => (s.ctx c).mask.getLsbD g | none => false))
    if masked then s.count 27
    else
      let e : Event := ⟨BitVec.ofNat 16 code, BitVec.ofNat 8 sev, BitVec.ofNat 8 (ctx.getD 0xFF), s.frames.tick,
        payload pl, s.link.evSeq⟩
      if s.link.evWaiting ≥ Config.eventQueueMax then
        { s.count 26 with link := { s.link with evSeq := s.link.evSeq + 1, evDrop := true } }
      else { s with link := { s.link with evSeq := s.link.evSeq + 1, outq := s.link.outq ++ [.event e] } }

/-- ⌈tiles done / 64⌉, saturating (R96). -/
def progressOf (n : Nat) : BitVec 16 := BitVec.ofNat 16 (sat 0xFFFF (ceilDiv n 64))

/-- Produce a reply (Table 4.10). -/
def State.reply (s : State) (op : Byte) (ctx : Nat) (tag : BitVec 16) (status detail : Nat) (done : Nat := 0) : State :=
  if !s.live then s
  else
    let r : Reply := { tag := tag, status := BitVec.ofNat 16 status, detail := BitVec.ofNat 32 detail,
                       frame := s.frames.frame, progress := progressOf done, opcode := op, ctx := BitVec.ofNat 4 ctx }
    { s with link := { s.link with outq := s.link.outq ++ [.reply r] } }

/-- Is this the admitted command with a context and a tag? -/
def Adm.isAt (ctx : Nat) (tag : BitVec 16) (a : Adm) : Bool := a.c.ctx.toNat == ctx && a.c.tag == tag
def State.adm? (s : State) (ctx : Nat) (tag : BitVec 16) : Option Adm := s.link.admitted.find? (Adm.isAt ctx tag)
def State.modAdm (s : State) (ctx : Nat) (tag : BitVec 16) (f : Adm → Adm) : State :=
  { s with link := { s.link with admitted := replaceFirst (Adm.isAt ctx tag) f s.link.admitted } }
/-- An admitted command leaves, its final reply produced (R88 to R90). -/
def State.settle (s : State) (ctx : Nat) (tag : BitVec 16) (status detail : Nat) : State :=
  match s.adm? ctx tag with
  | none => s
  | some a =>
    let s := s.reply a.op ctx tag status detail a.done
    { s with link := { s.link with admitted := dropFirst (Adm.isAt ctx tag) s.link.admitted } }
/-- A cancel command of the context that still waits for a command's final reply: it notes it, and whether the command
was cancelled. -/
def Adm.note (ctx : Nat) (tag : BitVec 16) (status : Nat) (a : Adm) : Adm :=
  if (a.op == 0xF0 || a.op == 0xF1) && a.c.ctx.toNat == ctx && a.work.contains tag.toNat then
    { a with work := a.work.erase tag.toNat, aux := some ((a.aux.getD 0) + if status = 0x0700 then 1 else 0) }
  else a
/-- The final reply of an admitted command. A cancel completes after the last final reply it caused (R99, R100). -/
def State.finish (s : State) (ctx : Nat) (tag : BitVec 16) (status detail : Nat) : State :=
  if (s.adm? ctx tag).isNone then s
  else
    let waiting := (s.link.admitted.filter (fun a =>
      (a.op == 0xF0 || a.op == 0xF1) && a.c.ctx.toNat == ctx && a.work == [tag.toNat])).map (fun a => a.c.tag)
    let s := s.settle ctx tag status detail
    let s := { s with link := { s.link with admitted := s.link.admitted.map (Adm.note ctx tag status) } }
    waiting.foldl (fun s g =>
      match s.adm? ctx g with
      | some a => s.settle ctx g 0 (if a.op = 0xF0 then min 1 (a.aux.getD 0) else a.aux.getD 0)
      | none => s) s
/-- Commands admitted in a context; a cancel command does not count (R89). -/
def Adm.counts (a : Adm) : Bool := a.op != 0xF0 && a.op != 0xF1
def State.admittedIn (s : State) (ctx : Nat) : Nat :=
  (s.link.admitted.filter (fun a => a.c.ctx.toNat == ctx && a.counts)).length
def State.admittedAll (s : State) : Nat := (s.link.admitted.filter Adm.counts).length

/-! ### The bitmap, holds and releases (R62 to R74) -/

def Slice.state (sl : Slice) (t : Nat) : TileState := mgetD sl.bitmap t .normal
/-- A NORMAL tile is not listed. -/
def Slice.setState (sl : Slice) (t : Nat) (st : TileState) : Slice :=
  { sl with bitmap := if st = .normal then merase sl.bitmap t else mset sl.bitmap t st }
def RangeEntry.covers (e : RangeEntry) (t : Nat) : Bool := decide (e.first ≤ t) && decide (t ≤ e.last)
/-- A HOLD_REGION entry covers the tile; a draining one covers only parked tiles, or its whole range while the
overflow flag governs (R64, R72). -/
def Slice.regionHeld (sl : Slice) (t : Nat) : Bool :=
  sl.ranges.any (fun e => e.2.kind == 2 && e.2.covers t && (!e.2.draining || sl.overflow || sl.parked.contains t))
def Slice.protected (sl : Slice) (t : Nat) : Bool := sl.ranges.any (fun e => e.2.kind == 1 && e.2.covers t)
/-- Drive the release strobe of a tile that has cleared (R71 to R73). -/
def Slice.release (sl : Slice) (t : Nat) : Slice :=
  if sl.parked.contains t || sl.overflow then
    { sl with parked := sl.parked.erase t, released := sl.released ++ [BitVec.ofNat 21 t] }
  else sl
/-- A tile clears when it leaves HELD and no HOLD_REGION entry covers it (R72). -/
def Slice.settle (sl : Slice) (t : Nat) : Slice :=
  if sl.state t = .held || sl.regionHeld t then sl else sl.release t
/-- Record a tile for which HOLD has been answered; a full set is an overflow (R71, R73). -/
def Slice.park (sl : Slice) (t : Nat) : Slice × Bool :=
  if sl.parked.contains t then (sl, false)
  else if sl.parked.length ≥ Config.parkedMax then ({ sl with overflow := true }, true)
  else ({ sl with parked := insertAsc sl.parked t }, false)

/-- The context and logical tile that a stack tile is the home of. -/
def State.owner (s : State) (slice tile : Nat) : Option (Nat × Nat) :=
  s.ctxs.findSome? fun e =>
    (e.2.tiles.find? (fun r => r.2.slice == slice && r.2.stack == tile)).map (fun r => (e.1, r.1))

/-- Reasons of a hold (R74): bits of `Slice.holds`. -/
inductive HoldWhy where
  | mend | mendFailed | unbuilt | tier1 | copy | moving | restore | forced
deriving DecidableEq, Repr
def HoldWhy.bit : HoldWhy → Nat
  | .mend => 0 | .mendFailed => 1 | .unbuilt => 2 | .tier1 => 3 | .copy => 4 | .moving => 5 | .restore => 6 | .forced => 7

def Slice.heldFor (sl : Slice) (t : Nat) (w : HoldWhy) : Bool := (mgetD sl.holds t 0).getLsbD w.bit
/-- Hold a tile for a reason: it shows HELD. -/
def Slice.hold (sl : Slice) (t : Nat) (w : HoldWhy) : Slice :=
  { sl.setState t .held with holds := mset sl.holds t (mgetD sl.holds t 0 ||| BitVec.ofNat 8 (2 ^ w.bit)) }
/-- End one reason of a hold; with the last one the tile takes its return state and is released. -/
def Slice.unhold (sl : Slice) (t : Nat) (w : HoldWhy) (ret : TileState) : Slice :=
  let b := mgetD sl.holds t 0 &&& ~~~(BitVec.ofNat 8 (2 ^ w.bit))
  if b = 0 then ({ sl with holds := merase sl.holds t }.setState t ret).settle t
  else { sl with holds := mset sl.holds t b }

/-- The base state of a tile and its return state (R74). -/
def TileRec.base (r : TileRec) : TileState := if r.exempt then .exempt else .normal
def State.returnState (s : State) (slice tile : Nat) : TileState :=
  match s.owner slice tile with
  | some (c, t) => (s.tile c t).ret
  | none => .normal
def State.hold (s : State) (slice tile : Nat) (w : HoldWhy) : State := s.modSlice slice (fun sl => sl.hold tile w)
def State.unhold (s : State) (slice tile : Nat) (w : HoldWhy) : State :=
  if (s.slice slice).heldFor tile w then
    s.modSlice slice (fun sl => sl.unhold tile w (s.returnState slice tile))
  else s
def State.holdTile (s : State) (c t : Nat) (w : HoldWhy) : State := s.hold (s.tile c t).slice (s.tile c t).stack w
def State.unholdTile (s : State) (c t : Nat) (w : HoldWhy) : State := s.unhold (s.tile c t).slice (s.tile c t).stack w
def State.heldFor (s : State) (c t : Nat) (w : HoldWhy) : Bool :=
  (s.slice (s.tile c t).slice).heldFor (s.tile c t).stack w

/-- Set the state that a tile shows, or will show when its hold ends (R74). -/
def State.setReturn (s : State) (c t : Nat) (st : TileState) : State :=
  let r := s.tile c t
  let s := s.modTile c t (fun r => { r with ret := st })
  if (s.slice r.slice).state r.stack = .held then s
  else s.modSlice r.slice (fun sl => (sl.setState r.stack st).settle r.stack)
def State.trap (s : State) (c t : Nat) : State := s.setReturn c t .trapped
/-- The tile owes no proof copy any more. -/
def State.untrap (s : State) (c t : Nat) : State :=
  if (s.tile c t).ret = .trapped then s.setReturn c t (s.tile c t).base else s

/-! ### The stopped clock (R439), tick lock and free values -/

/-- The engine clock is stopped, or still waking (R439). -/
def State.stopped (s : State) : Bool :=
  decide (s.power.opReq = 3) || (decide (s.power.opOld = 3) && !s.power.opAck)
/-- Ask for 0.55 GHz outside the plan (R439). -/
def State.wake (s : State) : State :=
  if s.power.opReq = 3 then
    { (s.count 97) with power := { s.power with opReq := 2, opOld := 3, opAck := false } }
  else s

/-- The engine issues work that moves tile data: it holds tick lock (R122). -/
def State.locked (s : State) : Bool := s.frames.lock
/-- The next free value, and the state with the counter advanced. -/
def State.free (s : State) : BitVec 32 × State := (Config.freeValue s.freeIdx, { s with freeIdx := s.freeIdx + 1 })
def State.freeTile (s : State) : Tile × State := (Config.freeTile s.freeIdx, { s with freeIdx := s.freeIdx + 1 })

/-- Apply an update for each element of a list, in order. -/
def State.each {α : Type} (s : State) (l : List α) (f : State → α → State) : State := l.foldl f s

end Sys2Proof.Machine
end

