-- ==== Sys2Proof/Machine/Copies.lean ====
section
/-!
DEFINITION. Machine/Copies.lean: the proof copies that a tile owes to the newest bake generation and to live branches (R75, R297,
R299, R407, R408), and writes through the engine's own port, which make them first.
-/
namespace Sys2Proof.Machine

/-- The tile owes a proof copy to a bake generation or to a live branch (R297, R407). -/
def TileRec.owes (r : TileRec) : Bool := r.owesBake || decide (r.owed ≠ 0)
/-- Branches that the tile owes a copy to. -/
def TileRec.owedBranches (r : TileRec) : List Nat := (List.range 64).filter (fun b => r.owed.getLsbD b)
def State.modBranch (s : State) (b : Nat) (f : Branch → Branch) : State :=
  match mget s.branches b with
  | none => s
  | some x => { s with branches := mset s.branches b (f x) }
/-- Copies held in a generation: the sealed bake's, or the rollback target's. -/
def Ctx.copiesIn (x : Ctx) (newer : Bool) : Nat :=
  (x.tiles.filter (fun e => if newer then e.2.proofNew.isSome else e.2.proofOld.isSome)).length
/-- The copy for the newest generation: the sealed bake's, else the rollback target's. -/
def State.bakeCopy (s : State) (c t : Nat) (v : Tile) : State :=
  if !(s.tile c t).owesBake then s
  else
    let newer := decide ((s.ctx c).bake.sealed ≠ 0)
    let s := s.modTile c t (fun r =>
      if newer then { r with proofNew := some v, owesBake := false } else { r with proofOld := some v, owesBake := false })
    (s.countCtx c 55).peakCtx c 56 ((s.ctx c).copiesIn newer)
/-- Every copy a tile owes, from one read of its value; it is trapped no more (R75). -/
def State.makeCopies (s : State) (c t : Nat) : State :=
  if !(s.tile c t).owes then s
  else
    let v := s.homeVal c t
    let bs := (s.tile c t).owedBranches
    let s := s.bakeCopy c t v
    let s := s.each bs (fun s b => (s.modBranch b (fun x => { x with copies := mset x.copies t v })).countCtx c 128)
    (s.modTile c t (fun r => { r with owed := 0 })).untrap c t
/-- A write of a whole tile through the engine's own port (R299, R408). -/
def State.portWrite (s : State) (c t : Nat) (v : Tile) : State :=
  (s.makeCopies c t).setHome c t v
/-- A write of part of a tile through the engine's own port. -/
def State.portBytes (s : State) (c t lo : Nat) (l : List Byte) : State :=
  let r := s.tile c t
  (s.makeCopies c t).writeBytes r.slice (r.stack * 65536 + lo) l
/-- Bytes at a die address written through the engine's own port. -/
def State.portDie (s : State) (a : Nat) (l : List Byte) : State :=
  let tiles := (List.range (ceilDiv (addrByte a % 65536 + l.length) 65536)).map (fun i => addrByte a / 65536 + i)
  (s.each tiles (fun s t =>
    match s.owner (addrSlice a) t with
    | some (c, l) => s.makeCopies c l
    | none => s)).writeDie a l

end Sys2Proof.Machine
end

