-- ==== Sys2Proof/Machine/Hash.lean ====
section
/-!
DEFINITION. Machine/Hash.lean: the checks and digests the manual names by their standards: the CRC-64 of R389, the digest
tree of R390, SHA-256 (FIPS 180-4), and AES-GMAC with a 128-bit key (NIST SP 800-38D, R359).
-/
namespace Sys2Proof.Machine

/-! ### CRC-64, unreflected, polynomial 0x42F0_E1EB_A9EA_3693 -/

def crcShift : Nat → Word → Word
  | 0, x => x
  | n + 1, x => crcShift n (if x.getLsbD 63 then (x <<< 1) ^^^ 0x42F0E1EBA9EA3693#64 else x <<< 1)
def crcByte (x : Word) (b : Byte) : Word := crcShift 8 (x ^^^ ((b.setWidth 64) <<< 56))
def crc64 (l : List Byte) : Word := l.foldl crcByte 0
/-- The CRC of a tile (R389). -/
def tileCrc (v : Tile) : Word := crc64 (bytesOfTile v)
/-- A node of the digest tree (R390). -/
def crcPair (a b : Word) : Word := crc64 (bytesOfWord a ++ bytesOfWord b)

/-! ### The pairwise tree (Table 10.3) -/

/-- One level: neighbours joined, an odd last one carried up. -/
def pairLevel {α : Type} (f : α → α → α) : List α → List α
  | a :: b :: l => f a b :: pairLevel f l
  | l => l
/-- Levels until one value is left. -/
def pairTree {α : Type} (f : α → α → α) (d : α) : Nat → List α → α
  | 0, l => l.headD d
  | _ + 1, [] => d
  | _ + 1, [a] => a
  | n + 1, l => pairTree f d n (pairLevel f l)
/-- The digest over a set of tile CRCs, in ascending logical order (R390). -/
def digestOf (l : List Word) : Word := pairTree crcPair 0 l.length l

/-! ### SHA-256 -/

def shaK : List Nat :=
  [0x428a2f98, 0x71374491, 0xb5c0fbcf, 0xe9b5dba5, 0x3956c25b, 0x59f111f1, 0x923f82a4, 0xab1c5ed5,
   0xd807aa98, 0x12835b01, 0x243185be, 0x550c7dc3, 0x72be5d74, 0x80deb1fe, 0x9bdc06a7, 0xc19bf174]
  ++ [0xe49b69c1, 0xefbe4786, 0x0fc19dc6, 0x240ca1cc, 0x2de92c6f, 0x4a7484aa, 0x5cb0a9dc, 0x76f988da,
   0x983e5152, 0xa831c66d, 0xb00327c8, 0xbf597fc7, 0xc6e00bf3, 0xd5a79147, 0x06ca6351, 0x14292967]
  ++ [0x27b70a85, 0x2e1b2138, 0x4d2c6dfc, 0x53380d13, 0x650a7354, 0x766a0abb, 0x81c2c92e, 0x92722c85,
   0xa2bfe8a1, 0xa81a664b, 0xc24b8b70, 0xc76c51a3, 0xd192e819, 0xd6990624, 0xf40e3585, 0x106aa070]
  ++ [0x19a4c116, 0x1e376c08, 0x2748774c, 0x34b0bcb5, 0x391c0cb3, 0x4ed8aa4a, 0x5b9cca4f, 0x682e6ff3,
   0x748f82ee, 0x78a5636f, 0x84c87814, 0x8cc70208, 0x90befffa, 0xa4506ceb, 0xbef9a3f7, 0xc67178f2]
def shaInit : List (BitVec 32) :=
  [0x6a09e667#32, 0xbb67ae85#32, 0x3c6ef372#32, 0xa54ff53a#32, 0x510e527f#32, 0x9b05688c#32, 0x1f83d9ab#32, 0x5be0cd19#32]

def rotr (x : BitVec 32) (n : Nat) : BitVec 32 := x.rotateRight n
def shaPad (l : List Byte) : List Byte :=
  let z := (119 - l.length % 64) % 64
  l ++ [0x80] ++ List.replicate z 0 ++ (bytesOfNat 8 (8 * l.length)).reverse
def be32 (l : List Byte) : BitVec 32 := BitVec.ofNat 32 (natOfBytes (l.take 4).reverse)
/-- The 64 schedule words, newest first. -/
def shaSched : Nat → List (BitVec 32) → List (BitVec 32)
  | 0, w => w
  | n + 1, w =>
    let a := w.getD 14 0
    let b := w.getD 1 0
    let s0 := rotr a 7 ^^^ rotr a 18 ^^^ (a >>> 3)
    let s1 := rotr b 17 ^^^ rotr b 19 ^^^ (b >>> 10)
    shaSched n ((w.getD 15 0 + s0 + w.getD 6 0 + s1) :: w)
def shaRound (h : List (BitVec 32)) (kw : BitVec 32) : List (BitVec 32) :=
  match h with
  | [a, b, c, d, e, f, g, x] =>
    let s1 := rotr e 6 ^^^ rotr e 11 ^^^ rotr e 25
    let t1 := x + s1 + ((e &&& f) ^^^ (~~~e &&& g)) + kw
    let s0 := rotr a 2 ^^^ rotr a 13 ^^^ rotr a 22
    let t2 := s0 + ((a &&& b) ^^^ (a &&& c) ^^^ (b &&& c))
    [t1 + t2, a, b, c, d + t1, e, f, g]
  | l => l
def shaBlock (h : List (BitVec 32)) (block : List Byte) : List (BitVec 32) :=
  let w0 := ((List.range 16).map (fun i => be32 (block.drop (4 * i)))).reverse
  let ws := (shaSched 48 w0).reverse
  let out := (List.zip shaK ws).foldl (fun h kw => shaRound h (BitVec.ofNat 32 kw.1 + kw.2)) h
  List.zipWith (· + ·) h out
/-- The 32 bytes of the SHA-256 of a byte string. -/
def sha256 (l : List Byte) : List Byte :=
  let p := shaPad l
  let h := (chunks 64 p.length p).foldl shaBlock shaInit
  h.flatMap (fun x => (bytesOfNat 4 x.toNat).reverse)
/-- As a 256-bit value, byte 0 least significant (R15). -/
def sha256Val (l : List Byte) : BitVec 256 := BitVec.ofNat 256 (natOfBytes (sha256 l))

/-! ### AES-128 and GMAC -/

def xtime (x : Byte) : Byte := if x.getLsbD 7 then (x <<< 1) ^^^ 0x1B#8 else x <<< 1
def aesMul : Nat → Byte → Byte → Byte
  | 0, _, _ => 0
  | n + 1, a, b => (if b.getLsbD 0 then a else 0) ^^^ aesMul n (xtime a) (b >>> 1)
def aesPow : Nat → Byte → Byte
  | 0, _ => 1
  | n + 1, a => aesMul 8 a (aesPow n a)
def aesInv (a : Byte) : Byte :=
  let a2 := aesMul 8 a a
  let a4 := aesMul 8 a2 a2
  let a8 := aesMul 8 a4 a4
  let a16 := aesMul 8 a8 a8
  let a32 := aesMul 8 a16 a16
  let a64 := aesMul 8 a32 a32
  let a128 := aesMul 8 a64 a64
  aesMul 8 a2 (aesMul 8 a4 (aesMul 8 a8 (aesMul 8 a16 (aesMul 8 a32 (aesMul 8 a64 a128)))))
def aesSub (a : Byte) : Byte :=
  let b := aesInv a
  b ^^^ b.rotateLeft 1 ^^^ b.rotateLeft 2 ^^^ b.rotateLeft 3 ^^^ b.rotateLeft 4 ^^^ 0x63#8
def xorBytes (a b : List Byte) : List Byte := List.zipWith (· ^^^ ·) a b
/-- Round keys: one from the one before. -/
def aesNextKey (k : List Byte) (rc : Byte) : List Byte :=
  let w := fun i => (k.drop (4 * i)).take 4
  let t := match w 3 with
    | [a, b, c, d] => [aesSub b ^^^ rc, aesSub c, aesSub d, aesSub a]
    | l => l
  let w0 := xorBytes (w 0) t
  let w1 := xorBytes (w 1) w0
  let w2 := xorBytes (w 2) w1
  w0 ++ w1 ++ w2 ++ xorBytes (w 3) w2
def aesKeys : Nat → Byte → List Byte → List (List Byte)
  | 0, _, k => [k]
  | n + 1, rc, k => k :: aesKeys n (xtime rc) (aesNextKey k rc)
def aesShift (s : List Byte) : List Byte := (List.range 16).map (fun i => s.getD ((i + 4 * (i % 4)) % 16) 0)
def aesMixCol (c : List Byte) : List Byte :=
  let g := fun i => c.getD (i % 4) 0
  (List.range 4).map (fun i => xtime (g i) ^^^ (xtime (g (i + 1)) ^^^ g (i + 1)) ^^^ g (i + 2) ^^^ g (i + 3))
def aesMix (s : List Byte) : List Byte := (chunks 4 4 s).flatMap aesMixCol
/-- One block of AES-128. -/
def aes (key block : List Byte) : List Byte :=
  let ks := aesKeys 10 1 key
  let s := xorBytes block (ks.getD 0 [])
  let s := (List.range 9).foldl (fun s i => xorBytes (aesMix (aesShift (s.map aesSub))) (ks.getD (i + 1) [])) s
  xorBytes (aesShift (s.map aesSub)) (ks.getD 10 [])

/-- Product in GF(2^128) of GCM, bit 0 leftmost; `n` bits of `x` are still to go. -/
def ghashMul : Nat → BitVec 128 → BitVec 128 → BitVec 128 → BitVec 128
  | 0, _, _, z => z
  | n + 1, x, v, z =>
    let z := if x.getLsbD n then z ^^^ v else z
    let v := if v.getLsbD 0 then (v >>> 1) ^^^ 0xE1000000000000000000000000000000#128 else v >>> 1
    ghashMul n x v z
def be128 (l : List Byte) : BitVec 128 := BitVec.ofNat 128 (natOfBytes (padTo 16 l).reverse)
def ghash (h : BitVec 128) (blocks : List (List Byte)) : BitVec 128 :=
  blocks.foldl (fun y b => ghashMul 128 (y ^^^ be128 b) h 0) 0
/-- The first 4 bytes of the AES-GMAC tag of `aad` under a key and a 12-byte initialisation vector (R359). -/
def gmac (key iv aad : List Byte) : List Byte :=
  let h := be128 (aes key (List.replicate 16 0))
  let lens := (bytesOfNat 8 (8 * aad.length)).reverse ++ List.replicate 8 0
  let s := ghash h (chunks 16 aad.length aad ++ [lens])
  let tag := s ^^^ be128 (aes key (iv ++ [0, 0, 0, 1]))
  ((bytesOfNat 16 tag.toNat).reverse).take 4

end Sys2Proof.Machine
end

