-- ==== Sys2Proof/Machine/Calib.lean ====
section
/-!
DEFINITION. Machine/Calib.lean: factory calibration with its defaults (Table 20.3) and the user trims (Table 20.4).
-/
namespace Sys2Proof.Machine

/-- A calibration field: page, lowest bit, width, default. -/
structure CalField where
  page : Nat
  lo   : Nat
  w    : Nat
  dflt : Nat
deriving DecidableEq, Repr

def calEStack (i : Nat) : CalField := ⟨2, 16 * i, 16, 2048⟩
def calEEng : CalField := ⟨2, 384, 16, 223⟩
def calEFab : CalField := ⟨2, 400, 16, 1280⟩
def calEngStatic (i : Nat) : CalField := ⟨2, 416 + 16 * i, 16, [120, 96, 64].getD i 0⟩
def calStkStatic (i : Nat) : CalField := ⟨2, 464 + 16 * i, 16, [40, 16, 4].getD i 0⟩
def calFactoryMax : CalField := ⟨2, 512, 16, 7600⟩
def calOffset (i : Nat) : CalField := ⟨3, 8 * i, 8, 0⟩
def calTCap : CalField := ⟨3, 192, 16, 340⟩
def calTCrit : CalField := ⟨3, 208, 16, 380⟩
def calMargin : CalField := ⟨3, 224, 16, 20⟩
def calMv (i : Nat) : CalField := ⟨4, 32 * i, 16, [850, 760, 650].getD i 0⟩
def calMhz (i : Nat) : CalField := ⟨4, 32 * i + 16, 16, [1100, 880, 550].getD i 0⟩
def calWeight (i : Nat) : CalField := ⟨5, 8 * i, 8, [16, 32, 8, 24, 4, 64, 16, 32].getD i 0⟩
def calTh (l : Nat) : CalField := ⟨5, 8 * l + 56, 8, [0, 8, 16, 32, 64, 96, 128, 192].getD l 0⟩
def calDecay : CalField := ⟨5, 120, 4, 10⟩

/-- Every field of Table 20.3. -/
def calFields : List CalField :=
  (List.range 24).map calEStack ++ [calEEng, calEFab] ++ (List.range 3).map calEngStatic
    ++ (List.range 3).map calStkStatic ++ [calFactoryMax] ++ (List.range 24).map calOffset
    ++ [calTCap, calTCrit, calMargin] ++ (List.range 3).map calMv ++ (List.range 3).map calMhz
    ++ (List.range 8).map calWeight ++ (List.range 7).map (fun l => calTh (l + 1)) ++ [calDecay]

def CalField.raw (f : CalField) (s : State) : Nat := fld (s.page f.page) f.lo f.w
/-- The factory value: the default where the fuses read zero (R444). -/
def CalField.value (f : CalField) (s : State) : Nat := if f.raw s = 0 then f.dflt else f.raw s
/-- Fields replaced by their default. -/
def State.calDefaulted (s : State) : Nat := (calFields.filter (fun f => f.raw s = 0)).length

/-- Range of the user trim at an index of Table 20.4. -/
def trimRange (i : Nat) : Option Int :=
  if i < 26 then some 256 else if 32 ≤ i ∧ i < 56 then some 16 else none
def State.trim (s : State) (i : Nat) : Int := (mgetD s.win.trims i 0).toInt
/-- Write a trim, clamped (R445); a clamp is counted. -/
def State.setTrim (s : State) (i : Nat) (v : BitVec 16) : State :=
  match trimRange i with
  | none => s
  | some r =>
    let n := max (-r) (min r v.toInt)
    let s := { s with win := { s.win with trims := if n = 0 then merase s.win.trims i else mset s.win.trims i (BitVec.ofInt 16 n) } }
    if n = v.toInt then s else s.count 104

/-- Effective energy coefficients, in 1/256 pJ a byte, rounded down (R445). -/
def State.eCoef (s : State) (f : CalField) (i : Nat) : Nat := ((f.value s : Int) * (1024 + s.trim i) / 1024).toNat
def State.eStack (s : State) (i : Nat) : Nat := s.eCoef (calEStack i) i
def State.eEng (s : State) : Nat := s.eCoef calEEng 24
def State.eFab (s : State) : Nat := s.eCoef calEFab 25
/-- Temperatures, 0.25 °C (Table 20.3). -/
def State.tCap (s : State) : Int := signed 16 (calTCap.value s)
def State.tCrit (s : State) : Int :=
  let v := signed 16 (calTCrit.value s)
  if v ≤ s.tCap then s.tCap + 40 else v
def State.sensorMargin (s : State) : Int := signed 16 (calMargin.value s)
def State.sensorOffset (s : State) (i : Nat) : Int := signed 8 ((calOffset i).value s) + s.trim (32 + i)
/-- Risk weights, thresholds and decay in force (R449). -/
def State.weight (s : State) (i : Nat) : Nat :=
  let u := (s.health.weights.getD i 0).toNat
  if u = 0 then (calWeight i).value s else u
def State.threshold (s : State) (l : Nat) : Nat :=
  match s.health.thresholds with
  | some ts => (ts.getD (l - 1) 0).toNat
  | none => (calTh l).value s
def State.decayLog (s : State) : Nat := if s.health.decay = 0 then calDecay.value s else s.health.decay.toNat

end Sys2Proof.Machine
end

