-- ==== Sys2Proof/Machine/Ecc.lean ====
section
/-!
DEFINITION. Machine/Ecc.lean: the row-and-column code of the engine's own storage (R419, R420), internal word
addresses (R421, Table 19.2), and the words of the units whose contents the model holds.
-/
namespace Sys2Proof.Machine

/-- Parity of a number's low `w` bits. -/
def parity (w n : Nat) : Nat := ((List.range w).filter (fun i => n.testBit i)).length % 2

/-- The 16 check bits of a data word (R419). -/
def checkBits (d : Word) : BitVec 16 :=
  let row := fun r => parity 8 (fld d (8 * r) 8)
  let col := fun c => ((List.range 8).filter (fun r => d.toNat.testBit (8 * r + c))).length % 2
  pack ((List.range 8).map (fun r => (r, row r)) ++ (List.range 8).map (fun c => (8 + c, col c)))

/-- What the check of a read finds (Table 19.1). -/
inductive Found where
  | clean | dataBit (i : Nat) | checkBit (i : Nat) | bad
deriving DecidableEq, Repr

/-- The set bits of a syndrome byte. -/
def setBits (n : Nat) : List Nat := (List.range 8).filter (fun i => n.testBit i)

/-- The decision of Table 19.1 on a stored word. -/
def syndrome (d : Word) (chk : BitVec 16) : Found :=
  let x := (checkBits d ^^^ chk).toNat
  match setBits (x % 256), setBits (x / 256) with
  | [], [] => .clean
  | [r], [c] => .dataBit (8 * r + c)
  | [r], [] => .checkBit r
  | [], [c] => .checkBit (8 + c)
  | _, _ => .bad

/-- The data word after the decision, none when uncorrectable. -/
def corrected (d : Word) (chk : BitVec 16) : Option Word :=
  match syndrome d chk with
  | .clean => some d
  | .dataBit i => some (d ^^^ BitVec.ofNat 64 (2 ^ i))
  | .checkBit _ => some d
  | .bad => none

/-- An internal word address (R421): unit, slice, word. -/
def iaUnit (a : Nat) : Nat := a / 2 ^ 23 % 32
def iaSlice (a : Nat) : Nat := a / 2 ^ 18 % 32
def iaWord (a : Nat) : Nat := a % 2 ^ 18
def iaOf (unit slice word : Nat) : Nat := unit * 2 ^ 23 + slice * 2 ^ 18 + word

/-- Words of a unit (Table 19.2); none for a unit code that is not used for storage. -/
def unitWords : Nat → Option Nat
  | 0 => some 262144 | 1 => some 2304 | 2 => some 4096 | 3 => some 65536 | 4 => some 32768 | 5 => some 256
  | 6 => some 1024 | 7 => some 34333 | 8 => some 32 | 9 => some 128 | 10 => some 2048
  | _ => none
/-- Units of the whole engine take slice 0x1F. -/
def unitEngine (u : Nat) : Bool := decide (u ≤ 2)

/-- A range-table entry as its word (Table 3.2). -/
def RangeEntry.word (e : RangeEntry) : Word :=
  pack [(0, e.first), (24, e.last), (48, e.kind.toNat), (50, bit e.coarse), (51, bit e.draining), (52, e.ctx.toNat)]
def RangeEntry.ofWord (w : Word) : RangeEntry :=
  { first := fld w 0 21, last := fld w 24 21, kind := BitVec.ofNat 2 (fld w 48 2), coarse := w.getLsbD 50,
    draining := w.getLsbD 51, ctx := BitVec.ofNat 4 (fld w 52 4) }
/-- A remap entry as its word (Table 19.3). -/
def remapWord (o : Option (BitVec 31)) : Word :=
  match o with
  | none => 0
  | some l => pack [(0, 1), (6, l.toNat)]
def TileState.code : TileState → Nat
  | .normal => 0 | .held => 1 | .trapped => 2 | .exempt => 3
def TileState.ofCode (n : Nat) : TileState :=
  match n % 4 with
  | 0 => .normal | 1 => .held | 2 => .trapped | _ => .exempt

/-- The functional word of a unit, none for a unit whose contents the model does not hold. -/
def State.unitWord (s : State) (u sl w : Nat) : Option Word :=
  let x := s.slice sl
  match u with
  | 2 => some (mgetD s.pctr w 0)
  | 5 => some (BitVec.ofNat 64 ((x.spareLine (w / 8)).toNat >>> (64 * (w % 8))))
  | 6 => some (mgetD x.ranges w {}).word
  | 7 => some (pack ((List.range 32).map (fun i => (2 * i, (x.state (32 * w + i)).code))))
  | 8 => some (remapWord (mget x.remap w))
  | 9 => some (match x.faultOnce[w]? with | some l => BitVec.ofNat 64 (l.toNat * 2 + 1) | none => 0)
  | 10 => some (match x.parked[w]? with | some t => BitVec.ofNat 64 (t * 2 + 1) | none => 0)
  | _ => none

/-- A unit's word takes a value. -/
def State.setUnitWord (s : State) (u sl w : Nat) (v : Word) : State :=
  match u with
  | 2 => { s with pctr := if v = 0 then merase s.pctr w else mset s.pctr w v }
  | 5 => s.modSlice sl fun x =>
      let l := (x.spareLine (w / 8)).toNat
      let old := (l >>> (64 * (w % 8))) % 2 ^ 64
      { x with spare := mset x.spare (w / 8) (BitVec.ofNat 512 (l - old * 2 ^ (64 * (w % 8)) + v.toNat * 2 ^ (64 * (w % 8)))) }
  | 6 => s.modSlice sl fun x => { x with ranges := if v = 0 then merase x.ranges w else mset x.ranges w (.ofWord v) }
  | 7 => s.modSlice sl fun x => (List.range 32).foldl (fun x i => x.setState (32 * w + i) (.ofCode (fld v (2 * i) 2))) x
  | 8 => s.modSlice sl fun x =>
      { x with remap := if v.getLsbD 0 then mset x.remap w (BitVec.ofNat 31 (fld v 6 31)) else merase x.remap w }
  | _ => s

/-- A word waits with chosen check bits that do not decode (R429, R491). -/
def State.wordBad (s : State) (u sl w : Nat) : Bool :=
  match mget s.sram (iaOf u sl w) with
  | some r => (corrected r.data r.chk).isNone
  | none => false

end Sys2Proof.Machine
end

