-- ==== Sys2Proof/Machine/Flags.lean ====
section
/-!
DEFINITION. Machine/Flags.lean: the status words that the engine shows, computed from the state: identity and
capabilities, status, the guard's word, the gate view, and the counter words.
-/
namespace Sys2Proof.Machine

def Phase.code : Phase → Nat
  | .fuse => 1 | .bootWait => 2 | .load => 3 | .selftest => 4 | .tickWait => 5 | .ringWait => 6 | .ready => 7
  | .teardown => 8 | .failed => 9

/-- FREEZE_CAUSE: the highest cause in force (R467). -/
def State.freezeCause (s : State) : Nat :=
  if s.boot.fault ≠ 0 then 3 else if s.boot.bootFrz then 2 else if s.boot.guardFrz then 1 else 0

/-- LYX_ID (Table 22.2). -/
def State.lyxId (s : State) : Word :=
  pack ([(0, 0x5CA1), (16, 0x4C58)] ++ (if s.sensed then [(32, fld (s.page 0) 4 4), (36, bit s.partS)] else []))
/-- LYX_CAPS (Table 22.3). -/
def State.lyxCaps (s : State) : Word :=
  if s.sensed then
    pack [(0, s.presentSlices.length), (8, (s.presentSlices.map (2 ^ ·)).foldl (· + ·) 0), (32, s.peelsPresent),
      (34, bit s.hasDensity), (35, bit s.hasKnead), (36, bit s.hasShadow), (40, 16), (48, 4096)]
  else 0
/-- Slot i of fuse page 1 (R55). -/
def State.digestSlot (s : State) (i : Nat) : BitVec 256 := BitVec.ofNat 256 (fld (s.page 1) (256 * i) 256)
/-- LYX_FUSE_STATE (Table 22.4). -/
def State.lyxFuse (s : State) : Word :=
  if s.sensed then
    pack [(0, bit s.fieldLock), (1, 1), (2, bit (decide (s.boot.defaulted > 0))),
      (4, (((List.range 4).filter (fun i => s.digestSlot i != 0)).map (2 ^ ·)).foldl (· + ·) 0),
      (8, fld (s.page 0) 40 4), (16, fld (s.page 0) 16 24), (40, sat 255 s.boot.defaulted)]
  else 0
/-- LYX_FW_VERSION (Table 22.5). -/
def State.lyxFw (s : State) : Word :=
  pack [(0, s.boot.version.toNat), (32, s.boot.authSlot.toNat), (34, bit s.boot.patched), (35, bit (s.boot.debugImage && s.boot.authed))]
/-- LYX_STATUS (Table 22.6). -/
def State.lyxStatus (s : State) : Word :=
  pack [(0, s.boot.phase.code), (4, bit s.frozen), (5, s.freezeCause), (7, bit s.frames.lock),
    (8, bit (!ringOk s.link.cmdSize)), (9, bit (!ringOk s.link.evSize)),
    (10, bit (decide (s.link.outq.length > s.link.evFree))), (11, bit s.link.evDrop), (12, s.power.opReq.toNat),
    (15, bit (!s.power.opAck)), (16, ((List.range 16).filter (fun c => (s.ctx c).isOpen)).foldl (fun a c => a + 2 ^ c) 0),
    (32, s.frames.frame.toNat)]
/-- The word of GUARD_STATUS (Table 21.7). A context reset completes with its request, so none is seen under way. -/
def State.guardWord (s : State) : Word :=
  let b := s.boot
  pack [(0, b.phase.code), (4, b.failCause.toNat), (8, bit s.frozen), (9, s.freezeCause), (11, b.fault.toNat),
    (13, bit s.fieldLock), (14, bit b.debugImage), (15, bit s.frames.lock), (16, b.authSlot.toNat), (18, bit b.patched),
    (19, b.failUnit.toNat), (40, b.lastReset.toNat), (42, bit (b.guardFrz && (b.bootFrz || decide (b.fault ≠ 0))))]

/-- Counter word w as LYX_CTR_SELECT or a reader selects the banks (R484, R485). -/
def State.counterWord (s : State) (w slice ctx : Nat) : Word :=
  if w < 120 then mgetD s.engCtr w 0
  else if w < 200 then (if s.present slice then mgetD s.slcCtr (slice * 80 + (w - 120)) 0 else 0)
  else if w < 384 then mgetD s.ctxCtr (ctx * 184 + (w - 200)) 0
  else 0
def State.ctrSlice (s : State) : Nat := fld s.win.ctrSel 0 5
def State.ctrCtx (s : State) : Nat := fld s.win.ctrSel 8 4

/-- LYX_TILE_PROBE (Table 22.14). -/
def State.tileProbe (s : State) : Word :=
  let i := fld s.win.viewSel 0 5
  let t := s.win.probe.toNat
  let sl := s.slice i
  if !s.present i then 0
  else if t ≥ Config.stackTiles then pack [(0, t), (28, 1)]
  else if s.wordBad 7 i (t / 32) then BitVec.allOnes 64
  else pack [(0, t), (21, (sl.state t).code), (23, bit (sl.parked.contains t)), (24, bit (sl.protected t)),
    (25, bit (sl.regionHeld t)), (26, bit (!(sl.remapsOf t).isEmpty)),
    (27, bit (sl.faultOnce.any (fun l => lineTile l.toNat == t)))]
/-- LYX_GATE_STATUS (Table 22.14). -/
def State.gateStatus (s : State) : Word :=
  let i := fld s.win.viewSel 0 5
  let sl := s.slice i
  if !s.present i then 0 else
  pack [(0, sl.parked.length), (12, bit sl.overflow),
    (13, (sl.ranges.filter (fun e => decide (e.1 ≥ Config.generalRanges))).length),
    (16, (sl.ranges.filter (fun e => decide (e.1 < Config.generalRanges))).length), (32, sl.remap.length),
    (40, sl.faultOnce.length), (48, bit sl.gated)]

/-- LYX_FRAME_CFG (Table 22.8). -/
def State.frameCfg (s : State) : Word :=
  let f := s.frames
  pack [(0, f.j.toNat), (8, f.dCap.toNat), (16, f.kFloor.toNat), (24, f.kCap.toNat), (32, f.mCap.toNat),
    (40, f.fabShare.toNat), (48, f.ageLimit.toNat), (56, bit f.pending.isSome)]
/-- LYX_STACK_s (Table 22.10). -/
def State.stackReg (s : State) (i : Nat) : Word :=
  let sl := s.slice i
  if s.present i then
    pack [(0, sl.stackState.toNat), (2, bit sl.stackAck), (8, sl.stackCap.toNat), (16, sl.effTemp.toNat),
      (32, bit sl.sensorFailed), (33, bit sl.capped)]
  else 0

end Sys2Proof.Machine
end

