-- ==== Sys2Proof/Machine/Window.lean ====
section
/-!
DEFINITION. Machine/Window.lean: the configuration window (file 22): which offsets hold a register, what a read
returns and what a write does; the command doorbell and the rings' indexes.
-/
namespace Sys2Proof.Machine

/-- The offset of an access: cfg_req_addr[15:3] (Table 2.9). -/
def regOffset (a : BitVec 16) : Nat := a.toNat / 8 * 8

/-- Index of a user trim at an offset (R490). -/
def trimAt (o : Nat) : Option Nat :=
  if 0x1800 ≤ o ∧ o < 0x1800 + 8 * 56 then
    (if (trimRange ((o - 0x1800) / 8)).isSome then some ((o - 0x1800) / 8) else none)
  else none

/-- What a read of the window returns; none where no register exists (Table 22.1, R51, R473). -/
def State.readRaw (s : State) (o : Nat) : Option Word :=
  let w16 := fun (x : BitVec 16) => some (x.setWidth 64)
  match o with
  | 0x0000 => some s.lyxId
  | 0x0008 => some s.lyxCaps
  | 0x0010 => some s.lyxFuse
  | 0x0018 => some s.lyxFw
  | 0x0020 => some s.lyxStatus
  | 0x0028 => some s.win.patchAddr
  | 0x0030 => some s.win.boot
  | 0x0040 => some 0
  | 0x0048 => some s.link.cmdBase
  | 0x0050 => some (s.link.cmdSize.setWidth 64)
  | 0x0058 => w16 s.link.cmdHead
  | 0x0060 => w16 s.link.cmdTail
  | 0x0080 => some s.link.evBase
  | 0x0088 => some (s.link.evSize.setWidth 64)
  | 0x0090 => w16 s.link.evHead
  | 0x0098 => w16 s.link.evTail
  | 0x0100 => some s.frameCfg
  | 0x0108 => some s.frames.tick
  | 0x0140 => some (if s.hasShadow then s.win.shadow else 0)
  | 0x0148 => some s.win.member
  | 0x0150 => some s.win.fabric
  | 0x0160 => some s.win.ctrSel
  | 0x0200 => some (pack [(0, s.power.envelope.toNat), (16, s.power.inForce.toNat), (32, s.power.demand.toNat)])
  | 0x0300 => some (pack [(0, s.health.score.toNat), (8, s.health.raw.toNat), (16, s.health.thermal.toNat), (32, s.health.frame.toNat)])
  | 0x0308 => some (pack [(0, s.health.level.toNat), (4, s.health.mode.toNat), (16, sat 0xFFFF s.health.below)])
  | 0x2000 => some s.win.viewSel
  | 0x2008 => some s.tileProbe
  | 0x2010 => some s.gateStatus
  | _ =>
    let i := fld s.win.viewSel 0 5
    if 0x0210 ≤ o ∧ o < 0x02D0 then some (s.stackReg ((o - 0x0210) / 8))
    else if 0x0310 ≤ o ∧ o < 0x0350 then
      let k := (o - 0x0310) / 8
      some (if k = 6 then 0 else pack [(0, s.health.a.getD k 0), (32, sat 0xFFFF (s.health.x.getD k 0))])
    else if 0x0400 ≤ o ∧ o < 0x1000 then some (s.counterWord ((o - 0x0400) / 8) s.ctrSlice s.ctrCtx)
    else if 0x1000 ≤ o ∧ o < 0x1800 then
      some (BitVec.ofNat 64 (fld (s.page ((o - 0x1000) / 0x80)) ((o - 0x1000) % 0x80 * 8) 64))
    else if 0x2100 ≤ o ∧ o < 0x2200 then
      let k := (o - 0x2100) / 8
      some (if !s.present i then 0 else if s.wordBad 8 i k then BitVec.allOnes 64 else remapWord (mget (s.slice i).remap k))
    else if 0x2800 ≤ o ∧ o < 0x3000 then
      let k := 256 * fld s.win.viewSel 8 2 + (o - 0x2800) / 8
      some (if !s.present i then 0 else if s.wordBad 6 i k then BitVec.allOnes 64
            else (mgetD (s.slice i).ranges k {}).word)
    else (trimAt o).map (fun t => (mgetD s.win.trims t 0).setWidth 64)

/-- LYX_FRAME_CFG takes a written word, clamped as Table 5.2 lays down (R114, R481). -/
def State.setFrameCfg (s : State) (v : Word) : State :=
  let kCap := max 10 (min 100 (fld v 24 7))
  { s with frames := { s.frames with
      dCap := BitVec.ofNat 7 (max 5 (min 100 (fld v 8 7))), kCap := BitVec.ofNat 7 kCap,
      kFloor := BitVec.ofNat 7 (min kCap (fld v 16 7)), mCap := BitVec.ofNat 7 (min 100 (fld v 32 7)),
      fabShare := BitVec.ofNat 7 (max 10 (min 90 (fld v 40 7))), ageLimit := BitVec.ofNat 8 (max 1 (fld v 48 8)) } }

/-- The driver may write BASE and SIZE only in phases 0x1 to 0x6 (R81). -/
def State.ringsWritable (s : State) : Bool := decide (s.boot.phase.code ≤ 6)
/-- An index modulo the ring's size, as written while the ring is disabled. -/
def ringIdx (size : BitVec 17) (v : Word) : BitVec 16 :=
  if ringOk size then BitVec.ofNat 16 (fld v 0 16 % size.toNat) else BitVec.ofNat 16 (fld v 0 16)

/-- A write to LYX_CMD_DOORBELL (R480): recorded before EV_READY, a fetch up to the tail afterwards,
which wakes a stopped clock (R439). -/
def State.doorbell (s : State) : State :=
  if s.boot.phase = .ready ∧ s.boot.bootFrz = false then
    State.wake { s with link := { s.link with fetchTo := s.link.cmdTail } }
  else { s with link := { s.link with bell := true } }

/-- GO of LYX_BOOT: in phase BOOT_WAIT the write is taken, and GO starts the load (R456). -/
def State.writeBoot (s : State) (v : Word) : State :=
  if s.boot.phase = .bootWait then
    let s := { s with win := { s.win with boot := v &&& 0x1FF03 } }
    if v.getLsbD 0 then { s with boot := { s.boot with phase := .load } } else s
  else s

/-- Effect of a write of the window (R474); reserved bits are ignored. -/
def State.writeRaw (s : State) (o : Nat) (v : Word) : State :=
  match o with
  | 0x0020 => { s with link := { s.link with evDrop := s.link.evDrop && !v.getLsbD 11 } }
  | 0x0028 => { s with win := { s.win with patchAddr := v &&& 0x3FFFFFFF000 } }
  | 0x0030 => s.writeBoot v
  | 0x0040 => s.doorbell
  | 0x0048 => if s.ringsWritable then { s with link := { s.link with cmdBase := v &&& ~~~0xFFF#64 } } else s
  | 0x0050 => if s.ringsWritable then { s with link := { s.link with cmdSize := BitVec.ofNat 17 (fld v 0 17) } } else s
  | 0x0060 => { s with link := { s.link with cmdTail := ringIdx s.link.cmdSize v } }
  | 0x0080 => if s.ringsWritable then { s with link := { s.link with evBase := v &&& ~~~0xFFF#64 } } else s
  | 0x0088 => if s.ringsWritable then { s with link := { s.link with evSize := BitVec.ofNat 17 (fld v 0 17) } } else s
  | 0x0090 => { s with link := { s.link with evHead := ringIdx s.link.evSize v } }
  | 0x0100 => s.setFrameCfg v
  | 0x0140 => if s.hasShadow then { s with win := { s.win with shadow := v &&& 0x1FFF1F01 } } else s
  | 0x0148 => { s with win := { s.win with member := v &&& 0x01FFFFFFFFFF00FF } }
  | 0x0150 => { s with win := { s.win with fabric := v } }
  | 0x0160 => { s with win := { s.win with ctrSel := v &&& 0xF1F } }
  | 0x0200 => { s with power := { s.power with envelope := BitVec.ofNat 16 (fld v 0 16) } }
  | 0x2000 => { s with win := { s.win with viewSel := v &&& 0x31F } }
  | 0x2008 => { s with win := { s.win with probe := BitVec.ofNat 21 (fld v 0 21) } }
  | _ => match trimAt o with
    | some i => s.setTrim i (BitVec.ofNat 16 (fld v 0 16))
    | none => s

/-- Whether the engine is out of cold reset: while rst_cold_n is low it serves nothing. -/
def State.up (s : State) : Bool := s.boot.coldN && s.boot.supply

/-- A write access (R51, R474): an absent offset completes with cfg_rsp_err at 1 and no effect; in TEARDOWN a write has
no effect. -/
def State.writeReg (s : State) (a : BitVec 16) (v : Word) : State :=
  if s.up = false then s else
  let s := { s with win := { s.win with err := (s.readRaw (regOffset a)).isNone } }
  if s.boot.phase = .teardown then s else s.writeRaw (regOffset a) v

/-- CMD_DOORBELL: a write to LYX_CMD_DOORBELL (R480). -/
def execCmdDoorbell (v : Word) (s : State) : Host.Outcome State Fault Refusal := .next (s.writeReg 0x0040 v)
/-- EVQ_HEAD_WRITE: the driver advances LYX_EVQ_HEAD (R83). -/
def execEvqHeadWrite (v : Word) (s : State) : Host.Outcome State Fault Refusal := .next (s.writeReg 0x0090 v)
/-- REGISTER_WRITE (R474). -/
def execRegisterWrite (a : BitVec 16) (v : Word) (s : State) : Host.Outcome State Fault Refusal := .next (s.writeReg a v)
/-- BOOT_GO: a write to LYX_BOOT (R456). -/
def execBootGo (v : Word) (s : State) : Host.Outcome State Fault Refusal := .next (s.writeReg 0x0030 v)

/-- EVENT_RING_WRITE (R82 to R84): the oldest queued flit goes to the slot at LYX_EVQ_TAIL, once a slot is free. -/
def Reply.flit (r : Reply) : BitVec 256 :=
  pack [(0, r.tag.toNat), (16, r.status.toNat), (32, r.detail.toNat), (64, r.frame.toNat), (96, r.progress.toNat),
    (112, r.opcode.toNat), (120, r.ctx.toNat)]
def Event.flit (e : Event) : BitVec 256 :=
  pack [(0, e.code.toNat), (16, e.sev.toNat), (24, e.ctx.toNat), (32, e.time.toNat), (96, e.payload.toNat),
    (224, e.seq.toNat), (248, 1)]
def Flit.word : Flit → BitVec 256
  | .reply r => r.flit
  | .event e => e.flit
def execEventRingWrite (s : State) : Host.Outcome State Fault Refusal :=
  match s.link.outq with
  | [] => .next s
  | f :: q =>
    if s.link.evFree = 0 ∨ s.boot.phase ≠ .ready ∨ s.boot.bootFrz then .next s
    else .next { s with link := { s.link with outq := q, ring := mset s.link.ring s.link.evTail.toNat f.word,
                                              evTail := BitVec.ofNat 16 ((s.link.evTail.toNat + 1) % s.link.evSize.toNat) } }

end Sys2Proof.Machine
end

