-- ==== Sys2Proof/Machine/Boot.lean ====
section
/-!
DEFINITION. Machine/Boot.lean: start-up, the cold and the warm reset, and the fault freeze (file 21, R20 to R22).
-/
namespace Sys2Proof.Machine

/-- Guard counters (R471), 0xF00 on. -/
def State.countGuard (s : State) (i : Nat) : State :=
  { s with boot := { s.boot with guardCtr := mset s.boot.guardCtr i (mgetD s.boot.guardCtr i 0 + 1) } }

/-- What a cold reset leaves (Table 21.6): every register at its reset value; the stacks' bytes are not the engine's. -/
def State.cold (s : State) : State :=
  { State.reset with pending := s.pending, mem := s.mem, freeIdx := s.freeIdx }

/-- COLD_RESET: rst_cold_n rises (R454, R455). -/
def execColdReset (s : State) : Host.Outcome State Fault Refusal :=
  if s.boot.coldN then .next s
  else .next { s.cold with boot := { s.cold.boot with supply := true, coldN := true } }

/-- COLD_RESET_ASSERT: rst_cold_n goes low (R462). -/
def execColdResetAssert (s : State) : Host.Outcome State Fault Refusal :=
  .next { s.cold with boot := { s.cold.boot with supply := s.boot.supply } }

/-- MAIN_SUPPLY_FALL (R443): the engine loses everything but the fuses, the stacks' bytes with it. -/
def execMainSupplyFall (s : State) : Host.Outcome State Fault Refusal :=
  .next { s.cold with mem := [], boot := { s.cold.boot with supply := false } }

/-- FUSE_SENSE_DONE (R54, R444): the 16 pages are kept until the next cold reset; calibration is merged. -/
def execFuseSenseDone (pages : List (BitVec 1024)) (s : State) : Host.Outcome State Fault Refusal :=
  if s.up = false ∨ s.sensed then .next s
  else
    let s := { s with boot := { s.boot with fuses := pages.take 16 ++ List.replicate (16 - pages.length) 0 } }
    let n := s.calDefaulted
    let s := { s with boot := { s.boot with defaulted := n } }.count 103 n
    .next (if s.boot.phase = .fuse then { s with boot := { s.boot with phase := .bootWait } } else s)

/-- Enter phase FAILED (R457, R459, R460). -/
def State.failBoot (s : State) (cause unit : Nat) : State :=
  { s with boot := { s.boot with phase := .failed, failCause := BitVec.ofNat 4 cause, failUnit := BitVec.ofNat 5 unit } }.countGuard 6

/-- Fields of LYX_BOOT and LYX_PATCH_ADDR (Tables 21.2, 21.3). -/
def State.patchOn (s : State) : Bool := s.win.boot.getLsbD 1
def State.patchLen (s : State) : Nat := fld s.win.boot 8 9 * 4096
/-- The patch lies in whole tiles of one present stack, with a length of 1 to 256 pages (R457). -/
def State.patchOk (s : State) : Bool :=
  let a := s.win.patchAddr.toNat
  decide (1 ≤ fld s.win.boot 8 9) && decide (fld s.win.boot 8 9 ≤ 256) && s.validAddr a
    && decide (addrByte a + s.patchLen ≤ Config.stackTiles * Config.tileBytes)
def State.patchBytes (s : State) : List Byte := s.readDie s.win.patchAddr.toNat s.patchLen
/-- The image (R457). -/
def State.image (s : State) : List Byte := if s.patchOn then Config.romImage ++ s.patchBytes else Config.romImage
/-- The lowest non-empty slot that holds a digest. -/
def State.authSlot? (s : State) (d : BitVec 256) : Option Nat :=
  (List.range 4).find? (fun i => s.digestSlot i != 0 && s.digestSlot i == d)

/-- The image is authenticated: phase SELFTEST (R457, R458, R478). -/
def State.authenticated (s : State) (slot : Nat) (d : BitVec 256) : State :=
  let v := if s.patchOn then s.patchBytes else Config.romImage
  { s with boot := { s.boot with phase := .selftest, digest := d, authSlot := BitVec.ofNat 2 slot, patched := s.patchOn,
                                 debugImage := s.boot.debugLoad, authed := true, version := BitVec.ofNat 32 (natOfBytes (v.take 4)) } }

/-- IMAGE_AUTHENTICATED: the hash of the loaded image completes (R457, R458). -/
def execImageAuthenticated (poisoned : Bool) (s : State) : Host.Outcome State Fault Refusal :=
  if s.boot.phase ≠ .load then .next s
  else if s.boot.debugLoad ∧ s.patchOn = false then .next (s.failBoot 4 0)
  else if s.patchOn ∧ (s.patchOk = false ∨ poisoned) then .next (s.failBoot 3 0)
  else
    let d := sha256Val s.image
    if s.boot.debugLoad then .next (s.authenticated 0 d)
    else match s.authSlot? d with
      | some i => .next (s.authenticated i d)
      | none => .next (s.failBoot 1 0)

/-- SELFTEST_DONE (R459): the lowest failing unit, or phase TICK_WAIT. -/
def execSelftestDone (failing : List Nat) (s : State) : Host.Outcome State Fault Refusal :=
  if s.boot.phase ≠ .selftest then .next s
  else match failing with
    | [] => .next { s with boot := { s.boot with phase := .tickWait } }
    | u :: us => .next (s.failBoot 2 (us.foldl min u))

/-- Frame period in nanoseconds (R102). -/
def periodNs (j : Nat) : Nat := 125000 * 2 ^ j
def frameAt (tick : Word) (j : BitVec 3) : BitVec 32 := BitVec.ofNat 32 (tick.toNat / periodNs j.toNat)

/-- ENGINE_READY (R461): at a frame boundary with lock and both rings enabled the engine thaws, sends EV_READY and
begins to fetch; without a ring it waits in RING_WAIT. -/
def State.makeReady (s : State) (tick : Word) : State :=
  let s := { s with
    boot := { s.boot with phase := .ready, bootFrz := false },
    frames := { s.frames with tick := tick, j := 3, frame := frameAt tick 3 },
    link := { s.link with fetchTo := s.link.cmdTail, bell := false } }
  s.emit 0x0010 0 none [(0, s.boot.version.toNat), (4, fld s.lyxCaps 8 24), (7, s.peelsPresent), (8, fld (s.page 0) 64 64)]
def execEngineReady (tick : Word) (s : State) : Host.Outcome State Fault Refusal :=
  if (s.boot.phase = .tickWait ∨ s.boot.phase = .ringWait) ∧ s.frames.lock then
    if ringOk s.link.cmdSize && ringOk s.link.evSize then .next (s.makeReady tick)
    else .next { s with boot := { s.boot with phase := .ringWait } }
  else .next s

/-- A warm reset begins, or merges with the one in progress (R33, R462, R463): the engine freezes with cause boot, ends
every admitted command with no reply and drops what is queued. -/
def State.beginWarm (s : State) (byGuard debug : Bool) : State :=
  if s.boot.phase = .teardown then { s with boot := { s.boot with debugLoad := s.boot.debugLoad || debug } }
  else
    let s := s.countGuard (if byGuard then 1 else 0)
    { s with
      boot := { s.boot with phase := .teardown, bootFrz := true, debugLoad := debug,
                            lastReset := if byGuard then 2 else 1 },
      link := { s.link with admitted := [], outq := [] } }
/-- WARM_RESET: rst_warm_n goes low; ignored while rst_cold_n is low (R33). -/
def execWarmReset (s : State) : Host.Outcome State Fault Refusal :=
  if s.up then .next (s.beginWarm false false) else .next s

/-- What a warm reset keeps and clears (R463, Table 21.6), in the phase that `ph` gives. -/
def State.warmed (s : State) (ph : Phase) : State :=
  { State.reset with
    pending := s.pending, mem := s.mem, freeIdx := s.freeIdx,
    boot := { supply := s.boot.supply, coldN := s.boot.coldN, phase := ph, bootFrz := true, guardFrz := s.boot.guardFrz,
              debugLoad := s.boot.debugLoad, debugImage := s.boot.debugImage && s.boot.debugLoad,
              lastReset := s.boot.lastReset, fuses := s.boot.fuses, defaulted := s.boot.defaulted, mgt := s.boot.mgt,
              guardCtr := s.boot.guardCtr },
    win := { trims := s.win.trims },
    health := { weights := s.health.weights, thresholds := s.health.thresholds, decay := s.health.decay,
                a := s.health.a, level := s.health.level },
    fab := { peels := mmap s.fab.peels (fun _ p => { linkUp := p.linkUp }) },
    engCtr := mkeep s.engCtr (fun w _ => decide (105 ≤ w) && decide (w ≤ 113)) }
/-- TEARDOWN_DONE (R463, R464): tables emptied, every parked request released, phase BOOT_WAIT. -/
def execTeardownDone (s : State) : Host.Outcome State Fault Refusal :=
  if s.boot.phase ≠ .teardown then .next s
  else
    let sls := s.presentSlices
    let s := s.warmed .bootWait
    .next (s.each sls (fun s i => s.modSlice i (fun sl => { sl with released := sl.released ++ [BitVec.ofNat 21 0x1FFFFF] })))

/-- A read access (R51, R474): none with cfg_rsp_err; in TEARDOWN, what warm reset clears reads at its reset value. -/
def State.readReg (s : State) (a : BitVec 16) : Option Word :=
  if s.up = false then none
  else if s.boot.phase = .teardown then (s.warmed .teardown).readRaw (regOffset a)
  else s.readRaw (regOffset a)

/-- A check of Table 1.2 fires (R22): the engine freezes with cause fault and every outstanding command of every
context is answered FIRMWARE_FAULT with the detail code; the lower code is kept. -/
def State.faultFreeze (s : State) (code : Nat) : State :=
  if s.boot.fault ≠ 0 ∨ s.live = false then s
  else
    let s := (s.link.admitted).foldl (fun s a => s.finish a.c.ctx.toNat a.c.tag 0x0F01 code) s
    { s with boot := { s.boot with fault := BitVec.ofNat 2 code } }.countGuard 4

/-- FIRMWARE_DIGEST_CHECK (R20, Table 1.2): the digest of the code image, recomputed every 1,024 frames, is compared with
the one authenticated at start-up. -/
def execFirmwareDigestCheck (d : BitVec 256) (s : State) : Host.Outcome State Fault Refusal :=
  if s.live = false ∨ s.frames.sinceDigest < 1024 then .next s
  else
    let s := { s with frames := { s.frames with sinceDigest := 0 } }
    .next (if d = s.boot.digest then s else s.faultFreeze 3)

/-- FRAME_WATCHDOG (R20, R105): a plan not retired when the next tick arrives. -/
def execFrameWatchdog (s : State) : Host.Outcome State Fault Refusal :=
  if s.frames.planned ∧ s.frames.lock then .next (s.faultFreeze 1) else .next s

end Sys2Proof.Machine
end

