-- ==== Sys2Proof/Machine/Placement.lean ====
section
/-!
DEFINITION. Machine/Placement.lean: the placement of batches over the members of a group (R243 to R245), a pure function of the
group configuration and of the records exchanged at the join, and the crust a member keeps (R146, R257).
-/
namespace Sys2Proof.Machine

def orderKey (p : Nat) : Nat := 8 * (p % 4) + p / 4
/-- Positions in member order (R243). -/
def memberOrder (members : BitVec 32) : List Nat :=
  sortBy orderKey ((List.range 32).filter (fun p => members.getLsbD p))
def GroupCfg.order (g : GroupCfg) : List Nat := memberOrder g.members
def GroupCfg.posOf (g : GroupCfg) (u : Nat) : Nat := g.order.getD u 0
def GroupCfg.indexOf (g : GroupCfg) (p : Nat) : Nat := (g.order).idxOf p

/-- Tray of a position: Table 11.3 places P24 in T6, P1 in T0. -/
def trayOf (p : Nat) : Nat := p / 4
/-- Every cyclic window of k + m members holds at most one member of each tray (R245). -/
def windowOk (members : BitVec 32) (km : Nat) : Bool :=
  let o := memberOrder members
  (List.range o.length).all fun i =>
    let w := (List.range km).map (fun d => trayOf (o.getD ((i + d) % o.length) 0))
    w.dedup.length == w.length

/-- Is a coverage class the one of a mode: 0 delta, 1 snapshot (R244)? -/
def modeCover (mode : Nat) : Cover := if mode = 0 then .delta else .snapshot
/-- L_u: loaves of member u in a region and mode. -/
def Group.loaves (gr : Group) (g : GroupCfg) (region mode u : Nat) : Nat :=
  match gr.recs.find? (fun r => r.position.toNat == g.posOf u) with
  | none => 0
  | some r =>
    match r.regions.find? (fun e => e.region == region && e.cls == modeCover mode) with
    | none => 0
    | some e => ceilDiv e.tiles 32
def Group.maxLoaves (gr : Group) (g : GroupCfg) (region mode : Nat) : Nat :=
  maxOf ((List.range g.n).map (fun u => gr.loaves g region mode u))
/-- Batches of a region and mode. -/
def Group.batches (gr : Group) (g : GroupCfg) (region mode : Nat) : Nat := ceilDiv (g.n * gr.maxLoaves g region mode) g.k

def batchId (region mode b : Nat) : BitVec 32 := BitVec.ofNat 32 (region * 2 ^ 24 + mode * 2 ^ 23 + b)
def batchRegion (x : BitVec 32) : Nat := x.toNat / 2 ^ 24
def batchMode (x : BitVec 32) : Nat := x.toNat / 2 ^ 23 % 2
def batchB (x : BitVec 32) : Nat := x.toNat % 2 ^ 23

/-- Member index and loaf of data slot i of a batch. -/
def dataSlot (g : GroupCfg) (b i : Nat) : Nat × Nat := ((b * g.k + i) % g.n, (b * g.k + i) / g.n)
/-- Member index of crust row j. -/
def crustRow (g : GroupCfg) (b j : Nat) : Nat := (b * g.k + g.k + j) % g.n
/-- Member index of slot y: data slots 0 to k−1, crust rows k to k+m−1. -/
def slotMember (g : GroupCfg) (b y : Nat) : Nat := if y < g.k then (dataSlot g b y).1 else crustRow g b (y - g.k)
def Group.phantom (gr : Group) (g : GroupCfg) (x : BitVec 32) (i : Nat) : Bool :=
  let d := dataSlot g (batchB x) i
  decide (d.2 ≥ gr.loaves g (batchRegion x) (batchMode x) d.1)
/-- A batch with a data loaf that is not phantom. -/
def Group.formed (gr : Group) (g : GroupCfg) (x : BitVec 32) : Bool :=
  decide (batchB x < gr.batches g (batchRegion x) (batchMode x)) && (List.range g.k).any (fun i => !gr.phantom g x i)
/-- Batch and data slot of a member's loaf. -/
def batchOfLoaf (g : GroupCfg) (region mode u l : Nat) : BitVec 32 × Nat :=
  let s := l * g.n + u
  (batchId region mode (s / g.k), s % g.k)
/-- Regions that some member's record names in a mode. -/
def Group.regionsIn (gr : Group) (mode : Nat) : List Nat :=
  (gr.recs.flatMap (fun r => (r.regions.filter (fun e => e.cls == modeCover mode)).map (·.region))).foldl insertAsc []
/-- Every formed batch, ascending. -/
def Group.allBatches (gr : Group) (g : GroupCfg) : List (BitVec 32) :=
  let ids := [0, 1].flatMap (fun mode => (gr.regionsIn mode).flatMap (fun r =>
    ((List.range (gr.batches g r mode)).map (batchId r mode)).filter (fun x => gr.formed g x)))
  sortBy (fun x => x.toNat) ids
/-- Crust loaves that a member keeps, by ascending batch id and row (R257). -/
def Group.kept (gr : Group) (g : GroupCfg) (u : Nat) : List (BitVec 32 × Nat) :=
  (gr.allBatches g).flatMap (fun x => ((List.range g.m).filter (fun j => crustRow g (batchB x) j == u)).map (fun j => (x, j)))
def Group.myIndex (g : GroupCfg) : Nat := g.indexOf g.own.toNat
/-- The crust requirement in tiles (R146). -/
def Group.crustNeed (gr : Group) (g : GroupCfg) : Nat := 64 * (gr.kept g (Group.myIndex g)).length
def crustKey (x : BitVec 32) (j : Nat) : Nat := x.toNat * 4 + j

/-- The region of a logical tile. -/
def Ctx.regionOf (x : Ctx) (t : Nat) : Option (Nat × Region) :=
  x.regions.find? (fun e => decide (e.2.first ≤ t) && decide (t < e.2.first + e.2.count))
/-- Coverage class of a tile; a tile that no region covers is treated as UNCOVERED (R125). -/
def Ctx.cover (x : Ctx) (t : Nat) : Cover := ((x.regionOf t).map (fun e => e.2.cls)).getD .uncovered
/-- The region, mode, loaf and offset of a covered tile. -/
def Ctx.loafOf (x : Ctx) (t : Nat) : Option (Nat × Nat × Nat × Nat) :=
  match x.regionOf t with
  | some (r, reg) =>
    match reg.cls with
    | .delta => some (r, 0, (t - reg.first) / 32, (t - reg.first) % 32)
    | .snapshot => some (r, 1, (t - reg.first) / 32, (t - reg.first) % 32)
    | _ => none
  | none => none
/-- Batch, data slot and offset of a covered tile of a joined context. -/
def Ctx.batchOfTile (x : Ctx) (t : Nat) : Option (BitVec 32 × Nat × Nat) :=
  match x.group.cfg, x.loafOf t with
  | some g, some (r, mode, l, o) =>
    let p := batchOfLoaf g r mode (Group.myIndex g) l
    some (p.1, p.2, o)
  | _, _ => none
/-- The m keepers' positions of a batch, by crust row. -/
def GroupCfg.keepers (g : GroupCfg) (x : BitVec 32) : List Nat :=
  (List.range g.m).map (fun j => g.posOf (crustRow g (batchB x) j))

end Sys2Proof.Machine
end

