-- ==== Sys2Proof/Machine/Operands.lean ====
section
/-!
DEFINITION. Machine/Operands.lean: the opcode table (Table 4.4) as rows of plain data, the header checks of Table 4.1 in
the order of R95, the operand fields every row names, addresses and tile extents (R93, R125), deadlines (R92) and the
estimate of R119.
-/
namespace Sys2Proof

/-! ### Fields of a packet -/

def Cmd.ackReq (c : Cmd) : Bool := c.flags.getLsbD 0
def Cmd.fence (c : Cmd) : Bool := c.flags.getLsbD 1
def Cmd.pin (c : Cmd) : Bool := c.flags.getLsbD 2
def Cmd.cancellable (c : Cmd) : Bool := c.flags.getLsbD 3
def Cmd.cid (c : Cmd) : Nat := c.ctx.toNat
def Cmd.n (c : Cmd) : Nat := c.count.toNat
def Cmd.len (c : Cmd) : Nat := c.params.length
def Cmd.param (c : Cmd) (i : Nat) : Word := c.params.getD i 0

end Sys2Proof

namespace Sys2Proof.Machine

/-- Who a command acts on (R86): the engine, a context that must be open, CTX_OPEN's closed one, or either. -/
inductive Kind where
  | engine | context | opens | either
deriving DecidableEq, Repr

/-- A row of Table 4.4: opcode, kind, range of COUNT where it gives one, the bits that operands A and B name, the class
of the work when it moves tile data (Table 5.1), whether a class hint is honoured (H). -/
structure OpRow where
  op    : Byte
  kind  : Kind
  cnt   : Option (Nat × Nat) := none
  aMask : Word := 0
  bMask : Word := 0
  cls   : Option Cls := none
  hint  : Bool := false
deriving DecidableEq, Repr

def tilesCount : Option (Nat × Nat) := some (1, 0xFFFFFFFE)
def allBits : Word := BitVec.allOnes 64

def opRows0 : List OpRow :=
  [ { op := 0x00, kind := .engine }, { op := 0x01, kind := .engine, aMask := allBits },
    { op := 0x02, kind := .engine, aMask := allBits },
    { op := 0x03, kind := .engine, cnt := some (1, 384), aMask := allBits, bMask := 0x1FF },
    { op := 0x04, kind := .either, aMask := 0xFFFF, bMask := 1 }, { op := 0x05, kind := .engine, aMask := 7 },
    { op := 0x10, kind := .opens, aMask := 1 }, { op := 0x11, kind := .context },
    { op := 0x12, kind := .context, cnt := tilesCount, aMask := allBits, bMask := 1 },
    { op := 0x13, kind := .context, aMask := allBits } ]
def opRows2 : List OpRow :=
  [ { op := 0x20, kind := .context, cnt := tilesCount, aMask := 0xFFFFFFFFFF, bMask := 0xFF03 },
    { op := 0x21, kind := .context, aMask := 0xFF, bMask := 3 }, { op := 0x22, kind := .context, aMask := 0xFF },
    { op := 0x23, kind := .context, cnt := tilesCount, aMask := 3, bMask := 0xFFFFFFFF },
    { op := 0x30, kind := .context, aMask := 0x1F173F3F },
    { op := 0x31, kind := .context, aMask := 0xFFFFFFFF, bMask := 1 }, { op := 0x32, kind := .context, aMask := 1 },
    { op := 0x33, kind := .context } ]
def opRows4 : List OpRow :=
  [ { op := 0x40, kind := .context, cnt := some (1, 32), aMask := 7 }, { op := 0x41, kind := .context, aMask := 0xFF },
    { op := 0x42, kind := .context, aMask := allBits, bMask := 0xFFFF001F0FFF },
    { op := 0x43, kind := .context, cnt := tilesCount, aMask := 0xFFFFFFFF, bMask := 0xFFFFFFFF000000FF, cls := some .u },
    { op := 0x44, kind := .context, cnt := tilesCount, aMask := 0xFFFFFFFF, bMask := 0xFFFFFFFF000000FF, cls := some .u },
    { op := 0x45, kind := .context, aMask := allBits, bMask := allBits },
    { op := 0x46, kind := .context, aMask := 0xFF, bMask := allBits, cls := some .u },
    { op := 0x47, kind := .context, aMask := 0xF }, { op := 0x48, kind := .context, aMask := 0xFF, bMask := 0x1FFFF } ]
def opRows5 : List OpRow :=
  [ { op := 0x50, kind := .context, bMask := 0x1F0FFF }, { op := 0x51, kind := .context },
    { op := 0x52, kind := .context, aMask := allBits }, { op := 0x53, kind := .context, aMask := 0xFFFFFFFF },
    { op := 0x60, kind := .context, aMask := 0x1F }, { op := 0x61, kind := .context, aMask := 0x1F, bMask := 0x1F },
    { op := 0x62, kind := .context, aMask := 0x1F, bMask := 1, cls := some .d },
    { op := 0x63, kind := .context, aMask := 0xFFFFFFFF, cls := some .u },
    { op := 0x64, kind := .context, aMask := allBits, bMask := allBits },
    { op := 0x65, kind := .context, cnt := tilesCount, aMask := 0xFFFFFFFF, cls := some .d, hint := true } ]
def opRows7 : List OpRow :=
  [ { op := 0x70, kind := .context, cnt := tilesCount, aMask := 0xFFFFFFFF, bMask := 1, cls := some .m, hint := true },
    { op := 0x71, kind := .context, cnt := tilesCount, aMask := 0xFFFFFFFF, bMask := 3, cls := some .m },
    { op := 0x72, kind := .context },
    { op := 0x80, kind := .context, aMask := 0xFFFFFFFF, bMask := 0xFFFFFFFF },
    { op := 0x81, kind := .context, cnt := tilesCount, aMask := 0xFFFFFFFF, bMask := allBits, cls := some .m, hint := true },
    { op := 0x82, kind := .context, aMask := 1 },
    { op := 0x83, kind := .context, cnt := tilesCount, aMask := 0xFFFFFFFF, bMask := allBits, cls := some .m, hint := true },
    { op := 0x84, kind := .context, aMask := 0xFFFFFFFF },
    { op := 0x90, kind := .context, aMask := 0xFF, bMask := 0x3F },
    { op := 0x91, kind := .context, aMask := 0xFF, bMask := 0x3F, cls := some .m, hint := true },
    { op := 0x92, kind := .context, aMask := 0x3F, bMask := 0xFF, cls := some .m, hint := true },
    { op := 0x93, kind := .context, bMask := 0x3F } ]
def opRowsA : List OpRow :=
  [ { op := 0xA0, kind := .engine, aMask := 0xFFFF }, { op := 0xA1, kind := .engine, aMask := 0xFFF, bMask := 0xFFFF },
    { op := 0xA2, kind := .engine }, { op := 0xA3, kind := .engine, aMask := 3 },
    { op := 0xB0, kind := .context, cnt := some (1, 65536), aMask := allBits, bMask := allBits, cls := some .d, hint := true },
    { op := 0xB1, kind := .context, aMask := 0x1F3FFF, bMask := allBits },
    { op := 0xC0, kind := .engine, aMask := allBits, bMask := allBits },
    { op := 0xC1, kind := .engine, aMask := allBits, bMask := allBits },
    { op := 0xC2, kind := .engine, aMask := 0x1FFFFF001F, bMask := 3 },
    { op := 0xF0, kind := .either, aMask := 0xFFFF }, { op := 0xF1, kind := .either } ]
/-- Table 4.4. -/
def opRows : List OpRow := opRows0 ++ opRows2 ++ opRows4 ++ opRows5 ++ opRows7 ++ opRowsA
/-- The row of an opcode; an opcode outside the table gives the row of NOP. -/
def rowOf (op : Byte) : OpRow := (opRows.find? (fun r => r.op == op)).getD { op := op, kind := .engine }

/-- Flits of a command of L parameter words (R49). -/
def flitsOf (l : Nat) : Nat := 1 + ceilDiv l 4

/-- L as the row of an opcode gives it (R94). -/
def lenOf (op : Byte) (c : Cmd) : Nat :=
  match op.toNat with
  | 0x20 | 0x21 => if fld c.b 0 2 = 2 then 1 else 0
  | 0x30 | 0x72 | 0xC0 => 1
  | 0x32 => if c.a.getLsbD 0 then 0 else 2
  | 0x40 => ceilDiv c.n 2
  | 0x41 => 10
  | 0x47 | 0x82 => 4
  | 0x50 | 0xA2 => 2
  | _ => 0

/-- A first failure: status and detail (Table 4.5). -/
abbrev Bad := Nat × Nat

/-- The first bit set of a number, below `w`. -/
def firstBit (w n : Nat) : Option Nat := (List.range w).find? (fun i => n.testBit i)
/-- Byte offset of the first reserved bit that is set in an operand word at byte `base`. -/
def reservedBits (x mask : Word) (base : Nat) : List Nat :=
  match firstBit 64 (x &&& ~~~mask).toNat with
  | some i => [base + i / 8]
  | none => []
def badAt (b : Bool) (off : Nat) : List Nat := if b then [off] else []
def firstOf : List Nat → Option Nat
  | [] => none
  | a :: l => some (l.foldl min a)

/-- The knead opcodes on a die without a knead unit (R8). -/
def State.opAbsent (s : State) (op : Byte) : Bool :=
  (op == 0x70 || op == 0x71 || op == 0x72) && !s.hasKnead
/-- A deadline frame that is past, by serial arithmetic (R92). -/
def framePast (d f : BitVec 32) : Bool := decide ((d - f).toNat > 2 ^ 31)

/-- Steps 1 to 6 of R95. -/
def State.headerBad (s : State) (r : OpRow) (c : Cmd) : Option Bad :=
  if s.opAbsent r.op then some (0x0300, r.op.toNat)
  else if c.len ≠ lenOf r.op c then some (0x0301, c.len)
  else if c.count = BitVec.allOnes 32 then some (0x0301, c.n)
  else if s.fieldLock ∧ (r.op = 0xC0 ∨ r.op = 0xC1 ∨ r.op = 0xC2) then some (0x0F00, 0)
  else if c.flags.toNat ≥ 16 ∨ (c.pin ∧ c.deadline = 0) then some (0x0302, 1)
  else if c.hint.toNat ≥ 5 then some (0x0302, 4)
  else if c.rsv ≠ 0 then some (0x0302, 5)
  else if (match r.cnt with
      | none => decide (c.n ≠ 0)
      | some (lo, hi) => decide (c.n ≠ 0) && (decide (c.n < lo) || decide (hi < c.n))) then some (0x0302, 28)
  else if (r.kind = .context ∨ (r.op = 0x04 ∧ c.b.getLsbD 0 = false)) ∧ (s.ctx c.cid).isOpen = false then
    some (0x0304, c.cid)
  else if (r.op ≠ 0xF0 ∧ r.op ≠ 0xF1) ∧
      (s.admittedIn c.cid ≥ Config.admitPerContext ∨ s.admittedAll ≥ Config.admitInAll) then
    some (0x0200, s.admittedIn c.cid)
  else none

/-! ### Addresses, result buffers, tile extents -/

def badRange : Bad := (0x0303, 0xFFFFFFFF)
def conflict (reason : Nat) : Option Bad := some (0x0400, reason)
/-- The first of several checks that fails. -/
def firstBad (l : List (Option Bad)) : Option Bad := l.findSome? id
def check (ok : Bool) (e : Bad) : Option Bad := if ok then none else some e

/-- The stack tiles of a byte range lie in UNCOVERED regions of an open context (file 04, "Addresses in operands"). -/
def State.inUncovered (s : State) (a n : Nat) : Bool :=
  (List.range (ceilDiv (addrByte a % 65536 + n) 65536)).all fun i =>
    match s.owner (addrSlice a) (addrByte a / 65536 + i) with
    | some (c, t) => (s.ctx c).isOpen && (match (s.ctx c).regionOf t with | some e => e.2.cls == .uncovered | none => false)
    | none => false
/-- A result buffer of `n` bytes (file 04): valid, 64-byte aligned, wholly in UNCOVERED regions. -/
def State.bufferOk (s : State) (a : Word) (n : Nat) : Bool :=
  s.validAddr a.toNat && decide (a.toNat % 64 = 0) && decide (addrByte a.toNat + n ≤ Config.stackTiles * Config.tileBytes)
    && s.inUncovered a.toNat n
/-- An extent of logical tiles lies below N: the first tile at or beyond N is the detail (R125). -/
def Ctx.extentBad (x : Ctx) (first n : Nat) : Option Bad :=
  if first + n ≤ x.n then none else some (0x0303, max first x.n)
/-- The position is fenced in the context (R316). -/
def Ctx.fencedBad (x : Ctx) (p : Nat) : Option Bad := if (mget x.fences p).isSome then some (0x0502, p) else none
/-- Tiles of an extent, in order. -/
def extent (first n : Nat) : List Nat := (List.range n).map (first + ·)
/-- The first offending tile of an extent: one that `p` refuses, or one at or beyond N (R93). -/
def Ctx.tilesBad (x : Ctx) (first n : Nat) (p : Nat → Bool) : Option Bad :=
  match (extent first (min n (x.n - first))).find? p with
  | some t => some (0x0303, t)
  | none => x.extentBad first n

/-! ### Estimates (R119) and deadlines (R92, R121) -/

/-- Class of a command's work, with the class hint where it is honoured (R87, R109). -/
def workClass (r : OpRow) (c : Cmd) : Cls :=
  if r.hint ∧ c.hint = 2 then .d else if r.hint ∧ c.hint = 4 then .m else r.cls.getD .u
def Grant.of (g : Grant) : Cls → Nat
  | .u => g.u | .d => g.d | .k => g.kLow + g.kHigh | .m => g.m
/-- Bytes queued on a slice in a class. -/
def State.queuedBytes (s : State) (w : Cls) (slice : Nat) : Nat :=
  sum ((s.frames.pieces.filter (fun p => p.cls == w && p.slice == slice)).map (·.bytes))
/-- Frames until a slice has moved a command's bytes and those queued ahead, at the credit of the current plan; with no
credit, one aged piece a frame once the first ages. Class U is served in the current frame, within its credit. -/
def State.framesFor (s : State) (w : Cls) (slice bytes : Nat) : Nat :=
  let all := bytes + s.queuedBytes w slice
  let g := (s.slice slice).grant.of w
  if bytes = 0 then 0
  else if w = .u then ceilDiv all (max 1 (max g (s.slice slice).grant.credit)) - 1
  else if g > 0 then ceilDiv all g
  else s.frames.ageLimit.toNat + ceilDiv all (32 * 65536) - 1
/-- The estimate of R119 for work given as bytes on each slice. -/
def State.estimate (s : State) (w : Cls) (bytes : List (Nat × Nat)) : BitVec 32 :=
  s.frames.frame + BitVec.ofNat 32 (maxOf (bytes.map (fun e => s.framesFor w e.1 e.2)))
/-- REFUSED_BUDGET at admission (R92, R121), with the earliest frame that could be met. -/
def State.budgetBad (s : State) (r : OpRow) (c : Cmd) (bytes : List (Nat × Nat)) : Option Bad :=
  let est := if r.cls.isSome && s.frames.lock then s.estimate (workClass r c) bytes else s.frames.frame
  if c.deadline = 0 then none
  else if framePast c.deadline est then some (0x0202, est.toNat)
  else if c.pin ∧ r.cls.isSome ∧ (c.deadline = s.frames.frame ∨
      bytes.any (fun e =>
        let g := (s.slice e.1).grant.of (workClass r c)
        decide (g > 0) && decide (g < e.2 + sum ((s.frames.pieces.filter (fun p =>
          p.pinned == some c.deadline && p.slice == e.1)).map (·.bytes))))) then some (0x0202, (est + 1).toNat)
  else none

/-- Bytes of whole tiles by slice: `per` bytes for each tile of a context. -/
def State.bytesBySlice (s : State) (c per : Nat) (ts : List Nat) : List (Nat × Nat) :=
  let m := ts.foldl (fun (m : FMap Nat) t => mset m (s.tile c t).slice (mgetD m (s.tile c t).slice 0 + per)) []
  m

end Sys2Proof.Machine
end

