-- ==== Sys2Proof/Machine/Command.lean ====
section
/-!
DEFINITION. Machine/Command.lean: how the engine takes a command's header, checks it, admits it, begins it or lets it wait,
and acknowledges it (R49, R82, R86 to R95, R122, R467). Every command row is one call of `runCmd`.
-/
namespace Sys2Proof.Machine

/-- CMDQ_HEAD moves past `n` slots (R82). -/
def State.advanceHead (s : State) (n : Nat) : State :=
  { s with link := { s.link with cmdHead := BitVec.ofNat 16 ((s.link.cmdHead.toNat + n) % s.link.cmdSize.toNat) } }
/-- The command ring's room for one command (R82, R480). -/
def State.fitsRing (s : State) (l : Nat) : Bool := decide (flitsOf l ≤ s.link.cmdSize.toNat - 1)
/-- The engine takes commands: in service, with its ring enabled (R81, R455). -/
def State.accepts (s : State) : Bool := s.live && ringOk s.link.cmdSize

/-- Context map entries plus the tiles of its pools: the bound T of R21. -/
def Ctx.boundTiles (x : Ctx) : Nat :=
  x.n + x.crumb.tiles.length + x.proof.tiles.length + x.crustPool.tiles.length + x.publish.tiles.length
/-- The progress bound fixed at admission (R21). -/
def State.boundOf (s : State) (r : OpRow) (c : Cmd) : Nat :=
  sat 0xFFFF (if r.cnt.isSome then ceilDiv c.n 64
    else if r.kind = .engine then 0 else ceilDiv (s.ctx c.cid).boundTiles 64)

/-- A step of the context is open, awaited or held: it has begun and its verdict is not yet applied or undone (R153). -/
def Ctx.stepOpen (x : Ctx) : Bool :=
  match x.step with
  | some st => !st.awaitOnly
  | none => false
/-- Every state tile of an extent is a RAW tile (R140). -/
def TileRec.raw (r : TileRec) : Bool := r.word0.getLsbD 41
def State.allRaw (s : State) (c first n : Nat) : Bool := (extent first n).all (fun t => (s.tile c t).raw)
/-- A command whose work the sequencer cannot do while a guard freeze is held: it writes gate state or sends on the
fabric (R467). COUNTER_OP does so only for another engine's counter. -/
def State.needsThaw (s : State) (op : Byte) (c : Cmd) : Bool :=
  match op.toNat with
  | 0x11 | 0x21 | 0x22 | 0x31 | 0x53 | 0x60 | 0x61 | 0x62 | 0x63 | 0x65 | 0x70 | 0x71 | 0x82 | 0x83 | 0x84
  | 0x90 | 0x91 | 0x92 | 0x93 | 0xC2 => true
  | 0x20 => fld c.b 0 2 = 0
  | 0xB1 => fld c.a 16 5 != (s.ctx c.cid).own
  | _ => false
/-- STEP_ACCUMULATE and covered-writes taken after STEP_LOSS wait for the verdict (R271). -/
def State.afterLoss (s : State) (op : Byte) (c : Cmd) : Bool :=
  (op == 0x44 || (op == 0x43 && s.allRaw c.cid (fld c.a 0 32) c.n)) &&
  (match (s.ctx c.cid).step with | some st => !st.awaitOnly && st.loss.isSome | none => false)
/-- The commands admitted before one. -/
def State.earlier (s : State) (a : Adm) : List Adm :=
  (s.link.admitted.takeWhile (fun b => !(Adm.isAt a.c.cid a.c.tag b))).filter (fun b => b.c.cid == a.c.cid && b.counts)
/-- A command that has not begun because of its FENCE_BEFORE (R87). -/
def State.fenceWaits (s : State) (a : Adm) : Bool := !a.begun && a.c.fence && !(s.earlier a).isEmpty
/-- Why an admitted command cannot begin now. -/
inductive Wait where
  | order | lock | thaw | verdict
deriving DecidableEq, Repr
/-- The first reason for which a command must wait: an earlier command of its context that waits on its own FENCE_BEFORE
(R87, R91), a ROLLBACK in progress (R323), its own FENCE_BEFORE, lost lock (R122), a pinned frame that is not the plan's (R121), a guard freeze (R467), a closed step (R271). Cancel commands never wait (R99). -/
def State.waitFor (s : State) (a : Adm) : Option Wait :=
  if !a.counts then none
  else if (s.earlier a).any (fun b => s.fenceWaits b || b.op == 0x63) then some .order
  else if a.c.fence && !(s.earlier a).isEmpty then some .order
  else if s.afterLoss a.op a.c then some .verdict
  else if (rowOf a.op).cls.isSome && !s.frames.lock then some .lock
  else if (rowOf a.op).cls.isSome && a.c.pin && !(s.frames.planned && s.frames.frame == a.c.deadline) then some .order
  else if s.boot.guardFrz && s.needsThaw a.op a.c then some .thaw
  else none
/-- DEFERRED for a frame, once and again each time it moves later (R90). -/
def State.defer (s : State) (ctx : Nat) (tag : BitVec 16) (f : BitVec 32) : State :=
  match s.adm? ctx tag with
  | none => s
  | some a =>
    let later := match a.deferred with | none => true | some g => decide (g ≠ f) && (f == BitVec.allOnes 32 || framePast g f)
    if later then (s.reply a.op ctx tag 0x0100 f.toNat a.done).modAdm ctx tag (fun a => { a with deferred := some f }) else s
/-- Begin an admitted command when it may, else let it wait. -/
def State.beginOrWait (s : State) (a : Adm) (eff : Cmd → State → State) : State :=
  match s.waitFor a with
  | none => eff a.c (s.modAdm a.c.cid a.c.tag (fun a => { a with begun := true }))
  | some .lock | some .thaw => s.defer a.c.cid a.c.tag (BitVec.allOnes 32)
  | some _ => s
/-- ACCEPTED, placed where the admission stands among the flits produced (R87). -/
def State.ack (s : State) (at_ : Nat) (r : OpRow) (c : Cmd) (est : BitVec 32) : State :=
  if c.ackReq && (s.adm? c.cid c.tag).isSome then
    let d := if !s.frames.lock then 0 else if r.cls.isSome then est.toNat else c.deadline.toNat
    let t := s.reply r.op c.cid c.tag 0x0101 d
    let q := s.link.outq
    { s with link := { s.link with outq := q.take at_ ++ (t.link.outq.drop q.length) ++ q.drop at_ } }
  else s
/-- The record of a command at its admission. -/
def State.newAdm (s : State) (r : OpRow) (c : Cmd) : Adm :=
  let x := s.ctx c.cid
  { op := r.op, c := c, bound := s.boundOf r c, frame := s.frames.frame, seed := x.seed, inStep := x.stepOpen,
    stepIn := (x.lastStep.getD 0) }
/-- Admit a command whose checks have passed, and begin it if it may begin. `take` is what the engine does in the moment
it passes its checks (R86, R153), `eff` what it does when it begins. -/
def State.admitRun (s : State) (r : OpRow) (c : Cmd) (est : BitVec 32) (take eff : Cmd → State → State) : State :=
  let at_ := s.link.outq.length
  let a := s.newAdm r c
  let s := take c { s with link := { s.link with admitted := s.link.admitted ++ [a] } }
  (s.beginOrWait a eff).ack at_ r c est

/-- The checks of steps 7 to 11 of R95: bad operand or parameter fields by byte offset, then the command's own checks,
then the deadline. -/
def State.bodyBad (s : State) (r : OpRow) (fields : State → Cmd → List Nat) (chk : State → Cmd → Option Bad)
    (bytes : State → Cmd → List (Nat × Nat)) (c : Cmd) : Option Bad :=
  match firstOf (reservedBits c.a r.aMask 8 ++ reservedBits c.b r.bMask 16 ++ fields s c) with
  | some off => some (0x0302, off)
  | none => firstBad [chk s c, s.budgetBad r c (bytes s c)]

def noFields (_ : State) (_ : Cmd) : List Nat := []
def noCheck (_ : State) (_ : Cmd) : Option Bad := none
def noBytes (_ : State) (_ : Cmd) : List (Nat × Nat) := []
def noTake (_ : Cmd) (s : State) : State := s

/-- Refuse with a final reply and no effect. -/
def State.refuse (s : State) (r : OpRow) (c : Cmd) (e : Bad) : State := s.reply r.op c.cid c.tag e.1 e.2

/-- The engine takes one command's header and all its flits. A stopped clock wakes first (R439): a header that finds it stopped is
held at the pins until then. -/
def State.runCmd (s : State) (op : Byte) (fields : State → Cmd → List Nat) (chk : State → Cmd → Option Bad)
    (bytes : State → Cmd → List (Nat × Nat)) (take eff : Cmd → State → State) (c : Cmd) : State :=
  let r := rowOf op
  if !s.live then
    if s.up && s.boot.fault = 0 then s.count 25 (flitsOf c.len) else s
  else if !s.accepts then s
  else if c.len ≥ 512 ∨ s.fitsRing c.len = false then
    let s := s.wake.advanceHead (if s.fitsRing c.len then flitsOf c.len else 1)
    if (s.adm? c.cid c.tag).isSome then s.count 24 else s.reply op c.cid c.tag 0x0301 c.len
  else
    let s := s.wake.advanceHead (flitsOf c.len)
    if (s.adm? c.cid c.tag).isSome then s.count 24
    else match s.headerBad r c with
      | some e => s.refuse r c e
      | none =>
        if r.cnt.isSome ∧ c.n = 0 then s.reply op c.cid c.tag 0 0
        else match s.bodyBad r fields chk bytes c with
          | some e => s.refuse r c e
          | none => s.admitRun r c (s.estimate (workClass r c) (bytes s c)) take eff

/-- DONE, with a detail. -/
def State.done (s : State) (c : Cmd) (detail : Nat) : State := s.finish c.cid c.tag 0 detail

/-- The opcode is one of Table 4.4. -/
def opKnown (op : Byte) : Bool := opRows.any (fun r => r.op == op)
/-- MALFORMED_COMMAND (R49, R82, R101): discarded whole, answered BAD_LENGTH once; a command that could not fit the ring
moves CMDQ_HEAD past its header alone. A command that is whole and has an opcode outside Table 4.4 is answered BAD_OPCODE (R94). -/
def execMalformedCommand (op : Byte) (tag : BitVec 16) (ctx : BitVec 4) (len : BitVec 16) (flits : Nat) (s : State) :
    Host.Outcome State Fault Refusal :=
  let whole := decide (len.toNat < 512) && s.fitsRing len.toNat && decide (flits = flitsOf len.toNat)
  if !s.live then .next (if s.up && s.boot.fault = 0 then s.count 25 flits else s)
  else if !s.accepts || (whole && opKnown op) then .next s
  else
    let s := s.wake.advanceHead (if s.fitsRing len.toNat then flits else 1)
    .next (if (s.adm? ctx.toNat tag).isSome then s.count 24
      else if whole then s.reply op ctx.toNat tag 0x0300 op.toNat
      else s.reply op ctx.toNat tag 0x0301 len.toNat)

/-! ### Commands of the engine that move no data -/

/-- NOP. -/
def effNop (c : Cmd) (s : State) : State := s.done c 0
def execNop (c : Cmd) (s : State) : Host.Outcome State Fault Refusal :=
  .next (s.runCmd 0x00 noFields noCheck noBytes noTake effNop c)

/-- PING: DONE echoes A[31:0]. -/
def effPing (c : Cmd) (s : State) : State := s.done c (fld c.a 0 32)
def execPing (c : Cmd) (s : State) : Host.Outcome State Fault Refusal :=
  .next (s.runCmd 0x01 noFields noCheck noBytes noTake effPing c)

/-- QUERY_CAPS (R476): four registers and 32 zero bytes to the result buffer. -/
def chkQueryCaps (s : State) (c : Cmd) : Option Bad := check (s.bufferOk c.a 64) badRange
def effQueryCaps (c : Cmd) (s : State) : State :=
  let l := bytesOfWord s.lyxCaps ++ bytesOfWord s.lyxId ++ bytesOfWord s.lyxFw ++ bytesOfWord s.lyxFuse ++ List.replicate 32 0
  (s.portDie c.a.toNat l).done c (fld s.lyxCaps 0 32)
def execQueryCaps (c : Cmd) (s : State) : Host.Outcome State Fault Refusal :=
  .next (s.runCmd 0x02 noFields chkQueryCaps noBytes noTake effQueryCaps c)

/-- READ_COUNTERS (R485). -/
def chkReadCounters (s : State) (c : Cmd) : Option Bad :=
  check (decide (fld c.b 0 9 + c.n ≤ 384) && s.bufferOk c.a (8 * c.n)) badRange
def effReadCounters (c : Cmd) (s : State) : State :=
  let ws := (List.range c.n).map (fun i => s.counterWord (fld c.b 0 9 + i) s.ctrSlice c.cid)
  let s := s.portDie c.a.toNat (ws.flatMap bytesOfWord)
  (s.modAdm c.cid c.tag (fun a => { a with done := c.n })).done c c.n
def fieldsReadCounters (_ : State) (c : Cmd) : List Nat := badAt (decide (fld c.b 0 9 > 383)) 16
def execReadCounters (c : Cmd) (s : State) : Host.Outcome State Fault Refusal :=
  .next (s.runCmd 0x03 fieldsReadCounters chkReadCounters noBytes noTake effReadCounters c)

/-- SET_EVENT_MASK (R97): the context's mask, or the engine-wide one; the detail is the previous mask. -/
def effSetEventMask (c : Cmd) (s : State) : State :=
  let m := BitVec.ofNat 16 (fld c.a 0 16)
  if c.b.getLsbD 0 then
    State.done { s with link := { s.link with mask := m } } c s.link.mask.toNat
  else (s.modCtx c.cid (fun x => { x with mask := m })).done c (s.ctx c.cid).mask.toNat
def execSetEventMask (c : Cmd) (s : State) : Host.Outcome State Fault Refusal :=
  .next (s.runCmd 0x04 noFields noCheck noBytes noTake effSetEventMask c)

/-- POWER_ENVELOPE (R58, R483): the driver's envelope; the detail is the previous value. -/
def effPowerEnvelope (c : Cmd) (s : State) : State :=
  State.done { s with power := { s.power with envelope := BitVec.ofNat 16 (fld c.a 0 16) } } c s.power.envelope.toNat
def execPowerEnvelope (c : Cmd) (s : State) : Host.Outcome State Fault Refusal :=
  .next (s.runCmd 0xA0 noFields noCheck noBytes noTake effPowerEnvelope c)

/-- CAL_USER_SET (R445): the detail is the trim in force. -/
def fieldsCalUserSet (_ : State) (c : Cmd) : List Nat := badAt (trimRange (fld c.a 0 12)).isNone 8
def effCalUserSet (c : Cmd) (s : State) : State :=
  let i := fld c.a 0 12
  let s := s.setTrim i (BitVec.ofNat 16 (fld c.b 0 16))
  s.done c (mgetD s.win.trims i 0).toNat
def execCalUserSet (c : Cmd) (s : State) : Host.Outcome State Fault Refusal :=
  .next (s.runCmd 0xA1 fieldsCalUserSet noCheck noBytes noTake effCalUserSet c)

/-- RISK_WEIGHTS (R449). -/
def fieldsRiskWeights (s : State) (c : Cmd) : List Nat :=
  let w := (List.range 8).flatMap (fun i =>
    let v := fld (c.param 0) (8 * i) 8
    let f := (calWeight i).value s
    badAt (decide (v ≠ 0) && (decide (v < ceilDiv f 2) || decide (v > min 255 (2 * f)) || decide (f = 0))) (32 + i))
  let th := (List.range 7).map (fun i => fld (c.param 1) (8 * i) 8)
  let zero := th.all (· == 0)
  let t := if zero then [] else badAt (decide (th.getD 0 0 = 0)) 40 ++
    (List.range 6).flatMap (fun i => badAt (decide (th.getD (i + 1) 0 < th.getD i 0)) (41 + i))
  let d := fld (c.param 1) 56 4
  w ++ t ++ badAt (decide (d ≠ 0) && (decide (d < 4) || decide (14 < d))) 47 ++ badAt (decide (fld (c.param 1) 60 4 ≠ 0)) 47
def effRiskWeights (c : Cmd) (s : State) : State :=
  let th := (List.range 7).map (fun i => BitVec.ofNat 8 (fld (c.param 1) (8 * i) 8))
  let d := fld (c.param 1) 56 4
  let h := s.health
  State.done { s with health := { h with
    weights := (List.range 8).map (fun i => BitVec.ofNat 8 (fld (c.param 0) (8 * i) 8)),
    thresholds := if th.all (· == 0) then h.thresholds else some th,
    decay := if d = 0 then h.decay else BitVec.ofNat 4 d } } c 0
def execRiskWeights (c : Cmd) (s : State) : Host.Outcome State Fault Refusal :=
  .next (s.runCmd 0xA2 fieldsRiskWeights noCheck noBytes noTake effRiskWeights c)

/-- HEALTH_MODE (R450): every change of mode clears a_7 and every lateness history. -/
def effHealthMode (c : Cmd) (s : State) : State :=
  let m := BitVec.ofNat 2 (fld c.a 0 2)
  let old := s.health.mode
  let s := if m = old then s else
    { s with health := { s.health with mode := m, a := s.health.a.take 7 ++ [0] }, fab := { s.fab with lateness := [] } }
  s.done c old.toNat
def execHealthMode (c : Cmd) (s : State) : Host.Outcome State Fault Refusal :=
  .next (s.runCmd 0xA3 noFields noCheck noBytes noTake effHealthMode c)

end Sys2Proof.Machine
end

