-- ==== Sys2Proof/Machine/Gf.lean ====
section
/-!
DEFINITION. Machine/Gf.lean: the code over GF(2^8) (R236, R237, R255), solving for lost loaves (R321), and the plane-and-elide
packing of crumbs (R247).
-/
namespace Sys2Proof.Machine

/-- Product modulo 0x11D; `n` bits of `b` are still to go. -/
def gfMulN : Nat → Nat → Nat → Nat
  | 0, _, _ => 0
  | n + 1, a, b =>
    let a2 := if a * 2 ≥ 256 then (a * 2) ^^^ 0x11D else a * 2
    (if b % 2 = 1 then a else 0) ^^^ gfMulN n a2 (b / 2)
def gfMul (a b : Nat) : Nat := gfMulN 8 a b
/-- The inverse, 0 for 0. -/
def gfInv (a : Nat) : Nat := ((List.range 256).find? (fun b => gfMul a b == 1)).getD 0
/-- Coefficient of data slot i in crust row j (R237). -/
def coef (m j i : Nat) : Nat := gfInv (j ^^^ (m + i))
/-- Every byte of a tile times a coefficient. -/
def gfTile (c : Nat) (v : Tile) : Tile :=
  if v = 0 then 0 else
  tileOfBytes ((bytesOfTile v).map (fun b => if b = 0 then 0 else BitVec.ofNat 8 (gfMul c b.toNat)))

/-- Rows of a linear system over GF(2^8): coefficients and the number of the right side they combine. -/
abbrev GfRow := List Nat × FMap Nat
def gfRowScale (c : Nat) (r : GfRow) : GfRow := (r.1.map (gfMul c), r.2.map (fun e => (e.1, gfMul c e.2)))
def gfMapAdd (a b : FMap Nat) : FMap Nat := b.foldl (fun m e => mset m e.1 (mgetD m e.1 0 ^^^ e.2)) a
def gfRowAdd (a b : GfRow) : GfRow := (List.zipWith (· ^^^ ·) a.1 b.1, gfMapAdd a.2 b.2)
/-- Clear column `col` from every row but the pivot. -/
def gfClear (col : Nat) (pivot : GfRow) (rows : List GfRow) : List GfRow :=
  rows.map (fun r => if r.1.getD col 0 = 0 then r else gfRowAdd r (gfRowScale (r.1.getD col 0) pivot))
/-- Gauss elimination over the columns from `col` on; none where the system is singular. -/
def gfSolve : Nat → Nat → List GfRow → List GfRow → Option (List GfRow)
  | 0, _, done, _ => some done.reverse
  | n + 1, col, done, rows =>
    match rows.find? (fun r => r.1.getD col 0 != 0) with
    | none => none
    | some p =>
      let pivot := gfRowScale (gfInv (p.1.getD col 0)) p
      let rest := gfClear col pivot (dropFirst (· == p) rows)
      gfSolve n (col + 1) (pivot :: gfClear col pivot done) rest
/-- Coefficient of each available slot in lost slot y: slots 0 to k−1 are data, k to k+m−1 crust rows; `avail` are the
chosen slots, k of them. Data that are available stand as they are; the unknown data slots are solved from the crust
rows chosen; a lost crust row is then formed from the data. -/
def decodeCoefs (k m : Nat) (avail : List Nat) (y : Nat) : Option (FMap Nat) :=
  let known := avail.filter (· < k)
  let unknown := (List.range k).filter (fun i => !known.contains i)
  let rows : List GfRow := (avail.filter (fun x => decide (k ≤ x))).map (fun x =>
    (unknown.map (fun i => coef m (x - k) i),
     gfMapAdd [(x, 1)] ((known.map (fun i => (i, coef m (x - k) i))))))
  match gfSolve unknown.length 0 [] rows with
  | none => none
  | some sol =>
    let data := fun (i : Nat) => if known.contains i then [(i, 1)] else
      ((unknown.zipIdx).findSome? (fun e => if e.1 = i then (sol.getD e.2 ([], [])).2 else none)).getD []
    if y < k then some ((data y).filter (fun e => e.2 != 0))
    else some (((List.range k).foldl (fun acc i =>
      gfMapAdd acc ((data i).map (fun e => (e.1, gfMul (coef m (y - k) i) e.2)))) []).filter (fun e => e.2 != 0))

/-! ### Plane-and-elide (R247) -/

/-- Bytes of an element by its PLANES code (Table 11.5). -/
def planeBytes (p : BitVec 2) : Nat := if p = 0 then 1 else if p = 1 then 2 else 4
/-- Byte p of element e goes to place p × (65,536 / w) + e. -/
def shuffle (w : Nat) (l : List Byte) : List Byte :=
  if w = 1 then l
  else (List.range w).flatMap (fun p => ((l.zipIdx).filter (fun e => e.2 % w == p)).map Prod.fst)
def unshuffle (w : Nat) (l : List Byte) : List Byte :=
  if w = 1 then l
  else
    let planes := (List.range w).map (fun p => (l.drop (p * (65536 / w))).take (65536 / w))
    match planes with
    | [a, b] => (List.zip a b).flatMap (fun e => [e.1, e.2])
    | [a, b, c, d] => (List.zip (List.zip a b) (List.zip c d)).flatMap (fun e => [e.1.1, e.1.2, e.2.1, e.2.2])
    | _ => l
/-- One group of 64 bytes: its mask, then its non-zero bytes. -/
def packGroup (g : List Byte) : List Byte :=
  let mask := (g.zipIdx).foldl (fun a e => if e.1 = 0 then a else a + 2 ^ e.2) 0
  bytesOfNat 8 mask ++ g.filter (· != 0)
def packBody (w : Nat) (v : Tile) : List Byte := (chunks 64 1024 (shuffle w (bytesOfTile v))).flatMap packGroup
/-- The body a crumb is stored and shipped with, and whether it is raw. -/
def packCrumb (planes : BitVec 2) (v : Tile) : List Byte × Bool :=
  let b := packBody (planeBytes planes) v
  if b.length > 65536 then (bytesOfTile v, true) else (b, false)
/-- The 64 bytes a mask spreads the next non-zero bytes over. -/
def spread : Nat → Nat → List Byte → List Byte × List Byte
  | 0, _, l => ([], l)
  | n + 1, mask, l =>
    if mask % 2 = 1 then
      let r := spread n (mask / 2) (l.drop 1)
      (l.headD 0 :: r.1, r.2)
    else
      let r := spread n (mask / 2) l
      (0 :: r.1, r.2)
def unpackGroups : Nat → List Byte → List Byte
  | 0, _ => []
  | n + 1, l =>
    let r := spread 64 (natOfBytes (l.take 8)) (l.drop 8)
    r.1 ++ unpackGroups n r.2
def unpackCrumb (planes : BitVec 2) (raw : Bool) (body : List Byte) : Tile :=
  if raw then tileOfBytes body else tileOfBytes (unshuffle (planeBytes planes) (unpackGroups 1024 body))

/-- A crumb record of a delta (R247, R248). -/
def crumbOf (delta : Tile) (planes : BitVec 2) : Crumb :=
  let b := packCrumb planes delta
  { delta := delta, planes := planes, len := b.1.length, raw := b.2 }
/-- Pool lines of a record (R147). -/
def Crumb.lines (c : Crumb) : Nat := if c.raw then 1024 else ceilDiv c.len 64
/-- Bits [20:0] of the descriptor. -/
def Crumb.desc (c : Crumb) : BitVec 21 :=
  pack [(0, if c.raw then 65536 else c.len), (17, bit c.raw), (18, c.planes.toNat), (20, bit c.erased)]

end Sys2Proof.Machine
end

