-- ==== Sys2Proof/Machine/Pools.lean ====
section
/-!
DEFINITION. Machine/Pools.lean: which stack tiles are free, how pools take them (R142 to R146), and POOL_SIZE.
-/
namespace Sys2Proof.Machine

/-! ### Free stack tiles -/

def Ctx.homes (x : Ctx) : List (Nat × Nat) := x.tiles.map (fun e => (e.2.slice, e.2.stack))
def Ctx.poolTiles (x : Ctx) : List (Nat × Nat) := x.crumb.tiles ++ x.proof.tiles ++ x.crustPool.tiles ++ x.publish.tiles
/-- Every stack tile that a context holds. -/
def Ctx.holding (x : Ctx) : List (Nat × Nat) := x.homes ++ x.store ++ x.mapArea ++ x.poolTiles ++ x.group.heldTiles
def onSlice (i : Nat) (l : List (Nat × Nat)) : List Nat := (l.filter (fun e => e.1 == i)).map Prod.snd
/-- Stack tiles of a slice that any context holds. -/
def State.usedOn (s : State) (i : Nat) : List Nat := onSlice i ((mvals s.ctxs).flatMap Ctx.holding)
/-- The `n` highest tiles below `lim` outside a list. -/
def pickHigh (used : List Nat) : Nat → Nat → Nat → List Nat
  | 0, _, _ => []
  | f + 1, lim, n =>
    if n = 0 ∨ lim = 0 then []
    else if used.contains (lim - 1) then pickHigh used f (lim - 1) n
    else (lim - 1) :: pickHigh used f (lim - 1) (n - 1)
def highFree (used : List Nat) (n : Nat) : List Nat := pickHigh used (n + used.length + 1) Config.stackTiles n
/-- The `n` lowest tiles from `lo` on outside a list. -/
def pickLow (used : List Nat) : Nat → Nat → Nat → List Nat
  | 0, _, _ => []
  | f + 1, lo, n =>
    if n = 0 ∨ lo ≥ Config.stackTiles then []
    else if used.contains lo then pickLow used f (lo + 1) n
    else lo :: pickLow used f (lo + 1) (n - 1)
def lowFree (used : List Nat) (n : Nat) : List Nat := pickLow used (n + used.length + 1) 0 n
def freeOf (used : List Nat) : Nat := Config.stackTiles - used.dedup.length
def State.freeOn (s : State) (i : Nat) : Nat := freeOf (s.usedOn i)

/-! ### Shares (R142) -/

/-- An even division: the tiles left over go one each to the first. -/
def evenShares (size : Nat) (ss : List Nat) : List (Nat × Nat) :=
  (ss.zipIdx).map (fun e => (e.1, size / ss.length + if e.2 < size % ss.length then 1 else 0))
/-- A division in proportion to weights, the tiles left over going to the largest remainders, ties to the lower slice. -/
def propShares (size : Nat) (ws : List (Nat × Nat)) : List (Nat × Nat) :=
  let total := sum (ws.map Prod.snd)
  if total = 0 then evenShares size (ws.map Prod.fst)
  else
    let left := size - sum (ws.map (fun w => size * w.2 / total))
    let byRest := sortBy (fun w => total - size * w.2 % total) ws
    let extra := (byRest.take left).map Prod.fst
    ws.map (fun w => (w.1, size * w.2 / total + if extra.contains w.1 then 1 else 0))
/-- The crust pool's homes (R257): loaf i has one on present slice i mod S and one on the next. -/
def crustShares (size : Nat) (ss : List Nat) : List (Nat × Nat) :=
  let s := ss.length
  let loaves := size / 64
  let at_ := fun (j : Nat) => if s = 0 then 0 else loaves / s + if j % s < loaves % s then 1 else 0
  (ss.zipIdx).map (fun e => (e.1, 32 * (at_ e.2 + at_ (e.2 + s - 1)) + (if e.2 < size % 64 % s then 1 else 0) + size % 64 / s))

/-- Tiles of a context on a slice whose class passes. -/
def State.tilesOn (s : State) (c i : Nat) (f : Cover → Bool) : Nat :=
  let x := s.ctx c
  (x.tiles.filter (fun e => e.2.slice == i && f (x.cover e.1))).length
def Cover.crumbed : Cover → Bool
  | .delta => true | .replica => true | _ => false
def Cover.covered : Cover → Bool
  | .delta => true | .snapshot => true | _ => false
/-- Pool codes of Table 4.4: 0 crumb, 1 proof, 2 crust, 3 publish. -/
def Ctx.pool (x : Ctx) : Nat → Pool
  | 0 => x.crumb | 1 => x.proof | 2 => x.crustPool | _ => x.publish
def Ctx.setPool (x : Ctx) (k : Nat) (p : Pool) : Ctx :=
  match k with
  | 0 => { x with crumb := p } | 1 => { x with proof := p } | 2 => { x with crustPool := p } | _ => { x with publish := p }
/-- Each present slice's share of a pool of `size` tiles (Table 6.5). -/
def State.poolShares (s : State) (c k size : Nat) : List (Nat × Nat) :=
  let ss := s.presentSlices
  match k with
  | 0 => propShares size (ss.map (fun i => (i, s.tilesOn c i Cover.crumbed)))
  | 1 => propShares size (ss.map (fun i => (i, s.tilesOn c i (· == .snapshot))))
  | 2 => crustShares size ss
  | _ => evenShares size ss
/-- Tiles of a pool on a slice. -/
def State.poolOn (s : State) (c k i : Nat) : Nat := (onSlice i ((s.ctx c).pool k).tiles).length

/-! ### Tiles in use -/

def TileRec.records (r : TileRec) : List Crumb := [r.f, r.o, r.p, r.sb, r.sp, r.ex].filterMap id
/-- Lines that a tile's records take (R147, R394). -/
def TileRec.lines (r : TileRec) : Nat := sum (r.records.map Crumb.lines)
/-- Crumb-pool lines in use on a slice. -/
def State.crumbLines (s : State) (c i : Nat) : Nat :=
  sum (((s.ctx c).tiles.filter (fun e => e.2.slice == i)).map (fun e => e.2.lines))
/-- Lines of a slice's share of the crumb pool, and those free. -/
def State.shareLines (s : State) (c i : Nat) : Nat := 1024 * s.poolOn c 0 i
def State.freeLines (s : State) (c i : Nat) : Nat := s.shareLines c i - s.crumbLines c i
/-- Copies held for the bakes and the export on a slice. -/
def State.bakeCopies (s : State) (c i : Nat) : Nat :=
  sum (((s.ctx c).tiles.filter (fun e => e.2.slice == i)).map (fun e =>
    Machine.bit e.2.proofOld.isSome + Machine.bit e.2.proofNew.isSome + Machine.bit e.2.exCopy.isSome))
/-- Proof tiles reserved for the live branches of a context on a slice (R409). -/
def State.branchTiles (s : State) (c i : Nat) : Nat :=
  sum ((s.branches.filter (fun b => b.2.ctx.toNat == c)).map (fun b => mgetD b.2.space i 0))
def State.proofUsed (s : State) (c i : Nat) : Nat := s.bakeCopies c i + s.branchTiles c i
/-- Tiles of a pool in use on a slice. -/
def State.poolUsed (s : State) (c k i : Nat) : Nat :=
  match k with
  | 0 => ceilDiv (s.crumbLines c i) 1024
  | 1 => s.proofUsed c i
  | 2 => 0
  | _ => (onSlice i ((s.ctx c).targets.flatMap (fun t => t.2.buf))).length

/-! ### Taking tiles -/

/-- Tiles that a pool of given shares lacks beyond the free tiles. -/
def State.poolShort (s : State) (c k : Nat) (shares : List (Nat × Nat)) : Nat :=
  sum (shares.map (fun e => (e.2 - s.poolOn c k e.1) - s.freeOn e.1))
/-- The pool at given shares: tiles in use stay, the others are kept from the highest. -/
def State.placePool (s : State) (c k : Nat) (shares : List (Nat × Nat)) : State :=
  let p := (s.ctx c).pool k
  let bufs := if k = 3 then (s.ctx c).targets.flatMap (fun t => t.2.buf) else []
  let tiles := shares.flatMap (fun e =>
    let mine := onSlice e.1 bufs
    let cur := mine ++ (onSlice e.1 p.tiles).filter (fun t => !mine.contains t)
    ((cur ++ highFree (s.usedOn e.1) (e.2 - cur.length)).take e.2).map (fun t => (e.1, t)))
  s.modCtx c (fun x => x.setPool k { x.pool k with tiles := tiles })
/-- REFUSED_POOL with the pool and the tiles short (Table 4.5). -/
def refusedPool (k short : Nat) : Bad := (0x0201, k * 2 ^ 30 + sat 0x3FFFFFFF short)
/-- The size a pool takes by default (R143, Table 6.5); the crust pool never falls below its requirement (R146). -/
def State.defaultSize (s : State) (c k : Nat) : Nat :=
  let x := s.ctx c
  let n := fun (f : Cover → Bool) => (x.tiles.filter (fun e => f (x.cover e.1))).length
  match k with
  | 0 => ceilDiv (35 * n (· == .delta)) 100
  | 1 => 2 * n (· == .snapshot) + x.reserve
  | 2 => match x.group.cfg with
    | some g => x.group.crustNeed g
    | none => 0
  | _ => 0
def State.targetSize (s : State) (c k : Nat) : Nat :=
  let p := (s.ctx c).pool k
  if k = 2 then max (s.defaultSize c 2) (if p.sized then p.tiles.length else 0)
  else if p.sized then p.tiles.length else s.defaultSize c k
/-- Shares of the target size, each no smaller than the tiles in use there (R143). -/
def State.targetShares (s : State) (c k : Nat) : List (Nat × Nat) :=
  (s.poolShares c k (s.targetSize c k)).map (fun e => (e.1, max e.2 (s.poolUsed c k e.1)))
/-- A pool whose size is not the driver's own follows its default. -/
def State.poolFollows (s : State) (c k : Nat) : Bool := k == 2 || !((s.ctx c).pool k).sized
/-- The default of a pool cannot be covered by the free tiles. -/
def State.defaultBad (s : State) (c k : Nat) : Option Bad :=
  if s.poolFollows c k then
    let n := s.poolShort c k (s.targetShares c k)
    check (decide (n = 0)) (refusedPool k n)
  else none
def State.applyDefault (s : State) (c k : Nat) : State :=
  if s.poolFollows c k then s.placePool c k (s.targetShares c k) else s
/-- The bake reserve of R300 on every slice: two copies of each snapshot tile beside the branches' tiles. -/
def State.reserveBad (s : State) (c : Nat) (share : Nat → Nat) : Option Bad :=
  let short := sum (s.presentSlices.map (fun i => (2 * s.tilesOn c i (· == .snapshot) + s.branchTiles c i) - share i))
  check (decide (short = 0)) (refusedPool 1 short)
/-- The pools that a region change recomputes (R143, R300), checked on the state after the change. -/
def State.regionPoolsBad (s : State) (c : Nat) : Option Bad :=
  let x := s.ctx c
  firstBad ([0, 1].map (fun k => if (x.pool k).tiles.isEmpty then none else s.defaultBad c k)
    ++ [if x.group.joined then s.defaultBad c 2 else none,
        if x.group.joined && (x.pool 1).sized then s.reserveBad c (s.poolOn c 1) else none])
def State.regionPools (s : State) (c : Nat) : State :=
  let s := s.each [0, 1] (fun s k => if ((s.ctx c).pool k).tiles.isEmpty then s else s.applyDefault c k)
  if (s.ctx c).group.joined then s.applyDefault c 2 else s

/-- The early-seal stage of a slice ends when half its share is free (Table 11.9). -/
def State.relieve (s : State) (c i : Nat) : State :=
  if (s.slice i).earlySeal.contains c && decide (s.shareLines c i ≤ 2 * s.freeLines c i) then
    s.modSlice i (fun sl => { sl with earlySeal := sl.earlySeal.erase c })
  else s
def State.relieveAll (s : State) (c : Nat) : State := s.each s.presentSlices (fun s i => s.relieve c i)

/-! ### POOL_SIZE (R145) -/

def fieldsPoolSize (_ : State) (c : Cmd) : List Nat :=
  match fld c.a 0 2 with
  | 0 => reservedBits c.b 7 16 ++ badAt (decide (fld c.b 0 3 > 4)) 16
  | 1 => reservedBits c.b 0xFFFFFFFF 16
  | _ => reservedBits c.b 0 16
def chkPoolSize (s : State) (c : Cmd) : Option Bad :=
  let k := fld c.a 0 2
  let sh := s.poolShares c.cid k c.n
  let short := s.poolShort c.cid k sh
  let crustNeed := if k = 2 then s.defaultSize c.cid 2 else 0
  let share := fun (i : Nat) => ((sh.find? (fun e => e.1 == i)).map Prod.snd).getD 0
  firstBad [
    check (sh.all (fun e => decide (s.poolUsed c.cid k e.1 ≤ e.2))) (0x0400, 8),
    check (decide (crustNeed ≤ c.n)) (refusedPool k (crustNeed - c.n)),
    check (decide (short = 0)) (refusedPool k short),
    if k = 1 && (s.ctx c.cid).group.joined then s.reserveBad c.cid share else none]

end Sys2Proof.Machine
end

