-- ==== Sys2Proof/Machine/TileMap.lean ====
section
/-!
DEFINITION. Machine/TileMap.lean: loading a tile map (R126 to R130), and giving up the stack tiles of an old one.
-/
namespace Sys2Proof.Machine

def tmSlice (w : Word) : Nat := fld w 24 5
def tmStack (w : Word) : Nat := fld w 0 21
/-- Reserved bits of word 0 (Table 6.1), or SLICE 24 to 30. -/
def tmForm (w : Word) : Bool :=
  decide (w &&& 0xFFFFFC00E0E00000 ≠ 0) || (decide (24 ≤ tmSlice w) && decide (tmSlice w ≤ 30))
/-- An entry of its own that R127 refuses. -/
def State.entryBad (s : State) (foreign : Bool) (w : Word) : Bool :=
  tmForm w || (!foreign && decide (tmSlice w < 24) && (!s.present (tmSlice w) || decide (tmStack w ≥ Config.stackTiles)))
/-- Slice of Table 6.2. -/
def State.entrySlice (s : State) (foreign : Bool) (t : Nat) (w : Word) : Nat :=
  if tmSlice w = 31 then s.presentSlice (t % s.presentSlices.length)
  else if foreign then s.presentSlice (tmSlice w % s.presentSlices.length)
  else tmSlice w
def explicit (foreign : Bool) (w : Word) : Bool := !foreign && decide (tmSlice w ≠ 31)

/-- The map area's stack tiles. -/
def areaTiles (a n : Nat) : List (Nat × Nat) :=
  (List.range (ceilDiv (addrByte a % 65536 + 16 * n) 65536)).map (fun i => (addrSlice a, addrByte a / 65536 + i))
/-- The map area lies wholly in a present slice's tiles and is 64-byte aligned (R127). -/
def State.areaOk (s : State) (a : Word) (n : Nat) : Bool :=
  s.validAddr a.toNat && decide (a.toNat % 64 = 0) && decide (addrByte a.toNat + 16 * n ≤ Config.stackTiles * Config.tileBytes)
/-- Word 0 of each entry. -/
def State.mapWords (s : State) (a n : Nat) : List Word :=
  (List.range n).map (fun t => wordAt (s.readDie (a + 16 * t) 8) 0)
/-- Stack tiles on a slice that a new map of a context may not take: those of other contexts and of its own pools. -/
def State.foreignTiles (s : State) (c i : Nat) : List Nat :=
  onSlice i (s.ctxs.flatMap (fun e => if e.1 = c then e.2.poolTiles else e.2.holding))

/-- Explicit claims in order: the tiles claimed, and the logical tiles that claim a held one. -/
def State.claims (s : State) (c : Nat) (foreign : Bool) (ws : List Word) : List (Nat × Nat) × List Nat :=
  (ws.zipIdx).foldl (fun (acc : List (Nat × Nat) × List Nat) e =>
    if explicit foreign e.1 && !s.entryBad foreign e.1 then
      let p := (tmSlice e.1, tmStack e.1)
      if acc.1.contains p || (s.foreignTiles c p.1).contains p.2 then (acc.1, acc.2 ++ [e.2]) else (acc.1 ++ [p], acc.2)
    else acc) ([], [])
/-- Placement of every entry (R128): its slice and stack tile, and the logical tiles that find no place. -/
def State.places (s : State) (c : Nat) (foreign : Bool) (ws : List Word) (claimed : List (Nat × Nat)) :
    List (Nat × Nat) × List Nat :=
  let autoOn := fun (i : Nat) => ((ws.zipIdx).filter (fun e => !explicit foreign e.1 && s.entrySlice foreign e.2 e.1 == i)).length
  let free := s.presentSlices.map (fun i => (i, lowFree (s.foreignTiles c i ++ onSlice i claimed) (autoOn i)))
  let r := (ws.zipIdx).foldl (fun (acc : List (Nat × Nat) × List Nat × FMap (List Nat)) e =>
    if explicit foreign e.1 then (acc.1 ++ [(tmSlice e.1, tmStack e.1)], acc.2.1, acc.2.2)
    else
      let i := s.entrySlice foreign e.2 e.1
      match mgetD acc.2.2 i [] with
      | [] => (acc.1 ++ [(i, 0)], acc.2.1 ++ [e.2], acc.2.2)
      | t :: ts => (acc.1 ++ [(i, t)], acc.2.1, mset acc.2.2 i ts)) ([], [], free)
  (r.1, r.2.1)
/-- The map store's tiles (R129): over the present slices in turn, the highest that the placement leaves free. -/
def State.storeTiles (s : State) (c : Nat) (taken : List (Nat × Nat)) (n : Nat) : Option (List (Nat × Nat)) :=
  let ss := s.presentSlices
  (List.range n).foldl (fun acc j =>
    match acc with
    | none => none
    | some l =>
      ((List.range ss.length).findSome? (fun d =>
        let i := ss.getD ((j + d) % ss.length) 0
        match highFree (s.foreignTiles c i ++ onSlice i (taken ++ l)) 1 with
        | [t] => some (i, t)
        | _ => none)).map (fun p => l ++ [p])) (some [])
/-- The outcome of a load of given words: the first failure, or places and store; the map area's tiles are not free. -/
def State.planWords (s : State) (c : Nat) (foreign : Bool) (ws : List Word) (area : List (Nat × Nat)) :
    Except Bad (List Word × List (Nat × Nat) × List (Nat × Nat)) :=
  let form := ((ws.zipIdx).filter (fun e => s.entryBad foreign e.1)).map Prod.snd
  let cl := s.claims c foreign ws
  let pl := s.places c foreign ws cl.1
  match firstOf (form ++ cl.2 ++ pl.2) with
  | some t => .error (0x0303, t)
  | none =>
    match s.storeTiles c (pl.1 ++ area) (ceilDiv ws.length 512) with
    | none => .error badRange
    | some st => .ok (ws, pl.1, st)
def State.planMap (s : State) (c : Nat) (foreign : Bool) (a n : Nat) :
    Except Bad (List Word × List (Nat × Nat) × List (Nat × Nat)) := s.planWords c foreign (s.mapWords a n) (areaTiles a n)
/-- A COARSE entry covers the stack tile. -/
def Slice.coarse (sl : Slice) (t : Nat) : Bool := sl.ranges.any (fun e => e.2.kind == 1 && e.2.coarse && e.2.covers t)
/-- The engine gives up a stack tile: no hold of its own and no trap stays on it (R74). -/
def State.freeStack (s : State) (i t : Nat) : State :=
  s.modSlice i (fun sl =>
    let st := if sl.coarse t then TileState.exempt else .normal
    let sl := { sl with holds := merase sl.holds t, copies := sl.copies.filter (fun j => j.tile != t),
                        copyQ := sl.copyQ.filter (fun j => j.tile != t) }
    if sl.state t = .normal ∧ !sl.parked.contains t then sl else (sl.setState t st).settle t)
/-- Every home of the context's map is given up. -/
def State.freeHomes (s : State) (c : Nat) : State := s.each (s.ctx c).homes (fun s p => s.freeStack p.1 p.2)

/-- The map-store entry of a tile just placed; its dirty bit is set (R148, R391). -/
def State.freshTile (s : State) (w : Word) (p : Nat × Nat) : TileRec :=
  let e := (s.slice p.1).coarse p.2
  { word0 := w, slice := p.1, stack := p.2, dirty := true, exempt := e, ret := if e then .exempt else .normal }
/-- The new map in force; its area, where it has one, starts at a die address. -/
def State.loadMap (s : State) (c : Nat) (foreign : Bool) (a : Nat) (area : List (Nat × Nat)) (ws : List Word) (ps store : List (Nat × Nat)) : State :=
  let s := s.freeHomes c
  s.modCtx c (fun x => { x with
    n := ws.length, foreign := foreign, mapAddr := BitVec.ofNat 64 a, mapArea := area, store := store,
    tiles := ((List.zip ws ps).zipIdx).map (fun e => (e.2, s.freshTile e.1.1 e.1.2)) })

/-- The checks of R127, and STATE_CONFLICT reason 3. -/
def chkSetTilemap (s : State) (c : Cmd) : Option Bad :=
  firstBad [
    check (s.areaOk c.a c.n) badRange,
    match s.planMap c.cid (c.b.getLsbD 0) c.a.toNat c.n with
    | .error e => some e
    | .ok _ => none,
    if (s.ctx c.cid).group.joined || !(s.ctx c.cid).regions.isEmpty then conflict 3 else none]
/-- The load itself. -/
def State.setTilemap (s : State) (c : Cmd) : State :=
  match s.planMap c.cid (c.b.getLsbD 0) c.a.toNat c.n with
  | .error _ => s
  | .ok (ws, ps, st) => s.loadMap c.cid (c.b.getLsbD 0) c.a.toNat (areaTiles c.a.toNat c.n) ws ps st

end Sys2Proof.Machine
end

