-- ==== Sys2Proof/Machine/Regions.lean ====
section
/-!
DEFINITION. Machine/Regions.lean: PROTECT entries and their coarsening (R65, R77 to R79), and the region commands with the
changes that wait for a change seal (R132 to R139, R492).
-/
namespace Sys2Proof.Machine

/-! ### PROTECT entries -/

/-- Runs of consecutive numbers in an ascending list. -/
def runsOf : List Nat → List (Nat × Nat)
  | [] => []
  | t :: l => match runsOf l with
    | [] => [(t, t)]
    | (a, b) :: r => if t + 1 = a then (t, b) :: r else (t, t) :: (a, b) :: r
/-- Stack tiles on a slice of logical tiles of a context, ascending. -/
def State.stacksOn (s : State) (c : Nat) (ts : List Nat) (i : Nat) : List Nat :=
  sortBy id ((ts.filter (fun t => (s.tile c t).slice == i)).map (fun t => (s.tile c t).stack))
def Slice.generalUsed (sl : Slice) : Nat := (sl.ranges.filter (fun e => decide (e.1 < Config.generalRanges))).length
def Slice.freeGeneral (sl : Slice) : Option Nat := (List.range Config.generalRanges).find? (fun i => (mget sl.ranges i).isNone)
/-- PROTECT entries by first tile. -/
def Slice.protects (sl : Slice) : List (Nat × RangeEntry) := sortBy (fun e => e.2.first) (sl.ranges.filter (fun e => e.2.kind == 1))
/-- The pair with the fewest tiles between, ties to the lower first tile. -/
def Slice.closest (sl : Slice) : Option ((Nat × RangeEntry) × (Nat × RangeEntry)) :=
  let l := sl.protects
  (List.zip l (l.drop 1)).foldl (fun best p =>
    match best with
    | none => some p
    | some b => if p.2.2.first - p.1.2.last < b.2.2.first - b.1.2.last then some p else some b) none
/-- A tile of the gap becomes EXEMPT, or will when its hold or trap ends. -/
def State.exemptStack (s : State) (i t : Nat) : State :=
  let s := match s.owner i t with
    | some (c, l) => s.modTile c l (fun r => { r with exempt := true, ret := if r.ret = .normal then .exempt else r.ret })
    | none => s
  if (s.slice i).state t = .normal then s.modSlice i (fun sl => sl.setState t .exempt) else s
/-- One merge of the loop of R77. -/
def State.mergeOne (s : State) (i : Nat) : State :=
  match (s.slice i).closest with
  | none => s
  | some (a, b) =>
    let s := s.each ((List.range (b.2.first - a.2.last - 1)).map (a.2.last + 1 + ·)) (fun s t => s.exemptStack i t)
    let e : RangeEntry := { first := a.2.first, last := max a.2.last b.2.last, kind := 1, coarse := true,
                            ctx := if a.2.ctx = b.2.ctx then a.2.ctx else 0 }
    s.modSlice i (fun sl => { sl with ranges := mset (merase sl.ranges b.1) a.1 e })
/-- Merge until `need` general entries are free, as far as pairs remain. -/
def State.coarsen (s : State) (i need : Nat) : Nat → State
  | 0 => s
  | f + 1 =>
    if (s.slice i).generalUsed + need ≤ Config.generalRanges ∨ (s.slice i).closest.isNone then s
    else (s.mergeOne i).coarsen i need f
/-- A frame in which a region is held for coarsening is counted once (R79). -/
def State.noteCoarse (s : State) (i : Nat) : State :=
  if (s.slice i).coarsening then s else (s.countSlice i 9).modSlice i (fun sl => { sl with coarsening := true })
/-- Install the entry of a run. -/
def State.installRun (s : State) (c i : Nat) (r : Nat × Nat) : State :=
  let s := if (s.slice i).freeGeneral.isNone then s.mergeOne i else s
  match (s.slice i).freeGeneral with
  | none => s
  | some k => s.modSlice i (fun sl => { sl with
      ranges := mset sl.ranges k { first := r.1, last := r.2, kind := 1, ctx := BitVec.ofNat 4 c } })
/-- A tile becomes COVER_DELTA: its base state is NORMAL (R78). -/
def State.normalTile (s : State) (c t : Nat) : State :=
  let r := s.tile c t
  let s := s.modTile c t (fun r => { r with exempt := false, ret := if r.ret = .exempt then .normal else r.ret })
  if (s.slice r.slice).state r.stack = .exempt then s.modSlice r.slice (fun sl => sl.setState r.stack .normal) else s
/-- Entries for COVER_DELTA tiles of a context (R65, R77); the number of entries. -/
def State.protect (s : State) (c : Nat) (ts : List Nat) : State × Nat :=
  let r := s.presentSlices.foldl (fun (acc : State × Nat) i =>
    let runs := runsOf (s.stacksOn c ts i)
    let s := acc.1
    let s := if (s.slice i).generalUsed + runs.length > Config.generalRanges then
      (s.noteCoarse i).coarsen i runs.length Config.generalRanges else s
    (s.each runs (fun s r => s.installRun c i r), acc.2 + runs.length)) (s, 0)
  (r.1.each ts (fun s t => s.normalTile c t), r.2)
/-- A tile that needs its PROTECT entry: COVER_DELTA, or entering it (R137). -/
def Ctx.protects (x : Ctx) (t : Nat) : Bool :=
  match x.regionOf t with
  | some e => e.2.cls == .delta || (match e.2.change with | some ch => ch.goal == some .delta | none => false)
  | none => false
def State.entryNeeded (s : State) (i : Nat) (e : RangeEntry) : Bool :=
  s.ctxs.any (fun x => x.2.tiles.any (fun r => r.2.slice == i && e.covers r.2.stack && x.2.protects r.1))
/-- Entries that no COVER_DELTA tile needs any more are cleared; a tile that leaves a COARSE entry's class is EXEMPT
(R78). The tiles' class has changed already. -/
def State.unprotect (s : State) (c : Nat) (ts : List Nat) : State :=
  s.each s.presentSlices (fun s i =>
    let mine := s.stacksOn c ts i
    s.each ((s.slice i).ranges.filter (fun e => e.2.kind == 1 && mine.any e.2.covers)) (fun s e =>
      if s.entryNeeded i e.2 then s.each (mine.filter e.2.covers) (fun s t => s.exemptStack i t)
      else s.modSlice i (fun sl => { sl with ranges := merase sl.ranges e.1 })))

/-! ### Classes -/

def coverOf : Nat → Cover
  | 0 => .delta | 1 => .snapshot | 2 => .replica | _ => .uncovered
/-- Bad fields of a replica word at byte 32 (R135). -/
def Ctx.replicaBad (x : Ctx) (w : Word) : List Nat :=
  reservedBits w 0x9F9F9F9F 32 ++
  (List.range 4).flatMap (fun i => badAt (w.getLsbD (8 * i + 7) && fld w (8 * i) 5 == x.own) (32 + i))
def noRaw : Cover → Bool
  | .snapshot => true | .replica => true | _ => false
/-- A tile that a class does not admit: a RAW one in a SNAPSHOT or REPLICA region (R132, R133), or one whose home lies in a map
area where the class is not UNCOVERED (R130). -/
def State.classRefuses (s : State) (c : Nat) (cls : Cover) (t : Nat) : Bool :=
  (noRaw cls && (s.tile c t).raw) || (decide (cls ≠ .uncovered) &&
    s.ctxs.any (fun x => x.2.mapArea.contains ((s.tile c t).slice, (s.tile c t).stack)))
/-- A change that a bake must carry (R137). -/
def Ctx.bakes (x : Ctx) (old new : Cover) : Bool := x.group.joined && decide (old ≠ new) && (old.covered || new.covered)
/-- The refusals of R137. -/
def Ctx.changeBad (x : Ctx) (r : Option Region) : Option Bad :=
  firstBad [
    if x.bake.sealed ≠ 0 then some (0x0402, x.bake.sealed.toNat) else none,
    if x.stepOpen then conflict 8 else none,
    match r with
    | some reg => if reg.change.isSome then conflict 8 else none
    | none => none]
/-- Tiles moving into or out of COVER_DELTA or COVER_REPLICA while a step awaits its verdict (R492). -/
def Ctx.stepBad (x : Ctx) (old new : Cover) : Option Bad :=
  if x.stepOpen && decide (old ≠ new) && (old.crumbed || new.crumbed) then conflict 8 else none
/-- A region of a live branch. -/
def State.branched (s : State) (c r : Nat) : Bool := s.branches.any (fun b => b.2.ctx.toNat == c && b.2.region == r)
def Region.tiles (r : Region) : List Nat := extent r.first r.count

/-- The context with a region changed, as the pools will see it. -/
def State.withRegion (s : State) (c n : Nat) (r : Option Region) : State :=
  s.modCtx c (fun x => { x with regions := mput x.regions n r })
/-- A tile that holds no crumb record. -/
def TileRec.dropRecords (r : TileRec) : TileRec := { r with f := none, o := none, p := none, sb := none, sp := none }
/-- Discard the crumb records that the tiles hold. -/
def State.dropCrumbs (s : State) (c : Nat) (ts : List Nat) : State :=
  (s.each ts (fun s t => s.modTile c t TileRec.dropRecords)).relieveAll c

/-- A change of class takes effect (R492, R65): records dropped where tiles leave a crumbed class, entries installed and
removed. -/
def State.changeNow (s : State) (c n : Nat) (old : Option Region) (new : Option Region) : State × Nat :=
  let was : Cover := (old.map (·.cls)).getD .uncovered
  let now : Cover := (new.map (·.cls)).getD .uncovered
  let ts := match new with
    | some r => r.tiles
    | none => (old.map Region.tiles).getD []
  let s := s.withRegion c n new
  let s := if was.crumbed && !now.crumbed then s.dropCrumbs c ts else s
  let s := if was = .delta ∧ now ≠ .delta then s.unprotect c ts else s
  let r := if now = .delta ∧ was ≠ .delta then s.protect c ts else (s, 0)
  (r.1.regionPools c, r.2)

/-! ### REGION_DEFINE -/

def fieldsRegionDefine (s : State) (c : Cmd) : List Nat :=
  if fld c.b 0 2 = 2 then (s.ctx c.cid).replicaBad (c.param 0) else []
def regionNo (c : Cmd) : Nat := fld c.a 32 8
def newRegion (c : Cmd) : Region :=
  { first := fld c.a 0 32, count := c.n, cls := coverOf (fld c.b 0 2), pgroup := BitVec.ofNat 8 (fld c.b 8 8),
    replica := c.param 0 }
def chkRegionDefine (s : State) (c : Cmd) : Option Bad :=
  let x := s.ctx c.cid
  let r := newRegion c
  firstBad [
    x.tilesBad r.first r.count (fun t => (x.regionOf t).isSome || s.classRefuses c.cid r.cls t),
    if (mget x.regions (regionNo c)).isSome then conflict 8 else none,
    if x.bakes .uncovered r.cls then x.changeBad none else none,
    (s.withRegion c.cid (regionNo c) (some r)).regionPoolsBad c.cid]
/-- Wait for the change seal: the goal is kept, the pools set aside, DEFERRED sent (R137, R143). -/
def State.awaitSeal (s : State) (c : Cmd) (n : Nat) (r : Region) (goal : Option Cover) (word : Word) : State :=
  let after := s.withRegion c.cid n (goal.map (fun g => { r with cls := g, replica := word }))
  let pools := (after.regionPools c.cid).ctx c.cid
  let s := s.withRegion c.cid n (some { r with change := some { goal := goal, word := word, tag := c.tag } })
  let s := s.modCtx c.cid (fun x => { x with crumb := if pools.crumb.tiles.length ≥ x.crumb.tiles.length then pools.crumb else x.crumb,
                                              proof := if pools.proof.tiles.length ≥ x.proof.tiles.length then pools.proof else x.proof,
                                              crustPool := if pools.crustPool.tiles.length ≥ x.crustPool.tiles.length then pools.crustPool else x.crustPool })
  let p := if goal = some .delta ∧ r.cls ≠ .delta then s.protect c.cid r.tiles else (s, 0)
  let s := p.1.modAdm c.cid c.tag (fun a => { a with aux := some p.2 })
  s.defer c.cid c.tag (BitVec.allOnes 32)
def effRegionDefine (c : Cmd) (s : State) : State :=
  let r := newRegion c
  if (s.ctx c.cid).bakes .uncovered r.cls then s.awaitSeal c (regionNo c) { r with cls := .uncovered } (some r.cls) r.replica
  else
    let p := s.changeNow c.cid (regionNo c) none (some r)
    p.1.done c p.2
def execRegionDefine (c : Cmd) (s : State) : Host.Outcome State Fault Refusal :=
  .next (s.runCmd 0x20 fieldsRegionDefine chkRegionDefine noBytes noTake effRegionDefine c)

/-! ### REGION_SET_CLASS -/

def fieldsRegionSetClass (s : State) (c : Cmd) : List Nat :=
  badAt (mget (s.ctx c.cid).regions (fld c.a 0 8)).isNone 8
    ++ (if fld c.b 0 2 = 2 then (s.ctx c.cid).replicaBad (c.param 0) else [])
def State.region (s : State) (c n : Nat) : Region := mgetD (s.ctx c).regions n { first := 0, count := 0, cls := .uncovered }
def chkRegionSetClass (s : State) (c : Cmd) : Option Bad :=
  let x := s.ctx c.cid
  let n := fld c.a 0 8
  let r := s.region c.cid n
  let g := coverOf (fld c.b 0 2)
  firstBad [
    x.tilesBad r.first r.count (s.classRefuses c.cid g),
    if s.branched c.cid n then conflict 8 else none,
    if x.bakes r.cls g then x.changeBad (some r) else (if r.change.isSome then conflict 8 else none),
    x.stepBad r.cls g,
    (s.withRegion c.cid n (some { r with cls := g })).regionPoolsBad c.cid]
def effRegionSetClass (c : Cmd) (s : State) : State :=
  let n := fld c.a 0 8
  let r := s.region c.cid n
  let g := coverOf (fld c.b 0 2)
  if (s.ctx c.cid).bakes r.cls g then s.awaitSeal c n r (some g) (c.param 0)
  else (s.changeNow c.cid n (some r) (some { r with cls := g, replica := c.param 0 })).1.done c 0
def execRegionSetClass (c : Cmd) (s : State) : Host.Outcome State Fault Refusal :=
  .next (s.runCmd 0x21 fieldsRegionSetClass chkRegionSetClass noBytes noTake effRegionSetClass c)

/-! ### REGION_RELEASE -/

def fieldsRegionRelease (s : State) (c : Cmd) : List Nat := badAt (mget (s.ctx c.cid).regions (fld c.a 0 8)).isNone 8
def chkRegionRelease (s : State) (c : Cmd) : Option Bad :=
  let x := s.ctx c.cid
  let n := fld c.a 0 8
  let r := s.region c.cid n
  firstBad [
    if s.branched c.cid n then conflict 8 else none,
    if x.bakes r.cls .uncovered then x.changeBad (some r) else (if r.change.isSome then conflict 8 else none),
    x.stepBad r.cls .uncovered,
    (s.withRegion c.cid n none).regionPoolsBad c.cid]
def effRegionRelease (c : Cmd) (s : State) : State :=
  let n := fld c.a 0 8
  let r := s.region c.cid n
  if (s.ctx c.cid).bakes r.cls .uncovered then s.awaitSeal c n r none 0
  else (s.changeNow c.cid n (some r) none).1.done c r.count
def execRegionRelease (c : Cmd) (s : State) : Host.Outcome State Fault Refusal :=
  .next (s.runCmd 0x22 fieldsRegionRelease chkRegionRelease noBytes noTake effRegionRelease c)

/-! ### The change seal (R138) -/

/-- What the changes of one region do to a member's record: every member makes the same change. A region that leaves
coverage keeps its record until the job-wide commit of the bake that carries the change. -/
def JoinRec.change (n : Nat) (r : Region) (goal : Option Cover) (j : JoinRec) : JoinRec :=
  let here := j.regions.find? (fun e => e.region == n)
  let rest := j.regions.filter (fun e => e.region != n)
  match goal with
  | none => { j with regions := rest }
  | some g =>
    { j with regions := rest ++ [{ region := n, cls := g, tiles := (here.map (·.tiles)).getD r.count }] }
/-- Each waiting change takes effect: its tiles are trapped and contribute full values; open crumbs of tiles that enter
COVER_DELTA and every record of tiles that leave COVER_REPLICA (R492) are discarded; the command is answered. -/
def State.changeSeal (s : State) (c : Nat) : State :=
  let waiting := (s.ctx c).regions.filter (fun e => e.2.change.isSome)
  let s := s.each waiting (fun s e =>
    match e.2.change with
    | none => s
    | some ch =>
      let old := { e.2 with change := none }
      let new := ch.goal.map (fun g => { old with cls := g, replica := ch.word })
      let s := s.withRegion c e.1 new
      let s := if e.2.cls = .replica then s.each old.tiles (fun s t => s.modTile c t TileRec.dropRecords)
        else if ch.goal = some .delta then
        s.each old.tiles (fun s t => s.modTile c t (fun r => { r with o := none, p := none })) else s
      let s := if e.2.cls = .delta ∧ ch.goal ≠ some .delta then s.unprotect c old.tiles else s
      let s := s.each old.tiles (fun s t => s.trap c t)
      let s := s.modCtx c (fun x => { x with
        group := if (ch.goal.getD .uncovered).covered then
          { x.group with recs := x.group.recs.map (JoinRec.change e.1 old ch.goal) } else x.group,
        bake := { x.bake with fullTiles := old.tiles.foldl insertAsc x.bake.fullTiles, was := mset x.bake.was e.1 old,
                              leaving := if e.2.cls.covered ∧ (ch.goal.getD .uncovered).covered = false
                                         then mset x.bake.leaving e.1 old else x.bake.leaving } })
      match s.adm? c ch.tag with
      | none => s
      | some a => s.finish c ch.tag 0 (if a.op = 0x22 then old.count else (a.aux.getD 0) * (if a.op = 0x20 then 1 else 0)))
  if waiting.isEmpty then s else (s.relieveAll c).regionPools c

end Sys2Proof.Machine
end

