-- ==== Sys2Proof/Machine/Crumbs.lean ====
section
/-!
DEFINITION. Machine/Crumbs.lean: the crumb records of a tile (R246 to R250), the pressure path of a slice's share of the crumb
pool (R262 to R267), and BACKGROUND_FOLD.
-/
namespace Sys2Proof.Machine

/-- The change that a record holds; none is no change. -/
def deltaOf (c : Option Crumb) : Tile := (c.map (·.delta)).getD 0
def TileRec.freshDelta (r : TileRec) : Tile := deltaOf r.f
/-- The open crumb O ⊕ P, and the sealed one. -/
def TileRec.openDelta (r : TileRec) : Tile := deltaOf r.o ^^^ deltaOf r.p
def TileRec.sealedDelta (r : TileRec) : Tile := deltaOf r.sb ^^^ deltaOf r.sp
def TileRec.hasOpen (r : TileRec) : Bool := r.o.isSome || r.p.isSome

/-- A record with a further delta: the packing follows the older record (R247, R250); an empty one is not kept (R246). -/
def addRec (old : Option Crumb) (d : Tile) (planes : BitVec 2) (line : BitVec 32) : Option Crumb :=
  let v := deltaOf old ^^^ d
  if v = 0 then none else some { crumbOf v ((old.map (·.planes)).getD planes) with line := line }
/-- Fold P into O (R250). -/
def TileRec.fold (r : TileRec) (line : BitVec 32) : TileRec :=
  match r.p with
  | none => r
  | some p => { r with o := addRec r.o p.delta p.planes line, p := none }
/-- Fold the sealed pending record into the sealed base (R250, drain). -/
def TileRec.foldSealed (r : TileRec) (line : BitVec 32) : TileRec :=
  match r.sp with
  | none => r
  | some p => { r with sb := addRec r.sb p.delta p.planes line, sp := none }
/-- A delta formed inside a step: P is folded first, so that a tile with F never has P. -/
def TileRec.addFresh (r : TileRec) (d : Tile) (planes : BitVec 2) (line : BitVec 32) : TileRec :=
  let r := if r.f.isNone then r.fold line else r
  { r with f := addRec r.f d planes line }
/-- A delta formed outside a step; a self-erased tile keeps none (R265). -/
def TileRec.addOpen (r : TileRec) (d : Tile) (planes : BitVec 2) (line : BitVec 32) : TileRec :=
  if r.erasedOpen then r else { r with p := addRec r.p d planes line }

/-! ### Pressure (R262 to R267) -/

/-- Payload of EV_CRUMB_PRESSURE. -/
def State.pressureEvent (s : State) (c i action : Nat) : State :=
  s.emit 0x0023 2 (some c) [(0, s.freeLines c i / 1024), (4, s.shareLines c i / 1024), (8, action), (12, (s.ctx c).holdsNow)]
/-- Early seal begins (Table 11.9). -/
def State.press (s : State) (c i : Nat) : State :=
  if !(s.slice i).earlySeal.contains c && decide (4 * s.freeLines c i < s.shareLines c i) then
    let s := s.modSlice i (fun sl => { sl with earlySeal := insertAsc sl.earlySeal c })
    (s.countCtx c 39).pressureEvent c i 0
  else s
/-- The margin floor in force: one above the group's m is taken as m (R145). -/
def Ctx.floorNow (x : Ctx) : Nat :=
  match x.group.cfg with
  | some g => min x.floor g.m
  | none => x.floor
/-- The tile's offset is designated for its data slot (R264). -/
def Ctx.designated (x : Ctx) (t : Nat) : Bool :=
  match x.group.cfg, x.batchOfTile t with
  | some g, some (b, i, o) =>
    let k : Int := (g.k : Int)
    decide ((((i : Int) - (o : Int) - (batchB b : Int)) % k).toNat < g.m - x.floor)
  | _, _ => false
/-- Tiles of a slice that may be spilled, in the order of R264. -/
def State.spillable (s : State) (c i : Nat) : List Nat :=
  let x := s.ctx c
  let es := x.tiles.filter (fun e => e.2.slice == i && x.cover e.1 == .delta && e.2.hasOpen && !e.2.erasedOpen && !e.2.inExport
    && x.group.joined && x.designated e.1)
  let weight := fun (r : TileRec) => sum (([r.o, r.p].filterMap id).map Crumb.lines)
  (sortBy (fun e => 4096 - weight e.2) es).map Prod.fst
/-- Both open records are dropped and the tile is self-erased. -/
def State.spillTile (s : State) (c t : Nat) : State :=
  (s.modTile c t (fun r => { r with o := none, p := none, erasedOpen := true })).countCtx c 41
/-- The records that `upd` makes fit the share. -/
def State.fits (s : State) (c t : Nat) (upd : TileRec → TileRec) : Bool :=
  let r := s.tile c t
  decide ((upd r).lines ≤ r.lines + s.freeLines c r.slice)
/-- Spill in order until the record fits. -/
def State.spillFor (s : State) (c t : Nat) (upd : TileRec → TileRec) : List Nat → Option State
  | [] => none
  | v :: vs =>
    let s := s.spillTile c v
    if s.fits c t upd then some s else s.spillFor c t upd vs
/-- Make room for a record, or none where the slice must hold (R262, R264). -/
def State.makeRoom (s : State) (c t : Nat) (upd : TileRec → TileRec) : Option State :=
  if s.fits c t upd then some s
  else
    let i := (s.tile c t).slice
    match s.spillFor c t upd (s.spillable c i) with
    | none => none
    | some s' =>
      let s' := s'.countCtx c 40
      some (if (s.ctx c).spillRaised then s' else
        (s'.pressureEvent c i 1).modCtx c (fun x => { x with spillRaised := true }))
/-- The record change made, the stages of the slice judged anew. -/
def State.putRec (s : State) (c t : Nat) (upd : TileRec → TileRec) : State :=
  let i := (s.tile c t).slice
  let s := (s.modTile c t upd).modSlice i (fun sl => { sl with holdStage := sl.holdStage.erase c })
  (s.press c i).relieve c i
/-- A frame of a slice's hold stage: the event once, the frame counted once for the context (Table 11.9, R268). -/
def State.holdFrame (s : State) (c i : Nat) : State :=
  let first := bit (decide ((s.ctx c).holdsNow = 0))
  let s := s.modCtx c (fun x => { x with holdsNow := x.holdsNow + 1 })
  (s.countCtx c 44 first).pressureEvent c i 2
/-- The slice enters or stays in the hold stage: it begins nothing whose crumb it cannot place (R267). -/
def State.holdStage (s : State) (c i : Nat) : State :=
  if (s.slice i).holdStage.contains c then s
  else (s.modSlice i (fun sl => { sl with holdStage := insertAsc sl.holdStage c })).holdFrame c i

/-! ### Forming a crumb -/

/-- What a delta does to its tile's records: fresh inside a step, open outside one in a group, nothing else (R141, R172,
R241). -/
def Ctx.recordUpd (x : Ctx) (t : Nat) (d : Tile) (planes : BitVec 2) (line : BitVec 32) : TileRec → TileRec :=
  if !(x.cover t).crumbed || d = 0 then id
  else if x.stepOpen then fun r => r.addFresh d planes line
  else if x.group.joined then fun r => r.addOpen d planes line
  else id
/-- Counters of R268 for a delta. -/
def State.countCrumb (s : State) (c : Nat) (d : Tile) (planes : BitVec 2) (r : TileRec) : State :=
  if d = 0 then s.countCtx c 22
  else
    let k := crumbOf d planes
    let s := ((s.countCtx c 21).countCtx c 23 (bit k.raw)).countCtx c 24 k.len
    if (s.ctx c).stepOpen && r.f.isNone && r.p.isSome then s.countCtx c 25 else s
/-- A delta takes its place in the pool and in the tile's records; the slice's room has been made (R391: the tile is dirty). -/
def State.fileCrumb (s : State) (c t : Nat) (d : Tile) (planes : BitVec 2) (line : BitVec 32) : State :=
  let x := s.ctx c
  if !(x.cover t).crumbed ∨ (!x.stepOpen ∧ !x.group.joined) then s
  else
    let s := s.countCrumb c d planes (s.tile c t)
    if d = 0 then s
    else s.putRec c t (fun r => { x.recordUpd t d planes line r with dirty := true })

/-! ### BACKGROUND_FOLD (R250) -/

def execBackgroundFold (ctx : BitVec 4) (t : Nat) (s : State) : Host.Outcome State Fault Refusal :=
  let c := ctx.toNat
  if !(s.running && s.locked) || (s.tile c t).p.isNone || (s.tile c t).f.isSome then .next s
  else
    let (line, s) := s.free
    match s.makeRoom c t (fun r => r.fold line) with
    | none => .next s
    | some s => .next ((s.putRec c t (fun r => r.fold line)).countCtx c 26)

end Sys2Proof.Machine
end

