-- ==== Sys2Proof/Machine/Fabric.lean ====
section
/-!
DEFINITION. Machine/Fabric.lean: transfers and their header (Table 15.1), request slots, keys and tags, the checks on what comes
in (Table 15.4), proving counters (R25), and the signs of a lost member (R313, R314).
-/
namespace Sys2Proof

/-! ### Header fields (Table 15.1) -/

def Xfer.num (x : Xfer) (off n : Nat) : Nat := Machine.fld x.hdr (8 * off) (8 * n)
def Xfer.typ (x : Xfer) : Nat := x.num 0 1
def Xfer.resp (x : Xfer) : Bool := x.hdr.getLsbD 8
def Xfer.slot (x : Xfer) : BitVec 10 := BitVec.ofNat 10 (Machine.fld x.hdr 16 10)
def Xfer.peel (x : Xfer) : Nat := Machine.fld x.hdr 26 1
def Xfer.src (x : Xfer) : Nat := Machine.fld x.hdr 32 5
def Xfer.dst (x : Xfer) : Nat := Machine.fld x.hdr 40 5
def Xfer.ctx (x : Xfer) : Nat := Machine.fld x.hdr 48 4
def Xfer.clsCode (x : Xfer) : Nat := Machine.fld x.hdr 52 4
def Xfer.units (x : Xfer) : Nat := Machine.fld x.hdr 56 5
def Xfer.status (x : Xfer) : Nat := Machine.fld x.hdr 61 3
def Xfer.echo (x : Xfer) : Nat := x.num 32 7
def Xfer.epoch (x : Xfer) : BitVec 8 := BitVec.ofNat 8 (x.num 40 1)
def Xfer.seq (x : Xfer) : BitVec 56 := BitVec.ofNat 56 (x.num 41 7)
def Xfer.word (x : Xfer) (off : Nat) : Word := BitVec.ofNat 64 (x.num off 8)
/-- A request's own BODY bytes 8 to 39, as one header field. -/
def Xfer.body (x : Xfer) : List (Nat × Nat) := [(8, x.num 8 32)]
/-- An adoption notice in phase 1 that its own position sends (R317, R327). -/
def Xfer.ownNotice (x : Xfer) : Bool :=
  x.typ == 0x20 && !x.resp && x.num 8 1 == 2 && x.num 10 1 == 1 && (Machine.wordAt x.payload 0).toNat % 32 == x.src
def Xfer.batch (x : Xfer) : BitVec 32 := if x.typ = 0x10 ∨ x.typ = 0x12 ∨ x.typ = 0x13 then BitVec.ofNat 32 (x.num 8 4) else 0

end Sys2Proof

namespace Sys2Proof.Machine

def Cls.code : Cls → Nat
  | .u => 1 | .d => 2 | .k => 3 | .m => 4
def Cls.ofCode : Nat → Cls
  | 1 => .u | 2 => .d | 3 => .k | _ => .m
/-- LOAD and STORE pass untagged (R349). -/
def untagged (typ : Nat) : Bool := typ == 1 || typ == 2
/-- Header bytes whose bits the type's row of Table 15.2 names, for a request and a response: (byte, bits). -/
def bodyBits (typ : Nat) (resp : Bool) : List (Nat × Nat) :=
  let full := fun (lo n : Nat) => ((List.range n).map (fun i => (lo + i, 0xFF)) : List (Nat × Nat))
  if resp then (if typ = 3 then full 16 8 else []) ++ (if untagged typ then [] else full 32 7)
  else match typ with
    | 0x03 => [(8, 0xFF), (9, 0x3F)] ++ full 16 12
    | 0x10 => full 8 8 ++ [(16, 3), (17, 0x1F), (18, 0x1F), (20, 0xFF), (21, 0xFF), (22, 0x1F), (24, 0xFF)]
    | 0x11 => full 12 8
    | 0x12 => full 8 8 ++ full 16 3 ++ full 20 4 ++ [(24, 0x1F)]
    | 0x13 => full 8 8 ++ full 16 2 ++ full 20 4 ++ [(24, 0xFF)]
    | 0x20 => [(8, 0xFF), (9, 0x1F), (10, 0xFF)] ++ full 12 4
    | 0x21 => [(8, 0xFF)] ++ full 12 8 ++ [(20, 0x1F)]
    | 0x22 => [(8, 0x1F), (9, 0xFF)] ++ full 12 4
    | _ => []
/-- Every bit that a transfer of a type may carry. -/
def headerMask (typ : Nat) (resp : Bool) : Nat :=
  let common := [(0, 0xFF), (1, 7), (2, 0xFF), (3, 7), (4, 0x1F), (5, if untagged typ then 0 else 0x1F), (6, 0xFF),
    (7, if resp then 0xFF else 0x1F)]
  let tail := if untagged typ then [] else (List.range 20).map (fun i => (40 + i, 0xFF))
  (common ++ bodyBits typ resp ++ tail).foldl (fun a f => a ||| (f.2 <<< (8 * f.1))) 0
def typeValid (typ : Nat) : Bool :=
  [0x01, 0x02, 0x03, 0x04, 0x10, 0x11, 0x12, 0x13, 0x20, 0x21, 0x22].contains typ
/-- Check 2 of Table 15.4. -/
def formOk (x : Xfer) : Bool :=
  typeValid x.typ && (x.resp || !untagged x.typ) && decide (x.hdr.toNat &&& headerMask x.typ x.resp = x.hdr.toNat)
    && decide (x.units ≤ 16)

/-! ### What the plan lets out (R105, R107, R116) -/

/-- The plan in force issued the piece of a tile's work; class U needs none. -/
def State.granted (s : State) (w : Cls) (c : Nat) (tag : Option (BitVec 16)) (t : Nat) : Bool :=
  w == .u || (s.frames.planned && s.frames.pieces.any (fun p =>
    p.issued && p.cls == w && p.ctx.toNat == c && p.tag == tag && p.tiles.contains t))
/-- That piece has aged (R113). -/
def State.agedWork (s : State) (w : Cls) (c : Nat) (tag : Option (BitVec 16)) (t : Nat) : Bool :=
  s.frames.pieces.any (fun p => p.aged && p.cls == w && p.ctx.toNat == c && p.tag == tag && p.tiles.contains t)
/-- Percentage of the fabric credit that bounds a class (R116). -/
def Frames.capOf (f : Frames) : Cls → Nat
  | .u => 100 | .d => f.dCap.toNat | .k => f.kCap.toNat | .m => f.mCap.toNat
/-- A fabric piece of `n` bytes may leave on a peel and level: within the class's cap and the credit, and for classes K and M
not on a level that the peel marks saturated; else only as the aged piece of its class and level in this frame (R113, R116). The
second part says that it leaves as the aged piece. -/
def State.fabricFits (s : State) (w : Cls) (peel lvl n : Nat) (aged : Bool) : Bool × Bool :=
  let f := s.frames
  let held := (w == .k || w == .m) && (s.peel peel).sat.getLsbD lvl
  let used := mgetD f.fabUsed w.idx 0
  let all := sum (mvals f.fabUsed)
  if w == .u || (!held && decide (100 * (used + n) ≤ f.fabCredit * f.capOf w) && decide (all + n ≤ f.fabCredit)) then (true, false)
  else (aged && !f.agedOut.contains (2 * w.idx + lvl), true)
/-- A fabric piece is charged to its class. -/
def State.chargeFabric (s : State) (w : Cls) (lvl n : Nat) (asAged : Bool) : State :=
  let s := s.count (5 + w.idx) (bit asAged)
  { s with
    frames := { s.frames with
      fabUsed := mset s.frames.fabUsed w.idx (mgetD s.frames.fabUsed w.idx 0 + n),
      agedOut := if asAged then s.frames.agedOut ++ [2 * w.idx + lvl] else s.frames.agedOut } }

/-! ### Keys and tags (R356 to R359) -/

def keyBytes (k : BitVec 128) : List Byte := bytesOfNat 16 k.toNat
/-- The key whose epoch a transfer names, while that epoch is accepted (R358). -/
def Keys.keyAt (k : Keys) (e : BitVec 8) : Option (BitVec 128) :=
  if e = k.epoch then k.cur
  else if e = k.epoch + 1 then k.nxt
  else if e + 1 = k.epoch then k.prev.map Prod.fst
  else none
/-- The MAC of a header whose bytes 0 to 55 are set (R359). -/
def macOf (key : BitVec 128) (hdr : BitVec 512) : Nat :=
  let l := bytesOfNat 64 hdr.toNat
  let iv := [l.getD 0 0, l.getD 4 0, l.getD 5 0, l.getD 6 0] ++ (l.drop 40).take 8
  natOfBytes ((gmac (keyBytes key) iv (l.take 56)).take 4)
/-- The payload a transfer carries: whole units of 256 bytes (R348). -/
def paddedPayload (l : List Byte) : List Byte := padTo (256 * ceilDiv l.length 256) l
/-- Header of a transfer before its tag. -/
def headerOf (typ flags slot peel src dst ctx cls units status : Nat) (body : List (Nat × Nat)) : BitVec 512 :=
  pack ([(0, typ), (8, flags), (16, slot + peel * 1024), (32, src), (40, dst), (48, ctx + cls * 16), (56, units + status * 32)]
    ++ body.map (fun b => (8 * b.1, b.2)))
/-- Tag a header with the context's next sequence number under its current key. -/
def State.sealXfer (s : State) (c : Nat) (h : BitVec 512) (payload : List Byte) : Option (State × Xfer) :=
  let k := (s.ctx c).keys
  match k.cur with
  | none => none
  | some key =>
    let h := h ||| pack [(320, k.epoch.toNat), (328, (k.seq + 1).toNat), (384, (crc64 payload).toNat)]
    let h := h ||| pack [(448, macOf key h)]
    some ((s.modCtx c (fun x => { x with keys := { x.keys with seq := x.keys.seq + 1 } })).countCtx c 83, ⟨h, payload⟩)

/-! ### Routes and sending (R352, R353) -/

/-- Tray of reach of a position (R321). -/
def Ctx.reach (x : Ctx) (p : Nat) : Nat := mgetD x.group.reach p (trayOf p)
/-- Rack level of a hop: the tray links join positions of one tray of reach. -/
def Ctx.rackHop (x : Ctx) (dst : Nat) : Bool := x.reach dst != x.reach x.own
/-- The peel that a request takes. -/
def State.peelFor (s : State) (want : Nat) : Nat :=
  if s.peelsPresent < 2 then 0
  else if (s.peel want).linkUp then want
  else if (s.peel (1 - want)).linkUp then 1 - want else want
def State.slotTaken (s : State) (p i : Nat) : Bool :=
  s.fab.reqs.any (fun r => r.peel == p && r.slot.toNat == i) || s.fab.quar.any (fun q => q.peel == p && q.slot.toNat == i)
/-- Class U, PROBE and COUNTER requests may take the reserved slots (R353). -/
def Req.urgent (r : Req) : Bool := r.cls == .u || r.typ == 0x03 || r.typ == 0x04
/-- The lowest free slot that a request may take. -/
def State.freeSlot (s : State) (p : Nat) (r : Req) : Option Nat :=
  let used := (s.fab.reqs.filter (fun q => q.peel == p && !q.urgent)).length
  if !r.urgent && decide (used ≥ Config.slotsMax - Config.slotsReserved) then none
  else (List.range Config.slotsMax).find? (fun i => !s.slotTaken p i)
/-- Any context fences a position (R316). -/
def State.fencedAny (s : State) (p : Nat) : Bool := s.ctxs.any (fun e => (mget e.2.fences p).isSome)
/-- Give a transfer to the endpoint and count it (R371). -/
def State.leave (s : State) (peel : Nat) (rack : Bool) (cls : Cls) (x : Xfer) : State :=
  let n := x.payload.length
  let k := bit rack
  let s := ((s.countPeel peel k).countPeel peel (3 + k) n).count (11 + 2 * (cls.code - 1) + k) n
  { s with fab := { s.fab with tx := s.fab.tx ++ [(peel, rack, x)], sentNow := s.fab.sentNow + n } }
/-- Send a transfer: none is offered while the peel's link is down (R46); it waits, in order. -/
def State.send (s : State) (peel : Nat) (rack : Bool) (cls : Cls) (x : Xfer) : State :=
  if (s.peel peel).linkUp then s.leave peel rack cls x
  else s.modPeel peel (fun p => { p with offered := p.offered ++ [(rack, cls, x)] })
/-- The request of a slot still waits for its link, so that its period has not begun (R362). -/
def State.unsent (s : State) (peel : Nat) (slot : BitVec 10) : Bool :=
  (s.peel peel).offered.any (fun o => !o.2.2.resp && o.2.2.slot == slot)
/-- Send a request, or keep it for a later plan where no slot is free; none goes to a fenced position (R316), and none leaves in a
freeze (R467). `r.x` holds the
flags, the body and the payload. -/
def State.issueWith (s : State) (r : Req) (flags : Nat) : State :=
  let x := s.ctx r.ctx.toNat
  let want := if untagged r.typ.toNat then fld (r.x.word 8) 12 1 else r.dst.toNat % 2
  let p := s.peelFor want
  let rack := untagged r.typ.toNat || x.rackHop r.dst.toNat || (r.typ == 0x13 && (s.peel p).sat.getLsbD 0)
  let keep := { s with fab := { s.fab with retries := s.fab.retries ++ [⟨r⟩] } }
  if !untagged r.typ.toNat && s.fencedAny r.dst.toNat then s
  else if s.frozen then keep
  else match s.freeSlot p r with
  | none => keep
  | some i =>
    let pl := paddedPayload r.x.payload
    let h := headerOf r.typ.toNat (flags ||| fld r.x.hdr 8 8) i p x.own (if untagged r.typ.toNat then 0 else r.dst.toNat) r.ctx.toNat r.cls.code
      (pl.length / 256) 0 r.x.body
    let out := if untagged r.typ.toNat then some (s, (⟨h, pl⟩ : Xfer)) else s.sealXfer r.ctx.toNat h pl
    match out with
    | none => keep
    | some (s, t) =>
      let r := { r with peel := p, slot := BitVec.ofNat 10 i, seq := t.seq, x := t }
      let s := s.send p rack r.cls t
      { s with fab := { s.fab with reqs := s.fab.reqs ++ [r] } }
/-- A new request of a context. -/
def State.issue (s : State) (c : Nat) (cls : Cls) (typ dst : Nat) (body : List (Nat × Nat)) (payload : List Byte) (why : Why)
    (tag : BitVec 16 := 0) (flags : Nat := 0) : State :=
  s.issueWith { peel := 0, slot := 0, ctx := BitVec.ofNat 4 c, cls := cls, typ := BitVec.ofNat 8 typ, dst := BitVec.ofNat 5 dst,
                seq := 0, tag := tag, why := why,
                x := ⟨pack ((8, flags) :: body.map (fun b => (8 * b.1, b.2))), payload⟩ } 0
/-- Requests kept for a later plan go out; one that went out before has RESEND set (R351). -/
def State.resendAll (s : State) : State :=
  let l := s.fab.retries
  let s := { s with fab := { s.fab with retries := [] } }
  s.each l (fun s r => s.issueWith r.req (if r.req.x.typ = 0 then 0 else 4))
/-- Respond to a request on its own peel (R349, R359); nothing goes to a fenced position (R316). -/
def State.respond (s : State) (peel : Nat) (x : Xfer) (status : Nat) (body : List (Nat × Nat) := []) : State :=
  let c := x.ctx
  let cx := s.ctx c
  if s.fencedAny x.src ∧ !untagged x.typ then s else
  let h := headerOf x.typ 1 x.slot.toNat x.peel cx.own x.src c x.clsCode 0 status (body ++ [(32, x.seq.toNat)])
  match s.sealXfer c h [] with
  | none => s
  | some (s, t) =>
    let s := if status = 1 then (s.countPeel peel 18) else if status = 6 then s.countPeel peel 20 else s
    s.send peel (cx.rackHop x.src) (Cls.ofCode x.clsCode) t

/-! ### Signs of a lost member (R313, R314) -/

def signKey (c p : Nat) : Nat := c * 32 + p
def State.sign (s : State) (c p : Nat) : Sign := mgetD s.fab.signs (signKey c p) {}
def State.modSign (s : State) (c p : Nat) (f : Sign → Sign) : State :=
  { s with fab := { s.fab with signs := mset s.fab.signs (signKey c p) (f (s.sign c p)) } }
/-- A joined context holds a position unfenced. -/
def Ctx.holdsPos (x : Ctx) (p : Nat) : Bool :=
  x.group.joined && ((x.group.cfg.map (fun g => g.members.getLsbD p)).getD false) && (mget x.fences p).isNone
def State.holdersOf (s : State) (p : Nat) : List Nat := ((s.ctxs.filter (fun e => e.2.holdsPos p)).map Prod.fst)
def holdoff (w : Word) : Nat := max 1 (fld w 48 8)
/-- EV_MEMBER_SUSPECT with a count of occurrences, at most once per HOLDOFF frames for a position and reason. -/
def State.raiseSuspect (s : State) (c p reason n : Nat) : State :=
  let g := s.sign c p
  let due := match mget g.last reason with
    | none => true
    | some f => decide ((s.frames.frame - f).toNat ≥ holdoff s.win.memberNow)
  if due then
    let s := s.modSign c p (fun g => { g with occ := mset g.occ reason 0, last := mset g.last reason s.frames.frame })
    (s.countCtx c (57 + reason)).emit 0x0040 2 (some c) [(0, p), (1, reason), (4, n)]
  else s.modSign c p (fun g => { g with occ := mset g.occ reason n })
/-- One more sign of a kind: the event counts the signs since the last such event. -/
def State.suspectIn (s : State) (c p reason : Nat) : State := s.raiseSuspect c p reason (mgetD (s.sign c p).occ reason 0 + 1)
def State.suspect (s : State) (p reason : Nat) : State := s.each (s.holdersOf p) (fun s c => s.suspectIn c p reason)
/-- EV_MEMBER_LOST, once for each position and context. -/
def State.lostIn (s : State) (c p reason : Nat) : State :=
  if (s.sign c p).lost then s
  else
    let s := (s.modSign c p (fun g => { g with lost := true })).countCtx c (61 + reason)
    s.emit 0x0041 3 (some c) [(0, p), (1, reason), (4, (s.ctx c).bake.committed.toNat)]
def State.lost (s : State) (p reason : Nat) : State := s.each (s.holdersOf p) (fun s c => s.lostIn c p reason)
/-- Health inputs of the frame (R446). -/
def State.risk (s : State) (i n : Nat) : State :=
  { s with health := { s.health with now := s.health.now.set i (s.health.now.getD i 0 + n) } }

/-! ### What the engine accepts (R360, R361) -/

/-- Drop a transfer at check k. -/
def State.drop (s : State) (peel k : Nat) : State :=
  let s := s.countPeel peel (5 + k)
  if k ≤ 3 then s.risk 2 1 else s
/-- EV_AUTH_REJECT, at most once a frame for a context and source; the position's rejects of the frame count toward AUTH_LIMIT. -/
def State.reject (s : State) (peel k c p reason batch : Nat) : State :=
  let s := (s.drop peel k).countCtx c (83 + reason)
  let s := s.modSign c p (fun g => { g with rejects := g.rejects + 1 })
  let n := (s.sign c p).rejects
  let all := sum ((List.range 16).map (fun d => (s.sign d p).rejects))
  let s := if (s.sign c p).authRaised then s else
    (s.modSign c p (fun g => { g with authRaised := true })).emit 0x0042 3 (some c) [(0, p), (1, reason), (4, batch), (8, n)]
  if fld s.win.memberNow 16 16 ≠ 0 ∧ all ≥ fld s.win.memberNow 16 16 then s.lost p 3 else s
/-- A lease counter of a publish target of the context (R360). -/
def Ctx.leaseCtr (x : Ctx) (k : Nat) : Bool := x.targets.any (fun t => fld (t.2.words.getD 0 0) 16 12 == k)
/-- The member index of a position holds a slot of a batch. -/
def Ctx.holdsSlot (x : Ctx) (p : Nat) (b : BitVec 32) : Bool :=
  match x.group.cfg with
  | none => false
  | some g => (List.range (g.k + g.m)).any (fun y => g.posOf (slotMember g (batchB b) y) == p)
/-- Check 6. -/
def Ctx.sourceOk (x : Ctx) (t : Xfer) : Bool :=
  match x.group.cfg with
  | none => t.typ == 3 && x.leaseCtr (t.num 8 2 % 4096)
  | some g =>
    (g.members.getLsbD t.src || (t.typ == 3 && x.leaseCtr (t.num 8 2 % 4096))) &&
    (if t.typ = 0x10 ∧ !t.resp then g.posOf (slotMember g (batchB t.batch) (t.num 17 1 % 32)) == t.src
     else if t.typ = 0x13 ∧ !t.resp then x.holdsSlot t.src t.batch else true)
/-- Check 7: the keeper allocated the crust row for the batch and slot (R254). -/
def Ctx.keptFor (x : Ctx) (t : Xfer) : Bool :=
  match x.group.cfg with
  | none => false
  | some g =>
    let b := t.batch
    x.group.joined && x.group.formed g b && decide (t.num 16 1 % 4 < g.m)
      && crustRow g (batchB b) (t.num 16 1 % 4) == Group.myIndex g
      && decide (t.num 17 1 % 32 < g.k) && !x.group.phantom g b (t.num 17 1 % 32)
/-- A key whose epoch the transfer names verifies its tag. -/
def Ctx.macOk (x : Ctx) (t : Xfer) : Bool :=
  match x.keys.keyAt t.epoch with
  | none => false
  | some key => t.num 56 4 == macOf key (t.hdr &&& BitVec.ofNat 512 (2 ^ 448 - 1))
/-- Checks 1 to 7 of Table 15.4 in order: the state after them, and whether the transfer passes. -/
def State.admitXfer (s : State) (peel : Nat) (x : Xfer) : State × Bool :=
  let s := (s.countPeel peel 2).countPeel peel 5 x.payload.length
  let c := x.ctx
  let cx := s.ctx c
  let tagged := !untagged x.typ
  if x.payload.length ≠ 256 * x.units ∨ x.units > 16 then (s.drop peel 1, false)
  else if !formOk x then (s.drop peel 2, false)
  else if tagged ∧ BitVec.ofNat 64 (x.num 48 8) ≠ crc64 x.payload then (s.drop peel 3, false)
  else if s.fencedAny x.src ∧ !(x.ownNotice && (mget cx.fences x.src).isSome) then ((s.drop peel 4).count 22, false)
  else if tagged ∧ !cx.macOk x then (s.reject peel 5 c x.src 1 x.batch.toNat, false)
  else if tagged ∧ !cx.sourceOk x then (s.reject peel 6 c x.src 2 x.batch.toNat, false)
  else if x.typ = 0x10 ∧ !x.resp ∧ !cx.keptFor x then (s.reject peel 7 c x.src 3 x.batch.toNat, false)
  else (s, true)
/-- Hold a transfer in the peel's wake buffer (R439). -/
def State.holdWake (s : State) (peel : Nat) (x : Xfer) : State :=
  let s := s.wake
  if (s.peel peel).wake.length < Config.wakeMax then s.modPeel peel (fun p => { p with wake := p.wake ++ [x] })
  else if x.resp then s.drop peel 1 else s.respond peel x 1
/-- An inbound request of a type: dropped at a check, answered FROZEN by a frozen engine (R312), held while the clock is
stopped, else served. -/
def State.inRequest (s : State) (typ peel : Nat) (x : Xfer) (serve : State → State) : State :=
  if s.up = false ∨ peel ≥ s.peelsPresent ∨ x.typ ≠ typ ∨ x.resp then s
  else
    let r := s.admitXfer peel x
    if !r.2 then r.1
    else if s.frozen then r.1.respond peel x 2
    else if s.stopped ∧ typ ≠ 4 then r.1.holdWake peel x
    else serve { r.1 with fab := { r.1.fab with rxNow := true } }

/-! ### Proving counters (R25, R422, R424) -/

/-- Counters of a unit: engine words 80 to 91, or a slice's words 40 to 63; `k` 0 scrub, 1 service, 2 uncorrectable. -/
def State.countUnit (s : State) (u sl k : Nat) : State :=
  if unitEngine u then s.count (80 + 3 * u + k) else s.countSlice sl (40 + 3 * (u - 3) + k)
/-- The first correction of a unit and slice in a frame raises EV_STORAGE_CORRECTED. -/
def State.noteCorrected (s : State) (a : Nat) (scrub : Bool) : State :=
  let u := iaUnit a
  let i := iaSlice a
  let n := if unitEngine u then mgetD s.health.corrNow u 0 else mgetD (s.slice i).corrNow u 0
  let s := ((s.countUnit u i (if scrub then 0 else 1)).risk 4 1)
  let s := if unitEngine u then { s with health := { s.health with corrNow := mset s.health.corrNow u (n + 1) } }
    else s.modSlice i (fun sl => { sl with corrNow := mset sl.corrNow u (n + 1) })
  if n = 0 then s.emit 0x0080 0 none [(0, a), (4, u), (8, 1)] else s

/-- A proving counter whose word cannot be corrected answers nothing but SET (R422). -/
def State.poisonCtr (s : State) (k : Nat) : State := { s with poison := insertAsc s.poison k }
/-- A proving counter is read: a word of it written with chosen check bits is checked first (R420, R429). -/
def State.checkCtr (s : State) (k : Nat) : State :=
  let a := iaOf 2 0x1F k
  match mget s.sram a with
  | none => s
  | some r =>
    let s := { s with sram := merase s.sram a }
    if s.unitWord 2 0x1F k ≠ r.was then s
    else match corrected r.data r.chk with
      | none => ((s.countUnit 2 0x1F 2).emit 0x0081 3 none [(0, a), (4, 2), (5, 5)]).poisonCtr k
      | some v =>
        let s := s.setUnitWord 2 0x1F k v
        if syndrome r.data r.chk = .clean then s else s.noteCorrected a false


def State.pc (s : State) (k : Nat) : Word := mgetD s.pctr k 0
def State.setPc (s : State) (k : Nat) (v : Word) : State :=
  { s with pctr := if v = 0 then merase s.pctr k else mset s.pctr k v }
/-- Waiters and local waits of a counter that its value satisfies complete; no response leaves in a freeze (R467). -/
def State.wakeWaiters (s : State) (k : Nat) : State :=
  let v := s.pc k
  let go := fun (w : Waiter) => !s.frozen && w.ctr.toNat == k && decide (w.operand.toNat ≤ v.toNat)
  let ws := s.fab.waiters.filter go
  let s := { s with fab := { s.fab with waiters := s.fab.waiters.filter (fun w => !go w) } }
  let s := s.each ws (fun s w => s.respond w.peel w.x 0 [(16, v.toNat)])
  let lo := fun (w : LocalWait) => w.ctr.toNat == k && decide (w.operand.toNat ≤ v.toNat)
  let ls := s.fab.locals.filter lo
  let s := { s with fab := { s.fab with locals := s.fab.locals.filter (fun w => !lo w) } }
  s.each ls (fun s w => s.finish w.ctx.toNat w.tag 0 (fld v 0 32))
/-- ADD, MAX, SET (R25); SET clears a poison (R422). The operation is not COMPARE-WAIT. -/
def State.ctrOp (s : State) (k op : Nat) (v : Word) : State :=
  let s := if op = 2 then { s with sram := merase s.sram (iaOf 2 0x1F k) } else s.checkCtr k
  if op = 2 then
    { (s.setPc k v) with poison := s.poison.filter (· != k) }.wakeWaiters k
  else if s.poison.contains k then s
  else (s.setPc k (if op = 0 then s.pc k + v else if (s.pc k).toNat < v.toNat then v else s.pc k)).wakeWaiters k
def State.setCtr (s : State) (k : Nat) (v : Word) : State := s.ctrOp k 2 v
/-- The owner of a verdict counter keeps, outside normal mode, which position's ADD brought FINDINGS to the expected count, of
the last 8 barriers of the context; one that holds 6 of them is suspect (R450). -/
def State.noteBarrier (s : State) (c k p : Nat) (old : Word) : State :=
  let x := s.ctx c
  match x.step with
  | none => s
  | some st =>
    let e := st.expected.toNat
    if s.health.mode = 0 ∨ x.own ≠ st.owner.toNat ∨ st.vctr.toNat ≠ k ∨ fld old 32 16 = e ∨ fld (s.pc k) 32 16 ≠ e then s
    else
      let l := mgetD s.fab.lateness c [] ++ [BitVec.ofNat 5 p]
      let l := l.drop (l.length - 8)
      let s := { s with fab := { s.fab with lateness := mset s.fab.lateness c l } }
      let s := if p = x.own then s.risk 7 1 else s
      let n := l.count (BitVec.ofNat 5 p)
      if 6 ≤ n ∧ x.holdsPos p then s.raiseSuspect c p 1 n else s
/-- A counter operation of this engine on a counter at a position: here at once, elsewhere by one transfer. -/
def State.counterAt (s : State) (c owner k op : Nat) (v : Word) (cls : Cls) (why : Why) (tag : BitVec 16 := 0) (flags : Nat := 0) :
    State :=
  if (s.ctx c).own = owner then
    if op = 0 then (s.ctrOp k op v).noteBarrier c k owner (s.pc k) else s.ctrOp k op v
  else
    let lim := fld s.win.fabricNow 0 16
    s.issue c cls 3 owner ([(8, k + 4096 * op), (16, v.toNat)] ++ (if op = 3 then [(24, max 1 lim)] else [])) [] why tag flags

/-- COUNTER (R25, R350, R363): any agent that the group's key admits operates, whether or not the context has joined. The operation
is applied at once, or a COMPARE-WAIT that does not hold becomes a waiter. -/
def State.serveCounter (s : State) (peel : Nat) (x : Xfer) : State :=
  let k := x.num 8 2 % 4096
  let op := x.num 8 2 / 4096 % 4
  let v := x.word 16
  let c := x.ctx
  let s := if op = 2 then s else s.checkCtr k
  if s.poison.contains k ∧ op ≠ 2 then s
  else if op = 3 then
    if v.toNat ≤ (s.pc k).toNat then s.respond peel x 0 [(16, (s.pc k).toNat)]
    else if s.fab.waiters.length ≥ Config.waitersMax then (s.countPeel peel 22).respond peel x 1
    else { s with fab := { s.fab with waiters := s.fab.waiters ++ [⟨peel, x, BitVec.ofNat 12 k, v⟩] } }
  else
    let t := s.ctrOp k op v
    (if op = 0 then t.noteBarrier c k x.src (s.pc k) else t).respond peel x 0 [(16, (t.pc k).toNat)]
def execCounter (peel : Nat) (x : Xfer) (s : State) : Host.Outcome State Fault Refusal :=
  .next (s.inRequest 3 peel x (fun s => s.serveCounter peel x))

/-- PROBE (R312): answered by the peel logic whatever the sequencer does. -/
def execProbe (peel : Nat) (x : Xfer) (s : State) : Host.Outcome State Fault Refusal :=
  .next (s.inRequest 4 peel x (fun s => s.respond peel x 0))

/-- MALFORMED_TRANSFER (R360): dropped whole at check 1, 2 or 3 and counted. -/
def execMalformedTransfer (peel check : Nat) (s : State) : Host.Outcome State Fault Refusal :=
  if s.up = false ∨ peel ≥ s.peelsPresent ∨ check = 0 ∨ 3 < check then .next s
  else .next ((s.countPeel peel 2).drop peel check)

/-- COMPARE_WAIT_LIMIT (R363): the owner drops a waiter without a response. -/
def execCompareWaitLimit (peel : Nat) (src : BitVec 5) (tag : BitVec 16) (s : State) : Host.Outcome State Fault Refusal :=
  .next { s with fab := { s.fab with waiters := dropFirst (fun w =>
    w.peel == peel && w.x.src == src.toNat && w.x.num 2 2 == tag.toNat) s.fab.waiters } }

/-- TAG_QUARANTINE_END (R365). -/
def execTagQuarantineEnd (peel : Nat) (slot : BitVec 10) (s : State) : Host.Outcome State Fault Refusal :=
  .next { s with fab := { s.fab with quar := s.fab.quar.filter (fun q =>
    !(q.peel == peel && q.slot == slot && (framePast q.until_ s.frames.frame || q.until_ == s.frames.frame))) } }

/-- KEY_GRACE_END (R358). -/
def execKeyGraceEnd (ctx : BitVec 4) (s : State) : Host.Outcome State Fault Refusal :=
  .next (s.modCtx ctx.toNat (fun x =>
    match x.keys.prev with
    | some (_, f) => if framePast f s.frames.frame || f == s.frames.frame then { x with keys := { x.keys with prev := none } } else x
    | none => x))

/-- PEEL_LINK_UP_CHANGE (R46, R352): what waits for the link leaves once it is up. -/
def execPeelLinkUpChange (peel : Nat) (up : Bool) (s : State) : Host.Outcome State Fault Refusal :=
  if s.up = false ∨ peel ≥ 2 then .next s
  else
    let out := (s.peel peel).offered
    let s := s.modPeel peel (fun p => { p with linkUp := up, offered := if up then [] else p.offered })
    .next (if up then s.each out (fun s o => s.leave peel o.1 o.2.1 o.2.2) else s)

end Sys2Proof.Machine
end

