-- ==== Sys2Proof/Machine/Records.lean ====
section
/-!
DEFINITION. Machine/Records.lean: the adoption record (Table 14.3, R326): what a member sends its map holders, what a holder keeps,
and how it is laid out in the pieces of RECORD transfers. POOL_SIZE, which sends the record's third part.
-/
namespace Sys2Proof.Machine

/-! ### Layout: every part is its length in bytes, then words -/

def wordsBytes (l : List Nat) : List Byte := l.flatMap (bytesOfNat 8)
def framed (l : List Nat) : List Byte := bytesOfNat 8 (8 * l.length) ++ wordsBytes l
/-- The words of a part whose bytes have all come. -/
def unframe (l : List Byte) : Option (List Nat) :=
  if l.length < 8 then none
  else
    let n := (wordAt l 0).toNat
    if l.length < 8 + n then none else some ((List.range (n / 8)).map (fun i => (wordAt l (8 + 8 * i)).toNat))
def coverCode : Cover → Nat
  | .delta => 0 | .snapshot => 1 | .replica => 2 | .uncovered => 3
def cut (x lo w : Nat) : Nat := (x >>> lo) % 2 ^ w

/-- Part 0: word 0 of every entry, the map mode. -/
def Ctx.recMap (x : Ctx) : List Nat := (x.n + bit x.foreign * 2 ^ 32) :: x.tiles.map (fun e => e.2.word0.toNat)
/-- Part 1: the regions. -/
def Ctx.recRegions (x : Ctx) : List Nat :=
  x.regions.length :: x.regions.flatMap (fun e =>
    [e.1 + coverCode e.2.cls * 256 + e.2.pgroup.toNat * 65536, e.2.first, e.2.count, e.2.replica.toNat])
/-- Part 2: pool sizes, margin floor, branch reserve. -/
def Ctx.recPools (x : Ctx) : List Nat :=
  (List.range 4).map (fun k => (x.pool k).tiles.length + bit (x.pool k).sized * 2 ^ 63) ++ [x.floor, x.reserve]
/-- Part 3: a bake's summary. -/
def BakeRec.words (r : BakeRec) (f : Nat) : List Nat :=
  let cs := r.contrib.filter (fun e => e.2.step == r.step)
  [f + bit r.verBit * 2 ^ 32 + r.e.toNat * 2 ^ 40, r.step.toNat, r.g.toNat + r.c.toNat * 2 ^ 32, r.seed.toNat, cs.length]
    ++ cs.flatMap (fun e => [e.1 + e.2.q.toNat * 2 ^ 32, e.2.step.toNat])
def Ctx.recBake (x : Ctx) (f : BitVec 32) : List Nat := ((mget x.bake.recs f.toNat).map (fun r => r.words f.toNat)).getD []
/-- Part 4: the loss ledger. -/
def Ctx.recLedger (x : Ctx) : List Nat :=
  x.ledger.length :: x.ledger.flatMap (fun e =>
    [e.step.toNat, e.loss.toNat, e.digest.toNat, (e.replay.getD 0).toNat, bit e.replay.isSome])
/-- A member's join record, as words. -/
def JoinRec.words (j : JoinRec) : List Nat :=
  [j.position.toNat, j.opA.toNat, j.word.toNat, j.regions.length]
    ++ j.regions.map (fun r => r.region + coverCode r.cls * 256 + r.tiles * 65536)
def coverNo : Nat → Cover
  | 0 => .delta | 1 => .snapshot | 2 => .replica | _ => .uncovered
def JoinRec.ofWords (l : List Nat) : JoinRec × List Nat :=
  let n := l.getD 3 0
  ({ position := BitVec.ofNat 5 (l.getD 0 0), opA := BitVec.ofNat 64 (l.getD 1 0), word := BitVec.ofNat 64 (l.getD 2 0),
     regions := ((l.drop 4).take n).map (fun w => { region := cut w 0 8, cls := coverNo (cut w 8 2), tiles := cut w 16 32 }) },
   l.drop (4 + n))
def joinRecs : Nat → List Nat → List JoinRec
  | 0, _ => []
  | f + 1, l => if l.isEmpty then [] else (JoinRec.ofWords l).1 :: joinRecs f (JoinRec.ofWords l).2

/-! ### Map holders -/

/-- The map holders of a position. -/
def GroupCfg.holders (g : GroupCfg) (p : Nat) : List Nat :=
  [g.posOf ((g.indexOf p + 1) % g.n), g.posOf ((g.indexOf p + 2) % g.n)]
/-- Members whose records this member holds. -/
def GroupCfg.heldMembers (g : GroupCfg) : List Nat :=
  (g.order).filter (fun p => p != g.own.toNat && (g.holders p).contains g.own.toNat)
/-- Send a part to a position. A bake summary's pieces carry the low bit of its bake as bit 31 of their index. -/
def State.sendPart (s : State) (c dst member part : Nat) (odd : Bool) (l : List Byte) (cls : Cls) : State :=
  s.each (chunks 4096 l.length l).zipIdx (fun s e =>
    s.issue c cls 0x22 dst [(8, member), (9, part), (12, e.2 + bit odd * 2 ^ 31)] e.1 .record)
/-- A part of the own record goes to both map holders (R326). -/
def State.shareRecord (s : State) (c part : Nat) (odd : Bool) (l : List Nat) : State :=
  let x := s.ctx c
  match x.group.cfg with
  | none => s
  | some g =>
    if !x.group.joined then s
    else s.each ((g.holders g.own.toNat).filter (fun p => (mget x.fences p).isNone)) (fun s p =>
      s.sendPart c p g.own.toNat part odd (framed l) .k)
def State.shareRegions (s : State) (c : Nat) : State := s.shareRecord c 1 false (s.ctx c).recRegions
def State.sharePools (s : State) (c : Nat) : State := s.shareRecord c 2 false (s.ctx c).recPools
def State.shareBake (s : State) (c : Nat) (f : BitVec 32) : State := s.shareRecord c 3 (f.getLsbD 0) ((s.ctx c).recBake f)
def State.shareLedger (s : State) (c : Nat) : State := s.shareRecord c 4 false (s.ctx c).recLedger
def State.shareAll (s : State) (c : Nat) : State :=
  ((((s.shareRecord c 0 false (s.ctx c).recMap).shareRegions c).sharePools c).shareBake c (s.ctx c).bake.sealed).shareLedger c

/-! ### What a holder keeps -/

def heldKey (c p : Nat) : Nat := 32 * c + p
def partKey (part idx : Nat) : Nat := part * 2 ^ 32 + idx
def HeldRec.part (h : FMap (List Byte)) (part : Nat) (odd : Bool) : List Byte :=
  let lo := partKey part (bit odd * 2 ^ 31)
  (h.filter (fun e => decide (lo ≤ e.1) && decide (e.1 < lo + 2 ^ 31))).flatMap Prod.snd
/-- A piece of another member's record is kept. -/
def State.keepPiece (s : State) (c member part idx : Nat) (l : List Byte) : State :=
  let h := mgetD s.fab.held (heldKey c member) {}
  { s with fab := { s.fab with held := mset s.fab.held (heldKey c member) { h with parts := mset h.parts (partKey part idx) l } } }
/-- The bake that a held summary names. -/
def summaryBake (l : List Byte) : Option Nat := (unframe l).bind (fun w => (w.head?).map (fun x => cut x 0 32))
/-- A holder answers a fetch: every part, the summary of its own rollback target, and after the regions the join records
that the group exchanged. -/
def State.sendHeld (s : State) (c member dst : Nat) : State :=
  let x := s.ctx c
  let h := (mgetD s.fab.held (heldKey c member) {}).parts
  let odd := x.bake.committed.getLsbD 0
  let sum3 := HeldRec.part h 3 odd
  let regs := ((unframe (HeldRec.part h 1 false)).getD []) ++ x.group.recs.flatMap JoinRec.words
  let s := s.sendPart c dst member 0 false (HeldRec.part h 0 false) .d
  let s := s.sendPart c dst member 1 false (framed regs) .d
  let s := s.sendPart c dst member 2 false (HeldRec.part h 2 false) .d
  let s := s.sendPart c dst member 3 false (if summaryBake sum3 = some x.bake.committed.toNat then sum3 else framed []) .d
  s.sendPart c dst member 4 false (HeldRec.part h 4 false) .d

/-! ### POOL_SIZE (R145) -/

def effPoolSize (c : Cmd) (s : State) : State :=
  let k := fld c.a 0 2
  let old := ((s.ctx c.cid).pool k).tiles.length
  let s := s.placePool c.cid k (s.poolShares c.cid k c.n)
  let s := s.modCtx c.cid (fun x =>
    let x := x.setPool k { x.pool k with sized := true }
    if k = 0 then { x with floor := fld c.b 0 3 } else if k = 1 then { x with reserve := fld c.b 0 32 } else x)
  ((s.relieveAll c.cid).sharePools c.cid).done c (sat 0xFFFFFFFF old)
/-- POOL_SIZE. -/
def execPoolSize (c : Cmd) (s : State) : Host.Outcome State Fault Refusal :=
  .next (s.runCmd 0x23 fieldsPoolSize chkPoolSize noBytes noTake effPoolSize c)

end Sys2Proof.Machine
end

