-- ==== Sys2Proof/Machine/Tiers.lean ====
section
/-!
DEFINITION. Machine/Tiers.lean: residency of a tile in tier 0 or tier 1 (R372 to R374), far reads, and asking for a promotion
(R380, R385).
-/
namespace Sys2Proof.Machine

/-! ### The pantry window (Tables 16.2, 16.3) -/

def Knead.base (k : Knead) : Nat := fld k.word 0 35 * 4096
def Knead.size (k : Knead) : Nat := fld k.word 35 16 * 2 ^ 30
def Knead.idleLog (k : Knead) : Nat := fld k.word 51 4
def Knead.onRead (k : Knead) : Bool := k.word.getLsbD 55
/-- Granules of the directory of N entries. -/
def dirGranules (n : Nat) : Nat := ceilDiv (8 * n) 4096
def deGranule (w : Word) : Nat := fld w 0 32
def deLength (w : Word) : Nat := fld w 32 17
def deRaw (w : Word) : Bool := w.getLsbD 49
def dePlanes (w : Word) : BitVec 2 := BitVec.ofNat 2 (fld w 50 2)
def deValid (w : Word) : Bool := w.getLsbD 52
/-- Granules of an extent (R378). -/
def deSpan (w : Word) : Nat := ceilDiv (64 + deLength w) 4096
/-- Rack address of granule g, and of a tile's directory entry. -/
def Knead.granule (k : Knead) (g : Nat) : Nat := k.base + 4096 * g
def Knead.entryAt (k : Knead) (t : Nat) : Nat := k.base + 8 * t

def Ctx.job? (x : Ctx) (t : Nat) : Option KneadJob := mget x.knead.jobs t
def State.setJob (s : State) (c t : Nat) (j : Option KneadJob) : State :=
  s.modCtx c (fun x => { x with knead := { x.knead with jobs := mput x.knead.jobs t j } })
def State.modJob (s : State) (c t : Nat) (f : KneadJob → KneadJob) : State :=
  match (s.ctx c).job? t with
  | none => s
  | some j => s.setJob c t (some (f j))
/-- Counter of a promotion by its cause (R388). -/
def promotedCtr (cause : Nat) : Nat := [95, 96, 93, 94, 97].getD cause 93
def demotedCtr (cause : Nat) : Nat := [90, 91, 92].getD cause 92

/-- LOAD transfers of an extent, 4 KiB each. -/
def State.loadExtent (s : State) (c t : Nat) (cls : Cls) : State :=
  let e := (s.tile c t).dir
  let k := (s.ctx c).knead
  s.each (List.range (deSpan e)) (fun s i => s.issue c cls 1 0 [(8, k.granule (deGranule e + i)), (16, 16)] [] (.load t i))
/-- An extent loaded whole: its value, where header and CRC agree (R380). -/
def extentValue (c t : Nat) (e : Word) (l : List Byte) : Option Tile :=
  let v := unpackCrumb (dePlanes e) (deRaw e) ((l.drop 64).take (deLength e))
  if fld (wordAt l 0) 0 32 = t ∧ fld (wordAt l 0) 32 8 = c ∧ wordAt l 8 = tileCrc v then some v else none

/-- Abandon a demotion whose directory store has not answered (R385): the tile returns to its state. -/
def State.abandonDemotion (s : State) (c t : Nat) : State :=
  match (s.ctx c).job? t with
  | none => s
  | some j =>
    if j.kind ≠ 0 then s
    else if j.stage = 0 then s.setJob c t none
    else
      let s := (s.setJob c t none).modTile c t (fun r => { r with busy := false })
      (s.countCtx c 98).unholdTile c t .moving
/-- Ask for a promotion; one already asked for stands (R374, R385). -/
def State.askPromotion (s : State) (c t cause : Nat) (tag : Option (BitVec 16) := none) (deadline : BitVec 32 := 0) : State :=
  let s := s.abandonDemotion c t
  if !(s.tile c t).tier1 then s
  else match (s.ctx c).job? t with
    | some j => if j.kind = 2 ∧ j.stage = 4 then s.setJob c t (some { kind := 1, cause := cause, tag := tag, deadline := deadline }) else s
    | none => s.setJob c t (some { kind := 1, cause := cause, tag := tag, deadline := deadline })
/-- Ask for a far read, or for a promotion under PROMOTE_ON_READ (R374, R382). -/
def State.askRead (s : State) (c t : Nat) (cls : Cls) (deadline : BitVec 32 := 0) : State :=
  if !(s.tile c t).tier1 then s
  else if (s.ctx c).knead.onRead then s.askPromotion c t 4 none deadline
  else match (s.ctx c).job? t with
    | some _ => s
    | none =>
      if !s.running then s
      else
        let s := (s.setJob c t (some { kind := 2, cause := 4, stage := 1, left := deSpan (s.tile c t).dir, entry := (s.tile c t).dir })).countCtx c 100
        (s.modCtx c (fun x => { x with knead := { x.knead with farNow := x.knead.farNow + 1 } })).loadExtent c t cls
/-- The value of a tile that the engine reads and does not change: at home, or as a far read has brought it. -/
def State.readVal (s : State) (c t : Nat) : Option Tile :=
  if (s.tile c t).tier1 then
    match (s.ctx c).job? t with
    | some j => if j.stage = 4 then j.value else none
    | none => none
  else some (s.homeVal c t)
def State.valOf (s : State) (c t : Nat) : Tile := (s.readVal c t).getD 0
/-- A far read's value has been used. -/
def State.endRead (s : State) (c t : Nat) : State :=
  match (s.ctx c).job? t with
  | some j => if j.kind = 2 ∧ j.stage = 4 then s.setJob c t none else s
  | none => s
/-- Every tile of a list can be read now; those that cannot are asked for. -/
def State.readable (s : State) (c : Nat) (ts : List Nat) : Bool := ts.all (fun t => (s.readVal c t).isSome)
def State.askAll (s : State) (c : Nat) (ts : List Nat) (cls : Cls) (deadline : BitVec 32 := 0) : State :=
  s.each ts (fun s t => s.askRead c t cls deadline)
/-- A command's work waits for far reads: it has not begun. -/
def State.waitRead (s : State) (cmd : Cmd) (ts : List Nat) (cls : Cls) (go : State → State) : State :=
  if s.readable cmd.cid ts then go s
  else (s.askAll cmd.cid ts cls cmd.deadline).modAdm cmd.cid cmd.tag (fun a => { a with begun := false })

/-- A tile that the engine may write now: at home, not moving, not held for a mend, a rebuild or a restore. -/
def State.writable (s : State) (c t : Nat) : Bool :=
  !(s.tile c t).tier1 && (match (s.ctx c).job? t with | some j => j.kind == 2 | none => true)
    && !s.heldFor c t .mend && !s.heldFor c t .mendFailed && !s.heldFor c t .unbuilt
/-- An access to a tile restarts its idle count (R384). -/
def State.touch (s : State) (c t : Nat) : State := s.modTile c t (fun r => { r with used := true })

end Sys2Proof.Machine
end

