-- ==== Sys2Proof/Machine/Float.lean ====
section
/-!
DEFINITION. Machine/Float.lean: binary32 arithmetic, computed exactly and rounded once to nearest even (R161, R164), and the
correctly rounded natural logarithm of R228. A value is its 32 bits.
-/
namespace Sys2Proof.Machine

abbrev F32 := BitVec 32

/-- A value taken apart: NaN, infinity, or sign and magnitude m × 2^e. -/
inductive FP where
  | nan (neg : Bool) | inf (neg : Bool) | fin (neg : Bool) (m : Nat) (e : Int)
deriving DecidableEq, Repr

/-- A number format (Table 9.1): exponent and fraction bits, bias, code of the largest finite magnitude. -/
structure Fmt where
  eb   : Nat
  fb   : Nat
  bias : Nat
  maxCode : Nat
deriving DecidableEq, Repr

def fmtFP32 : Fmt := ⟨8, 23, 127, 0x7F7FFFFF⟩
def fmtBF16 : Fmt := ⟨8, 7, 127, 0x7F7F⟩
def fmtFP16 : Fmt := ⟨5, 10, 15, 0x7BFF⟩
def fmtE4M3 : Fmt := ⟨4, 3, 7, 0x7E⟩
def fmtE5M2 : Fmt := ⟨5, 2, 15, 0x7B⟩
def fmtE3M2 : Fmt := ⟨3, 2, 3, 0x1F⟩
def fmtE2M3 : Fmt := ⟨2, 3, 1, 0x1F⟩
def fmtE2M1 : Fmt := ⟨2, 1, 1, 0x7⟩
def Fmt.width (f : Fmt) : Nat := 1 + f.eb + f.fb
def Fmt.signBit (f : Fmt) : Nat := 2 ^ (f.eb + f.fb)
/-- Exponent of the subnormal grid: its unit is 2^qmin. -/
def Fmt.qmin (f : Fmt) : Int := 1 - (f.bias : Int) - (f.fb : Int)

/-- `m × 2^(-s)` rounded to nearest, ties to even. -/
def shiftRne (m s : Nat) : Nat :=
  let q := m / 2 ^ s
  let r := m % 2 ^ s
  if 2 * r > 2 ^ s ∨ (2 * r = 2 ^ s ∧ q % 2 = 1) then q + 1 else q

/-- Magnitude code of m × 2^e rounded to a format's grid with an unbounded exponent range (R200 step 1). -/
def Fmt.round (f : Fmt) (m : Nat) (e : Int) : Nat :=
  if m = 0 then 0 else
  let q := max f.qmin (e + (Nat.log2 m : Int) - (f.fb : Int))
  let k := if q ≤ e then m * 2 ^ (e - q).toNat else shiftRne m (q - e).toNat
  (q - f.qmin).toNat * 2 ^ f.fb + k

/-- A finite magnitude code as m × 2^e. -/
def Fmt.mag (f : Fmt) (c : Nat) : Nat × Int :=
  let x := c / 2 ^ f.fb
  if x = 0 then (c % 2 ^ f.fb, f.qmin) else (2 ^ f.fb + c % 2 ^ f.fb, f.qmin + (x : Int) - 1)

/-- A binary32 word taken apart. -/
def unpack (b : F32) : FP :=
  let n := b.toNat
  let s := decide (n ≥ 2 ^ 31)
  let c := n % 2 ^ 31
  if c > 0x7F800000 then .nan s
  else if c = 0x7F800000 then .inf s
  else .fin s (fmtFP32.mag c).1 (fmtFP32.mag c).2
/-- The NaN the engine writes (Table 9.1). -/
def qnan (neg : Bool) : F32 := if neg then 0xFFC00000#32 else 0x7FC00000#32
def finf (neg : Bool) : F32 := if neg then 0xFF800000#32 else 0x7F800000#32
/-- A finite result rounded to binary32; beyond its range it is an infinity (R202). -/
def roundF (neg : Bool) (m : Nat) (e : Int) : F32 :=
  let c := fmtFP32.round m e
  let c := if c > fmtFP32.maxCode then 0x7F800000 else c
  BitVec.ofNat 32 (c + (if neg then 2 ^ 31 else 0))
def FP.toBits : FP → F32
  | .nan s => qnan s
  | .inf s => finf s
  | .fin s m e => roundF s m e

/-- Sign of the NaN an operation of Table 7.5 answers: that of its NaN operands where they agree, else one the spec leaves open. -/
def FP.nanSign (op : Nat) (x y : FP) : Bool :=
  match x, y with
  | .nan s, .nan t => if s = t then s else Config.nanSign op [x.toBits, y.toBits]
  | .nan s, _ => s
  | _, .nan t => t
  | _, _ => Config.nanSign op [x.toBits, y.toBits]

def isNan (b : F32) : Bool := decide (b.toNat % 2 ^ 31 > 0x7F800000)
def isInf (b : F32) : Bool := decide (b.toNat % 2 ^ 31 = 0x7F800000)
def nonFinite (b : F32) : Bool := decide (b.toNat % 2 ^ 31 ≥ 0x7F800000)
def fneg (b : F32) : F32 := b ^^^ 0x80000000#32
def fabs (b : F32) : F32 := b &&& 0x7FFFFFFF#32
/-- A NaN as stored: the format's NaN, sign kept. -/
def canon (b : F32) : F32 := if isNan b then qnan (b.getLsbD 31) else b

/-- Sum of two finite magnitudes, exact; an exact zero takes `zs` as its sign. -/
def addExact (s1 : Bool) (m1 : Nat) (e1 : Int) (s2 : Bool) (m2 : Nat) (e2 : Int) (zs : Bool) : F32 :=
  let e := min e1 e2
  let v := fun (s : Bool) (m : Nat) (x : Int) => (if s then -1 else 1) * ((m * 2 ^ (x - e).toNat : Nat) : Int)
  let t := v s1 m1 e1 + v s2 m2 e2
  if t = 0 then roundF zs 0 0 else roundF (decide (t < 0)) t.natAbs e
def FP.add (x y : FP) : F32 :=
  match x, y with
  | .nan _, _ => qnan (FP.nanSign 0x10 x y)
  | _, .nan s => qnan s
  | .inf s, .inf t => if s = t then finf s else qnan (FP.nanSign 0x10 x y)
  | .inf s, _ => finf s
  | _, .inf s => finf s
  | .fin s m e, .fin t n f => addExact s m e t n f (s && t)
def fadd (a b : F32) : F32 := (unpack a).add (unpack b)
def fsub (a b : F32) : F32 := if isNan b then (unpack a).add (unpack b) else (unpack a).add (unpack (fneg b))
/-- Product, exact for finite operands. -/
def FP.mul (x y : FP) : FP :=
  match x, y with
  | .nan _, _ => .nan (FP.nanSign 0x12 x y)
  | _, .nan s => .nan s
  | .inf s, .inf t => .inf (s != t)
  | .inf s, .fin t m _ => if m = 0 then .nan (FP.nanSign 0x12 x y) else .inf (s != t)
  | .fin s m _, .inf t => if m = 0 then .nan (FP.nanSign 0x12 x y) else .inf (s != t)
  | .fin s m e, .fin t n f => .fin (s != t) (m * n) (e + f)
def fmul (a b : F32) : F32 := ((unpack a).mul (unpack b)).toBits
/-- A × B + C, rounded once. -/
def ffma (a b c : F32) : F32 := ((unpack a).mul (unpack b)).add (unpack c)
/-- Quotient with a sticky bit below 60 extra bits. -/
def FP.div (x y : FP) : F32 :=
  match x, y with
  | .nan _, _ => qnan (FP.nanSign 0x28 x y)
  | _, .nan s => qnan s
  | .inf _, .inf _ => qnan (FP.nanSign 0x28 x y)
  | .inf s, .fin t _ _ => finf (s != t)
  | .fin s _ _, .inf t => roundF (s != t) 0 0
  | .fin s m e, .fin t n f =>
    if n = 0 then (if m = 0 then qnan (FP.nanSign 0x28 x y) else finf (s != t))
    else
      let num := m * 2 ^ 60
      roundF (s != t) (2 * (num / n) + (if num % n = 0 then 0 else 1)) (e - f - 61)
def fdiv (a b : F32) : F32 := (unpack a).div (unpack b)
def fone : F32 := 0x3F800000#32
def frcp (a : F32) : F32 := fdiv fone a
/-- Square root: the exponent made even, 60 extra bits, a sticky bit. -/
def fsqrt (a : F32) : F32 :=
  match unpack a with
  | .nan s => qnan s
  | .inf s => if s then qnan (Config.nanSign 0x2A [a]) else finf false
  | .fin s m e =>
    if m = 0 then a
    else if s then qnan (Config.nanSign 0x2A [a])
    else
      let (m, e) := if e % 2 = 0 then (m, e) else (2 * m, e - 1)
      let n := m * 2 ^ 60
      let q := Nat.sqrt n
      roundF false (2 * q + (if q * q = n then 0 else 1)) ((e - 60) / 2 - 1)
def frsqrt (a : F32) : F32 :=
  match unpack a with
  | .nan s => qnan s
  | .inf s => if s then qnan (Config.nanSign 0x29 [a]) else roundF false 0 0
  | .fin s m e =>
    if m = 0 then finf s
    else if s then qnan (Config.nanSign 0x29 [a])
    else
      let (m, e) := if e % 2 = 0 then (m, e) else (2 * m, e - 1)
      let q := Nat.sqrt (2 ^ 120 / m)
      roundF false (2 * q + (if q * q * m = 2 ^ 120 then 0 else 1)) (-60 - e / 2 - 1)
/-- A 64-bit unsigned integer as binary32 (R161). -/
def fofNat (n : Nat) : F32 := roundF false n 0
/-- 2^k, exact within the range of binary32. -/
def fpow2 (k : Int) : F32 := roundF false 1 k

/-- The order of the comparisons: −0 below +0 (R164). -/
def fkey (b : F32) : Int :=
  let c : Int := ((b.toNat % 2 ^ 31 : Nat) : Int)
  if b.toNat ≥ 2 ^ 31 then -c - 1 else c
def flt (a b : F32) : Bool := decide (fkey a < fkey b)
def fmax (a b : F32) : F32 :=
  if isNan a || isNan b then qnan (FP.nanSign 0x14 (unpack a) (unpack b)) else if flt a b then b else a
def fmin (a b : F32) : F32 :=
  if isNan a || isNan b then qnan (FP.nanSign 0x15 (unpack a) (unpack b)) else if flt b a then b else a
def fgt (a b : F32) : F32 := if !isNan a && !isNan b && flt b a then fone else 0
def feq (a b : F32) : F32 := if !isNan a && !isNan b && decide (a = b) then fone else 0
/-- A ≠ 0.0 by IEEE inequality, NaN counting as non-zero (R164). -/
def fnz (a : F32) : Bool := decide (fabs a ≠ 0)
def fsgn (a : F32) : F32 := if isNan a || !fnz a then a else if a.getLsbD 31 then 0xBF800000#32 else fone

/-- ⌊log2⌋ of a finite non-zero magnitude. -/
def flog2 (b : F32) : Int :=
  match unpack b with
  | .fin _ m e => e + (Nat.log2 m : Int)
  | _ => 128

/-! ### The natural logarithm -/

/-- Bits of the fixed point in which logarithms are summed. -/
def lnBits : Nat := 240
/-- Σ z^(2k+1)/(2k+1) from term `k` on, for z in units of 2^-lnBits. -/
def atanhSum : Nat → Nat → Int → Int → Int → Int
  | 0, _, _, _, acc => acc
  | n + 1, k, p, z2, acc => atanhSum n (k + 1) (p * z2 / 2 ^ lnBits) z2 (acc + p / ((2 * k + 1 : Nat) : Int))
def atanh2 (num den : Int) : Int :=
  let z := num * 2 ^ lnBits / den
  2 * atanhSum 90 0 z (z * z / 2 ^ lnBits) 0
def ln2Fix : Int := atanh2 1 3
/-- ln of a positive finite value, correctly rounded. -/
def fln (a : F32) : F32 :=
  match unpack a with
  | .nan s => qnan s
  | .inf s => if s then qnan false else finf false
  | .fin s m e =>
    if m = 0 then finf true
    else if s then qnan false
    else
      let l := Nat.log2 m
      let y := (e + (l : Int)) * ln2Fix + atanh2 ((m : Int) - 2 ^ l) ((m : Int) + 2 ^ l)
      if m = 2 ^ l ∧ e + (l : Int) = 0 then 0
      else roundF (decide (y < 0)) (2 * y.natAbs + 1) (-(lnBits : Int) - 1)

end Sys2Proof.Machine
end

