-- ==== Sys2Proof/Machine/Rng.lean ====
section
/-!
DEFINITION. Machine/Rng.lean: the lane generator LG128 with its jump, starters and the bits of each element (R218 to R223),
the sampling hash of R212, and the draw of SAMPLE_ROW (R228).
-/
namespace Sys2Proof.Machine

/-- A generator state: s0 in bits 63..0, s1 in bits 127..64. -/
abbrev Lg := BitVec 128
def Lg.mk (s0 s1 : Word) : Lg := s1 ++ s0
/-- One step: the output and the next state (R218). -/
def lgNext (s : Lg) : Word × Lg :=
  let x := s.setWidth 64
  let y := (s >>> 64).setWidth 64
  let x := x ^^^ (x <<< 23)
  let t := x ^^^ y ^^^ (x >>> 17) ^^^ (y >>> 26)
  (t + y, Lg.mk y t)
/-- A linear map of GF(2)^128 as the images of the unit vectors. -/
abbrev LgMap := List Lg
def lgApply (m : LgMap) (s : Lg) : Lg :=
  (m.zipIdx).foldl (fun a e => if s.getLsbD e.2 then a ^^^ e.1 else a) 0
def lgSquare (m : LgMap) : LgMap := m.map (lgApply m)
def lgStep : LgMap := (List.range 128).map (fun i => (lgNext (BitVec.ofNat 128 (2 ^ i))).2)
/-- T^(2^n). -/
def lgPow : Nat → LgMap
  | 0 => lgStep
  | n + 1 => lgSquare (lgPow n)
/-- The jump by 2^64 steps (R219). -/
def lgJumpMap : LgMap := lgPow 64
def lgJump (s : Lg) : Lg := lgApply lgJumpMap s

/-- mix64 (R221). -/
def mix64 (x : Word) : Word :=
  let x := (x ^^^ (x >>> 30)) * 0xBF58476D1CE4E5B9#64
  let x := (x ^^^ (x >>> 27)) * 0x94D049BB133111EB#64
  x ^^^ (x >>> 31)
/-- A starter (R221). -/
def starter (seed : Word) (dom : Nat) (index : BitVec 32) (step : Word) (q : BitVec 32) : Lg :=
  let a := mix64 (seed ^^^ (0x9E3779B97F4A7C15#64 * BitVec.ofNat 64 (dom + 1)))
  let b := mix64 (a ^^^ index.setWidth 64 ^^^ ((q.setWidth 64) <<< 32))
  let s0 := mix64 (b ^^^ step)
  let s1 := mix64 (s0 ^^^ 0x5A17C3E04B9D2F61#64)
  if s0 = 0 ∧ s1 = 0 then Lg.mk 1 s1 else Lg.mk s0 s1
/-- The first `n` outputs of a state. -/
def lgOutputs : Nat → Lg → List Word
  | 0, _ => []
  | n + 1, s => (lgNext s).1 :: lgOutputs n (lgNext s).2
/-- Outputs of the 128 lane streams (R222): stream λ starts from the starter jumped λ times. -/
def lgStreams (outs : Nat) (s : Lg) : List (List Word) :=
  let m := lgJumpMap
  ((List.range 128).foldl (fun (acc : List (List Word) × Lg) _ => (lgOutputs outs acc.2 :: acc.1, lgApply m acc.2)) ([], s)).1.reverse
/-- Random bits of element e: `w` bits from place `lo` of the slot of `per` slots an output holds (Table 10.2). -/
def elemBits (st : List (List Word)) (e per lo w : Nat) : Nat :=
  let k := e / 128
  fld ((st.getD (e % 128) []).getD (k / per) 0) (64 / per * (k % per) + lo) w

/-- The hash of the shadow sample (R212). -/
def shadowSampled (seed step : Word) (tile s : Nat) : Bool :=
  let x := seed ^^^ (step * 0x9E3779B97F4A7C15#64) ^^^ (BitVec.ofNat 64 tile * 0xC2B2AE3D27D4EB4F#64)
  decide ((mix64 x).toNat % 2 ^ s = 0)

/-- A key of SAMPLE_ROW (R228). -/
def sampleKey (score t : F32) (b : Nat) : F32 :=
  let u := roundF false (2 * b + 1) (-24)
  fadd (fdiv score t) (fneg (fln (fneg (fln u))))
/-- The lowest index of the greatest key; a NaN ranks below every other (R228). -/
def sampleBest (keys : List F32) : Nat :=
  let r := (keys.zipIdx).foldl (fun (b : Option (F32 × Nat)) e =>
    if isNan e.1 then b else match b with
      | none => some e
      | some x => if flt x.1 e.1 then some e else b) none
  match r with
  | some e => e.2
  | none => 0xFFFFFFFF
def sampleRow (scores : List F32) (t : F32) (s : Lg) : Nat :=
  let st := lgStreams (ceilDiv (ceilDiv scores.length 128) 2) s
  sampleBest ((scores.zipIdx).map (fun e => sampleKey e.1 t (elemBits st e.2 2 9 23)))

end Sys2Proof.Machine
end

