-- ==== Sys2Proof/Machine/Formats.lean ====
section
/-!
DEFINITION. Machine/Formats.lean: the stream formats (Tables 7.1, 7.6, 9.1), narrowing with saturation and clipping (R199 to
R202), block scales (R165), and spans of elements as bytes (R149).
-/
namespace Sys2Proof.Machine

/-- A stream format (Table 7.1). -/
inductive Sf where
  | fp32 | bf16 | fp16 | e4m3 | e5m2 | mx8a | mx8b | mx6a | mx6b | mx4
deriving DecidableEq, Repr

/-- Codes of Table 7.6. -/
def Sf.ofCode : Nat → Option Sf
  | 1 => some .bf16 | 2 => some .e4m3 | 3 => some .e5m2 | 4 => some .mx8a | 5 => some .mx8b
  | 6 => some .mx6a | 7 => some .mx6b | 8 => some .mx4 | _ => none
/-- Moment formats (Table 7.2). -/
def Sf.ofMoment : Nat → Option Sf
  | 1 => some .fp32 | 2 => some .bf16 | 3 => some .mx8b | _ => none
/-- Gradient element types (Table 8.1). -/
def Sf.ofElem : Nat → Option Sf
  | 0 => some .fp32 | 1 => some .bf16 | 2 => some .fp16 | 3 => some .e4m3 | 4 => some .e5m2 | _ => none
def Sf.fmt : Sf → Fmt
  | .fp32 => fmtFP32 | .bf16 => fmtBF16 | .fp16 => fmtFP16 | .e4m3 | .mx8a => fmtE4M3 | .e5m2 | .mx8b => fmtE5M2
  | .mx6a => fmtE3M2 | .mx6b => fmtE2M3 | .mx4 => fmtE2M1
/-- A block of 32 elements shares a scale. -/
def Sf.mx : Sf → Bool
  | .mx8a | .mx8b | .mx6a | .mx6b | .mx4 => true
  | _ => false
def Sf.bits (f : Sf) : Nat := f.fmt.width
/-- Bytes of `n` elements with their scales (R149). -/
def Sf.bytes (f : Sf) (n : Nat) : Nat := n * f.bits / 8 + (if f.mx then n / 32 else 0)
/-- A span of a dense tile (Table 7.1). -/
def Sf.span (f : Sf) : Nat := f.bytes 16384
/-- emax of R165. -/
def Sf.emax : Sf → Int
  | .e4m3 | .mx8a => 8 | .e5m2 | .mx8b => 15 | .mx6a => 4 | _ => 2

/-- An element code without scale as binary32 parts (R199). -/
def Sf.decode (f : Sf) (c : Nat) : FP :=
  let s := decide (c ≥ f.fmt.signBit)
  let m := c % f.fmt.signBit
  if m > f.fmt.maxCode then
    match f with
    | .e4m3 | .mx8a => .nan s
    | _ => if m = f.fmt.maxCode + 1 then .inf s else .nan s
  else .fin s (f.fmt.mag m).1 (f.fmt.mag m).2
/-- The scale of a block: the exponent of E8M0 code c, none for NaN. -/
def scaleExp (c : Nat) : Option Int := if c = 0xFF then none else some ((c : Int) - 127)
/-- An element times its block scale, as binary32 (R199). -/
def Sf.value (f : Sf) (c scale : Nat) : F32 :=
  if f.mx then
    match scaleExp scale with
    | none => qnan (Config.nanSign 0x01 [BitVec.ofNat 32 c])
    | some k => ((f.decode c).mul (.fin false 1 k)).toBits
  else if f = .fp32 then BitVec.ofNat 32 c
  else (f.decode c).toBits
/-- Scale code of a block from its largest magnitude (R165). -/
def Sf.scale (f : Sf) (amax : F32) : Nat :=
  if nonFinite amax then 0xFF
  else if fabs amax = 0 then 0
  else (max (-127) (min 127 (flog2 amax - f.emax)) + 127).toNat

/-- Code of a finite v = ± m × 2^e, and whether it was saturated or clipped (R200). -/
def Fmt.narrow (f : Fmt) (neg : Bool) (m : Nat) (e : Int) : Nat × Bool :=
  let c := f.round m e
  let s := if neg then f.signBit else 0
  if c > f.maxCode then (f.maxCode + s, true) else (c + s, false)
/-- An element stored without a shared scale (R200, R201). -/
def Sf.store (f : Sf) (v : F32) : Nat × Bool :=
  if f = .fp32 then ((canon v).toNat, false) else
  match unpack v with
  | .fin s m e => f.fmt.narrow s m e
  | .inf s =>
    let b := if s then f.fmt.signBit else 0
    ((if f = .e4m3 then 0x7F else f.fmt.maxCode + 1) + b, false)
  | .nan s =>
    let b := if s then f.fmt.signBit else 0
    ((match f with
      | .bf16 => 0x7FC0 | .fp16 => 0x7E00 | .e5m2 => 0x7E | _ => 0x7F) + b, false)
/-- An element of an MX block under scale code `sc` (R201, R202). -/
def Sf.storeMx (f : Sf) (sc : Nat) (v : F32) : Nat × Bool :=
  match scaleExp sc, unpack v with
  | some k, .fin s m e => f.fmt.narrow s m (e - k)
  | _, _ => (0, false)
/-- The largest magnitude of a block, NaN if any is NaN (BMAX, R164). -/
def blockMax (l : List F32) : F32 :=
  l.foldl (fun a v => if isNan a then a else if isNan v then qnan (Config.nanSign 0x30 [v]) else if flt a (fabs v) then fabs v else a) 0

/-- Codes of `w` bits packed from bit 0 upward, in groups of 32 elements (R149). -/
def packCodes (w : Nat) (cs : List Nat) : List Byte :=
  (chunks 32 cs.length cs).flatMap (fun g => bytesOfNat (ceilDiv (g.length * w) 8) (g.foldr (fun c a => a * 2 ^ w + c) 0))
/-- `n` codes of `w` bits. -/
def unpackCodes (w n : Nat) (l : List Byte) : List Nat :=
  (chunks (4 * w) l.length l).flatMap (fun g => (List.range 32).map (fun i => natOfBytes g / 2 ^ (w * i) % 2 ^ w)) |>.take n

/-- Values stored as a span: its bytes, and how many elements were saturated or clipped. -/
def Sf.encode (f : Sf) (vs : List F32) : List Byte × Nat :=
  if f.mx then
    let bs := (chunks 32 vs.length vs).map (fun b =>
      let sc := f.scale (blockMax b)
      (sc, b.map (f.storeMx sc)))
    (packCodes f.bits (bs.flatMap (fun b => b.2.map Prod.fst)) ++ bs.map (fun b => BitVec.ofNat 8 b.1),
      sum (bs.map (fun b => (b.2.filter Prod.snd).length)))
  else
    let cs := vs.map f.store
    (cs.flatMap (fun c => bytesOfNat (f.bits / 8) c.1), (cs.filter Prod.snd).length)
/-- `n` values of a span (R199). -/
def Sf.values (f : Sf) (n : Nat) (l : List Byte) : List F32 :=
  let cs := if f.mx then unpackCodes f.bits n (l.take (n * f.bits / 8))
            else (chunks (f.bits / 8) n l).map natOfBytes
  let sc := (l.drop (n * f.bits / 8)).map BitVec.toNat
  (cs.zipIdx).map (fun c => f.value c.1 (sc.getD (c.2 / 32) 0xFF))

/-- Block scale of QNT and DQ: X = 1 for an OFP8 format, 2^k else, none for NaN (R165). -/
def Sf.quantExp (f : Sf) (b : F32) : Option Int := if f.mx then scaleExp (f.scale b) else some 0
/-- QNT (R165, R200, R201). -/
def Sf.qnt (f : Sf) (a b : F32) : F32 :=
  match f.quantExp b, unpack a with
  | none, _ => qnan (Config.nanSign 0x31 [a, b])
  | some _, .nan s => qnan s
  | some _, .inf s => if f.fmt = fmtE5M2 then finf s else qnan s
  | some k, .fin s m e => (f.decode (f.fmt.narrow s m (e - k)).1).toBits
/-- DQ: A × X. -/
def Sf.dq (f : Sf) (a b : F32) : F32 :=
  match f.quantExp b with
  | none => qnan (Config.nanSign 0x32 [a, b])
  | some k => ((unpack a).mul (.fin false 1 k)).toBits
/-- A / X in binary32, the wide path's QNT (Table 9.6). -/
def Sf.qntWide (f : Sf) (a b : F32) : F32 :=
  match f.quantExp b with
  | none => qnan (Config.nanSign 0x31 [a, b])
  | some k => ((unpack a).mul (.fin false 1 (-k))).toBits

end Sys2Proof.Machine
end

