-- ==== Sys2Proof/Machine/Program.lean ====
section
/-!
DEFINITION. Machine/Program.lean: parameter groups (Table 7.2), their constants (R160, R161), update programs: decoding, the
checks of PROG_LOAD (R163, R166), and running one block of elements (R164, R165, R167, R168).
-/
namespace Sys2Proof.Machine

/-! ### Instructions -/

/-- An instruction word (Table 7.4). -/
structure PInst where
  op : Nat
  d  : Nat
  a  : Nat
  b  : Nat
  c  : Nat
  bk : Bool
  ck : Bool
  ak : Bool
  rsv : Nat
deriving DecidableEq, Repr
def PInst.ofWord (w : BitVec 32) : PInst :=
  ⟨fld w 0 8, fld w 8 4, fld w 12 4, fld w 16 4, fld w 20 4, w.getLsbD 24, w.getLsbD 25, w.getLsbD 26, fld w 27 5⟩

/-- Fields an operation uses: D, A, B, C (Table 7.5); none for an invalid OP. -/
def opUses (op : Nat) : Option (Bool × Bool × Bool × Bool) :=
  match op with
  | 0x01 | 0x02 | 0x03 | 0x04 => some (true, false, false, false)
  | 0x08 | 0x09 | 0x0A | 0x0B | 0x38 => some (false, true, false, false)
  | 0x10 | 0x11 | 0x12 | 0x14 | 0x15 | 0x20 | 0x21 => some (true, true, true, false)
  | 0x13 | 0x19 | 0x22 | 0x31 | 0x32 => some (true, true, true, true)
  | 0x16 | 0x17 | 0x18 | 0x28 | 0x29 | 0x2A | 0x30 => some (true, true, false, false)
  | _ => none
def isQuant (op : Nat) : Bool := op == 0x31 || op == 0x32
/-- Registers an instruction reads. -/
def PInst.reads (i : PInst) : List Nat :=
  match opUses i.op with
  | none => []
  | some (_, a, b, c) => (if a && !i.ak then [i.a] else []) ++ (if b && !i.bk then [i.b] else [])
      ++ (if c && !i.ck && !isQuant i.op then [i.c] else [])
/-- The register an instruction writes. -/
def PInst.writes (i : PInst) : Option Nat :=
  match opUses i.op with
  | some (true, _, _, _) => some i.d
  | _ => none
/-- A reserved bit, or a field that the operation does not use, is non-zero (R164, R166). -/
def PInst.unusedSet (i : PInst) : Bool :=
  match opUses i.op with
  | none => false
  | some (d, a, b, c) =>
    decide (i.rsv ≠ 0) || (!d && decide (i.d ≠ 0)) || (!a && (decide (i.a ≠ 0) || i.ak)) ||
    (!b && (decide (i.b ≠ 0) || i.bk)) || (!c && (decide (i.c ≠ 0) || i.ck)) || (isQuant i.op && i.ck)

/-! ### Parameter groups -/

def gw (g : List Word) (i : Nat) : Word := g.getD i 0
def gProg (g : List Word) : Nat := fld (gw g 0) 0 3
def gAccOn (g : List Word) : Bool := (gw g 0).getLsbD 3
def gM1 (g : List Word) : Option Sf := Sf.ofMoment (fld (gw g 0) 4 2)
def gM2 (g : List Word) : Option Sf := Sf.ofMoment (fld (gw g 0) 6 2)
def gWc (g : List Word) : Option Sf := Sf.ofCode (fld (gw g 0) 8 4)
def gAcc (g : List Word) : Sf := if fld (gw g 0) 12 2 = 0 then .fp32 else .bf16
def gSched (g : List Word) : Nat := fld (gw g 0) 14 2
def gStripe (g : List Word) : Nat := fld (gw g 0) 16 5
def gAnchor (g : List Word) : Nat := fld (gw g 0) 32 32
def gBase1 (g : List Word) : Nat := fld (gw g 1) 0 32
def gBase2 (g : List Word) : Nat := fld (gw g 1) 32 32
/-- Base of working copy version 0 or 1. -/
def gWcBase (g : List Word) (v : Bool) : Nat := if v then fld (gw g 2) 32 32 else fld (gw g 2) 0 32
def gF (g : List Word) (i hi : Nat) : F32 := BitVec.ofNat 32 (fld (gw g i) (32 * hi) 32)

/-- Bad fields of PGROUP_SET, by byte offset (R158, R159). -/
def groupBad (g : List Word) : List Nat :=
  let f := fun (i hi : Nat) => badF g i hi
  reserved g ++ badIf (decide (fld (gw g 0) 8 4 ≥ 9)) 33 ++ badIf (decide (fld (gw g 0) 12 2 ≥ 2)) 33
    ++ badIf (decide (gSched g = 3)) 33 ++ badIf (decide (gStripe g = 0) || decide (24 < gStripe g)) 34
    ++ badIf (gAccOn g && decide (fld (gw g 0) 6 2 ≠ 0)) 32
    ++ f 4 0 ++ f 4 1 ++ f 5 0 ++ f 5 1 ++ f 6 0 ++ f 6 1 ++ f 7 0 ++ f 8 1 ++ f 9 0 ++ f 9 1
    ++ badIf (outside (gF g 5 0)) 72 ++ badIf (outside (gF g 5 1)) 76
    ++ badIf (neg (gF g 6 0)) 80
    ++ badIf (neg (gF g 7 0) || flt fone (gF g 7 0)) 88
    ++ badIf (decide (gSched g = 1) && decide (fld (gw g 7) 32 32 = 0)) 92
    ++ badIf (decide (gSched g = 2) && decide (fld (gw g 8) 0 32 = 0)) 96
where
  badIf (b : Bool) (off : Nat) : List Nat := if b then [off] else []
  /-- A field that is not finite. -/
  badF (g : List Word) (i hi : Nat) : List Nat := if nonFinite (gF g i hi) then [32 + 8 * i + 4 * hi] else []
  /-- Below zero; −0 is not. -/
  neg (x : F32) : Bool := x.getLsbD 31 && fnz x
  outside (x : F32) : Bool := neg x || !flt x fone
  reserved (g : List Word) : List Nat :=
    match (List.range 11).find? (fun i => (gw g 0).getLsbD (21 + i)) with
    | some i => [32 + (21 + i) / 8]
    | none => []

/-! ### Constants (R160, R161) -/

/-- pow(beta, t) of R161; `n` halvings. -/
def powLoop : Nat → F32 → F32 → Nat → F32
  | 0, p, _, _ => p
  | k + 1, p, b, n => if n = 0 then p else powLoop k (if n % 2 = 1 then fmul p b else p) (fmul b b) (n / 2)
def fpow (beta : F32) (t : Nat) : F32 := powLoop 65 fone beta t
/-- The schedule factor f. -/
def schedFactor (g : List Word) (s : Nat) : F32 :=
  let warmup := fld (gw g 8) 0 32
  let decay := fld (gw g 7) 32 32
  if s < warmup then fdiv (fofNat (s + 1)) (fofNat warmup)
  else if gSched g = 0 then fone
  else if gSched g = 1 then
    let d := s - warmup
    if d ≥ decay then gF g 7 0
    else fsub fone (fmul (fsub fone (gF g 7 0)) (fdiv (fofNat d) (fofNat decay)))
  else fsqrt (fdiv (fofNat warmup) (fofNat s))
/-- K0 to K15 of a set group at a step, with loss-scale exponent e (Table 7.3). -/
def constants (g : List Word) (step : Word) (e : Int) : List F32 :=
  let origin := (gw g 3).toNat
  let s := if step.toNat ≥ origin then step.toNat - origin else 0
  let k0 := fmul (gF g 4 0) (schedFactor g s)
  let corr := fun (b : F32) => fdiv fone (fsub fone (fpow b ((s + 1) % 2 ^ 64)))
  [k0, fpow2 (-e), corr (gF g 5 0), corr (gF g 5 1), gF g 5 0, fsub fone (gF g 5 0), gF g 5 1, fsub fone (gF g 5 1),
   gF g 6 0, gF g 4 1, fmul k0 (gF g 4 1), gF g 6 1, gF g 8 1, gF g 9 0, gF g 9 1, fone]

/-! ### Checks of a program (R166) -/

/-- Indexes at which a test holds. -/
def idxs (p : List PInst) (f : PInst → Bool) : List Nat := ((p.zipIdx).filter (fun e => f e.1)).map Prod.snd
/-- A register read before any instruction writes it. -/
def readBeforeWrite (p : List PInst) : List Nat :=
  ((p.zipIdx).foldl (fun (st : List Nat × List Nat) e =>
    let bad := if e.1.reads.any (fun r => !st.1.contains r) then [e.2] else []
    (e.1.writes.toList ++ st.1, st.2 ++ bad)) ([], [])).2
/-- Offending instructions of the conditions that concern the program alone. -/
def progBad (p : List PInst) : List Nat :=
  let twice := [1, 2, 3, 4, 8, 9, 10, 11].flatMap (fun o => (idxs p (fun i => i.op == o)).drop 1)
  let special := (idxs p (fun i => i.op == 0x28 || i.op == 0x29 || i.op == 0x2A)).drop 4
  let bmax := (idxs p (fun i => i.op == 0x30)).drop 2
  let stc := idxs p (fun i => i.op == 0x0B)
  let stw := idxs p (fun i => i.op == 0x08)
  let pair := match stc, stw with
    | [], _ => []
    | c :: _, [] => [c]
    | c :: _, w :: _ =>
      let ic := p.getD c ⟨0, 0, 0, 0, 0, false, false, false, 0⟩
      let iw := p.getD w ⟨0, 0, 0, 0, 0, false, false, false, 0⟩
      if ic.a ≠ iw.a ∨ ic.ak ≠ iw.ak then [c]
      else if ic.ak then []
      else (((p.zipIdx).drop (min c w + 1)).take (max c w - min c w - 1)).filter (fun e => e.1.writes == some ic.a) |>.map Prod.snd
  idxs p (fun i => (opUses i.op).isNone) ++ idxs p PInst.unusedSet ++ readBeforeWrite p ++ twice ++ special ++ bmax
    ++ idxs p (fun i => isQuant i.op && (decide (i.c < 2) || decide (8 < i.c))) ++ pair
/-- First instruction that needs what a group lacks; the last one when the group has a working copy and the program no
STC (R166). -/
def cannotRun (p : List PInst) (g : List Word) : List Nat :=
  idxs p (fun i => ((i.op == 3 || i.op == 9) && (gM1 g).isNone) || ((i.op == 4 || i.op == 10) && (gM2 g).isNone)
      || (i.op == 11 && (gWc g).isNone))
    ++ (if (gWc g).isSome && !(p.any (fun i => i.op == 11)) then [p.length - 1] else [])

/-! ### Running a block -/

/-- A block of elements on its way through a program. -/
structure Blk where
  regs : FMap (List F32) := []
  skip : List Bool := []
  stw  : Option (List F32) := none
  stm1 : Option (List F32) := none
  stm2 : Option (List F32) := none
  stc  : Option (List F32) := none
  /-- LDG returned a non-finite value for a present element (R168). -/
  bad  : Bool := false
deriving DecidableEq, Repr

/-- What a block reads: gradient with the accumulator already added, master, moments, the elements that are present,
and those that run the program: the present ones, or with ACC_ON every one (R184). -/
structure BlkIn where
  g    : List F32
  w    : List F32
  m1   : List F32
  m2   : List F32
  pres : List Bool
  run  : List Bool
deriving DecidableEq, Repr

def zip3 (f : F32 → F32 → F32 → F32) (a b c : List F32) : List F32 :=
  (List.zip a (List.zip b c)).map (fun e => f e.1 e.2.1 e.2.2)
def fclamp (a b c : F32) : F32 := fmin (fmax a b) c
def fsel (a b c : F32) : F32 := if fnz a then b else c

/-- Operand: a constant for every element, or a register. -/
def operand (ks : List F32) (n : Nat) (b : Blk) (isK : Bool) (r : Nat) : List F32 :=
  if isK then List.replicate n (ks.getD r 0) else mgetD b.regs r (List.replicate n 0)

/-- One instruction on a block (Table 7.5); `wide` is the wide path of Table 9.6. -/
def runInst (ks : List F32) (inp : BlkIn) (wide : Bool) (b : Blk) (i : PInst) : Blk :=
  let n := inp.w.length
  let a := operand ks n b i.ak i.a
  let y := operand ks n b i.bk i.b
  let z := operand ks n b i.ck i.c
  let put := fun (l : List F32) => { b with regs := mset b.regs i.d l }
  let fm := (Sf.ofCode i.c).getD .e4m3
  match i.op with
  | 0x01 => { put inp.g with bad := b.bad || (List.zip inp.g inp.run).any (fun e => e.2 && nonFinite e.1) }
  | 0x02 => put inp.w
  | 0x03 => put inp.m1
  | 0x04 => put inp.m2
  | 0x08 => { b with stw := some a }
  | 0x09 => { b with stm1 := some a }
  | 0x0A => { b with stm2 := some a }
  | 0x0B => { b with stc := some a }
  | 0x10 => put (List.zipWith fadd a y)
  | 0x11 => put (List.zipWith fsub a y)
  | 0x12 => put (List.zipWith fmul a y)
  | 0x13 => put (zip3 ffma a y z)
  | 0x14 => put (List.zipWith fmax a y)
  | 0x15 => put (List.zipWith fmin a y)
  | 0x16 => put (a.map fabs)
  | 0x17 => put (a.map fneg)
  | 0x18 => put (a.map fsgn)
  | 0x19 => put (zip3 fclamp a y z)
  | 0x20 => put (List.zipWith fgt a y)
  | 0x21 => put (List.zipWith feq a y)
  | 0x22 => put (zip3 fsel a y z)
  | 0x28 => put (a.map frcp)
  | 0x29 => put (a.map frsqrt)
  | 0x2A => put (a.map fsqrt)
  | 0x30 => put (List.replicate n (blockMax ((List.zip a inp.pres).filter Prod.snd |>.map Prod.fst)))
  | 0x31 => put (List.zipWith (fun x s => if wide then fm.qntWide x s else fm.qnt x s) a y)
  | 0x32 => put (List.zipWith (fun x s => fm.dq x s) a y)
  | 0x38 => { b with skip := List.zipWith (fun s x => s || fnz x) b.skip a }
  | _ => b
def runBlock (prog : List PInst) (ks : List F32) (wide : Bool) (inp : BlkIn) : Blk :=
  prog.foldl (runInst ks inp wide) { skip := inp.w.map (fun _ => false) }

/-- A store's value for each element: the old value where the element is skipped or absent (R167, R184). -/
def stored (old : List F32) (b : Blk) (pres : List Bool) (st : Option (List F32)) : List F32 :=
  match st with
  | none => old
  | some l => (List.zip (List.zip old l) (List.zip b.skip pres)).map (fun e =>
      if e.2.1 || !e.2.2 then e.1.1 else e.1.2)
/-- A present, unskipped element stores a non-finite value (R168). -/
def storesBad (b : Blk) (pres : List Bool) (st : Option (List F32)) : Bool :=
  match st with
  | none => false
  | some l => (List.zip l (List.zip b.skip pres)).any (fun e => nonFinite e.1 && !e.2.1 && e.2.2)

end Sys2Proof.Machine
end

