-- ==== Sys2Proof/Machine/Sparse.lean ====
section
/-!
DEFINITION. Machine/Sparse.lean: tile headers and gradient slots (file 08): the four layouts, malformed cases, the path a slot
takes, and S24 patterns.
-/
namespace Sys2Proof.Machine

/-! ### Headers (Tables 8.1, 8.2) -/

def hFormat (h : Word) : Nat := fld h 0 8
def hDensity (h : Word) : Nat := fld h 8 8
def hElem (h : Word) : Nat := fld h 16 3
def hConvert (h : Word) : Bool := h.getLsbD 19
def hRow (h : Word) : Nat := fld h 20 4
def hAux (h : Word) : Nat := fld h 32 32
def hRsv (h : Word) : Bool := decide (fld h 24 8 ≠ 0)
/-- The tile header as it stands in the map area (R131). -/
def State.header (s : State) (c t : Nat) : Word := wordAt (s.readDie ((s.ctx c).mapAddr.toNat + 16 * t + 8) 8) 0

def masterBad (h : Word) : Bool :=
  hRsv h || (decide (hFormat h ≠ 0) && decide (hFormat h ≠ 3)) || decide (hElem h ≠ 0) || (hConvert h && decide (hFormat h ≠ 3))
    || decide (hRow h ≠ 0) || (!hConvert h && decide (hAux h ≠ 0))
def accBad (h : Word) : Bool :=
  hRsv h || decide (hFormat h ≠ 0) || decide (hElem h ≠ 0) || hConvert h || decide (hRow h ≠ 0) || decide (hAux h ≠ 0)
def slotBad (h : Word) (elem : Nat) : Bool :=
  hRsv h || decide (hFormat h > 3) || decide (hElem h > 4) || decide (hElem h ≠ elem) || hConvert h
    || (if hFormat h = 1 then decide (hRow h < 5) || decide (14 < hRow h) else decide (hRow h ≠ 0))
    || ((hFormat h == 0 || hFormat h == 3) && decide (hAux h ≠ 0))

/-- How a master is held (R192). -/
inductive Held where
  | dense | converting | s24
deriving DecidableEq, Repr
def heldAs (h : Word) (step : Word) : Held :=
  if hFormat h ≠ 3 then .dense
  else if !hConvert h then .s24
  else
    let d := BitVec.ofNat 32 (fld step 0 32) - BitVec.ofNat 32 (hAux h)
    if d = 0 then .converting else if d.getLsbD 31 then .dense else .s24

/-! ### Slots -/

/-- What a slot carries: one entry an element, none where it is absent, and what was found wrong (Table 8.5). -/
structure Slot where
  vals  : List (Option F32)
  undec : Bool := false
  range : List Nat := []
  dup   : Nat := 0
  equal : List Nat := []
deriving DecidableEq, Repr

/-- An undecodable slot: every element a quiet NaN (R196). -/
def Slot.nan (n : Nat) : Slot := { vals := List.replicate n (some (qnan (Config.nanSign 0 []))), undec := true }
def dense (f : Sf) (n : Nat) (l : List Byte) : Slot := { vals := (f.values n l).map some }
/-- Nibble g of a pattern (R188). -/
def nibble (l : List Byte) (g : Nat) : Nat :=
  let b := (l.getD (g / 2) 0).toNat
  if g % 2 = 0 then b % 16 else b / 16
/-- ROWSPARSE (R186): `lo` is the region's first row of the tile, `rows` the region's row count. -/
def rowSlot (f : Sf) (n : Nat) (h : Word) (lo rows : Nat) (l : List Byte) : Slot :=
  let e := f.bits / 8
  let w := 2 ^ hRow h
  let k := hAux h
  let v := 64 * ceilDiv (4 * k) 64
  if v + k * w * e > 65536 then Slot.nan n
  else
    let per := 16384 / w
    let r := (List.range k).foldl (fun (acc : FMap (List F32) × List Nat × Nat) i =>
      let q := natOfBytes ((l.drop (4 * i)).take 4)
      if q ≥ rows ∨ q < lo ∨ lo + per ≤ q then (acc.1, acc.2.1 ++ [q], acc.2.2)
      else if (mget acc.1 (q - lo)).isSome then (acc.1, acc.2.1, acc.2.2 + 1)
      else (mset acc.1 (q - lo) (f.values w ((l.drop (v + i * w * e)).take (w * e))), acc.2.1, acc.2.2)) ([], [], 0)
    { vals := ((List.range per).flatMap (fun q =>
        match mget r.1 q with
        | some vs => vs.map some
        | none => List.replicate w none)) ++ List.replicate (n - 16384) none,
      range := r.2.1, dup := r.2.2 }
/-- BITMAP (R187). -/
def bitmapSlot (f : Sf) (n : Nat) (h : Word) (l : List Byte) : Slot :=
  let e := f.bits / 8
  let bits := (l.take 2048).flatMap (fun b => (List.range 8).map (fun i => b.getLsbD i))
  let p := (bits.filter id).length
  if p ≠ hAux h ∨ 2048 + p * e > 65536 then Slot.nan n
  else
    let vs := f.values p ((l.drop 2048).take (p * e))
    { vals := place bits vs ++ List.replicate (n - 16384) none }
where
  /-- The values laid out over the bits set. -/
  place : List Bool → List F32 → List (Option F32)
    | [], _ => []
    | true :: bs, vs => some (vs.headD 0) :: place bs (vs.drop 1)
    | false :: bs, vs => none :: place bs vs
/-- S24 (R188): equal position codes leave the whole group absent. -/
def s24Slot (f : Sf) (n : Nat) (l : List Byte) : Slot :=
  let e := f.bits / 8
  let vs := chunks 2 4096 (f.values 8192 (l.take (8192 * e)))
  let codes := (l.drop (8192 * e)).take 2048
  let gs := (vs.zipIdx).map (fun g =>
    let c := nibble codes g.2
    (c % 4, c / 4, g.1, g.2))
  { vals := (gs.flatMap (fun g => (List.range 4).map (fun p =>
      if g.1 = g.2.1 then none else if p = g.1 then some (g.2.2.1.getD 0 0) else if p = g.2.1 then some (g.2.2.1.getD 1 0) else none)))
        ++ List.replicate (n - 16384) none,
    equal := (gs.filter (fun g => g.1 == g.2.1)).map (fun g => g.2.2.2) }

/-- Tiles and byte ranges of a striped span (R150). -/
def spanPieces (base w r z : Nat) : List (Nat × Nat × Nat) :=
  let col := r % w
  let start := (r / w) * z
  let first := start / 65536
  (List.range ((start + z - 1) / 65536 - first + 1)).map (fun i =>
    let lo := max start ((first + i) * 65536)
    let hi := min (start + z) ((first + i + 1) * 65536)
    (base + col + w * (first + i), lo % 65536, hi - lo))
/-- Bytes of pieces, as the engine reads them. -/
def State.readPieces (s : State) (c : Nat) (ps : List (Nat × Nat × Nat)) : List Byte :=
  ps.flatMap (fun p =>
    if (s.tile c p.1).tier1 then ((bytesOfTile (s.valOf c p.1)).drop p.2.1).take p.2.2
    else s.readBytes (s.tile c p.1).slice ((s.tile c p.1).stack * 65536 + p.2.1) p.2.2)

/-- Slot geometry of a command from its first gradient header: span geometry for DENSE (R183). -/
def spanGeometry (h0 : Word) : Bool := hFormat h0 == 0
/-- Element format of a command; FP32 stands for an invalid one, whose slots are undecodable. -/
def elemOf (h0 : Word) : Sf := (Sf.ofElem (hElem h0)).getD .fp32
/-- Tiles of the slot of the master or accumulator at position r, with n elements (R150, R183). -/
def slotPieces (h0 : Word) (first w r n : Nat) : List (Nat × Nat × Nat) :=
  if spanGeometry h0 then spanPieces first w r ((elemOf h0).bytes n) else [(first + r, 0, 65536)]
/-- Row bounds of a tile in its region (R186). -/
def Ctx.rowBounds (x : Ctx) (t w : Nat) : Nat × Nat :=
  match x.regionOf t with
  | some e => ((t - e.2.first) * (16384 / w), e.2.count * (16384 / w))
  | none => (0, 0)
/-- The slot of a tile, its layout code, and its DENSITY. -/
def State.slotOf (s : State) (c t : Nat) (h0 : Word) (first w r n : Nat) : Slot × Nat × Nat :=
  let f := elemOf h0
  if spanGeometry h0 then
    let bad := slotBad h0 (hElem h0)
    (if bad then Slot.nan n else dense f n (s.readPieces c (slotPieces h0 first w r n)), 0, 0)
  else
    let h := s.header c (first + r)
    let l := s.readPieces c [(first + r, 0, 65536)]
    let b := (s.ctx c).rowBounds t (2 ^ hRow h)
    (if slotBad h (hElem h0) then Slot.nan n
     else match hFormat h with
      | 0 => if f.bytes n > 65536 then Slot.nan n else dense f n l
      | 1 => rowSlot f n h b.1 b.2 l
      | 2 => bitmapSlot f n h l
      | _ => s24Slot f n l, hFormat h, hDensity h)
/-- The dense path for a sparse slot (R195). -/
def State.densePath (s : State) (layout density : Nat) (accOn : Bool) : Bool :=
  accOn || (s.hasDensity && ((layout == 1 && decide (density ≥ 141)) || (layout == 2 && decide (density ≥ 204))))

/-! ### S24 masters (R189, R193) -/

/-- Magnitude rank: NaN highest, zeros alike. -/
def rankOf (x : F32) : Nat := if isNan x then 2 ^ 32 else (fabs x).toNat
/-- The two kept positions of a group of four, ascending (R193). -/
def keepTwo (g : List F32) : Nat × Nat :=
  let o := sortBy (fun p => 2 ^ 33 - rankOf (g.getD p 0)) [0, 1, 2, 3]
  (min (o.getD 0 0) (o.getD 1 1), max (o.getD 0 0) (o.getD 1 1))
/-- The pattern of an S24 master: for each group the positions of its slots. -/
def patternOf (tile : List Byte) : List (Nat × Nat) :=
  let l := (tile.drop 32768).take 2048
  l.flatMap (fun b => [(b.toNat % 4, b.toNat / 4 % 4), (b.toNat / 16 % 4, b.toNat / 64)])
def patternBytes (ps : List (Nat × Nat)) : List Byte :=
  (chunks 2 2048 ps).map (fun c =>
    let a := c.getD 0 (0, 0)
    let b := c.getD 1 (0, 0)
    BitVec.ofNat 8 (a.1 + 4 * a.2 + 16 * b.1 + 64 * b.2))
/-- Values of a dense list at the pattern's positions, two a group. -/
def gather {α : Type} (d : α) (ps : List (Nat × Nat)) (l : List α) : List α :=
  (List.zip ps (chunks 4 l.length l)).flatMap (fun e => [e.2.getD e.1.1 d, e.2.getD e.1.2 d])
/-- A dense list from the pattern's values, `d` elsewhere; an equal pair of codes leaves the group at `d`. -/
def scatter {α : Type} (d : α) (ps : List (Nat × Nat)) (l : List α) : List α :=
  (List.zip ps (chunks 2 l.length l)).flatMap (fun e => (List.range 4).map (fun p =>
    if e.1.1 = e.1.2 then d else if p = e.1.1 then e.2.getD 0 d else if p = e.1.2 then e.2.getD 1 d else d))
/-- The dense values of a master tile held dense or in S24 (R190). -/
def masterValues (held : Held) (tile : List Byte) : List F32 :=
  if held = .s24 then scatter 0 (patternOf tile) (Sf.fp32.values 8192 (tile.take 32768))
  else Sf.fp32.values 16384 tile

end Sys2Proof.Machine
end

