-- ==== Sys2Proof/Machine/Update.lean ====
section
/-!
DEFINITION. Machine/Update.lean: one master tile through the pass (R149 to R157, R184 to R197), covered-writes (R140), the shadow
check (R212 to R215), and the checks and effect of STEP_GRAD_READY.
-/
namespace Sys2Proof.Machine

/-! ### Groups and companion streams -/

/-- Parameter group of a tile (R133). -/
def Ctx.groupNo (x : Ctx) (t : Nat) : Nat :=
  match mget x.tiles t with
  | none => 0
  | some r => if r.word0.getLsbD 40 then fld r.word0 32 8 else ((x.regionOf t).map (fun e => e.2.pgroup.toNat)).getD 0
def Ctx.groupOf (x : Ctx) (t : Nat) : Option (List Word) := mget x.groups (x.groupNo t)
/-- Format code of Table 7.6. -/
def Sf.code : Sf → Nat
  | .bf16 => 1 | .e4m3 => 2 | .e5m2 => 3 | .mx8a => 4 | .mx8b => 5 | .mx6a => 6 | .mx6b => 7 | .mx4 => 8 | _ => 0
/-- What a companion stream holds. -/
inductive Role where
  | m1 | m2 | acc | wc (v : Bool)
deriving DecidableEq, Repr
structure Stream where
  role : Role
  base : Nat
  fmt  : Sf
deriving DecidableEq, Repr
/-- Companion streams that a group names (R150, R158, R159). -/
def streamsOf (g : List Word) : List Stream :=
  ((gM1 g).map (fun f => (⟨.m1, gBase1 g, f⟩ : Stream))).toList ++ ((gM2 g).map (fun f => (⟨.m2, gBase2 g, f⟩ : Stream))).toList
    ++ (if gAccOn g then [⟨.acc, gBase2 g, gAcc g⟩] else [])
    ++ (match gWc g with
        | none => []
        | some f => [⟨.wc false, gWcBase g false, f⟩, ⟨.wc true, gWcBase g true, f⟩])
/-- Tiles and byte ranges of a stream's span at a position. -/
def Stream.pieces (st : Stream) (g : List Word) (r : Nat) : List (Nat × Nat × Nat) := spanPieces st.base (gStripe g) r st.fmt.span
/-- Elements of an accumulator tile (R171). -/
def accElems (g : List Word) : Nat := if gAcc g = .bf16 then 32768 else 16384
/-- Traffic of one master tile, in bytes, before its crumb (R152). -/
def groupBytes (g : List Word) : Nat :=
  131072 + sum ((streamsOf g).map (fun st => match st.role with | .wc v => if v then 0 else st.fmt.span | _ => 2 * st.fmt.span))

/-! ### Checks of STEP_GRAD_READY and STEP_ACCUMULATE (R134, R140, R151, R153) -/

def firstTile (c : Cmd) : Nat := fld c.a 0 32
def gradTile (c : Cmd) : Nat := fld c.b 32 32
def gradRegion (c : Cmd) : Nat := fld c.b 0 8
def fieldsGrad (s : State) (c : Cmd) : List Nat := badAt (mget (s.ctx c.cid).regions (gradRegion c)).isNone 16
/-- A tile of a companion stream is where and what it must be. -/
def State.streamTileOk (s : State) (c t u : Nat) (role : Role) : Bool :=
  let x := s.ctx c
  decide (u < x.n) && (s.tile c u).slice == (s.tile c t).slice &&
    (match role with
      | .wc _ => x.cover u == .uncovered
      | _ => x.cover u == x.cover t)
/-- A gradient tile lies on the state tile's slice, in the gradient region, which is UNCOVERED. -/
def State.gradTileOk (s : State) (c t u gr : Nat) : Bool :=
  let x := s.ctx c
  decide (u < x.n) && (s.tile c u).slice == (s.tile c t).slice &&
    (match x.regionOf u with
      | some e => e.1 == gr && e.2.cls == .uncovered
      | none => false)
/-- Gradient tiles of a state tile: its staged tile, or the tiles of its slot (R140, R183). -/
def Ctx.gradTiles (x : Ctx) (cmd : Cmd) (acc : Bool) (h0 : Word) (t : Nat) : List Nat :=
  let r := t - firstTile cmd
  match mget x.tiles t, x.groupOf t with
  | some rec, some g =>
    if rec.raw then [gradTile cmd + r]
    else (slotPieces h0 (gradTile cmd) (gStripe g) r (if acc then accElems g else 16384)).map (fun p => p.1)
  | _, _ => [gradTile cmd + r]
/-- Companion tiles of a master tile. -/
def companions (g : List Word) (t : Nat) : List (Nat × Role) :=
  (streamsOf g).flatMap (fun st => (st.pieces g (t - gAnchor g)).map (fun p => (p.1, st.role)))
/-- The step that is open names the tile already (R153). -/
def Ctx.stepNames (x : Ctx) (t : Nat) : Bool :=
  match x.step with
  | some st => !st.awaitOnly && st.named.contains t
  | none => false
def State.stateTileBad (s : State) (cmd : Cmd) (acc : Bool) (h0 : Word) (t : Nat) : Bool :=
  let c := cmd.cid
  let x := s.ctx c
  let grad := (x.gradTiles cmd acc h0 t).all (fun u => s.gradTileOk c t u (gradRegion cmd))
  if !(x.cover t).crumbed then true
  else if (s.tile c t).raw then acc || !grad
  else match x.groupOf t with
    | none => true
    | some g =>
      if acc then !grad
      else (mget x.progs (gProg g)).isNone || x.stepNames t || decide (t < gAnchor g) || !grad
        || !((companions g t).all (fun u => s.streamTileOk c t u.1 u.2))
def State.gradRange (s : State) (cmd : Cmd) (acc : Bool) : Option Bad :=
  let x := s.ctx cmd.cid
  let h0 := s.header cmd.cid (gradTile cmd)
  firstBad [x.tilesBad (firstTile cmd) cmd.n (s.stateTileBad cmd acc h0),
    if x.stopped then conflict 6 else none]
def Ctx.stepClosed (x : Ctx) : Bool :=
  match x.step with
  | some st => st.loss.isSome
  | none => true
def chkGradReady (s : State) (cmd : Cmd) : Option Bad :=
  let x := s.ctx cmd.cid
  firstBad [s.gradRange cmd false,
    if !s.allRaw cmd.cid (firstTile cmd) cmd.n && (!x.stepOpen || x.stepClosed) then conflict 6 else none]
/-- Bytes that a state tile of the pass moves (R170, R171). -/
def State.traffic (s : State) (acc : Bool) (c t : Nat) (h0 : Word) : Nat :=
  let z := (elemOf h0).bytes 16384
  match (s.ctx c).groupOf t with
  | some g => if (s.tile c t).raw then 196608 else if acc then 131072 + z else groupBytes g + z
  | none => 196608
def State.gradBytes (s : State) (acc : Bool) (cmd : Cmd) : List (Nat × Nat) :=
  let h0 := s.header cmd.cid (gradTile cmd)
  (extent (firstTile cmd) cmd.n).foldl (fun (m : FMap Nat) t =>
    let i := (s.tile cmd.cid t).slice
    mset m i (mgetD m i 0 + s.traffic acc cmd.cid t h0)) []

/-! ### Values of a block -/

/-- What a block leaves: new master, wide master, moments, the values to convert into the working copy, the elements
kept, whether it ran, whether it found an overflow. -/
structure BlkOut where
  w    : List F32
  wide : List F32
  m1   : List F32
  m2   : List F32
  wc   : List F32
  keep : List Bool
  ran  : Bool
  bad  : Bool
deriving DecidableEq, Repr
def runOne (prog : List PInst) (ks : List F32) (inp : BlkIn) : BlkOut :=
  if !inp.run.any id then
    { w := inp.w, wide := inp.w, m1 := inp.m1, m2 := inp.m2, wc := inp.w, keep := inp.w.map (fun _ => true), ran := false, bad := false }
  else
    let b := runBlock prog ks false inp
    let v := runBlock prog ks true inp
    let w := stored inp.w b inp.run b.stw
    { w := w, wide := stored inp.w v inp.run v.stw, m1 := stored inp.m1 b inp.run b.stm1, m2 := stored inp.m2 b inp.run b.stm2,
      wc := (match b.stc with | none => w | some _ => stored inp.w b inp.run b.stc),
      keep := List.zipWith (fun k r => k || !r) b.skip inp.run, ran := true,
      bad := b.bad || storesBad b inp.run b.stw || storesBad b inp.run b.stm1 || storesBad b inp.run b.stm2 }

def blocks32 {α : Type} (l : List α) : List (List α) := chunks 32 l.length l
/-- Elements that run the program (R184); those of a group whose two codes are equal never do (Table 8.5). -/
def runMask (accOn : Bool) (live : List Bool) (g : List (Option F32)) : List Bool :=
  List.zipWith (fun (l : Bool) (o : Option F32) => l && (accOn || o.isSome)) live g
/-- Blocks of a tile: gradient, master, moments. -/
def blocksOf (g : List (Option F32)) (accOn : Bool) (live : List Bool) (acc w m1 m2 : List F32) : List BlkIn :=
  let gs := blocks32 g
  let rs := blocks32 (runMask accOn live g)
  let as_ := blocks32 acc
  let ws := blocks32 w
  let m1s := blocks32 m1
  let m2s := blocks32 m2
  (List.range ws.length).map (fun i =>
    let gv := gs.getD i []
    let v := gv.map (fun o => o.getD 0)
    { g := if accOn then List.zipWith fadd v (as_.getD i []) else v, w := ws.getD i [], m1 := m1s.getD i [], m2 := m2s.getD i [],
      pres := gv.map Option.isSome, run := rs.getD i [] })

/-- A span encoded anew, kept elements keeping their codes: a block that is kept whole keeps its scale too (R152, R167,
R184). Bytes, and elements saturated or clipped. -/
def Sf.encodeKeep (f : Sf) (n : Nat) (old : List Byte) (vs : List F32) (keep : List Bool) : List Byte × Nat :=
  if f.mx then
    let codes := blocks32 (unpackCodes f.bits n (old.take (n * f.bits / 8)))
    let scales := old.drop (n * f.bits / 8)
    let bs := ((List.zip (blocks32 vs) (blocks32 keep)).zipIdx).map (fun e =>
      if e.1.2.all id then (scales.getD e.2 0, codes.getD e.2 [], 0)
      else
        let sc := f.scale (blockMax e.1.1)
        let cs := e.1.1.map (f.storeMx sc)
        (BitVec.ofNat 8 sc, cs.map Prod.fst, (cs.filter Prod.snd).length))
    (packCodes f.bits (bs.flatMap (fun b => b.2.1)) ++ bs.map Prod.fst, sum (bs.map (fun b => b.2.2)))
  else
    let w := f.bits / 8
    let cs := ((List.zip vs keep).zipIdx).map (fun e =>
      if e.1.2 then (natOfBytes ((old.drop (w * e.2)).take w), false) else f.store e.1.1)
    (cs.flatMap (fun c => bytesOfNat w c.1), (cs.filter Prod.snd).length)

/-! ### The shadow check (R212 to R215) -/

/-- A finite binary32 value in units of 2^−149. -/
def fixOf (b : F32) : Int :=
  match unpack b with
  | .fin s m e => (if s then -1 else 1) * ((m : Int) * 2 ^ (e + 149).toNat)
  | _ => 0
/-- Exponents of the smallest normal and of the largest finite value. -/
def Sf.expMin (f : Sf) : Int := 1 - (f.fmt.bias : Int)
def Sf.expMax (f : Sf) : Int :=
  let p := f.fmt.mag f.fmt.maxCode
  p.2 + (Nat.log2 p.1 : Nat)
/-- ULP difference of R214: working copy `a` under scale exponent `k`, wide master `w`. -/
def ulpDiff (f : Sf) (k : Int) (a w : F32) : Nat :=
  if nonFinite a || nonFinite w then 0xFFFFFFFF
  else
    let e := if fnz w then max f.expMin (min f.expMax (flog2 w - k)) else f.expMin
    let u : Int := 2 ^ (k + e - (f.fmt.fb : Int) + 149).toNat
    min 0xFFFFFFFF ((fixOf a - fixOf w).natAbs / u.toNat)
/-- The relative error exceeds 2^−r. -/
def relOver (r : Nat) (n w : F32) : Bool :=
  nonFinite n || nonFinite w || decide ((fixOf n - fixOf w).natAbs * 2 ^ r > max (fixOf w).natAbs (2 ^ 23))
/-- Elements checked: working copy value and scale exponent where there is one, narrow and wide master. -/
def shadowOf (cfg : Word) (f : Option Sf) (es : List (F32 × Option Int × F32 × F32)) : Nat × Nat :=
  es.foldl (fun (acc : Nat × Nat) e =>
    let u := match f with
      | none => if nonFinite e.2.2.1 || nonFinite e.2.2.2 then 0xFFFFFFFF else 0
      | some f =>
        if nonFinite e.2.2.1 then 0xFFFFFFFF
        else match e.2.1 with
          | none => 0xFFFFFFFF
          | some k => ulpDiff f k e.1 e.2.2.2
    let dis := decide (u > fld cfg 16 8) && (f.isSome || u == 0xFFFFFFFF) || relOver (fld cfg 24 5) e.2.2.1 e.2.2.2
    if dis then (acc.1 + 1, max acc.2 u) else (acc.1, max acc.2 u)) (0, 0)
def shadowRate (cfg : Word) : Nat := min 20 (fld cfg 8 5)

/-! ### Tallies and faults -/

def addTally (l : List Tally) (g dest fmt n : Nat) : List Tally :=
  if n = 0 then l
  else
    let hit := fun (t : Tally) => t.group.toNat == g && t.dest.toNat == dest && t.fmt.toNat == fmt
    if l.any hit then replaceFirst hit (fun t => { t with n := t.n + n }) l
    else l ++ [⟨BitVec.ofNat 8 g, BitVec.ofNat 4 dest, BitVec.ofNat 4 fmt, n⟩]
def State.modStep (s : State) (c : Nat) (f : Step → Step) : State := s.modCtx c (fun x => { x with step := x.step.map f })
/-- Saturated elements of a store in a step: clipped ones in an MX format (R202, R203). -/
def State.tallyStep (s : State) (c g dest : Nat) (f : Sf) (n : Nat) : State :=
  s.modStep c (fun st => if f.mx then { st with mxClip := st.mxClip + n } else { st with tallies := addTally st.tallies g dest f.code n })
/-- A slice's local finding becomes overflow (R168). -/
def State.overflowIf (s : State) (c : Nat) (b : Bool) : State :=
  if b then s.modStep c (fun st => { st with overflow := true }) else s
/-- Kind-1 or kind-2 faults of a tile (R197). -/
def State.sparseFaults (s : State) (c t kind : Nat) (tag : BitVec 16) (l : List Nat) : State :=
  match l with
  | [] => s
  | i :: _ => s.modCtx c (fun x => { x with sparse := match x.sparse with
      | none => some (l.length, t, kind, i, tag)
      | some (n, r) => some (n + l.length, r) })
/-- EV_SPARSE_FAULT: just before the final reply of the command it arose in, or at the cutoff (R197). -/
def State.raiseSparse (s : State) (c : Nat) (tag : Option (BitVec 16)) : State :=
  match (s.ctx c).sparse with
  | none => s
  | some (n, t, kind, i, g) =>
    if (s.ctx c).sparseRaised ∨ (tag ≠ none ∧ tag ≠ some g) then s
    else (s.modCtx c (fun x => { x with sparseRaised := true })).emit 0x0034 2 (some c) [(0, t), (4, kind), (8, i), (12, n)]
/-- The counters of R198 for a slot. -/
def State.countSlot (s : State) (i : Nat) (sl : Slot) (layout : Nat) (path : Option Bool) : State :=
  let s := if sl.undec then s.countSlice i 35 else s.countSlice i (28 + layout)
  let s := match path with
    | some true => s.countSlice i 32
    | some false => s.countSlice i 33
    | none => s
  ((s.countSlice i 36 sl.range.length).countSlice i 37 sl.dup).countSlice i 38 sl.equal.length

/-! ### Writing tiles -/

def spliceTile (v : Tile) (lo : Nat) (l : List Byte) : Tile :=
  let b := bytesOfTile v
  tileOfBytes (b.take lo ++ l ++ b.drop (lo + l.length))
/-- New values of tiles with the byte planes of their crumbs. -/
abbrev Edits := FMap (Tile × BitVec 2)
def State.edit (s : State) (c : Nat) (planes : BitVec 2) : List (Nat × Nat × Nat) → List Byte → Edits → Edits
  | [], _, m => m
  | p :: ps, l, m =>
    let cur := ((mget m p.1).map Prod.fst).getD (s.homeVal c p.1)
    s.edit c planes ps (l.drop p.2.2) (mset m p.1 (spliceTile cur p.2.1 (l.take p.2.2), planes))
/-- Class U work ran for a step: a replayed one, or any other (R451). -/
def State.noteStep (s : State) (c : Nat) (num : Word) : State :=
  let replay := match (s.ctx c).highStep with
    | some h => decide (num.toNat ≤ h.toNat)
    | none => false
  s.modCtx c (fun x => if replay then { x with ranReplay := true } else { x with ranUseful := true })
def State.noteU (s : State) (c : Nat) : State :=
  match (s.ctx c).step with
  | none => s
  | some st => s.noteStep c st.num
/-- Every tile written with its crumb, or none where a slice must hold (R152, R267). -/
def State.commitTiles (s : State) (c : Nat) (m : Edits) : Option State :=
  m.foldl (fun acc e =>
    match acc with
    | none => none
    | some s =>
      let d := e.2.1 ^^^ s.homeVal c e.1
      let (line, s) := s.free
      match s.makeRoom c e.1 ((s.ctx c).recordUpd e.1 d e.2.2 line) with
      | none => none
      | some s => some ((((s.fileCrumb c e.1 d e.2.2 line).portWrite c e.1 e.2.1).touch c e.1).noteU c)) (some s)
/-- Bytes laid over pieces of UNCOVERED tiles. -/
def State.layPieces (s : State) (c : Nat) : List (Nat × Nat × Nat) → List Byte → State
  | [], _ => s
  | p :: ps, l => ((s.portBytes c p.1 p.2.1 (l.take p.2.2)).touch c p.1).layPieces c ps (l.drop p.2.2)
def planesOf (f : Sf) : BitVec 2 := if f.mx then 0 else if f.bits = 32 then 2 else if f.bits = 16 then 1 else 0

/-! ### One master tile (R152, R184 to R196) -/

/-- A moment span as stored: bytes, and values of `n` elements. -/
def State.spanBytes (s : State) (c : Nat) (st : Stream) (g : List Word) (r : Nat) : List Byte := s.readPieces c (st.pieces g r)
def streamOf (g : List Word) (role : Role) : Option Stream := (streamsOf g).find? (fun st => st.role == role)
/-- The slot's values at a pattern's positions (Table 8.3), and those that fall outside it. -/
def meetS24 (layout : Nat) (ps : List (Nat × Nat)) (vals : List (Option F32)) : List (Option F32) × Nat :=
  let eq := ps.map (fun p => p.1 == p.2)
  let got := gather none ps vals
  let got := (List.zip got (eq.flatMap (fun b => [b, b]))).map (fun e => if e.2 then none else e.1)
  let out := if layout = 3 then
    sum ((List.zip ps (chunks 4 vals.length vals)).map (fun e =>
      ((List.range 4).filter (fun p => p ≠ e.1.1 && p ≠ e.1.2 && (match e.2.getD p none with | some v => fnz v | none => false))).length))
    else 0
  (got, out)
/-- What the pass computes for one master tile. -/
structure TileOut where
  master : List Byte
  m1     : List Byte
  m2     : List Byte
  wc     : List Byte
  satM1  : Nat
  satM2  : Nat
  satWc  : Nat
  ovf    : Bool
  checks : List (F32 × Option Int × F32 × F32)
deriving DecidableEq, Repr

/-- The whole pass over values: `held` layout, slot with its layout and path, the tile and its spans as they stand, and the
active working copy. -/
def passTile (g : List Word) (prog : List PInst) (ks : List F32) (held : Held) (ps : List (Nat × Nat)) (vals : List (Option F32))
    (dense_ : Bool) (tile m1 m2 acc wcOld : List Byte) : TileOut :=
  let f1 := (gM1 g).getD .fp32
  let f2 := (gM2 g).getD .fp32
  let n := if held = .s24 then 8192 else 16384
  let wAll := if held = .s24 then Sf.fp32.values 8192 (tile.take 32768) else Sf.fp32.values 16384 tile
  let m1All := f1.values n (m1.take (f1.bytes n))
  let m2All := f2.values n (m2.take (f2.bytes n))
  let accAll := (gAcc g).values 16384 acc
  let pick := fun (l : List F32) => if held = .converting then gather 0 ps l else l
  let accV := if held = .dense then accAll else gather 0 ps accAll
  let live := if held = .s24 then ps.flatMap (fun p => [p.1 != p.2, p.1 != p.2]) else vals.map (fun _ => true)
  let outs := (blocksOf vals (gAccOn g) live accV (pick wAll) (pick m1All) (pick m2All)).map (runOne prog ks)
  let w := outs.flatMap (·.w)
  let keep := outs.flatMap (·.keep)
  let stores := fun (o : Nat) => prog.any (fun i => i.op == o)
  let none_ := keep.map (fun _ => false)
  let mom := fun (f : Sf) (on : Bool) (old : List Byte) (vs : List F32) =>
    if !on then
      (if held = .converting then padTo f.span (f.encode vs).1 else old, 0)
    else
      let kp := if held = .converting then none_ else keep
      let e := f.encodeKeep vs.length (old.take (f.bytes vs.length)) vs kp
      if held = .dense then e else if held = .s24 then (e.1 ++ old.drop e.1.length, e.2) else (padTo f.span e.1, e.2)
  let a := mom f1 (stores 0x09) m1 (outs.flatMap (·.m1))
  let b := mom f2 (stores 0x0A) m2 (outs.flatMap (·.m2))
  let keepW := if stores 0x08 then keep else keep.map (fun _ => true)
  let wBytes := ((List.zip (List.zip (pick wAll) w) keepW).flatMap (fun e =>
    bytesOfNat 4 (if e.2 then e.1.1.toNat else (canon e.1.2).toNat)))
  let master := if held = .dense then wBytes
    else if held = .s24 then wBytes ++ tile.drop 32768
    else padTo 65536 (wBytes ++ patternBytes ps)
  let wcVals := outs.flatMap (·.wc)
  let wcF := gWc g
  let wc : List Byte × Nat := match wcF with
    | none => ([], 0)
    | some f =>
      if held = Held.dense then
        f.encodeKeep 16384 wcOld wcVals (outs.flatMap (fun (o : BlkOut) => o.w.map (fun _ => !o.ran && !dense_)))
      else f.encode (scatter 0 ps wcVals)
  let ran := outs.flatMap (fun (o : BlkOut) => o.w.map (fun _ => o.ran))
  let run := runMask (gAccOn g) live vals
  let wide := outs.flatMap (·.wide)
  let checks := match wcF with
    | none => (List.zip (List.zip w wide) (List.zip ran run)).filterMap (fun e =>
        if e.2.1 && e.2.2 then some ((0 : F32), (some (0 : Int)), e.1.1, e.1.2) else none)
    | some f =>
      let dec := f.values 16384 wc.1
      let sc := (List.range 16384).map (fun i => if f.mx then scaleExp ((wc.1.getD (16384 * f.bits / 8 + i / 32) 0).toNat) else some 0)
      let both := List.zip dec sc
      let at_ := if held = .dense then both else gather ((0 : F32), (some (0 : Int))) ps both
      (List.zip (List.zip at_ (List.zip w wide)) (List.zip ran run)).filterMap (fun e =>
        if e.2.1 && e.2.2 then some (e.1.1.1, e.1.1.2, e.1.2.1, e.1.2.2) else none)
  { master := master, m1 := a.1, m2 := b.1, wc := wc.1, satM1 := a.2, satM2 := b.2, satWc := wc.2,
    ovf := outs.any (·.bad), checks := checks }

/-- Patterns and pruning of a conversion step (R193): positions kept, and dropped masters that are not zero. -/
def convertPattern (tile : List Byte) : List (Nat × Nat) × Nat :=
  let gs := chunks 4 4096 (Sf.fp32.values 16384 tile)
  let ps := gs.map keepTwo
  (ps, sum ((List.zip gs ps).map (fun e =>
    ((List.range 4).filter (fun p => p ≠ e.2.1 && p ≠ e.2.2 && fnz (e.1.getD p 0))).length)))

/-- The pass over one program tile within its step, or none where the slice must hold (R267). -/
def State.updateTile (s : State) (c t : Nat) (cmd : Cmd) (h0 : Word) (busy : Bool) : Option State :=
  match (s.ctx c).step, (s.ctx c).groupOf t with
  | some st, some g =>
    let x := s.ctx c
    let i := (s.tile c t).slice
    let r := t - gAnchor g
    let prog := ((mgetD st.progs (gProg g) []).map PInst.ofWord)
    let ks := mgetD st.consts (x.groupNo t) []
    let h := s.header c t
    let sl := s.slotOf c t h0 (gradTile cmd) (gStripe g) (t - firstTile cmd) 16384
    let asked := heldAs h st.num
    let undec := masterBad h || sl.1.undec || (asked != .dense && (sl.2.1 == 1 || sl.2.1 == 2))
    let held := if undec then Held.dense else asked
    let slot := if undec then Slot.nan 16384 else sl.1
    let layout := if undec then 0 else sl.2.1
    let tile := bytesOfTile (s.homeVal c t)
    let conv := convertPattern tile
    let ps := if held = .s24 then patternOf tile else if held = .converting then conv.1 else []
    let met := if held = .dense then (slot.vals, 0) else meetS24 layout ps slot.vals
    let dp := s.densePath layout sl.2.2 (gAccOn g)
    let active := streamOf g (.wc x.verBit)
    let bytesAt := fun (o : Option Stream) => match o with
      | some q => s.spanBytes c q g r
      | none => []
    let out := passTile g prog ks held ps met.1 (layout == 0 || layout == 3 || dp) tile (bytesAt (streamOf g .m1))
      (bytesAt (streamOf g .m2)) (bytesAt (streamOf g .acc)) (bytesAt active)
    let lay := fun (m : Edits) (o : Option Stream) (l : List Byte) => match o with
      | some q => s.edit c (planesOf q.fmt) (q.pieces g r) l m
      | none => m
    let m := lay [] (streamOf g .acc) (List.replicate (gAcc g).span 0)
    let m := mset m t (tileOfBytes out.master, 2)
    let m := lay m (streamOf g .m1) out.m1
    let m := lay m (streamOf g .m2) out.m2
    match s.commitTiles c m with
    | none => none
    | some s =>
      let s := match streamOf g (.wc (!x.verBit)) with
        | some q => s.layPieces c (q.pieces g r) out.wc
        | none => s
      let gn := x.groupNo t
      let s := s.countSlot i slot layout (if layout = 1 ∨ layout = 2 then some dp else none)
      let s := if held = .converting then (s.countSlice i 34).countSlice i 39 conv.2 else s
      let eqs := if held = .s24 then ((ps.zipIdx).filter (fun e => e.1.1 == e.1.2)).map Prod.snd else []
      let s := (s.countSlice i 38 eqs.length).countSlice i 39 met.2
      let s := ((s.sparseFaults c t 1 cmd.tag eqs).sparseFaults c t 1 cmd.tag slot.equal).sparseFaults c t 2 cmd.tag slot.range
      let s := s.tallyStep c gn 1 ((gM1 g).getD .fp32) out.satM1
      let s := s.tallyStep c gn 2 ((gM2 g).getD .fp32) out.satM2
      let s := s.tallyStep c gn 0 ((gWc g).getD .fp32) out.satWc
      let s := s.overflowIf c (undec || out.ovf)
      let s := s.modStep c (fun st => { st with updated := insertAsc st.updated t })
      if st.shadowCfg.getLsbD 0 && s.hasShadow && shadowSampled st.seed st.num t (shadowRate st.shadowCfg) then
        if busy then some (s.countCtx c 11)
        else
          let k := shadowOf st.shadowCfg (gWc g) out.checks
          some (s.modStep c (fun st => { st with shadows := st.shadows ++ [⟨t, k.1, BitVec.ofNat 32 k.2, BitVec.ofNat 8 gn⟩] }))
      else some s
  | _, _ => some s

/-! ### The work of STEP_GRAD_READY -/

def State.tile1 (s : State) (c t : Nat) : Bool := (s.tile c t).tier1
/-- Tiles that the work on a state tile writes and reads (R152, R156). -/
def State.workTiles (s : State) (cmd : Cmd) (h0 : Word) (acc : Bool) (t : Nat) : List Nat × List Nat :=
  let x := s.ctx cmd.cid
  let grads := x.gradTiles cmd acc h0 t
  match x.groupOf t with
  | some g => if (s.tile cmd.cid t).raw || acc then ([t], grads) else (t :: (companions g t).map Prod.fst, grads)
  | none => ([t], grads)
/-- Every stream of a state tile can be written now, and every tile of its gradient slot read. -/
def State.tileReady (s : State) (cmd : Cmd) (h0 : Word) (acc : Bool) (t : Nat) : Bool :=
  let w := s.workTiles cmd h0 acc t
  w.1.all (fun u => s.writable cmd.cid u) && s.readable cmd.cid w.2
/-- Streams in the pantry are promoted first (R156, R385); a gradient slot there is a far read (R374). -/
def State.promoteFor (s : State) (cmd : Cmd) (h0 : Word) (acc : Bool) (t : Nat) : State :=
  let w := s.workTiles cmd h0 acc t
  (s.each w.1 (fun s u => s.askPromotion cmd.cid u 3 (some cmd.tag) cmd.deadline)).askAll cmd.cid w.2 .u cmd.deadline
/-- Far reads of a state tile's gradient slot have been used. -/
def State.endSlot (s : State) (cmd : Cmd) (h0 : Word) (acc : Bool) (t : Nat) : State :=
  s.each (s.workTiles cmd h0 acc t).2 (fun s u => s.endRead cmd.cid u)
/-- A covered-write of one tile (R140). -/
def State.rawWrite (s : State) (c t : Nat) (cmd : Cmd) : Option State :=
  s.commitTiles c [(t, (s.valOf c (gradTile cmd + (t - firstTile cmd)), 0))]
def Adm.h0 (a : Adm) : Word := BitVec.ofNat 64 (a.aux.getD 0)
/-- A tile of a command is done: it leaves the command's list. -/
def State.markDone (s : State) (c : Nat) (tag : BitVec 16) (t : Nat) : State :=
  s.modAdm c tag (fun a => { a with work := a.work.erase t, done := a.done + 1 })
/-- Bytes per element of the master tiles served (R438). -/
def State.noteMaster (s : State) (c t n : Nat) : State :=
  if (s.tile c t).raw then s
  else s.modSlice (s.tile c t).slice (fun sl => { sl with mastersNow := (sl.mastersNow.1 + n, sl.mastersNow.2 + 16384) })
/-- A crumb has no room: the slice of a step's tile holds, and a command given outside a step is refused with the floor in
force (R145, R267). -/
def State.noRoom (s : State) (c : Nat) (a : Adm) (t : Nat) : State :=
  if a.inStep then s.holdStage c (s.tile c t).slice
  else ((s.raiseSparse c (some a.c.tag)).countCtx c 45).finish c a.c.tag 0x0203 (s.ctx c).floorNow
/-- The outcome of one tile: its slice holds, or the tile is done, and with the last one the command (R267, R197). -/
def State.tileDone (s : State) (c : Nat) (cmd : Cmd) (t : Nat) (r : Option State) : State :=
  match r with
  | none =>
    match s.adm? c cmd.tag with
    | some a => s.noRoom c a t
    | none => s
  | some s =>
    let h0 := BitVec.ofNat 64 (((s.adm? c cmd.tag).bind (fun a => a.aux)).getD 0)
    let n := s.traffic false c t h0
    let s := (((s.serveTile c t .u n).noteMaster c t n).endSlot cmd h0 false t).markDone c cmd.tag t
    match s.adm? c cmd.tag with
    | some a => if a.work.isEmpty then (s.raiseSparse c (some cmd.tag)).finish c cmd.tag 0 a.done else s
    | none => s

/-- STEP_GRAD_READY: the header of the first gradient tile is read and the program tiles are named (R153, R183). -/
def takeGradReady (c : Cmd) (s : State) : State :=
  let ts := (extent (firstTile c) c.n).filter (fun t => !(s.tile c.cid t).raw)
  let s := s.modAdm c.cid c.tag (fun a => { a with aux := some (s.header c.cid (gradTile c)).toNat })
  if (s.ctx c.cid).stepOpen then s.modStep c.cid (fun st => { st with named := ts.foldl insertAsc st.named }) else s
def effGradReady (c : Cmd) (s : State) : State :=
  s.modAdm c.cid c.tag (fun a => { a with work := extent (firstTile c) c.n })
def execStepGradReady (c : Cmd) (s : State) : Host.Outcome State Fault Refusal :=
  .next (s.runCmd 0x43 fieldsGrad chkGradReady (fun s c => s.gradBytes false c) takeGradReady effGradReady c)

/-- The state tile that a slice begins next for a context, in the order of R154. -/
def State.nextOn (s : State) (c i : Nat) : Option (Adm × Nat) :=
  ((s.link.admitted.filter (fun a => a.op == 0x43 && a.c.cid == c && a.begun)).flatMap (fun a =>
    (a.work.filter (fun t => (s.tile c t).slice == i)).map (fun t => (a, t)))).head?
/-- MASTER_TILE_UPDATE (R152): the slice begins the tile once it is next in the order of R154 and its streams are ready (R156);
until then a tile whose streams lie in the pantry asks for them (R385). -/
def execMasterTileUpdate (ctx : BitVec 4) (t : Nat) (busy : Bool) (s : State) : Host.Outcome State Fault Refusal :=
  let c := ctx.toNat
  if !(s.running && s.locked) then .next s
  else
    match s.nextOn c (s.tile c t).slice with
    | none => .next s
    | some (a, u) =>
      if u = t ∧ s.tileReady a.c a.h0 false t then
        if (s.tile c t).raw then .next (s.tileDone c a.c t (s.rawWrite c t a.c))
        else .next (s.tileDone c a.c t (s.updateTile c t a.c a.h0 busy))
      else
        match s.link.admitted.find? (fun a => a.op == 0x43 && a.c.cid == c && a.begun && a.work.contains t) with
        | some a => .next (s.promoteFor a.c a.h0 false t)
        | none => .next s

end Sys2Proof.Machine
end

