-- ==== Sys2Proof/Machine/Coding.lean ====
section
/-!
DEFINITION. Machine/Coding.lean: values as of a bake (R297, R319), the crust a member keeps (R257 to R261), and decoding from a
batch along the tray-first tree (R319 to R322): asking for a decode, contributing to one, and summing at a tray head or root.
-/
namespace Sys2Proof.Machine

/-! ### Bytes of an element of a tile (Table 11.4) -/

/-- PLANES of a covered tile: masters and FP32 streams 4 bytes, BF16 ones 2, MXFP8 moments, RAW and snapshot tiles 1. -/
def Ctx.streamPlanes (x : Ctx) (t : Nat) : Option (BitVec 2) :=
  x.tiles.findSome? fun e =>
    match x.groupOf e.1 with
    | none => none
    | some g =>
      if e.2.raw || e.1 < gAnchor g || (mget x.progs (gProg g)).isNone then none
      else (streamsOf g).findSome? (fun q => match q.role with
        | .wc _ => none
        | _ => if (q.pieces g (e.1 - gAnchor g)).any (fun p => p.1 == t) then some (planesOf q.fmt) else none)
def Ctx.planesAt (x : Ctx) (t : Nat) : BitVec 2 :=
  match mget x.tiles t with
  | none => 0
  | some r =>
    if r.raw || !(x.cover t).crumbed then 0
    else match x.streamPlanes t with
      | some p => p
      | none =>
        match x.groupOf t with
        | some g => if r.contrib.isSome && gAcc g == .bf16 then 1 else 2
        | none => 2

/-! ### Values as of a bake -/

/-- A later bake than the rollback target is sealed. -/
def Ctx.laterSealed (x : Ctx) : Bool := x.bake.sealed != 0
/-- The copy of a snapshot tile as of the rollback target, none where the live tile stands for it (R297). -/
def Ctx.targetCopy (x : Ctx) (r : TileRec) : Option Tile :=
  match r.proofOld with
  | some v => some v
  | none => if x.laterSealed then r.proofNew else none
/-- What the crumb records of a delta tile hold since the target (R319). -/
def Ctx.sinceTarget (x : Ctx) (r : TileRec) : Tile :=
  r.freshDelta ^^^ r.openDelta ^^^ (if x.laterSealed then r.sealedDelta else 0)
/-- A tile's value as of the rollback target, or as of the bake sealed after it (`later`); none while a far read of it is on its
way (R297, R319). -/
def State.asOfBake (s : State) (c t : Nat) (later : Bool) : Option Tile :=
  let x := s.ctx c
  let r := s.tile c t
  if x.cover t = .snapshot then
    match if later then r.proofNew else x.targetCopy r with
    | some v => some v
    | none => s.readVal c t
  else (s.readVal c t).map (· ^^^ (if later then r.freshDelta ^^^ r.openDelta else x.sinceTarget r))
/-- A contributor cannot supply its tile as of that bake (R319): self-erased since, held for a mend or a rebuild, or with a
record or a copy lost (Table 14.4). -/
def State.unavailable (s : State) (c t : Nat) (later : Bool) : Bool :=
  let r := s.tile c t
  r.erasedOpen || (r.erasedSealed && !later) || r.damaged || r.unbuilt || r.proofLost || s.heldFor c t .mendFailed || s.heldFor c t .mend

/-! ### Crust (R257 to R261) -/

def Crust.com (k : Crust) : Home := if k.pointer then k.h1 else k.h0
def Crust.ris (k : Crust) : Home := if k.pointer then k.h0 else k.h1
def Crust.setCom (k : Crust) (h : Home) : Crust := if k.pointer then { k with h1 := h } else { k with h0 := h }
def Crust.setRis (k : Crust) (h : Home) : Crust := if k.pointer then { k with h0 := h } else { k with h1 := h }
/-- Committed value of a tile (Table 11.8): in delta mode the rising home stands in for a committed tile that is not valid. -/
def homeValue (mode : Nat) (c r : Home) (o : Nat) : Tile :=
  match mget c o with
  | some v => v
  | none => if mode = 0 then (mget r o).getD 0 else 0
def Crust.committed (k : Crust) (mode o : Nat) : Tile := homeValue mode k.com k.ris o
/-- The crust as of the rollback target (R261): in LIMBO the roles of the homes are exchanged. -/
def Crust.asOfTarget (k : Crust) (mode o : Nat) : Tile :=
  if k.limbo then homeValue mode k.ris k.com o else k.committed mode o
/-- Apply a product to a rising tile (Table 11.8); whether the committed copy was made. -/
def Crust.apply (k : Crust) (mode o : Nat) (p : Tile) : Crust × Bool :=
  match mget k.com o, mget k.ris o with
  | some v, none => (k.setRis (mset k.ris o (if mode = 0 then v ^^^ p else p)), false)
  | none, some r => if mode = 0 then ((k.setCom (mset k.com o r)).setRis (mset k.ris o (r ^^^ p)), true)
      else (k.setRis (mset k.ris o (r ^^^ p)), false)
  | some _, some r => (k.setRis (mset k.ris o (r ^^^ p)), false)
  | none, none => (k.setRis (mset k.ris o p), false)
/-- Clear valid bits in the home that is not committed (R259): those of tiles valid in both, or every one. -/
def Crust.clearOther (k : Crust) (mode : Nat) : Crust :=
  k.setRis (if mode = 0 then mkeep k.ris (fun o _ => (mget k.com o).isNone) else [])
def Ctx.crustOf (x : Ctx) (b : BitVec 32) (j : Nat) : Crust := mgetD x.group.crust (crustKey b j) {}
def State.modCrust (s : State) (c : Nat) (b : BitVec 32) (j : Nat) (f : Crust → Crust) : State :=
  s.modCtx c (fun x => { x with group := { x.group with crust := mset x.group.crust (crustKey b j) (f (x.crustOf b j)) } })
/-- Batches and rows kept by the member. -/
def Ctx.kept (x : Ctx) : List (BitVec 32 × Nat) :=
  match x.group.cfg with
  | none => []
  | some g => x.group.kept g (Group.myIndex g)
/-- Present slice of a kept loaf's home (R257). -/
def State.homeSlice (s : State) (c : Nat) (b : BitVec 32) (j : Nat) (home : Nat) : Nat :=
  let i := (s.ctx c).kept.idxOf (b, j)
  s.presentSlice ((i + home) % max 1 s.presentSlices.length)

/-! ### Slots of a batch -/

/-- The logical tile of this member at an offset of data slot i; none beyond the region's end. -/
def Ctx.tileAt (x : Ctx) (g : GroupCfg) (b : BitVec 32) (i o : Nat) : Option Nat :=
  match mget x.regions (batchRegion b) with
  | none => none
  | some r =>
    let t := 32 * (dataSlot g (batchB b) i).2 + o
    if r.cls = modeCover (batchMode b) ∧ t < r.count then some (r.first + t) else none
/-- Slots of a batch that move data, with their positions: those of `avail` that are not phantom. -/
def Group.contributors (gr : Group) (g : GroupCfg) (b : BitVec 32) (avail : List Nat) : List (Nat × Nat) :=
  (avail.filter (fun y => decide (g.k ≤ y) || !gr.phantom g b y)).map (fun y => (y, g.posOf (slotMember g (batchB b) y)))
def slotMask (l : List Nat) : BitVec 32 := BitVec.ofNat 32 (l.foldl (fun a y => a ||| (1 <<< y)) 0)
def slotsOf (m : BitVec 32) : List Nat := (List.range 32).filter (fun y => m.getLsbD y)
/-- The available set of R320: k slots, or fewer where the offset is undecodable. -/
def Ctx.available (x : Ctx) (g : GroupCfg) (b : BitVec 32) (lost : Nat) (refused : List Nat) : List Nat :=
  ((List.range (g.k + g.m)).filter (fun y =>
    y != lost && ((decide (y < g.k) && x.group.phantom g b y) ||
      (mget x.fences (g.posOf (slotMember g (batchB b) y))).isNone && !refused.contains y))).take g.k

/-! ### The tree (R321) -/

/-- Contributors by tray of reach: the head of a tray is its contributor of lowest member index. -/
def Ctx.trayHead (x : Ctx) (g : GroupCfg) (cs : List (Nat × Nat)) (tray : Nat) : Option (Nat × Nat) :=
  (sortBy (fun e => g.indexOf e.2) (cs.filter (fun e => x.reach e.2 == tray))).head?
def Ctx.treeRoot (x : Ctx) (g : GroupCfg) (b : BitVec 32) (cs : List (Nat × Nat)) : Option (Nat × Nat) :=
  (List.range 9).findSome? (fun d => x.trayHead g cs ((batchB b % 9 + d) % 9))
/-- What a member must sum, and where the sum goes. -/
def Ctx.treeAt (x : Ctx) (g : GroupCfg) (b : BitVec 32) (cs : List (Nat × Nat)) (asker : Nat) : List Nat × Nat :=
  let mine := (cs.filter (fun e => e.2 == x.own)).map Prod.fst
  let tray := cs.filter (fun e => x.reach e.2 == x.reach x.own)
  match x.trayHead g cs (x.reach x.own), x.treeRoot g b cs with
  | some h, some r =>
    if h.2 ≠ x.own then (mine, h.2)
    else if r.2 ≠ x.own then (tray.map Prod.fst, r.2)
    else (cs.map Prod.fst, asker)
  | _, _ => (mine, asker)

def PartSum.isAt (c : Nat) (b bake : BitVec 32) (y o : Nat) (p : PartSum) : Bool :=
  p.ctx.toNat == c && p.batch == b && p.bake == bake && p.lost == y && p.offset == o
def State.modSum (s : State) (p : PartSum) (f : PartSum → PartSum) : State :=
  { s with fab := { s.fab with sums := replaceFirst (PartSum.isAt p.ctx.toNat p.batch p.bake p.lost p.offset) f s.fab.sums } }
/-- This member's tile in the decode; none while it must be read from afar. -/
def State.ownPart (s : State) (g : GroupCfg) (p : PartSum) (y : Nat) : Option Tile :=
  let x := s.ctx p.ctx.toNat
  if g.k ≤ y then
    let k := x.crustOf p.batch (y - g.k)
    some (if p.bake = x.bake.committed then k.asOfTarget (batchMode p.batch) p.offset else k.committed (batchMode p.batch) p.offset)
  else match x.tileAt g p.batch y p.offset with
    | none => some 0
    | some t => s.asOfBake p.ctx.toNat t (p.bake != x.bake.committed)
/-- A sum leaves for its next hop in 16 pieces. -/
def State.sendSum (s : State) (p : PartSum) (dst : Nat) : State :=
  s.each (chunks 4096 16 (bytesOfTile p.sum)).zipIdx (fun s e =>
    s.issue p.ctx.toNat p.cls 0x13 dst
      [(8, p.batch.toNat), (12, p.bake.toNat), (16, p.lost), (17, p.offset), (20, p.have_.toNat), (24, 16 * e.2)] e.1 .part)
def State.dropSum (s : State) (p : PartSum) : State :=
  { s with fab := { s.fab with sums := s.fab.sums.filter (fun r => !(PartSum.isAt p.ctx.toNat p.batch p.bake p.lost p.offset r)) } }
/-- The coding array that forms this member's part of a sum is gated: that of the slice its own tile lies on (R440). -/
def State.sumGated (s : State) (p : PartSum) (g : GroupCfg) (mine : Option Nat) : Bool :=
  let c := p.ctx.toNat
  match mine with
  | none => false
  | some y =>
    let i := if g.k ≤ y then s.homeSlice c p.batch (y - g.k) (if ((s.ctx c).crustOf p.batch (y - g.k)).pointer then 1 else 0)
      else match (s.ctx c).tileAt g p.batch y p.offset with
        | some t => (s.tile c t).slice
        | none => s.presentSlice 0
    (s.slice i).arrayGated
/-- Take this member's own product, and send the sum on once it is whole. A sum that waits while its bake ceases to be one the
member supplies is dropped: the requester's target moves too, and it asks again (R319). -/
def State.pushSum (s : State) (p : PartSum) : State :=
  let c := p.ctx.toNat
  let x := s.ctx c
  match x.group.cfg with
  | none => s
  | some g =>
    if !p.mine && p.bake != x.bake.committed && p.bake != x.bake.sealed then s.dropSum p
    else if p.avail = 0 then s
    else
      let av := slotsOf p.avail
      let cs := x.group.contributors g p.batch av
      let w := x.treeAt g p.batch cs p.asker.toNat
      let mine := (cs.find? (fun e => e.2 == x.own)).map Prod.fst
      let q : Option PartSum := match mine with
        | none => some p
        | some y => if p.mine then some p else
          (s.ownPart g p y).map (fun v =>
            let k := mgetD ((decodeCoefs g.k g.m av p.lost).getD []) y 0
            { p with mine := true, sum := p.sum ^^^ gfTile k v, have_ := p.have_ ||| slotMask [y] })
      if s.sumGated p g mine then s else
      match q with
      | none =>
        match mine.bind (fun y => x.tileAt g p.batch y p.offset) with
        | some t => s.askRead c t p.cls
        | none => s
      | some q =>
        if q.have_ = slotMask w.1 then
          (s.sendSum q w.2).dropSum p
        else s.modSum p (fun _ => q)
def State.pushSums (s : State) : State := s.each s.fab.sums (fun s p => s.pushSum p)
/-- The sum of a decode, made where none is yet. -/
def State.sumAt (s : State) (c : Nat) (b bake : BitVec 32) (y o : Nat) : State × PartSum :=
  match s.fab.sums.find? (PartSum.isAt c b bake y o) with
  | some p => (s, p)
  | none =>
    let p : PartSum := { ctx := BitVec.ofNat 4 c, batch := b, bake := bake, lost := y, offset := o, avail := 0, asker := 0, cls := .d }
    ({ s with fab := { s.fab with sums := s.fab.sums ++ [p] } }, p)

/-! ### Serving a request (R319) -/

def DecodeJob.isFor (c : Nat) (why : DecodeFor) (t : Nat) (j : DecodeJob) : Bool := j.ctx.toNat == c && j.why == why && j.tile == t
def State.job? (s : State) (c : Nat) (why : DecodeFor) (t : Nat) : Option DecodeJob := s.fab.jobs.find? (DecodeJob.isFor c why t)
/-- Number of a crust tile among decode jobs: its loaf's key and its offset. -/
def crustJob (b : BitVec 32) (j o : Nat) : Nat := crustKey b j * 32 + o

def State.serveDecodeReq (s : State) (peel : Nat) (t : Xfer) : State :=
  let c := t.ctx
  let x := s.ctx c
  match x.group.cfg with
  | none => s.respond peel t 5
  | some g =>
    let b := BitVec.ofNat 32 (t.num 8 4)
    let bake := BitVec.ofNat 32 (t.num 12 4)
    let y := t.num 16 1
    let offs := (List.range (min 32 (t.num 18 1))).map (fun i => (t.num 17 1 + i) % 32)
    let av := BitVec.ofNat 32 (t.num 20 4)
    let mine := (x.group.contributors g b (slotsOf av)).find? (fun e => e.2 == x.own)
    if !x.group.joined then s.respond peel t 5
    else match mine with
      | none => s.respond peel t 0
      | some (z, _) =>
        let crust := decide (g.k ≤ z)
        let held := bake = x.bake.committed ∨ (x.laterSealed ∧ bake = x.bake.sealed ∧ (crust → x.group.committed.contains b))
        let bad := if crust then (x.crustOf b (z - g.k)).unbuilt || offs.any (fun o => (s.job? c .crust (crustJob b (z - g.k) o)).isSome)
          else offs.any (fun o => match x.tileAt g b z o with
            | none => false
            | some u => s.unavailable c u (bake != x.bake.committed))
        if !held then s.respond peel t 3
        else if bad then s.respond peel t 4
        else
          let s := (s.respond peel t 0).countCtx c 42
          s.each offs (fun s o =>
            let r := s.sumAt c b bake y o
            let old := r.2
            let fresh := old.avail ≠ 0 ∧ old.avail ≠ av
            let p := { old with avail := av, asker := BitVec.ofNat 5 (t.num 24 1), cls := Cls.ofCode t.clsCode,
                                have_ := if fresh then 0 else old.have_, sum := if fresh then 0 else old.sum,
                                mine := if fresh then false else old.mine }
            (r.1.modSum old (fun _ => p)).pushSum p)
/-- DECODE_REQ (R319). -/
def execDecodeReq (peel : Nat) (x : Xfer) (s : State) : Host.Outcome State Fault Refusal :=
  .next (s.inRequest 0x12 peel x (fun s => s.serveDecodeReq peel x))

/-- A part that a tray head or root sums (R321). -/
def State.takePart (s : State) (c : Nat) (b bake : BitVec 32) (y o : Nat) (mask : BitVec 32) (piece : Nat) (l : List Byte) : State :=
  let r := s.sumAt c b bake y o
  let key := mask.toNat * 256 + piece
  let parts := mset r.2.parts key l
  let all := (List.range 16).map (fun i => mask.toNat * 256 + 16 * i)
  if all.all (fun k => (mget parts k).isSome) ∧ mask &&& r.2.have_ = 0 then
    let v := tileOfBytes (all.flatMap (fun k => mgetD parts k []))
    let p := { r.2 with parts := mkeep parts (fun k _ => !all.contains k), sum := r.2.sum ^^^ v, have_ := r.2.have_ ||| mask }
    (r.1.modSum r.2 (fun _ => p)).pushSum p
  else r.1.modSum r.2 (fun q => { q with parts := parts })

/-! ### Asking (R319, R320) -/

/-- Ask for one offset of a batch; the requests leave with the next plan. -/
def State.askDecode (s : State) (c : Nat) (why : DecodeFor) (t : Nat) (b : BitVec 32) (lost o : Nat) (bake : BitVec 32) (cls : Cls)
    (tag : Option (BitVec 16) := none) : State :=
  if (s.job? c why t).isSome then s
  else { s with fab := { s.fab with nextJob := s.fab.nextJob + 1, jobs := s.fab.jobs ++
    [{ id := s.fab.nextJob, ctx := BitVec.ofNat 4 c, why := why, tile := t, batch := b, lost := lost, offset := o, bake := bake,
       cls := cls, tag := tag, again := true }] } }
/-- Ask for a covered tile's own slot as of the rollback target. -/
def State.askOwn (s : State) (c : Nat) (why : DecodeFor) (t : Nat) (cls : Cls) (tag : Option (BitVec 16) := none) : State :=
  match (s.ctx c).batchOfTile t with
  | none => s
  | some (b, i, o) => s.askDecode c why t b i o (s.ctx c).bake.committed cls tag
def State.askCrust (s : State) (c : Nat) (b : BitVec 32) (j : Nat) (offs : List Nat) (cls : Cls) : State :=
  match (s.ctx c).group.cfg with
  | none => s
  | some g => s.each offs (fun s o => s.askDecode c .crust (crustJob b j o) b (g.k + j) o (s.ctx c).bake.committed cls)
def State.dropJobs (s : State) (f : DecodeJob → Bool) : State :=
  { s with fab := { s.fab with jobs := s.fab.jobs.filter (fun j => !f j) } }
def State.modDecode (s : State) (id : Nat) (f : DecodeJob → DecodeJob) : State :=
  { s with fab := { s.fab with jobs := replaceFirst (fun j => j.id == id) f s.fab.jobs } }

end Sys2Proof.Machine
end

