-- ==== Sys2Proof/Machine/Crust.lean ====
section
/-!
DEFINITION. Machine/Crust.lean: a keeper's part of a bake: landing crumbs and applying them (R253 to R255), seal notices and batch
commits (R256 to R258), coverage margins (R266, R318), the end of LIMBO and its revert (R259, R260), missing notices (R313).
-/
namespace Sys2Proof.Machine

/-- The bake whose crust the keeper is forming (R301). -/
def Ctx.forming (x : Ctx) : BitVec 32 := x.bake.committed + 1
/-- A bake that the keeper is not yet forming. -/
def Ctx.early (x : Ctx) (f : BitVec 32) : Bool := decide (x.forming.toNat < f.toNat)

/-! ### Margins (R266, R318) -/

def ones32 (w : BitVec 32) : Nat := ((List.range 32).filter (fun i => w.getLsbD i)).length
/-- Largest number of self-erased tiles at any one offset, of the crumbs a keeper counted. -/
def mostErased (e : FMap (BitVec 32)) : Nat := maxOf ((mvals e).map ones32)
def Crust.erasedNow (k : Crust) : FMap (BitVec 32) := if k.limbo then k.erasedB else k.erasedC
/-- Fenced members of a batch. -/
def Ctx.fencedIn (x : Ctx) (g : GroupCfg) (b : BitVec 32) : Nat :=
  ((List.range (g.k + g.m)).filter (fun y =>
    ((decide (g.k ≤ y)) || !x.group.phantom g b y) && (mget x.fences (g.posOf (slotMember g (batchB b) y))).isSome)).length
/-- Own self-erased tiles of a batch that the member sources. -/
def Ctx.ownErased (x : Ctx) (b : BitVec 32) : Nat :=
  bit (x.tiles.any (fun e => (e.2.erasedOpen || e.2.erasedSealed) &&
    (match x.batchOfTile e.1 with | some p => p.1 == b | none => false)))
/-- An adopter's loaf or crust of the batch is not yet rebuilt (R333). -/
def Ctx.unbuiltIn (x : Ctx) (b : BitVec 32) : Bool :=
  (x.kept.any (fun e => e.1 == b && (x.crustOf b e.2).unbuilt)) ||
  x.tiles.any (fun e => e.2.unbuilt && (match x.batchOfTile e.1 with | some p => p.1 == b | none => false))
/-- The margin of a batch as this member knows it. -/
def Ctx.margin (x : Ctx) (g : GroupCfg) (b : BitVec 32) : Nat :=
  let rows := (x.kept.filter (fun e => e.1 == b)).map Prod.snd
  let lost := match rows with
    | [] => x.ownErased b
    | _ => maxOf (rows.map (fun j => mostErased (x.crustOf b j).erasedNow))
  g.m - x.fencedIn g b - lost - bit (x.unbuiltIn b)
/-- Batches that a member's own loaves lie in. -/
def Ctx.sourced (x : Ctx) : List (BitVec 32) :=
  match x.group.cfg with
  | none => []
  | some g => (x.group.allBatches g).filter (fun b =>
      (List.range g.k).any (fun i => !x.group.phantom g b i && (dataSlot g (batchB b) i).1 == Group.myIndex g))
/-- The batch of lowest margin, ties to the lowest id. -/
def lowest (l : List (BitVec 32 × Nat)) : Option (BitVec 32 × Nat) :=
  l.foldl (fun acc e => match acc with
    | none => some e
    | some a => if e.2 < a.2 ∨ (e.2 = a.2 ∧ e.1.toNat < a.1.toNat) then some e else acc) none
def State.marginEvent (s : State) (c : Nat) (b : BitVec 32) (margin cause : Nat) (bake : BitVec 32) : State :=
  s.emit 0x0024 2 (some c) [(0, b.toNat), (4, margin), (5, cause), (8, bake.toNat)]

/-! ### Commits (R256 to R258) -/

/-- Sources of a batch: positions of its data loaves. -/
def Ctx.sources (x : Ctx) (g : GroupCfg) (b : BitVec 32) : List Nat :=
  ((List.range g.k).filter (fun i => !x.group.phantom g b i)).map (fun i => g.posOf (dataSlot g (batchB b) i).1)
def Ctx.sourceDone (x : Ctx) (p : Nat) : Bool :=
  match mget x.group.notices p with
  | none => false
  | some n => decide (n.toNat = mgetD x.group.applied p 0)
/-- Toggle the pointer of a touched loaf and set LIMBO. -/
def Crust.commit (k : Crust) : Crust :=
  let k := { k with applied := [], erasedB := k.erasedC, erasedC := k.erased, erased := [] }
  if k.touched then { k with pointer := !k.pointer, limbo := true, touched := false } else k
/-- Kept batches, each once. -/
def Ctx.keptBatches (x : Ctx) : List (BitVec 32) := (x.kept.map Prod.fst).dedup
/-- Kept batches whose every source is done commit; after the last of them the margins are judged (R266). -/
def State.commitReady (s : State) (c : Nat) : State :=
  let x := s.ctx c
  match x.group.cfg with
  | none => s
  | some g =>
    let go := x.kept.filter (fun e => !x.group.committed.contains e.1 && (x.sources g e.1).all x.sourceDone
      && !(x.crustOf e.1 e.2).unbuilt)
    let s := s.each go (fun s e => (s.modCrust c e.1 e.2 Crust.commit).countCtx c 37)
    let s := s.modCtx c (fun x => { x with
      group := { x.group with committed := (go.map Prod.fst).foldl (fun l b => if l.contains b then l else l ++ [b]) x.group.committed },
      bake := { x.bake with commitAdd := x.bake.commitAdd + go.length } })
    let y := s.ctx c
    if go.isEmpty ∨ y.group.marginRaised ∨ !(y.keptBatches.all (fun b => y.group.committed.contains b)) then s
    else
      let s := s.modCtx c (fun x => { x with group := { x.group with marginRaised := true } })
      match lowest (y.kept.map (fun e => (e.1, g.m - mostErased (y.crustOf e.1 e.2).erasedC))) with
      | some (b, n) => if n < g.m then s.marginEvent c b n 0 y.forming else s
      | none => s
/-- What a keeper gathers for the bake it forms begins anew. -/
def Ctx.newForming (x : Ctx) : Ctx :=
  { x with group := { x.group with notices := [], applied := [], committed := [], firstNotice := none, missing := [],
                                   marginRaised := false } }
/-- LIMBO ends at the job-wide commit (R259). -/
def Ctx.endLimbo (x : Ctx) : Ctx :=
  { x with group := { x.group with crust := mmap x.group.crust (fun key k =>
      if k.limbo then { k.clearOther (batchMode (BitVec.ofNat 32 (key / 4))) with limbo := false } else k) } }
/-- Loaves of batches that are formed no longer are given up. -/
def Ctx.pruneCrust (x : Ctx) : Ctx :=
  let keys := x.kept.map (fun e => crustKey e.1 e.2)
  { x with group := { x.group with crust := mkeep x.group.crust (fun k _ => keys.contains k) } }
/-- Every loaf returns to the rollback target (R260); the number that did. -/
def State.revertCrust (s : State) (c : Nat) : State :=
  let l := (s.ctx c).group.crust
  let n := (l.filter (fun e => e.2.limbo || e.2.touched)).length
  let s := s.modCtx c (fun x => { x with group := { x.group with crust := mmap l (fun key k =>
    let mode := batchMode (BitVec.ofNat 32 (key / 4))
    let k' := if k.limbo then { ({ k with pointer := !k.pointer }).clearOther mode with limbo := false, erasedC := k.erasedB }
      else if k.touched then k.clearOther mode else k
    { k' with applied := [], erased := [], touched := false }) } })
  (s.modCtx c Ctx.newForming).countCtx c 38 n

/-! ### Landing and applying (R253 to R255) -/

def Landing.isFor (c : Nat) (b : BitVec 32) (j i o : Nat) (l : Landing) : Bool :=
  l.ctx.toNat == c && l.batch == b && l.row.toNat == j && l.slot.toNat == i && l.offset.toNat == o
def descLen (d : BitVec 21) : Nat := fld d 0 17
/-- Bytes reserved in a slice's landing buffer, of 256 KiB (file 01). -/
def Slice.landed (sl : Slice) : Nat := sum (sl.landing.map (fun l => descLen l.desc))
def landingBytes : Nat := 262144
/-- Every 256-byte unit of the crumb is there. -/
def Landing.whole (l : Landing) : Bool := (List.range (ceilDiv (descLen l.desc) 256)).all (fun i => (mget l.got i).isSome)
def Landing.body (l : Landing) : List Byte :=
  ((List.range (ceilDiv (descLen l.desc) 256)).flatMap (fun i => padTo 256 (mgetD l.got i []))).take (descLen l.desc)
def Landing.delta (l : Landing) : Tile := unpackCrumb (BitVec.ofNat 2 (fld l.desc 18 2)) (l.desc.getLsbD 17) l.body
/-- Apply a whole crumb into the rising crust (R255). -/
def State.applyCrumb (s : State) (l : Landing) : State :=
  let c := l.ctx.toNat
  match (s.ctx c).group.cfg with
  | none => s
  | some g =>
    let o := l.offset.toNat
    let p := gfTile (coef g.m l.row.toNat l.slot.toNat) l.delta
    let r := ((s.ctx c).crustOf l.batch l.row.toNat).apply (batchMode l.batch) o p
    let put := fun (m : FMap (BitVec 32)) => mset m o (mgetD m o 0 ||| slotMask [l.slot.toNat])
    let s := s.modCrust c l.batch l.row.toNat (fun _ =>
      { r.1 with touched := true, applied := put r.1.applied,
                 erased := if l.desc.getLsbD 20 then put r.1.erased else r.1.erased })
    let s := s.serve (s.homeSlice c l.batch l.row.toNat (if ((s.ctx c).crustOf l.batch l.row.toNat).pointer then 0 else 1)) .k
      (2 * descLen l.desc)
    let s := (s.countCtx c 31).countCtx c 36 (bit r.2)
    let s := s.modCtx c (fun x => { x with group := { x.group with
      applied := mset x.group.applied l.src.toNat (mgetD x.group.applied l.src.toNat 0 + 1) } })
    s.commitReady c
/-- A piece lands; the crumb is applied once it is whole, or waits where the coding array is gated (R440). -/
def State.landPiece (s : State) (i : Nat) (l : Landing) (at_ : Nat) (payload : List Byte) : State :=
  let units := chunks 256 16 payload
  let got := units.zipIdx.foldl (fun m e => mset m (at_ + e.2) e.1) l.got
  let l' := { l with got := got }
  let same := Landing.isFor l.ctx.toNat l.batch l.row.toNat l.slot.toNat l.offset.toNat
  if l'.whole && !(s.slice i).arrayGated then (s.modSlice i (fun sl => { sl with landing := sl.landing.filter (fun k => !same k) })).applyCrumb l'
  else s.modSlice i (fun sl => { sl with landing := replaceFirst same (fun _ => l') sl.landing })
/-- Whole crumbs that waited for a slice's coding array are applied under a plan that leaves it on (R440). -/
def State.applyLanded (s : State) (i : Nat) : State :=
  if (s.slice i).arrayGated then s
  else s.each ((s.slice i).landing.filter Landing.whole) (fun s l =>
    (s.modSlice i (fun sl => { sl with landing := sl.landing.erase l })).applyCrumb l)
/-- CRUMB at its keeper (R253, R254, R301, R332). A crumb that is dropped counts once, with its first piece. -/
def State.serveCrumb (s : State) (peel : Nat) (t : Xfer) : State :=
  let c := t.ctx
  let x := s.ctx c
  let b := t.batch
  let f := BitVec.ofNat 32 (t.num 12 4)
  let j := t.num 16 1
  let i := t.num 17 1
  let o := t.num 18 1
  let d := BitVec.ofNat 21 (t.num 20 3)
  let first := bit (decide (t.num 24 1 = 0))
  let k := x.crustOf b j
  let sl := s.homeSlice c b j (if k.pointer then 0 else 1)
  if x.early f ∨ x.rst.holding then (s.respond peel t 1).countCtx c 34
  else if f ≠ x.forming ∨ x.group.committed.contains b then (s.respond peel t 0).countCtx c 33 first
  else if k.unbuilt then (((s.respond peel t 1).countCtx c 34).countCtx c 76).askCrust c b j (List.range 32) .m
  else if (mgetD k.applied o 0).getLsbD i then (s.respond peel t 0).countCtx c 32 first
  else
    match (s.slice sl).landing.find? (Landing.isFor c b j i o) with
    | some l => (s.respond peel t 0).landPiece sl l (t.num 24 1) t.payload
    | none =>
      if (s.slice sl).landed + descLen d > landingBytes then (s.respond peel t 1).countCtx c 34
      else
        let l : Landing := { ctx := BitVec.ofNat 4 c, batch := b, row := BitVec.ofNat 2 j, slot := BitVec.ofNat 5 i,
                             offset := BitVec.ofNat 5 o, src := BitVec.ofNat 5 t.src, bake := f, desc := d }
        ((s.modSlice sl (fun x => { x with landing := x.landing ++ [l], gated := false })).respond peel t 0).landPiece sl l (t.num 24 1) t.payload
/-- CRUMB. -/
def execCrumb (peel : Nat) (x : Xfer) (s : State) : Host.Outcome State Fault Refusal :=
  .next (s.inRequest 0x10 peel x (fun s => s.serveCrumb peel x))

/-- CRUMB_LANDING_TIMEOUT (R253): a crumb that is not complete is discarded. -/
def execCrumbLandingTimeout (ctx : BitVec 4) (batch : BitVec 32) (row : BitVec 2) (slot offset : BitVec 5) (s : State) :
    Host.Outcome State Fault Refusal :=
  .next { s with slices := mmap s.slices (fun _ sl => { sl with landing := sl.landing.filter (fun l =>
    !(Landing.isFor ctx.toNat batch row.toNat slot.toNat offset.toNat l) || l.whole) }) }

/-! ### Seal notices (R256, R301, R313) -/

def State.serveNotice (s : State) (peel : Nat) (t : Xfer) : State :=
  let c := t.ctx
  let x := s.ctx c
  let f := BitVec.ofNat 32 (t.num 12 4)
  if !x.group.joined then s.respond peel t 5
  else if x.early f then (s.respond peel t 1).countCtx c 34
  else if f ≠ x.forming then s.respond peel t 0
  else
    let s := s.modCtx c (fun x => { x with group := { x.group with
      notices := mset x.group.notices t.src (BitVec.ofNat 32 (t.num 16 4)),
      firstNotice := some (x.group.firstNotice.getD s.frames.frame) } })
    (s.respond peel t 0).commitReady c
/-- SEAL_NOTICE. -/
def execSealNotice (peel : Nat) (x : Xfer) (s : State) : Host.Outcome State Fault Refusal :=
  .next (s.inRequest 0x11 peel x (fun s => s.serveNotice peel x))

/-- SEAL_WAIT_EXPIRY (R313, Table 14.1): the notice of a source of a kept batch is missing. -/
def execSealWaitExpiry (ctx : BitVec 4) (position : BitVec 5) (s : State) : Host.Outcome State Fault Refusal :=
  let c := ctx.toNat
  let p := position.toNat
  let x := s.ctx c
  let wait := fld s.win.memberNow 32 16
  match x.group.cfg, x.group.firstNotice with
  | some g, some f =>
    let age := (s.frames.frame - f).toNat
    let found := x.group.missing.find? (fun e => e.1 == p)
    if !s.live || wait = 0 || !x.holdsPos p || (mget x.group.notices p).isSome || decide (age < wait)
        || !(x.keptBatches.any (fun b => (x.sources g b).contains p)) then .next s
    else match found with
      | none =>
        let s := s.modCtx c (fun x => { x with group := { x.group with missing := x.group.missing ++ [(p, false)] } })
        .next (s.suspect p 4)
      | some (_, true) => .next s
      | some (_, false) =>
        if age < 2 * wait then .next s
        else
          let s := s.modCtx c (fun x => { x with group := { x.group with
            missing := replaceFirst (fun e => e.1 == p) (fun e => (e.1, true)) x.group.missing } })
          .next (s.lost p 4)
  | _, _ => .next s

end Sys2Proof.Machine
end

