-- ==== Sys2Proof/Machine/Accum.lean ====
section
/-!
DEFINITION. Machine/Accum.lean: STEP_ACCUMULATE (R171, R172, R210, R211, R222 to R225), and the saturation events of finished
work (R204, R205).
-/
namespace Sys2Proof.Machine

/-! ### Saturation results (R203 to R205) -/

def tallyKey (t : Tally) : Nat := (t.group.toNat * 16 + t.dest.toNat) * 16 + t.fmt.toNat
/-- Tallies are added to SAT_WC to SAT_PUB, and EV_SATURATION raised in ascending order, at most 8; the rest are folded. -/
def State.raiseSat (s : State) (c : Nat) (step : Word) (l : List Tally) : State :=
  let l := sortBy tallyKey l
  let s := s.each l (fun s t => s.countCtx c t.dest.toNat t.n)
  let s := s.each (l.take 8) (fun s t =>
    s.emit 0x0033 1 (some c) [(0, step.toNat), (8, t.group.toNat), (9, t.dest.toNat * 16 + t.fmt.toNat), (12, sat 0xFFFFFFFF t.n)])
  s.countCtx c 6 (l.length - 8)
/-- The tallies of a command that worked outside a step (R204). -/
def State.raiseAdmSat (s : State) (c : Nat) (tag : BitVec 16) : State :=
  match s.adm? c tag with
  | none => s
  | some a => s.raiseSat c ((s.ctx c).lastStep.getD 0) a.tallies

/-! ### One accumulator tile -/

/-- Stochastic rounding to BF16 (R210). -/
def stochBf16 (t : F32) (r : Nat) : Nat × Bool :=
  let sign := if t.getLsbD 31 then 0x8000 else 0
  if isNan t then (sign + 0x7FC0, false)
  else if isInf t then (sign + 0x7F80, false)
  else
    let mag := (t.toNat % 2 ^ 31 + r) / 65536
    if mag ≥ 0x7F80 then (sign + 0x7F7F, true) else (sign + mag, false)
/-- q of a contribution (R224). -/
def nextQ (r : Option Contrib) (step : Word) : BitVec 32 :=
  match r with
  | some k => if k.step = step then k.q + 1 else 0
  | none => 0
/-- The random bits of every element of a BF16 tile (R211, R222, R223). -/
def accBits (eight : Bool) (seed : Word) (t : Nat) (step : Word) (q : BitVec 32) : List Nat :=
  let st := lgStreams (if eight then 32 else 64) (starter seed 0 (BitVec.ofNat 32 t) step q)
  (List.range 32768).map (fun e => if eight then elemBits st e 8 0 8 * 256 else elemBits st e 4 0 16)
/-- Sums of an FP32 tile; an absent element stays as it is. -/
def accFp32 (old : List F32) (g : List (Option F32)) : List F32 :=
  (List.zip old g).map (fun e => match e.2 with | some v => fadd e.1 v | none => e.1)
/-- Codes of a BF16 tile after its sums, and how many saturated. -/
def accBf16 (old : List Nat) (g : List (Option F32)) (bits : List Nat) : List Nat × Nat :=
  let l := (List.zip old (List.zip g bits)).map (fun e =>
    match e.2.1 with
    | some v => stochBf16 (fadd (Sf.bf16.value e.1 0) v) e.2.2
    | none => (e.1, false))
  (l.map Prod.fst, (l.filter Prod.snd).length)

/-- One contribution to one tile, or none where the slice must hold. -/
def State.accumulateTile (s : State) (a : Adm) (t : Nat) : Option State :=
  let c := a.c.cid
  let x := s.ctx c
  match x.groupOf t with
  | none => some s
  | some g =>
    let i := (s.tile c t).slice
    let n := accElems g
    let sl := s.slotOf c t a.h0 (gradTile a.c) (gStripe g) (t - firstTile a.c) n
    let undec := accBad (s.header c t) || sl.1.undec
    let slot := if undec then Slot.nan n else sl.1
    let layout := if undec then 0 else sl.2.1
    let tile := bytesOfTile (s.homeVal c t)
    let q := nextQ (s.tile c t).contrib a.stepIn
    let new : List Byte × Nat :=
      if gAcc g = .bf16 then
        let r := accBf16 ((chunks 2 32768 tile).map natOfBytes) slot.vals (accBits x.eight a.seed t a.stepIn q)
        (r.1.flatMap (bytesOfNat 2), r.2)
      else ((accFp32 (Sf.fp32.values 16384 tile) slot.vals).flatMap (fun v => bytesOfNat 4 v.toNat), 0)
    match s.commitTiles c [(t, (tileOfBytes new.1, planesOf (gAcc g)))] with
    | none => none
    | some s =>
      let s := if gAcc g = .bf16 then s.modTile c t (fun r => { r with contrib := some ⟨a.stepIn, q⟩ }) else s
      let s := s.countSlot i slot layout (if layout = 1 ∨ layout = 2 then some (s.densePath layout sl.2.2 false) else none)
      let s := (s.sparseFaults c t 1 a.c.tag slot.equal).sparseFaults c t 2 a.c.tag slot.range
      let bad := undec || slot.vals.any (fun o => match o with | some v => nonFinite v | none => false)
      some (if x.stepOpen then (s.tallyStep c (x.groupNo t) 3 .bf16 new.2).overflowIf c bad
        else s.modAdm c a.c.tag (fun b => { b with tallies := addTally b.tallies (x.groupNo t) 3 1 new.2 }))

/-! ### The command -/

def chkAccumulate (s : State) (cmd : Cmd) : Option Bad :=
  s.gradRange cmd true
def takeAccumulate (c : Cmd) (s : State) : State :=
  s.modAdm c.cid c.tag (fun a => { a with aux := some (s.header c.cid (gradTile c)).toNat })
/-- The command is the first of those admitted that still contribute to a tile (R225). -/
def State.contributes (s : State) (c : Nat) (tag : BitVec 16) (t : Nat) : Bool :=
  match s.link.admitted.find? (fun b => b.op == 0x44 && b.c.cid == c &&
      (if b.begun then b.work else extent (firstTile b.c) b.c.n).contains t) with
  | some b => b.c.tag == tag
  | none => true
/-- The tiles of the command in order, each slice stopping at the first that cannot begin: a tile in the pantry is asked
for, one that an earlier command has yet to contribute to waits (R225), one under a mend waits, one without room for its crumb holds the slice. -/
def State.runAccumulate (s : State) (c : Nat) (tag : BitVec 16) : State :=
  match s.adm? c tag with
  | none => s
  | some a =>
    let r := a.work.foldl (fun (acc : State × List Nat) t =>
      let i := (acc.1.tile c t).slice
      if acc.2.contains i || (acc.1.adm? c tag).isNone then acc
      else if !acc.1.contributes c tag t then (acc.1, i :: acc.2)
      else if !acc.1.tileReady a.c a.h0 true t then (acc.1.promoteFor a.c a.h0 true t, i :: acc.2)
      else match acc.1.accumulateTile a t with
        | none => (acc.1.noRoom c a t, i :: acc.2)
        | some s => (((s.serveTile c t .u (s.traffic true c t a.h0)).endSlot a.c a.h0 true t).markDone c tag t, acc.2)) (s, [])
    match r.1.adm? c tag with
    | some b => if b.work.isEmpty then ((r.1.raiseSparse c (some tag)).raiseAdmSat c tag).finish c tag 0 b.done else r.1
    | none => r.1
def effAccumulate (c : Cmd) (s : State) : State :=
  (s.modAdm c.cid c.tag (fun a => { a with work := extent (firstTile c) c.n })).runAccumulate c.cid c.tag
/-- STEP_ACCUMULATE (R171, R172). -/
def execStepAccumulate (c : Cmd) (s : State) : Host.Outcome State Fault Refusal :=
  .next (s.runCmd 0x44 fieldsGrad chkAccumulate (fun s c => s.gradBytes true c) takeAccumulate effAccumulate c)

end Sys2Proof.Machine
end

