-- ==== Sys2Proof/Machine/Steps.lean ====
section
/-!
DEFINITION. Machine/Steps.lean: programs, groups, seeds and the loss scale; a step from STEP_BEGIN to its verdict and its undo
(R153, R157, R206 to R208, R269 to R283), the seal decision (R287 to R292) and the loss ledger (R340, R341).
-/
namespace Sys2Proof.Machine

/-! ### Programs, groups, seed (R158, R162, R227) -/

/-- VERDICT_PENDING while a step awaits its verdict or its undo. -/
def Ctx.verdictBad (x : Ctx) : Option Bad :=
  match x.step with
  | some st => if st.awaitOnly then none else some (0x0403, fld st.num 0 32)
  | none => none
def chkVerdict (s : State) (c : Cmd) : Option Bad := (s.ctx c.cid).verdictBad
def effDone0 (c : Cmd) (s : State) : State := s.done c 0

/-- Instruction words of PROG_LOAD. -/
def instWords (c : Cmd) : List (BitVec 32) := (List.range c.n).map (fun i => BitVec.ofNat 32 (fld (c.param (i / 2)) (32 * (i % 2)) 32))
def fieldsProgLoad (s : State) (c : Cmd) : List Nat :=
  let p := (instWords c).map PInst.ofWord
  let gs := (mvals (s.ctx c.cid).groups).filter (fun g => gProg g == fld c.a 0 3)
  (progBad p ++ gs.flatMap (cannotRun p)).map (fun k => 32 + 4 * k)
    ++ badAt (decide (c.n % 2 = 1) && decide (fld (c.param (c.n / 2)) 32 32 ≠ 0)) (32 + 4 * c.n)
def takeProgLoad (c : Cmd) (s : State) : State := s.modCtx c.cid (fun x => { x with progs := mset x.progs (fld c.a 0 3) (instWords c) })
/-- PROG_LOAD (R162, R166). -/
def execProgLoad (c : Cmd) (s : State) : Host.Outcome State Fault Refusal :=
  .next (s.runCmd 0x40 fieldsProgLoad chkVerdict noBytes takeProgLoad effDone0 c)

def fieldsPgroupSet (s : State) (c : Cmd) : List Nat :=
  groupBad c.params ++ badAt (match mget (s.ctx c.cid).progs (gProg c.params) with
    | some p => !(cannotRun (p.map PInst.ofWord) c.params).isEmpty
    | none => false) 32
def takePgroupSet (c : Cmd) (s : State) : State := s.modCtx c.cid (fun x => { x with groups := mset x.groups (fld c.a 0 8) c.params })
/-- PGROUP_SET (R158, R159). -/
def execPgroupSet (c : Cmd) (s : State) : Host.Outcome State Fault Refusal :=
  .next (s.runCmd 0x41 fieldsPgroupSet chkVerdict noBytes takePgroupSet effDone0 c)

def takeCtxSetSeed (c : Cmd) (s : State) : State := s.modCtx c.cid (fun x => { x with seed := c.a })
/-- CTX_SET_SEED (R227): it governs the commands admitted after it. -/
def execCtxSetSeed (c : Cmd) (s : State) : Host.Outcome State Fault Refusal :=
  .next (s.runCmd 0x13 noFields chkVerdict noBytes takeCtxSetSeed effDone0 c)

/-! ### The loss scale (R206 to R208) -/

def byteOf (e : BitVec 8) : Nat := e.toNat
def State.scaleEvent (s : State) (c : Nat) (step : Word) (new old : BitVec 8) (cause : Nat) : State :=
  s.emit 0x0031 0 (some c) [(0, step.toNat), (8, new.toNat), (9, old.toNat), (10, cause)]
def fieldsLossScale (_ : State) (c : Cmd) : List Nat :=
  let e := signed 8 (fld c.a 0 8)
  let g := fld c.b 0 17
  badAt (decide (e < -32) || decide (40 < e)) 8 ++ badAt (decide (g ≠ 0) && (decide (g < 64) || decide (65536 < g))) 16
def takeLossScale (c : Cmd) (s : State) : State :=
  let old := (s.ctx c.cid).e
  let g := fld c.b 0 17
  let s := s.modCtx c.cid (fun x => { x with e := BitVec.ofNat 8 (fld c.a 0 8), g := if g = 0 then x.g else BitVec.ofNat 32 g, c := 0 })
  let s := s.modAdm c.cid c.tag (fun a => { a with aux := some old.toNat })
  s.scaleEvent c.cid ((s.ctx c.cid).lastStep.getD 0) (BitVec.ofNat 8 (fld c.a 0 8)) old 2
def effLossScale (c : Cmd) (s : State) : State :=
  match s.adm? c.cid c.tag with
  | some a => s.done c (BitVec.ofInt 32 (signed 8 (a.aux.getD 0))).toNat
  | none => s
/-- LOSS_SCALE_SET (R208). -/
def execLossScaleSet (c : Cmd) (s : State) : Host.Outcome State Fault Refusal :=
  .next (s.runCmd 0x48 fieldsLossScale chkVerdict noBytes takeLossScale effLossScale c)
/-- The scale after an overflow, counted as a skipped step (R207). -/
def State.halveScale (s : State) (c : Nat) (step : Word) : State :=
  let old := (s.ctx c).e
  let new := BitVec.ofInt 8 (max (old.toInt - 1) (-32))
  let s := s.modCtx c (fun x => { x with e := new, c := 0 })
  let s := s.countCtx c 7
  let s := if old.toInt = -32 then s.countCtx c 8 else s
  s.scaleEvent c step new old 0
/-- The scale after a clean verdict: the new state, and the event to raise. -/
def Ctx.growScale (x : Ctx) : Ctx × Option (BitVec 8 × BitVec 8) :=
  let c := x.c + 1
  if c = x.g then
    if x.e.toInt < 40 then ({ x with c := 0, e := x.e + 1 }, some (x.e + 1, x.e)) else ({ x with c := 0 }, none)
  else ({ x with c := c }, none)

/-! ### STEP_BEGIN and STEP_LOSS -/

/-- STEP_ commands of a stopped context, and of one held for a restore (R343, R399). -/
def Ctx.stepRefused (x : Ctx) : Option Bad :=
  if x.stopped then conflict 6 else if x.rst.holding then conflict 8 else none
def fieldsStepBegin (s : State) (c : Cmd) : List Nat :=
  let x := s.ctx c.cid
  badAt (decide (fld c.b 0 12 > 4093)) 16
    ++ badAt (x.group.joined && !((x.group.cfg.map (fun g => g.members.getLsbD (fld c.b 16 5))).getD false)) 18
    ++ badAt (decide (fld c.b 32 16 = 0)) 20
def chkStepBegin (s : State) (c : Cmd) : Option Bad :=
  let x := s.ctx c.cid
  firstBad [
    match x.step with
    | some st => some (0x0403, fld st.num 0 32)
    | none => none,
    match x.lastStep with
    | some l => if c.a.toNat ≤ l.toNat then conflict 6 else none
    | none => none,
    x.stepRefused,
    s.defaultBad c.cid 0,
    if x.group.joined then x.fencedBad (fld c.b 16 5) else none,
    match x.bake.riskNext with
    | some (_, o) => if x.group.joined then x.fencedBad o.toNat else none
    | none => none]
/-- The step as STEP_BEGIN opens it, its constants computed (R160, R216, R269, R270). -/
def State.openStep (s : State) (c : Cmd) : Step :=
  let x := s.ctx c.cid
  { num := c.a, ord := x.ordinal, vctr := BitVec.ofNat 12 (fld c.b 0 12 + x.ordinal % 3),
    owner := if x.group.joined then BitVec.ofNat 5 (fld c.b 16 5) else BitVec.ofNat 5 x.own,
    expected := BitVec.ofNat 16 (fld c.b 32 16), tag := c.tag,
    consts := x.groups.map (fun g => (g.1, constants g.2 c.a x.e.toInt)), progs := x.progs, groups := x.groups, seed := x.seed,
    shadowCfg := s.win.shadow }
/-- The step opens as its STEP_BEGIN passes its checks (R153): cadence, risk counters and contribution records as they
stand now govern it (R226, R287, R288). -/
def takeStepBegin (c : Cmd) (s : State) : State :=
  let st := s.openStep c
  let s := s.applyDefault c.cid 0
  s.modCtx c.cid (fun x => { x with
    step := some st, lastStep := some c.a, ordinal := x.ordinal + 1,
    verdictAt := some (BitVec.ofNat 12 (fld c.b 0 12), st.owner),
    tiles := mmap x.tiles (fun _ r => { r with begun := r.contrib }),
    bake := { x.bake with jobSinceBegin := false, cadence := x.bake.cadenceNext, risk := x.bake.riskNext } })
def effNone (_ : Cmd) (s : State) : State := s
/-- STEP_BEGIN: its final reply waits for the verdict (R277, R279). -/
def execStepBegin (c : Cmd) (s : State) : Host.Outcome State Fault Refusal :=
  .next (s.runCmd 0x42 fieldsStepBegin chkStepBegin noBytes takeStepBegin effNone c)

/-- The open step that a step number names. -/
def Ctx.namesStep (x : Ctx) (n : Word) : Bool :=
  match x.step with
  | some st => !st.awaitOnly && st.num == n
  | none => false
def chkStepLoss (s : State) (c : Cmd) : Option Bad :=
  let x := s.ctx c.cid
  firstBad [if !x.namesStep c.b || x.stepClosed then conflict 6 else none, x.stepRefused]
def takeStepLoss (c : Cmd) (s : State) : State := s.modStep c.cid (fun st => { st with loss := some c.a, lossTag := some c.tag })
/-- STEP_LOSS closes the step (R271); it completes when the finding's ADD returns (R272). -/
def execStepLoss (c : Cmd) (s : State) : Host.Outcome State Fault Refusal :=
  .next (s.runCmd 0x45 noFields chkStepLoss noBytes takeStepLoss effNone c)

/-! ### The finding (R272, R273, R288) -/

/-- A request or a resend of the context for a purpose is outstanding. -/
def State.awaits (s : State) (c : Nat) (f : Why → Bool) : Bool :=
  s.fab.reqs.any (fun r => r.ctx.toNat == c && f r.why) || s.fab.retries.any (fun r => r.req.ctx.toNat == c && f r.req.why)
/-- STEP_LOSS has been taken, and every update, accumulation and covered-write admitted before it has completed. -/
def State.stepWorked (s : State) (c : Nat) : Bool :=
  match (s.ctx c).step with
  | none => false
  | some st =>
    match st.lossTag with
    | none => false
    | some g =>
      let before := s.link.admitted.takeWhile (fun a => !(Adm.isAt c g a))
      (match s.adm? c g with
        | some a => a.begun
        | none => true) && before.all (fun a => a.c.cid != c || (a.op != 0x43 && a.op != 0x44))
/-- Level that a context publishes (R263, R288). -/
def State.publishedLevel (s : State) (c : Nat) : Nat :=
  if s.presentSlices.any (fun i => (s.slice i).earlySeal.contains c) then 7 else s.health.level.toNat
/-- Risk counter of an ordinal. -/
def riskCtr (j : BitVec 12) (q : Nat) : Nat := j.toNat + q % 3
/-- RISK_LEVEL_PUBLISH (R288): the MAX into the step's risk counter. -/
def execRiskLevelPublish (ctx : BitVec 4) (s : State) : Host.Outcome State Fault Refusal :=
  let c := ctx.toNat
  let x := s.ctx c
  match x.step, x.bake.risk with
  | some st, some (j, owner) =>
    if !s.running || st.awaitOnly || st.riskSent || !x.group.joined || !s.stepWorked c then .next s
    else
      let here := decide (x.own = owner.toNat)
      let s := s.modStep c (fun st => { st with riskSent := true, riskDone := here })
      .next (s.counterAt c owner.toNat (riskCtr j st.ord) 1 (BitVec.ofNat 64 (s.publishedLevel c)) .u .riskMax)
  | _, _ => .next s

/-- The finding's value (R273). -/
def findingOf (overflow : Bool) : Word := BitVec.ofNat 64 (2 ^ 32 + bit overflow)
/-- The COMPARE-WAIT for FINAL goes to another member's counter; on the owner the sequencer reads its own (R274). -/
def State.waitFinal (s : State) (c : Nat) : State :=
  match (s.ctx c).step with
  | none => s
  | some st => if (s.ctx c).own = st.owner.toNat then s
    else s.counterAt c st.owner.toNat st.vctr.toNat 3 (BitVec.ofNat 64 (2 ^ 63)) .u .verdict
/-- The ADD of the finding has returned. -/
def State.findingBack (s : State) (c : Nat) (status detail : Nat) : State :=
  match (s.ctx c).step with
  | none => s
  | some st =>
    let s := s.modStep c (fun st => { st with addBack := true })
    match st.lossTag with
    | some g => s.finish c g status detail
    | none => s
def State.riskReady (x : Ctx) (st : Step) : Bool := st.riskDone || x.bake.risk.isNone || !x.group.joined
/-- STEP_FINDING_ADD (R272): once, by ADD to the step's counter on the owner. -/
def execStepFindingAdd (ctx : BitVec 4) (s : State) : Host.Outcome State Fault Refusal :=
  let c := ctx.toNat
  let x := s.ctx c
  match x.step with
  | none => .next s
  | some st =>
    if !s.running || st.awaitOnly || st.unrisen || st.sent || !s.stepWorked c || !State.riskReady x st
        || s.awaits c (fun w => w == .riskRead) then .next s
    else
      let s := s.modStep c (fun st => { st with sent := true })
      let s := s.counterAt c st.owner.toNat st.vctr.toNat 0 (findingOf st.overflow) .u .finding (st.lossTag.getD 0)
      .next (if x.own = st.owner.toNat then s.findingBack c 0 0 else s.waitFinal c)

/-! ### The owner's decision (R274, R275) -/

/-- The counter of the ordinal after next. -/
def clearCtr (base : Nat) (q : Nat) : Nat := base + (q + 2) % 3
def Step.base (st : Step) : Nat := st.vctr.toNat - st.ord % 3
/-- VERDICT_DECIDE: the local wait for the expected findings completes. -/
def execVerdictDecide (ctx : BitVec 4) (s : State) : Host.Outcome State Fault Refusal :=
  let c := ctx.toNat
  match (s.ctx c).step with
  | none => .next s
  | some st =>
    let k := st.vctr.toNat
    let v := s.pc k
    if !s.running || (s.ctx c).own ≠ st.owner.toNat || st.decided || s.poison.contains k
        || decide (v.toNat < st.expected.toNat * 2 ^ 32) then .next s
    else
      let s := s.modStep c (fun st => { st with decided := true })
      let s := s.ctrOp k 0 (BitVec.ofNat 64 (2 ^ 63 + (if fld v 0 32 ≠ 0 then 2 ^ 62 else 0)))
      .next (s.setCtr (clearCtr st.base st.ord) 0)

/-- The counter's value once FINAL is read (R274). -/
def State.finalOf (s : State) (c : Nat) : Option Word :=
  match (s.ctx c).step with
  | none => none
  | some st =>
    if (s.ctx c).own = st.owner.toNat then
      let v := s.pc st.vctr.toNat
      if v.getLsbD 63 ∧ st.decided ∧ !s.poison.contains st.vctr.toNat then some v else none
    else st.final
/-- FINAL is read: the level of the ordinal is read, and the owner of the risk counters clears the one after next (R288,
R289). -/
def keepLevels (m : FMap (BitVec 3)) (q : Nat) (v : BitVec 3) : FMap (BitVec 3) := mset (mkeep m (fun k _ => decide (q ≤ k + 3))) q v
def State.readLevel (s : State) (c q : Nat) : State :=
  match (s.ctx c).bake.risk with
  | none => s
  | some (j, owner) =>
    if !(s.ctx c).group.joined then s
    else if (s.ctx c).own = owner.toNat then
      let v := BitVec.ofNat 3 (min 7 (s.pc (riskCtr j q)).toNat)
      (s.modCtx c (fun x => { x with bake := { x.bake with levels := keepLevels x.bake.levels q v } })).setCtr (clearCtr j.toNat q) 0
    else s.counterAt c owner.toNat (riskCtr j q) 3 0 .u .riskRead (BitVec.ofNat 16 q)

/-! ### A clean verdict (R157, R277) -/

/-- A master tile: a tile that a STEP_GRAD_READY may name for its group's program, with a working copy (R151, R157). -/
def State.isMaster (s : State) (c t : Nat) : Bool :=
  let x := s.ctx c
  (x.cover t).crumbed && !(s.tile c t).raw &&
  match x.groupOf t with
  | none => false
  | some g => (gWc g).isSome && (mget x.progs (gProg g)).isSome && decide (gAnchor g ≤ t)
      && (companions g t).all (fun u => s.streamTileOk c t u.1 u.2)
def State.masters (s : State) (c : Nat) : List Nat := (mkeys (s.ctx c).tiles).filter (fun t => s.isMaster c t)
/-- Values of a master as they stand at a step (R190, R192). -/
def State.masterNow (s : State) (c t : Nat) (step : Word) : List F32 :=
  let h := s.header c t
  let held := if masterBad h then Held.dense else heldAs h step
  masterValues (if held = .converting then .dense else held) (bytesOfTile (s.homeVal c t))
/-- Recast a master into one version of its working copy; the elements saturated or clipped. -/
def State.recast (s : State) (c t : Nat) (step : Word) (v : Bool) : State × Nat :=
  match (s.ctx c).groupOf t with
  | none => (s, 0)
  | some g =>
    match streamOf g (.wc v) with
    | none => (s, 0)
    | some q =>
      let e := q.fmt.encode (s.masterNow c t step)
      (((s.layPieces c (q.pieces g (t - gAnchor g)) e.1).noteU c).serveTile c t .u, e.2)
/-- The tiles to recast at the verdict of a step. -/
def State.toRecast (s : State) (c : Nat) (st : Step) : List Nat :=
  (s.masters c).filter (fun t => !st.updated.contains t && !(s.tile c t).other)
/-- Tiles a recast needs at home: the master and the inactive copy. -/
def State.recastTiles (s : State) (c : Nat) (v : Bool) (t : Nat) : List Nat :=
  match (s.ctx c).groupOf t with
  | none => [t]
  | some g => t :: (match streamOf g (.wc v) with
      | some q => (q.pieces g (t - gAnchor g)).map (fun p => p.1)
      | none => [])
def State.recastAll (s : State) (c : Nat) (st : Step) : State :=
  s.each (s.toRecast c st) (fun s t =>
    let r := s.recast c t st.num (!(s.ctx c).verBit)
    let f := (((s.ctx c).groupOf t).bind gWc).getD .fp32
    r.1.tallyStep c ((s.ctx c).groupNo t) 0 f r.2)
/-- Recast, flip, other current (R157), and each F becomes P (R250); without a group, and for a self-erased tile, the fresh
crumb is discarded (R241, R265); a damaged tile becomes self-erased (Table 14.4). -/
def State.flipAndRelabel (s : State) (c : Nat) (st : Step) : State :=
  let ms := s.masters c
  let s := s.recastAll c st
  let s := s.each ms (fun s t => s.modTile c t (fun r => { r with other := !st.updated.contains t }))
  let joined := (s.ctx c).group.joined
  let s := s.modCtx c (fun x => { x with verBit := !x.verBit, tiles := mmap x.tiles (fun _ r =>
    let p := if joined && !r.erasedOpen then (match r.f with | some f => some f | none => r.p) else r.p
    if r.damaged then { r with f := none, o := none, p := none, erasedOpen := true, damaged := false, begun := none }
    else { r with f := none, p := p, begun := none }) })
  s.relieveAll c

/-- Shard digest of the step (R341). -/
def State.stepDigest (s : State) (c : Nat) (st : Step) : Word := digestOf (st.updated.map (fun t => tileCrc (s.homeVal c t)))
/-- The loss ledger at a clean verdict (R340). -/
def State.ledgerEntry (s : State) (c : Nat) (st : Step) : State :=
  let d := s.stepDigest c st
  let l := (s.ctx c).ledger
  if l.any (fun e => e.step == st.num) then
    s.modCtx c (fun x => { x with ledger := replaceFirst (fun e => e.step == st.num) (fun e => { e with replay := some d }) x.ledger })
  else
    let full := decide (l.length ≥ Config.ledgerMax)
    let s := s.countCtx c 80 (bit full)
    s.modCtx c (fun x => { x with ledger := (if full then x.ledger.drop 1 else x.ledger) ++ [⟨st.num, st.loss.getD 0, d, none⟩] })

/-- EV_VERDICT. -/
def State.verdictEvent (s : State) (c : Nat) (st : Step) (v : Nat) (final : Word) : State :=
  s.emit 0x0030 (if v = 0 then 0 else 2) (some c) [(0, st.num.toNat), (8, v), (12, fld final 32 16)]
/-- Results of the shadow check at a clean verdict (R215). -/
def State.raiseShadow (s : State) (c : Nat) (st : Step) : State :=
  let l := sortBy (fun k => k.tile) st.shadows
  let s := (s.countCtx c 9 l.length).countCtx c 10 (sum (l.map (fun k => k.elems)))
  let bad := l.filter (fun k => decide (k.elems > 0))
  let s := s.each (bad.take 4) (fun s k => s.emit 0x0032 2 (some c)
    [(0, k.tile), (4, k.elems), (8, k.ulp.toNat), (12, k.group.toNat), (13, fld st.num 0 24)])
  s.countCtx c 12 (bad.length - 4)

/-! ### The seal decision (R290, R292) -/

def cadenceAt (ws : List Word) (l : Nat) : Nat := fld (ws.getD (l / 4) 0) (16 * (l % 4)) 16
/-- The level read for the ordinal two before. -/
def Ctx.levelFor (x : Ctx) (q : Nat) : Nat := if q < 2 then 0 else (mgetD x.bake.levels (q - 2) 0).toNat
def Ctx.sealNowFor (x : Ctx) (q : Nat) : List (BitVec 16) := (x.bake.sealNow.filter (fun e => decide (e.2 ≤ q))).map Prod.fst
def State.decideSeal (s : State) (c : Nat) (st : Step) : State :=
  let x := s.ctx c
  if !x.group.joined || x.stopped || x.rst.holding then s
  else
    let l := x.levelFor st.ord
    let i := cadenceAt x.bake.cadence l
    let now := x.sealNowFor st.ord
    let s := s.modCtx c (fun x => { x with bake := { x.bake with lastLevel := BitVec.ofNat 3 l, lastInterval := BitVec.ofNat 16 i } })
    let x := s.ctx c
    let due := decide (st.num.toNat - x.bake.sLast.toNat ≥ i) || !now.isEmpty
      || x.bake.restoreDue
    if !due then s
    else if x.bake.sealed ≠ 0 ∨ x.bake.jobSinceBegin ∨ x.bake.committed = BitVec.allOnes 32 then
      let awaited := if x.bake.sealed ≠ 0 then x.bake.sealed else x.bake.committed
      let s := s.modCtx c (fun x => { x with bake := { x.bake with deferred := true } })
      let s := (s.countCtx c 47).emit 0x0022 1 (some c) [(0, awaited.toNat), (4, st.num.toNat)]
      s.each now (fun s g => s.defer c g (BitVec.allOnes 32))
    else s.modCtx c (fun x => { x with bake := { x.bake with due := some st.num, dueOrd := st.ord, deferred := false } })

/-! ### Reading the verdict -/

/-- Every counter operation of the step has returned (R276). -/
def State.stepQuiet (s : State) (c : Nat) : Bool := !s.awaits c (fun w => w == .finding || w == .mark || w == .riskMax)
/-- A seal due at an earlier step, or in progress, comes first (R295). -/
def Ctx.sealWaits (x : Ctx) : Bool := x.bake.due.isSome
/-- A verdict read for a held step is late (R280). -/
def State.countLate (s : State) (c : Nat) (st : Step) : State := if st.held then s.countCtx c 16 else s
/-- A cancel that waits for this step found nothing to cancel (R282). -/
def State.cancelMissed (s : State) (c : Nat) (st : Step) : State :=
  if st.cancel.isNone then s
  else { s with link := { s.link with admitted := s.link.admitted.map (fun a =>
    if a.op = 0xF0 ∧ a.c.cid = c ∧ a.work.contains st.tag.toNat then { a with aux := none } else a) } }
/-- The step leaves; the tiles it named are the prediction of R155. -/
def State.endStep (s : State) (c : Nat) (st : Step) : State := s.modCtx c (fun x => { x with step := none, predicted := st.named })
/-- What the verdict of any outcome does once FINAL is read. -/
def State.afterFinal (s : State) (c : Nat) (st : Step) : State := s.readLevel c st.ord

/-- VERDICT_CLEAN (R277). -/
def execVerdictClean (ctx : BitVec 4) (s : State) : Host.Outcome State Fault Refusal :=
  let c := ctx.toNat
  match (s.ctx c).step, s.finalOf c with
  | some st, some v =>
    if !s.running || v.getLsbD 62 || st.unrisen || !s.stepQuiet c then .next s
    else if st.awaitOnly then .next ((s.endStep c st).afterFinal c st)
    else if !s.locked || (s.ctx c).sealWaits then .next s
    else
      let need := (s.toRecast c st).flatMap (s.recastTiles c (!(s.ctx c).verBit))
      if !need.all (fun u => s.writable c u) then .next (s.each need (fun s u => s.askPromotion c u 3))
      else
        let s := s.flipAndRelabel c st
        let s := (s.ledgerEntry c st).shareLedger c
        let g := (s.ctx c).growScale
        let s := s.modCtx c (fun _ => { g.1 with lastClean := some st.num })
        let st := ((s.ctx c).step).getD st
        let s := ((s.countCtx c 13).countLate c st).countCtx c 5 st.mxClip
        let s := s.verdictEvent c st 0 v
        let s := match g.2 with
          | some e => s.scaleEvent c st.num e.1 e.2 1
          | none => s
        let s := (s.raiseSat c st.num st.tallies).raiseShadow c st
        let s := (s.afterFinal c st).endStep c st
        let s := s.cancelMissed c st
        let s := s.finish c st.tag 0 0
        .next (s.decideSeal c st)
  | _, _ => .next s

/-! ### Undo (R278, R279) -/

/-- A tile whose fresh record is lost (Table 14.4): its pre-step value is decoded and its other records laid over it, as a
mend does. -/
def State.undoDamaged (s : State) (c t : Nat) : State :=
  ((s.modTile c t (fun r => { r with f := none, contrib := r.begun, other := false })).holdTile c t .mend).askOwn c .mend t .u
/-- Withdraw every fresh record, tile by tile. -/
def State.unrise (s : State) (c : Nat) : State :=
  let bad := ((s.ctx c).tiles.filter (fun e => e.2.damaged && e.2.f.isSome)).map Prod.fst
  let s := s.each bad (fun s t => s.undoDamaged c t)
  let fresh := ((s.ctx c).tiles.filter (fun e => e.2.f.isSome)).map Prod.fst
  let s := s.each fresh (fun s t =>
    let s := (s.portWrite c t (s.homeVal c t ^^^ (s.tile c t).freshDelta)).noteU c
    let m := s.isMaster c t
    ((s.modTile c t (fun r => { r with f := none, contrib := r.begun, other := if m then false else r.other })).countCtx c 18).serveTile
      c t .u 131072)
  let s := s.modCtx c (fun x => { x with tiles := mmap x.tiles (fun _ r => { r with begun := none }) })
  s.relieveAll c
/-- Fresh tiles stand at home and can be rewritten now. -/
def State.canUnrise (s : State) (c : Nat) : Bool :=
  s.running && s.locked && ((s.ctx c).tiles.filter (fun e => e.2.f.isSome)).all (fun e => !e.2.tier1)
/-- Contribution records of tiles whose contribution left no fresh record return too (R226). -/
def State.undoRecords (s : State) (c : Nat) : State :=
  s.modCtx c (fun x => { x with tiles := mmap x.tiles (fun _ r => { r with contrib := r.begun }) })
/-- The overflow path: the scale halved, tallies and shadow results discarded, EV_VERDICT raised (R207, R279, R283). -/
def State.overflowPath (s : State) (c : Nat) (st : Step) (verdict : Nat) (final : Word) : State :=
  let s := s.verdictEvent c st verdict final
  let s := s.halveScale c st.num
  let s := s.modStep c (fun st => { st with unrisen := true, tallies := [], mxClip := 0, shadows := [] })
  s.undoRecords c
/-- VERDICT_OVERFLOW (R278): EV_VERDICT leaves when the verdict is read; the unrise runs in class U, when lock allows. -/
def execVerdictOverflow (ctx : BitVec 4) (s : State) : Host.Outcome State Fault Refusal :=
  let c := ctx.toNat
  match (s.ctx c).step, s.finalOf c with
  | some st, some v =>
    if !s.running || !v.getLsbD 62 || st.unrisen || !s.stepQuiet c then .next s
    else if st.awaitOnly then .next ((s.endStep c st).afterFinal c st)
    else if (s.ctx c).sealWaits then .next s
    else
      let s := ((s.countCtx c 14).countLate c st).countCtx c 17 (bit st.cancel.isSome)
      let s := s.overflowPath c st (if st.cancel.isSome then 3 else 1) v
      let s := s.afterFinal c st
      .next (if s.canUnrise c then s.unrise c else s)
  | _, _ => .next s

/-- Commands of the step that its undo cancels, and STEP_PUBLISH of the step, which finds no clean verdict (R177, R279). -/
def State.endPublishes (s : State) (c : Nat) (n : Word) (status detail : Nat) : State :=
  let l := s.link.admitted.filter (fun a => a.op == 0x46 && a.c.cid == c && a.c.b == n)
  s.each l (fun s a => s.finish c a.c.tag status detail)
/-- UNRISE_DONE (R279, R283): STEP_BEGIN's final reply leaves. -/
def execUnriseDone (ctx : BitVec 4) (s : State) : Host.Outcome State Fault Refusal :=
  let c := ctx.toNat
  match (s.ctx c).step with
  | none => .next s
  | some st =>
    if !st.unrisen || !s.canUnrise c then .next s
    else if (s.ctx c).tiles.any (fun e => e.2.damaged) then .next (s.unrise c)
    else
      let s := s.unrise c
      let known := (s.finalOf c).isSome
      let s := if known then s.endStep c st else
        s.modStep c (fun st => { st with unrisen := false, awaitOnly := true })
      let s := if st.cancel.isSome then s.finish c st.tag 0x0700 0 else s.finish c st.tag 0 1
      .next (if st.cancel.isSome then s.endPublishes c st.num 0x0700 0 else s.endPublishes c st.num 0x0400 6)

end Sys2Proof.Machine
end

