-- ==== Sys2Proof/Machine/Publish.lean ====
section
/-!
DEFINITION. Machine/Publish.lean: publish targets and versions (R174 to R179).
-/
namespace Sys2Proof.Machine

/-! ### Targets (Table 7.10) -/

def Target.w (t : Target) (i : Nat) : Word := t.words.getD i 0
def Target.position (t : Target) : Nat := fld (t.w 0) 0 5
def Target.remote (t : Target) : Bool := (t.w 0).getLsbD 5
def Target.consumers (t : Target) : Nat := fld (t.w 0) 8 8
def Target.leaseCtr (t : Target) : Nat := fld (t.w 0) 16 12
def Target.versionCtr (t : Target) : Nat := fld (t.w 0) 32 12
def Target.capacity (t : Target) : Nat := fld (t.w 3) 0 32
def Target.grace (t : Target) : Nat := fld (t.w 3) 32 16
def Target.groups (t : Target) (g : Nat) : Bool := decide (fld (t.w 3) 48 8 ≤ g) && decide (g ≤ fld (t.w 3) 56 8)
def Target.bufAddr (t : Target) (v : Nat) : Nat := (t.w (1 + v)).toNat
/-- A STEP_PUBLISH to a target is admitted. -/
def State.publishing (s : State) (c k : Nat) : Bool := s.link.admitted.any (fun a => a.op == 0x46 && a.c.cid == c && fld a.c.a 0 4 == k)

def fieldsPublishTargets (_ : State) (c : Cmd) : List Nat :=
  let t : Target := { words := c.params }
  reservedBits (t.w 0) 0x00000FFF0FFFFF3F 32 ++ badAt (!t.remote && decide (t.position ≠ 0)) 32 ++ badAt (decide (t.consumers = 0)) 33
    ++ badAt (!t.remote && decide (t.w 2 ≠ 0)) 48 ++ badAt (decide (t.capacity = 0) || decide (t.capacity = 0xFFFFFFFF)) 56
    ++ badAt (decide (fld (t.w 3) 56 8 < fld (t.w 3) 48 8)) 63
/-- Tiles of the publish pool that no other target holds. -/
def Ctx.publishFree (x : Ctx) (k : Nat) : List (Nat × Nat) :=
  let used := (x.targets.filter (fun t => t.1 != k)).flatMap (fun t => t.2.buf)
  x.publish.tiles.filter (fun p => !used.contains p)
def chkPublishTargets (s : State) (c : Cmd) : Option Bad :=
  let t : Target := { words := c.params }
  let k := fld c.a 0 4
  let free := ((s.ctx c.cid).publishFree k).length
  firstBad [
    if t.remote then check ([0, 1].all (fun i => decide (t.bufAddr i % 4096 = 0) && decide (t.bufAddr i < 2 ^ 47))) badRange
    else check (s.bufferOk (t.w 1) (16 * t.capacity)) badRange,
    if s.publishing c.cid k then conflict 8 else none,
    if t.remote then (s.ctx c.cid).fencedBad t.position else check (decide (2 * t.capacity ≤ free)) (refusedPool 3 (2 * t.capacity - free))]
/-- A command that must send a tagged transfer finds no current key (R356). -/
def State.keyless (s : State) (c : Nat) (t : Target) : Bool :=
  t.remote && decide (t.position ≠ (s.ctx c).own) && (s.ctx c).keys.cur.isNone
/-- PUBLISH_TARGETS (R174, R175): the target is reset; a remote version counter is SET by one transfer. -/
def effPublishTargets (c : Cmd) (s : State) : State :=
  let t : Target := { words := c.params }
  let k := fld c.a 0 4
  let buf := if t.remote then [] else ((s.ctx c.cid).publishFree k).take (2 * t.capacity)
  if s.keyless c.cid t then s.finish c.cid c.tag 0x0501 (s.ctx c.cid).own else
  let s := s.modCtx c.cid (fun x => { x with targets := mset x.targets k { t with buf := buf } })
  let s := if t.remote then s else s.portDie (t.bufAddr 0) (buf.flatMap (fun p => bytesOfNat 8 (dieAddr p.1 p.2)))
  let s := s.setCtr t.leaseCtr 0
  if t.remote && decide (t.position ≠ (s.ctx c.cid).own) then s.counterAt c.cid t.position t.versionCtr 2 0 .u .command c.tag
  else (s.setCtr t.versionCtr 0).done c 0
def execPublishTargets (c : Cmd) (s : State) : Host.Outcome State Fault Refusal :=
  .next (s.runCmd 0x47 fieldsPublishTargets chkPublishTargets noBytes noTake effPublishTargets c)

/-! ### Contents of a version (R176) -/

/-- Format of a group's spans. -/
def publishFormat (code : Nat) (g : List Word) : Sf := if code = 0 then (gWc g).getD .bf16 else (Sf.ofCode code).getD .bf16
def State.published (s : State) (c : Nat) (t : Target) : List Nat := (s.masters c).filter (fun u => t.groups ((s.ctx c).groupNo u))
def State.publishSize (s : State) (c : Nat) (t : Target) (code : Nat) : Nat :=
  sum ((s.published c t).map (fun u => (publishFormat code (((s.ctx c).groupOf u).getD [])).span))
/-- Tiles read for a version. -/
def State.publishReads (s : State) (c : Nat) (t : Target) (code : Nat) : List Nat :=
  (s.published c t).flatMap (fun u =>
    let g := ((s.ctx c).groupOf u).getD []
    if code = 0 then
      match streamOf g (.wc (s.ctx c).verBit) with
      | some q => (q.pieces g (u - gAnchor g)).map (fun p => p.1)
      | none => []
    else [u])
/-- The bytes of a version, and its tallies of saturated and clipped elements. -/
def State.publishContent (s : State) (c : Nat) (t : Target) (code : Nat) (step : Word) : List Byte × List Tally × Nat :=
  (s.published c t).foldl (fun (acc : List Byte × List Tally × Nat) u =>
    let g := ((s.ctx c).groupOf u).getD []
    if code = 0 then
      match streamOf g (.wc (s.ctx c).verBit) with
      | some q => (acc.1 ++ s.readPieces c (q.pieces g (u - gAnchor g)), acc.2.1, acc.2.2)
      | none => acc
    else
      let f := publishFormat code g
      let h := s.header c u
      let held := if masterBad h then Held.dense else heldAs h step
      let e := f.encode (masterValues (if held = .converting then .dense else held) (bytesOfTile (s.valOf c u)))
      (acc.1 ++ e.1, if f.mx then acc.2.1 else addTally acc.2.1 ((s.ctx c).groupNo u) 4 f.code e.2,
        acc.2.2 + if f.mx then e.2 else 0)) ([], [], 0)

/-! ### STEP_PUBLISH (R177, R178) -/

def fieldsStepPublish (s : State) (c : Cmd) : List Nat :=
  badAt (decide (fld c.a 4 4 ≥ 9)) 8 ++ badAt (mget (s.ctx c.cid).targets (fld c.a 0 4)).isNone 8
def State.target (s : State) (c k : Nat) : Target := mgetD (s.ctx c).targets k { words := [] }
def chkStepPublish (s : State) (c : Cmd) : Option Bad :=
  let x := s.ctx c.cid
  let k := fld c.a 0 4
  let t := s.target c.cid k
  firstBad [
    check (decide (s.publishSize c.cid t (fld c.a 4 4) ≤ 65536 * t.capacity)) badRange,
    if x.lastStep ≠ some c.b then conflict 6 else none,
    if s.publishing c.cid k then conflict 8 else none,
    x.stepRefused,
    if t.remote then x.fencedBad t.position else none]
def bytesStepPublish (s : State) (c : Cmd) : List (Nat × Nat) :=
  s.bytesBySlice c.cid 131072 (s.published c.cid (s.target c.cid (fld c.a 0 4)))
/-- It waits for the verdict of its step; one already known not to be clean ends it. -/
def effStepPublish (c : Cmd) (s : State) : State :=
  let x := s.ctx c.cid
  if x.lastClean = some c.b ∨ x.namesStep c.b then s else s.finish c.cid c.tag 0x0400 6
def execStepPublish (c : Cmd) (s : State) : Host.Outcome State Fault Refusal :=
  .next (s.runCmd 0x46 fieldsStepPublish chkStepPublish bytesStepPublish noTake effStepPublish c)

/-- Leases that the next version waits for: C × (v − 2). -/
def Target.leaseNeed (t : Target) : Nat := if t.next.toNat ≥ 3 then t.consumers * (t.next.toNat - 2) else 0
def State.leasesOk (s : State) (t : Target) : Bool := decide (t.leaseNeed ≤ (s.pc t.leaseCtr).toNat)
/-- Deadline of a publish: its own, or GRACE frames after admission. -/
def Target.deadline (t : Target) (a : Adm) : BitVec 32 := if a.c.deadline = 0 then a.frame + BitVec.ofNat 32 t.grace else a.c.deadline
/-- The publish is skipped: EV_PUBLISH_SKIPPED and DONE with v − 1 (R177). -/
def State.skipNow (s : State) (c : Nat) (a : Adm) : State :=
  let k := fld a.c.a 0 4
  let t := s.target c k
  let s := s.emit 0x0071 2 (some c) [(0, t.next.toNat), (8, k), (12, t.leaseNeed - (s.pc t.leaseCtr).toNat)]
  s.finish c a.c.tag 0 (fld (t.next - 1) 0 32)
/-- The deadline passed before the leases came: EV_DEADLINE_MISS, and the publish is skipped. -/
def State.skipPublish (s : State) (c : Nat) (a : Adm) : State :=
  let t := s.target c (fld a.c.a 0 4)
  (s.emit 0x0070 2 (some c) [(0, a.c.tag.toNat), (2, a.op.toNat), (4, (t.deadline a).toNat), (8, s.frames.frame.toNat)]).skipNow c a
/-- A publish whose deadline passed while its verdict was awaited is skipped once that verdict is clean, where the leases have not
come (R177). -/
def State.skipLate (s : State) (c : Nat) (tag : BitVec 16) : State :=
  match s.adm? c tag with
  | none => s
  | some a => if a.begun && a.missed && a.aux.isNone && decide ((s.ctx c).lastClean = some a.c.b)
      && !s.leasesOk (s.target c (fld a.c.a 0 4)) then s.skipNow c a else s
/-- The version lies in a local buffer, tile by tile. -/
def State.layVersion (s : State) (t : Target) (v : Nat) (l : List Byte) : State :=
  let bufs := (t.buf.drop (v * t.capacity)).take t.capacity
  s.each (List.zip bufs (chunks 65536 l.length l)) (fun s e => s.writeBytes e.1.1 (e.1.2 * 65536) e.2)
/-- The version goes to a remote buffer, 4 KiB a STORE. -/
def State.storeVersion (s : State) (c k : Nat) (t : Target) (v : Nat) (l : List Byte) : State :=
  s.each (chunks 4096 l.length l).zipIdx (fun s e =>
    s.issue c .u 2 0 [(8, t.bufAddr v + 4096 * e.2)] e.1 (.store (BitVec.ofNat 4 k) t.next))
/-- Version v is announced (R177). -/
def State.versionOut (s : State) (c k : Nat) (tag : BitVec 16) : State :=
  let v := (s.target c k).next
  let s := s.modCtx c (fun x => { x with targets := mset x.targets k { (s.target c k) with next := v + 1 } })
  (s.raiseAdmSat c tag).finish c tag 0 (fld v 0 32)
/-- PUBLISH_WRITE (R177 to R179): the verdict is clean and the leases allow; the buffer is written and the flag stored. -/
def execPublishWrite (ctx target : BitVec 4) (s : State) : Host.Outcome State Fault Refusal :=
  let c := ctx.toNat
  let k := target.toNat
  let t := s.target c k
  match s.link.admitted.find? (fun a => a.op == 0x46 && a.c.cid == c && fld a.c.a 0 4 == k && a.begun && a.aux.isNone) with
  | none => .next s
  | some a =>
    let code := fld a.c.a 4 4
    if !s.leasesOk t then .next (s.skipLate c a.c.tag)
    else if !(s.running && s.locked) || (s.ctx c).lastClean ≠ some a.c.b then .next s
    else if s.keyless c t then .next (s.finish c a.c.tag 0x0501 (s.ctx c).own)
    else if !s.readable c (s.publishReads c t code) then .next (s.askAll c (s.publishReads c t code) .u a.c.deadline)
    else
      let out := s.publishContent c t code a.c.b
      let reads := s.publishReads c t code
      let v := t.next.toNat % 2
      let s := s.each (s.bytesBySlice c 131072 (s.published c (s.target c k))) (fun s e => s.serve e.1 .u e.2)
      let s := (s.each reads (fun s u => s.endRead c u)).noteStep c a.c.b
      let s := s.countCtx c 5 out.2.2
      let s := s.modAdm c a.c.tag (fun a => { a with tallies := out.2.1, aux := some 1, done := ceilDiv out.1.length 65536 })
      if t.remote && decide (t.position ≠ (s.ctx c).own) then
        let s := s.storeVersion c k t v out.1
        .next (s.counterAt c t.position t.versionCtr 1 t.next .u (.flag target t.next) a.c.tag 2)
      else
        let s := if t.remote then s.storeVersion c k t v out.1 else s.layVersion t v out.1
        .next ((s.ctrOp t.versionCtr 1 t.next).versionOut c k a.c.tag)

end Sys2Proof.Machine
end

