-- ==== Sys2Proof/Machine/Bakes.lean ====
section
/-!
DEFINITION. Machine/Bakes.lean: cadence, the seal, the drain to the keepers, rack and job-wide commits (R251, R252, R256, R265, R285 to
R308).
-/
namespace Sys2Proof.Machine

/-- A coding command in a context that has not joined a group (R241). -/
def Ctx.notJoined (x : Ctx) : Option Bad := check x.group.joined (0x0401, 0)

/-! ### CADENCE_SET, BAKE_SEAL_NOW (R287, R293) -/

def fieldsCadence (s : State) (c : Cmd) : List Nat :=
  let x := s.ctx c.cid
  (List.range 8).flatMap (fun l => badAt (decide (cadenceAt c.params l = 0)) (32 + 2 * l))
    ++ badAt (decide (fld c.b 0 12 > 4093)) 16
    ++ badAt (x.group.joined && !((x.group.cfg.map (fun g => g.members.getLsbD (fld c.b 16 5))).getD false)) 18
def chkCadence (s : State) (c : Cmd) : Option Bad :=
  let x := s.ctx c.cid
  firstBad [x.notJoined, x.verdictBad, x.fencedBad (fld c.b 16 5)]
def takeCadence (c : Cmd) (s : State) : State :=
  s.modCtx c.cid (fun x => { x with bake := { x.bake with
    cadenceNext := c.params, riskNext := some (BitVec.ofNat 12 (fld c.b 0 12), BitVec.ofNat 5 (fld c.b 16 5)) } })
/-- CADENCE_SET (R287). -/
def execCadenceSet (c : Cmd) (s : State) : Host.Outcome State Fault Refusal :=
  .next (s.runCmd 0x50 fieldsCadence chkCadence noBytes takeCadence effDone0 c)

def chkSealNow (s : State) (c : Cmd) : Option Bad :=
  let x := s.ctx c.cid
  firstBad [x.notJoined, if x.stopped then conflict 6 else none, if x.rst.holding then conflict 8 else none]
def takeSealNow (c : Cmd) (s : State) : State :=
  s.modCtx c.cid (fun x => { x with bake := { x.bake with sealNow := x.bake.sealNow ++ [(c.tag, x.ordinal)] } })
/-- BAKE_SEAL_NOW (R293): its DONE leaves when the seal is taken. -/
def execBakeSealNow (c : Cmd) (s : State) : Host.Outcome State Fault Refusal :=
  .next (s.runCmd 0x51 noFields chkSealNow noBytes takeSealNow effNone c)

/-! ### Where a tile's contribution goes -/

/-- Batch, data slot and offset that a tile ships to: its own loaf, or the one it leaves at a change seal (Table 6.4). -/
def Ctx.shipPlace (x : Ctx) (t : Nat) : Option (BitVec 32 × Nat × Nat) :=
  match x.batchOfTile t with
  | some p => some p
  | none =>
    match x.group.cfg, x.bake.leaving.find? (fun e => decide (e.2.first ≤ t) && decide (t < e.2.first + e.2.count)) with
    | some g, some (n, r) =>
      let mode := if r.cls = .delta then 0 else 1
      let p := batchOfLoaf g n mode (Group.myIndex g) ((t - r.first) / 32)
      some (p.1, p.2, (t - r.first) % 32)
    | _, _ => none
/-- Order of the drain: ascending batch id, then offset (R252). -/
def Ctx.shipKey (x : Ctx) (t : Nat) : Nat :=
  match x.shipPlace t with
  | some (b, _, o) => b.toNat * 32 + o
  | none => 0
/-- Keepers of a batch, by crust row. -/
def Ctx.keepersOf (x : Ctx) (b : BitVec 32) : List Nat := (x.group.cfg.map (fun g => g.keepers b)).getD []
/-- Every keeper of a batch that the member sources. -/
def Ctx.myKeepers (x : Ctx) : List Nat := (x.sourced.flatMap x.keepersOf).foldl insertAsc []

/-! ### The seal (R294) -/

/-- Tiles of the sealed bake to ship, in order. -/
def Ctx.shipList (x : Ctx) : List Nat :=
  let ts := (x.tiles.filter (fun e => (x.shipPlace e.1).isSome &&
    (x.cover e.1 == .snapshot || x.bake.fullTiles.contains e.1 || e.2.sb.isSome || e.2.sp.isSome || e.2.erasedSealed))).map Prod.fst
  sortBy x.shipKey ts
/-- Records kept with a bake, as they stand at the seal (R226). -/
def Ctx.bakeRec (x : Ctx) (step : Word) : BakeRec :=
  { step := step, e := x.e, g := x.g, c := x.c, seed := x.seed, verBit := x.verBit,
    contrib := x.tiles.filterMap (fun e => e.2.contrib.map (fun k => (e.1, k))),
    erased := (x.tiles.filter (fun e => e.2.erasedOpen)).map Prod.fst }
/-- Open records become the sealed ones; marks of the closing epoch move with them. -/
def TileRec.seal (r : TileRec) : TileRec :=
  { r with sb := r.o, sp := r.p, o := none, p := none, erasedSealed := r.erasedOpen, erasedOpen := false }
/-- Bake F is sealed after a step. `full`: every covered tile contributes its full value (R308, R404). -/
def State.sealBake (s : State) (c : Nat) (f : BitVec 32) (step : Word) (full : Bool) : State :=
  let changing := (s.ctx c).regions.any (fun e => e.2.change.isSome)
  let s := s.changeSeal c
  let s := if changing then s.shareRegions c else s
  let x := s.ctx c
  let rec_ := x.bakeRec step
  let covered := (x.tiles.filter (fun e => (x.cover e.1).covered)).map Prod.fst
  let changed := x.bake.fullTiles
  let s := s.modCtx c (fun x => { x with
    tiles := mmap x.tiles (fun t r =>
      let r := r.seal
      if x.cover t == .snapshot || changed.contains t then { r with owesBake := true } else r),
    bake := { x.bake with recs := mset x.bake.recs f.toNat rec_, fullTiles := if full then covered.foldl insertAsc changed else changed } })
  let s := s.each (mkeys (s.ctx c).tiles) (fun s t => if (s.tile c t).owesBake then s.trap c t else s)
  let s := s.modCtx c (fun x => { x with bake := { x.bake with
    sealed := f, sLast := step, due := none, deferred := false, full := false, restoreDue := false,
    shipped := [], noticed := [], blocked := [], stopShip := false, rackDone := false } })
  let s := s.modCtx c (fun x => { x with bake := { x.bake with toShip := x.shipList, part := [] } })
  ((s.shareBake c f).countCtx c 46).emit 0x0020 0 (some c) [(0, f.toNat), (4, step.toNat), (12, sat 0xFFFFFFFF rec_.erased.length)]
/-- A free entry for the hold on every slice that holds snapshot tiles. -/
def State.holdEntries (s : State) (c : Nat) : Bool :=
  s.presentSlices.all (fun i => decide (s.tilesOn c i (· == .snapshot) = 0) || decide ((s.slice i).ranges.length < Config.allRanges))
/-- The step's publish has written its flag store or been skipped. -/
def State.published? (s : State) (c : Nat) (step : Word) : Bool :=
  !s.link.admitted.any (fun a => a.op == 0x46 && a.c.cid == c && a.c.b == step)
/-- BAKE_SEAL (R294): the seal that is due is taken, and each BAKE_SEAL_NOW that its decision found is answered (R293). -/
def execBakeSeal (ctx : BitVec 4) (s : State) : Host.Outcome State Fault Refusal :=
  let c := ctx.toNat
  let x := s.ctx c
  match x.bake.due with
  | none => .next s
  | some step =>
    if !s.running || !s.published? c step || !s.holdEntries c || x.stopped || x.rst.holding || x.bake.sealed ≠ 0 then .next s
    else
      let f := x.bake.committed + 1
      let now := x.sealNowFor x.bake.dueOrd
      let s := s.sealBake c f step x.bake.full
      let s := s.modCtx c (fun x => { x with bake := { x.bake with
        sealNow := x.bake.sealNow.filter (fun e => !now.contains e.1) } })
      .next ((s.countCtx c 48 (bit (!now.isEmpty))).each now (fun s g => s.finish c g 0 f.toNat))

/-! ### The drain (R251, R252, R265) -/

/-- Full value that a tile contributes: its proof copy in the sealed generation, else the live tile without what has been
formed since (Table 6.4, R297, R308); none while a far read of it is on its way. -/
def State.fullValue (s : State) (c t : Nat) : Option Tile :=
  let x := s.ctx c
  let r := s.tile c t
  match r.proofNew with
  | some v => some v
  | none =>
    if (x.cover t).crumbed ∧ !r.owesBake then (s.readVal c t).map (· ^^^ r.freshDelta ^^^ r.openDelta)
    else s.readVal c t
/-- Send a body to one keeper of the tile's batch, and count it (R252, R268). -/
def State.shipOne (s : State) (c t : Nat) (b : BitVec 32) (i o : Nat) (d : BitVec 21) (body : List Byte) (keeper row : Nat) : State :=
  let x := s.ctx c
  let lvl := bit (x.rackHop keeper)
  let s := s.each (chunks 4096 16 body).zipIdx (fun s q =>
    s.issue c .k 0x10 keeper [(8, b.toNat), (12, x.bake.sealed.toNat), (16, row), (17, i), (18, o), (20, d.toNat), (24, 16 * q.2)]
      q.1 (.crumb b t x.bake.sealed))
  let s := (s.countCtx c (27 + lvl)).countCtx c (29 + lvl) body.length
  (s.serveTile c t .k body.length).modCtx c (fun x => { x with bake := { x.bake with
    shipped := mset x.bake.shipped keeper (mgetD x.bake.shipped keeper 0 + 1) } })
/-- The tile's contribution is on its way, or it has none. -/
def State.shipDone (s : State) (c t : Nat) : State :=
  s.modCtx c (fun x => { x with bake := { x.bake with toShip := x.bake.toShip.erase t, part := merase x.bake.part t } })
/-- Send a tile's body to the keepers that lack it: to each that the fabric has room for under the plan (R116), or to `every` one;
nothing goes to a fenced keeper. With the last one the tile is done. -/
def State.shipTo (s : State) (c t : Nat) (k : Crumb) (erased every : Bool) : State :=
  let x := s.ctx c
  match x.shipPlace t with
  | none => s.shipDone c t
  | some (b, i, o) =>
    let body := (packCrumb k.planes k.delta).1
    let d : BitVec 21 := k.desc ||| (if erased then 0x100000 else 0)
    let aged := s.agedWork .k c none t
    let s := s.each (x.keepersOf b).zipIdx (fun s e =>
      let had := mgetD (s.ctx c).bake.part t []
      let lvl := bit (x.rackHop e.1)
      let fits := s.fabricFits .k (s.peelFor (e.1 % 2)) lvl body.length aged
      if had.contains e.1 || !(every || fits.1) then s
      else
        let s := s.modCtx c (fun x => { x with bake := { x.bake with part := mset x.bake.part t (had ++ [e.1]) } })
        if (mget x.fences e.1).isSome then s
        else (s.chargeFabric .k lvl body.length fits.2).shipOne c t b i o d body e.1 e.2)
    if (x.keepersOf b).all (fun p => (mgetD (s.ctx c).bake.part t []).contains p) then s.shipDone c t else s
def State.ship (s : State) (c t : Nat) (d : Tile) (planes : BitVec 2) (erased : Bool) : State :=
  if d = 0 then s.shipDone c t else s.shipTo c t (crumbOf d planes) erased erased
/-- The delta of a self-erased tile, recovered from its value as of the previous bake (R265). -/
def State.drainDecoded (s : State) (c t : Nat) (v : Option Tile) : State :=
  let x := s.ctx c
  if !x.bake.toShip.contains t then s
  else match v with
    | some e =>
      let r := s.tile c t
      s.ship c t (s.valOf c t ^^^ r.freshDelta ^^^ r.openDelta ^^^ e) (x.planesAt t) true
    | none =>
      match x.shipPlace t with
      | none => s.shipDone c t
      | some (b, _, _) =>
        let s := (s.shipDone c t).modCtx c (fun x => { x with bake := { x.bake with
          blocked := if x.bake.blocked.contains b then x.bake.blocked else x.bake.blocked ++ [b] } })
        s.emit 0x0053 3 (some c) [(0, t), (4, (s.tile c t).slice), (5, 1), (8, b.toNat)]
/-- An unbuilt tile's loaf is rebuilt as a demand (R330, R332). -/
def Ctx.loafTiles (x : Ctx) (t : Nat) : List Nat :=
  match x.regionOf t with
  | none => [t]
  | some (_, r) => r.tiles.filter (fun u => (u - r.first) / 32 == (t - r.first) / 32)
def State.demandLoaf (s : State) (c t : Nat) : State :=
  let ts := ((s.ctx c).loafTiles t).filter (fun u => (s.tile c u).unbuilt)
  let asked := ts.any (fun u => (s.job? c .rebuild u).isSome)
  let s := if ts.isEmpty ∨ asked then s else
    (s.countCtx c 74).modCtx c (fun x => { x with group := { x.group with demand := x.group.demand + 1 } })
  s.each ts (fun s u => s.askOwn c .rebuild u .d)
/-- CRUMB_DRAIN (R252): a tile of the sealed bake whose piece the plan issued (R111) goes to its keepers, as far as the fabric's
share lets it (R116). -/
def execCrumbDrain (ctx : BitVec 4) (t : Nat) (s : State) : Host.Outcome State Fault Refusal :=
  let c := ctx.toNat
  let x := s.ctx c
  let r := s.tile c t
  if !(s.running && s.locked) || x.bake.sealed = 0 || !x.bake.toShip.contains t || x.bake.stopShip || !s.granted .k c none t then .next s
  else if r.unbuilt then .next (s.demandLoaf c t)
  else if x.cover t = .snapshot ∨ x.bake.fullTiles.contains t then
    match s.fullValue c t with
    | some v =>
      let s := s.ship c t v (x.planesAt t) false
      .next (if (s.ctx c).bake.toShip.contains t then s else s.endRead c t)
    | none => .next (s.askRead c t .k)
  else if r.erasedSealed then
    .next (if (s.job? c .drain t).isSome then s else (s.askOwn c .drain t .k).countCtx c 43)
  else
    let (line, s) := s.free
    match (if r.sp.isSome then s.makeRoom c t (fun r => r.foldSealed line) else some s) with
    | none => .next s
    | some s =>
      let s := if r.sp.isSome then s.putRec c t (fun r => r.foldSealed line) else s
      match (s.tile c t).sb with
      | none => .next (s.shipDone c t)
      | some k => .next (s.shipTo c t k false false)

/-- Nothing bound for a keeper is left to ship or to send again. -/
def State.shippedAll (s : State) (c keeper : Nat) : Bool :=
  let x := s.ctx c
  x.bake.toShip.all (fun t => match x.shipPlace t with
    | some (b, _, _) => !(x.keepersOf b).contains keeper || (mgetD x.bake.part t []).contains keeper
    | none => true)
    && !s.fab.retries.any (fun r => r.req.ctx.toNat == c && r.req.typ == 0x10 && r.req.dst.toNat == keeper)
def Ctx.noticeBlocked (x : Ctx) (keeper : Nat) : Bool := x.bake.blocked.any (fun b => (x.keepersOf b).contains keeper)
/-- SEAL_NOTICE_SEND (R256). -/
def execSealNoticeSend (ctx : BitVec 4) (keeper : BitVec 5) (s : State) : Host.Outcome State Fault Refusal :=
  let c := ctx.toNat
  let k := keeper.toNat
  let x := s.ctx c
  if !s.running || x.bake.sealed = 0 || x.bake.stopShip || !x.myKeepers.contains k || x.bake.noticed.contains k
      || !s.shippedAll c k || x.noticeBlocked k || (mget x.fences k).isSome then .next s
  else
    let s := s.modCtx c (fun x => { x with bake := { x.bake with noticed := x.bake.noticed ++ [k] } })
    .next (s.issue c .k 0x11 k [(12, x.bake.sealed.toNat), (16, mgetD x.bake.shipped k 0)] [] .notice)

/-! ### Commits (R302 to R304) -/

/-- Commits counted at the cutoff go to BAKE_CTR on the root (R302). -/
def State.sendCommits (s : State) (c : Nat) : State :=
  let x := s.ctx c
  match x.group.cfg with
  | none => s
  | some g =>
    let n := x.bake.commitAdd
    if n = 0 ∨ !x.group.joined then s
    else
      let s := s.modCtx c (fun x => { x with bake := { x.bake with commitAdd := 0 } })
      let s := s.countCtx c 52 (bit (decide (x.own ≠ g.root.toNat)))
      s.counterAt c g.root.toNat g.bakeCtr.toNat 0 (BitVec.ofNat 64 n) .k (.commit n)
/-- The commit total T (R303). -/
def Ctx.commitTotal (x : Ctx) : Nat :=
  match x.group.cfg with
  | none => 0
  | some g => g.m * (x.group.allBatches g).length
/-- RACK_COMMIT (R303): on the root alone. -/
def execRackCommit (ctx : BitVec 4) (s : State) : Host.Outcome State Fault Refusal :=
  let c := ctx.toNat
  let x := s.ctx c
  match x.group.cfg with
  | none => .next s
  | some g =>
    let k := g.bakeCtr.toNat
    if !s.live || !x.group.joined || x.own ≠ g.root.toNat || x.bake.sealed = 0 || x.bake.rackDone || s.poison.contains k
        || decide ((s.pc k).toNat < x.commitTotal) then .next s
    else
      let f := x.bake.sealed
      let s := (s.setCtr k 0).modCtx c (fun x => { x with bake := { x.bake with rackDone := true } })
      .next ((s.countCtx c 50).emit 0x0021 0 (some c)
        [(0, f.toNat), (4, 0), (8, ((mget x.bake.recs f.toNat).map (fun r => r.step.toNat)).getD 0)])

/-- The member's share of the sealed bake is complete: shipped, noticed, and committed for every kept batch (R304). -/
def State.shareShipped (s : State) (c : Nat) : Bool :=
  let x := s.ctx c
  x.bake.toShip.isEmpty && x.myKeepers.all (fun k => x.bake.noticed.contains k)
    && !s.fab.retries.any (fun r => r.req.ctx.toNat == c && (r.req.typ == 0x10 || r.req.typ == 0x11))
def Ctx.keptDone (x : Ctx) : Bool := x.keptBatches.all (fun b => x.group.committed.contains b)
def chkJobwide (s : State) (c : Cmd) : Option Bad :=
  let x := s.ctx c.cid
  let f := BitVec.ofNat 32 (fld c.a 0 32)
  firstBad [x.notJoined,
    check (decide (x.bake.sealed ≠ 0) && x.bake.sealed == f && x.keptDone && s.shareShipped c.cid) (0x0400, 7)]
/-! #### The open export at a commit (R394) -/

/-- A tile's export record takes in what the commit frees of it, and its export copy what holds its value as of the export. -/
def TileRec.keepExport (r : TileRec) : TileRec :=
  { r with ex := if r.sealedDelta = 0 then r.ex else
             addRec r.ex r.sealedDelta ((r.sb.map (·.planes)).getD ((r.sp.map (·.planes)).getD 0)) ((r.sb.map (·.line)).getD 0),
           exCopy := match r.exCopy with | some v => some v | none => r.proofOld }
/-- Tiles of the crumb pool, and of the proof pool beyond its reserve, that the export's records and copies lack. -/
def State.exportShort (s : State) (c : Nat) : Nat × Nat :=
  let x := s.ctx c
  let recs := s.presentSlices.filter (fun i => x.tiles.any (fun e => e.2.slice == i && e.2.ex.isSome))
  (sum (recs.map (fun i => ceilDiv (s.shareLines c i - 4 * s.freeLines c i) 4096)),
   sum (s.presentSlices.map (fun i =>
     (2 * s.tilesOn c i (· == .snapshot) + s.branchTiles c i
       + (x.tiles.filter (fun e => e.2.slice == i && e.2.exCopy.isSome)).length) - s.poolOn c 1 i)))
/-- The export gives up its records and copies; the dirty bits it cleared are set again. -/
def Ctx.dropExport (x : Ctx) : Ctx :=
  { x with tiles := mmap x.tiles (fun t r => { r with ex := none, exCopy := none, inExport := false, dirty := r.dirty || x.exp.cleared.contains t }),
           exp := { x.exp with cleared := [] } }
/-- An export whose records or copies find no room is overtaken. -/
def State.judgeExport (s : State) (c : Nat) : State :=
  let x := s.ctx c
  if x.exp.open?.isNone ∨ x.exp.overtaken.isSome then s
  else
    let n := s.exportShort c
    if n.1 = 0 ∧ n.2 = 0 then s
    else
      let d := if n.1 ≠ 0 then (refusedPool 0 n.1).2 else (refusedPool 1 n.2).2
      (s.modCtx c (fun x => let x := x.dropExport; { x with exp := { x.exp with overtaken := some d } })).countCtx c 110

/-- What a job-wide commit frees and moves (R259, R265, R304, R340). -/
def Ctx.jobwide (x : Ctx) : Ctx :=
  let f := x.bake.sealed
  let rec_ := mget x.bake.recs f.toNat
  let x := x.endLimbo.newForming
  let kept := x.bake.leaving.foldl (fun (l : List JoinRec) e => l.map (JoinRec.change e.1 e.2 none)) x.group.recs
  let x := { x with group := { x.group with recs := kept } }
  let x := x.pruneCrust
  { x with
    tiles := mmap x.tiles (fun t r0 =>
      let r := if x.exp.open?.isSome && x.exp.overtaken.isNone && x.exp.left.contains t then r0.keepExport else r0
      { r with sb := none, sp := none, proofOld := r.proofNew, proofNew := none, proofLost := false,
                                               erasedSealed := false }),
    ledger := match rec_ with
      | some r => x.ledger.filter (fun e => decide (r.step.toNat < e.step.toNat))
      | none => x.ledger,
    bake := { x.bake with committed := f, sealed := 0, recs := mkeep x.bake.recs (fun k _ => k == f.toNat), jobSinceBegin := true,
                          leaving := [], was := [], fullTiles := [], toShip := [], part := [] } }
def takeJobwide (c : Cmd) (s : State) : State :=
  let f := (s.ctx c.cid).bake.sealed
  let step := ((mget (s.ctx c.cid).bake.recs f.toNat).map (fun r => r.step.toNat)).getD 0
  let left := !(s.ctx c.cid).bake.leaving.isEmpty
  let ex := (s.ctx c.cid).exp
  let kept := if ex.open?.isSome && ex.overtaken.isNone then (s.ctx c.cid).tiles.filter (fun e => ex.left.contains e.1) else []
  let s := s.countCtx c.cid 113 (kept.filter (fun e => e.2.sealedDelta ≠ 0)).length
  let s := s.countCtx c.cid 114 (kept.filter (fun e => e.2.proofOld.isSome && e.2.exCopy.isNone)).length
  let s := s.modCtx c.cid Ctx.jobwide
  let s := s.relieveAll c.cid
  let s := (if left then s.regionPools c.cid else s).judgeExport c.cid
  (s.countCtx c.cid 51).emit 0x0021 0 (some c.cid) [(0, f.toNat), (4, 1), (8, step)]
/-- BAKE_JOBWIDE (R304). -/
def execBakeJobwide (c : Cmd) (s : State) : Host.Outcome State Fault Refusal :=
  .next (s.runCmd 0x53 noFields chkJobwide noBytes takeJobwide effDone0 c)

/-! ### BAKE_STATUS (R305) -/

def stepOf (x : Ctx) (f : BitVec 32) : Nat := ((mget x.bake.recs f.toNat).map (fun r => r.step.toNat)).getD 0
def State.bakePhase (s : State) (c : Nat) : Nat :=
  let x := s.ctx c
  if x.bake.sealed = 0 then 0 else if !s.shareShipped c then 2 else if x.keptDone then 4 else 3
def sat32 (n : Nat) : Nat := sat 0xFFFFFFFF n
/-- Table 13.3, as (bit, value). -/
def State.bakeStatus (s : State) (c : Nat) : List (Nat × Nat) :=
  let x := s.ctx c
  let last := (x.lastStep.map (fun w => w.toNat)).getD 0
  if !x.group.joined then [(480, sat32 last)]
  else
    let low := match x.group.cfg with
      | some g => if x.bake.committed = 0 then 0 else
          ((lowest (x.keptBatches.map (fun b => (b, x.margin g b)))).map Prod.snd).getD 0
      | none => 0
    [ (0, x.bake.committed.toNat), (32, stepOf x x.bake.committed), (96, x.bake.sealed.toNat),
      (128, if x.bake.sealed = 0 then 0 else stepOf x x.bake.sealed), (192, s.bakePhase c), (195, x.bake.lastLevel.toNat),
      (198, bit x.bake.deferred), (199, bit (!x.bake.sealNow.isEmpty)), (200, bit (x.regions.any (fun r => r.2.change.isSome))),
      (208, x.bake.lastInterval.toNat), (224, sat32 (x.keptBatches.filter (fun b => x.group.committed.contains b)).length),
      (256, sat32 x.keptBatches.length), (288, sat32 x.bake.noticed.length),
      (320, sat32 (sum (x.bake.toShip.map (fun t => match x.shipPlace t with | some (b, _, _) => (x.keepersOf b).length - (mgetD x.bake.part t []).length | none => 0)))),
      (352, sat32 (x.tiles.filter (fun e => e.2.erasedOpen)).length), (384, low), (416, sat32 (x.copiesIn false)),
      (448, sat32 (x.copiesIn true)), (480, sat32 (last - stepOf x x.bake.committed)) ]
def chkBakeStatus (s : State) (c : Cmd) : Option Bad := check (s.bufferOk c.a 64) badRange
def effBakeStatus (c : Cmd) (s : State) : State :=
  let v : BitVec 512 := pack (s.bakeStatus c.cid)
  (s.portDie c.a.toNat (bytesOfNat 64 v.toNat)).done c (if (s.ctx c.cid).group.joined then (s.ctx c.cid).bake.committed.toNat else 0)
/-- BAKE_STATUS (R305). -/
def execBakeStatus (c : Cmd) (s : State) : Host.Outcome State Fault Refusal :=
  .next (s.runCmd 0x52 noFields chkBakeStatus noBytes noTake effBakeStatus c)

end Sys2Proof.Machine
end

