-- ==== Sys2Proof/Machine/Group.lean ====
section
/-!
DEFINITION. Machine/Group.lean: group configuration and keys (R238, R239, R356), joining and leaving (R240 to R242, R308), and the
broadcast tree with its repair (R367 to R370).
-/
namespace Sys2Proof.Machine

/-! ### GROUP_CONFIG (R238, R239) -/

def cfgOf (a w : Word) : GroupCfg :=
  { n := fld a 0 6, k := fld a 8 6, m := fld a 16 3, safe := a.getLsbD 20, own := BitVec.ofNat 5 (fld a 24 5),
    members := BitVec.ofNat 32 (fld w 0 32), root := BitVec.ofNat 5 (fld w 32 5), bakeCtr := BitVec.ofNat 12 (fld w 40 12),
    opA := a, word := w }
def fieldsGroupConfig (_ : State) (c : Cmd) : List Nat :=
  let g := cfgOf c.a (c.param 0)
  let km := g.k + g.m
  badAt (decide (g.n < 3) || decide (32 < g.n)) 8 ++ badAt (decide (g.k < 2) || decide (28 < g.k)) 9
    ++ badAt (decide (g.m < 1) || decide (4 < g.m)) 10
    ++ reservedBits (c.param 0) 0x000FFF1FFFFFFFFF 32
    ++ badAt (decide (g.n < km) || (g.safe && decide (8 < km))) 8
    ++ badAt (decide (ones32 g.members ≠ g.n) || !g.members.getLsbD g.own.toNat || !g.members.getLsbD g.root.toNat
        || (g.safe && !windowOk g.members km)) 32
def chkGroupConfig (s : State) (c : Cmd) : Option Bad :=
  let x := s.ctx c.cid
  firstBad [if x.group.joined then conflict 3 else none, if x.group.joining.isSome then conflict 8 else none]
def takeGroupConfig (c : Cmd) (s : State) : State :=
  s.modCtx c.cid (fun x => { x with group := { x.group with cfg := some (cfgOf c.a (c.param 0)) } })
/-- GROUP_CONFIG. -/
def execGroupConfig (c : Cmd) (s : State) : Host.Outcome State Fault Refusal :=
  .next (s.runCmd 0x30 fieldsGroupConfig chkGroupConfig noBytes takeGroupConfig effDone0 c)

/-! ### GROUP_KEY (R356 to R358) -/

def chkGroupKey (s : State) (c : Cmd) : Option Bad :=
  if c.a.getLsbD 0 && (s.ctx c.cid).keys.nxt.isNone then conflict 8 else none
def State.nextKey (s : State) (c : Nat) : State :=
  (s.modCtx c (fun x => { x with keys := { x.keys with
    prev := x.keys.cur.map (fun k => (k, s.frames.frame + 4)), cur := x.keys.nxt, nxt := none, epoch := x.keys.epoch + 1,
    seq := 0 } })).setCtxValue c 83 0
def takeGroupKey (c : Cmd) (s : State) : State :=
  if c.a.getLsbD 0 then s.nextKey c.cid
  else s.modCtx c.cid (fun x => { x with keys := { x.keys with
    nxt := some (BitVec.ofNat 128 ((c.param 0).toNat + (c.param 1).toNat * 2 ^ 64)) } })
/-- GROUP_KEY. -/
def execGroupKey (c : Cmd) (s : State) : Host.Outcome State Fault Refusal :=
  .next (s.runCmd 0x32 noFields chkGroupKey noBytes takeGroupKey effDone0 c)

/-! ### The tree (R368) -/

/-- Children of a position in the tree of an originator. -/
def GroupCfg.children (g : GroupCfg) (orig pos : Nat) : List Nat :=
  let u := g.indexOf orig
  let v := (g.indexOf pos + g.n - u) % g.n
  ((List.range 4).map (fun i => 4 * v + 1 + i)).filterMap (fun w => if w < g.n then some (g.posOf ((u + w) % g.n)) else none)
/-- Children, with each fenced one replaced by its own (R369). -/
def Ctx.reachable (x : Ctx) (g : GroupCfg) (orig : Nat) : Nat → List Nat → List Nat
  | 0, _ => []
  | f + 1, l => l.flatMap (fun p => if (mget x.fences p).isNone then [p] else x.reachable g orig f (g.children orig p))
def Ctx.kidsOf (x : Ctx) (g : GroupCfg) (orig pos : Nat) : List Nat := x.reachable g orig 4 (g.children orig pos)
def Bcast.isAt (kind orig : Nat) (b : Bcast) : Bool := b.kind.toNat == kind && b.orig.toNat == orig
def Ctx.bcast? (x : Ctx) (kind orig : Nat) : Option Bcast := x.group.bcasts.find? (Bcast.isAt kind orig)
def State.modBcast (s : State) (c kind orig : Nat) (f : Bcast → Bcast) : State :=
  s.modCtx c (fun x => { x with group := { x.group with bcasts := replaceFirst (Bcast.isAt kind orig) f x.group.bcasts } })
def State.putBcast (s : State) (c : Nat) (b : Bcast) : State :=
  s.modCtx c (fun x => { x with group := { x.group with
    bcasts := x.group.bcasts.filter (fun e => !(Bcast.isAt b.kind.toNat b.orig.toNat e)) ++ [b] } })
def State.sendBcast (s : State) (c dst : Nat) (b : Bcast) (phase : Nat) (pl : List Byte) : State :=
  s.issue c .u 0x20 dst [(8, b.kind.toNat), (9, b.orig.toNat), (10, phase), (12, b.gen.toNat)] pl (.bcast b.gen)
def State.sendUp (s : State) (c dst : Nat) (b : Bcast) (pos mask : Nat) (pl : List Byte) : State :=
  s.issue c .u 0x21 dst [(8, b.kind.toNat), (12, b.gen.toNat), (16, mask), (20, pos)] pl (.bcast b.gen)
/-- The own record in a join. -/
def Ctx.joinRec (x : Ctx) : JoinRec :=
  let g := x.group.cfg
  { position := BitVec.ofNat 5 x.own, opA := (g.map (fun g => g.opA)).getD 0, word := (g.map (fun g => g.word)).getD 0,
    regions := x.regions.map (fun e => { region := e.1, cls := e.2.cls, tiles := e.2.count }) }
/-- Phase 1 payload: the root's words, or the position adopted and its tray of reach. -/
def Ctx.phase1 (x : Ctx) (b : Bcast) (root : JoinRec) : List Byte :=
  if b.kind = 1 then wordsBytes [root.opA.toNat, root.word.toNat]
  else wordsBytes [b.orig.toNat + (x.reach b.orig.toNat) * 256]
/-- Position mask of one position. -/
def posMask (p : Nat) : BitVec 32 := BitVec.ofNat 32 (2 ^ p)
/-- Start or forward phase 1: the children are awaited. -/
def State.spread (s : State) (c : Nat) (b : Bcast) (pl : List Byte) : State :=
  match (s.ctx c).group.cfg with
  | none => s
  | some g =>
    let kids := (s.ctx c).kidsOf g b.orig.toNat g.own.toNat
    let b := { b with awaiting := kids.map (fun p => BitVec.ofNat 5 p), mask := posMask g.own.toNat,
                      records := if b.kind = 1 then [(s.ctx c).joinRec] else [] }
    (s.putBcast c b).each kids (fun s p => s.sendBcast c p b 1 pl)

/-! ### Joining (R240, R308, R370) -/

/-- A member's record agrees with the root's: everything but the own position. -/
def JoinRec.agrees (a r : JoinRec) : Bool := (a.opA &&& ~~~(0x1F000000 : Word)) == (r.opA &&& ~~~(0x1F000000 : Word)) && a.word == r.word
/-- Stack tiles for the records of the members held (R326). -/
def Ctx.recordTiles (x : Ctx) : Nat :=
  match x.group.cfg with
  | none => 0
  | some g => g.heldMembers.length * (ceilDiv x.n 8192 + 1)
/-- The highest free tiles, over the present slices in turn. -/
def State.spreadTiles (s : State) : Nat → List Nat → List (Nat × Nat) → List (Nat × Nat)
  | 0, _, acc => acc
  | f + 1, ss, acc =>
    match ss.filterMap (fun i => (highFree (s.usedOn i ++ onSlice i acc) 1).head?.map (fun t => (i, t))) with
    | [] => acc
    | l => s.spreadTiles f ss (acc ++ l)
def State.heldPlan (s : State) (n : Nat) : List (Nat × Nat) :=
  (s.spreadTiles (ceilDiv n (max 1 s.presentSlices.length) + 1) s.presentSlices []).take n
/-- A region whose batches reach 2^23 in number. -/
def Ctx.tooMany (x : Ctx) (g : GroupCfg) : Option Bad :=
  [0, 1].findSome? (fun mode => (x.group.regionsIn mode).findSome? (fun r =>
    if x.group.batches g r mode ≥ 2 ^ 23 then some (0x0303, ((mget x.regions r).map (fun e => e.first)).getD 0) else none))
/-- The context as it stands once it has joined: no bakes, no crust, nothing owed. -/
def Ctx.afresh (x : Ctx) (recs : List JoinRec) : Ctx :=
  { x with group := { x.group with joined := true, joining := none, recs := recs, crust := [], notices := [], applied := [],
                                   committed := [], firstNotice := none, missing := [], marginRaised := false },
           bake := { x.bake with committed := 0, sealed := 0, recs := [], levels := [], sealNow := [], due := none, deferred := false,
                                 jobSinceBegin := false, lastLevel := 0, lastInterval := 0, toShip := [], part := [], fullTiles := [],
                                 leaving := [], shipped := [], noticed := [], blocked := [], commitAdd := 0, rackDone := false } }
/-- The outcome of a complete join on this member: the placement, the crust pool, the first bake, the adoption record. -/
def State.joinNow (s : State) (c : Nat) (recs : List JoinRec) (detail : Nat) : State :=
  match (s.ctx c).group.joining, (s.ctx c).group.cfg with
  | some (tag, _, _), some g =>
    let t := s.modCtx c (fun x => x.afresh recs)
    let t := t.modCtx c (fun x => { x with tiles := mmap x.tiles (fun _ r =>
      { r with o := none, p := none, sb := none, sp := none, erasedOpen := false, erasedSealed := false,
               proofOld := none, proofNew := none, owesBake := false }) })
    match firstBad [(t.ctx c).tooMany g, t.defaultBad c 2] with
    | some e =>
      (s.modCtx c (fun x => { x with group := { x.group with joining := none } })).finish c tag e.1 e.2
    | none =>
      let t := [0, 1, 2].foldl (fun t k => t.applyDefault c k) t
      let held := t.heldPlan (t.ctx c).recordTiles
      let t := t.modCtx c (fun x => { x with group := { x.group with heldTiles := held } })
      let t := t.sealBake c 1 ((t.ctx c).lastStep.getD 0) true
      (t.shareAll c).finish c tag 0 detail
  | _, _ => s
def State.joinFailed (s : State) (c : Nat) (status detail : Nat) : State :=
  match (s.ctx c).group.joining with
  | some (tag, _, _) => (s.modCtx c (fun x => { x with group := { x.group with joining := none } })).finish c tag status detail
  | none => s
/-- Phase 2 payload: the reached mask, one record, how many there are, and the outcome. -/
def phase2Bytes (mask : BitVec 32) (j : JoinRec) (n : Nat) (ok : Bool) : List Byte :=
  wordsBytes ((mask.toNat + n * 2 ^ 32 + bit ok * 2 ^ 40) :: j.words)
/-- The root has every answer: phase 2 leaves, and its own GROUP_JOIN ends. -/
def State.rootDone (s : State) (c : Nat) (b : Bcast) : State :=
  match (s.ctx c).group.cfg with
  | none => s
  | some g =>
    let root := (s.ctx c).joinRec
    let good := b.mask &&& BitVec.ofNat 32 ((b.records.filter (fun r => r.agrees root)).foldl (fun a r => a ||| 2 ^ r.position.toNat) 0)
    let ok := decide (good = g.members)
    let s := s.each b.kids (fun s p => s.each b.records (fun s r =>
      s.sendBcast c p.toNat b 2 (phase2Bytes good r b.records.length ok)))
    let s := s.modBcast c 1 b.orig.toNat (fun b => { b with phase2 := true })
    if ok then s.joinNow c b.records good.toNat else s.joinFailed c 0 good.toNat
/-- Nothing is awaited any more: the records and the final mask go up, or the originator goes on. -/
def State.bcastReady (s : State) (c kind orig : Nat) : State :=
  match (s.ctx c).bcast? kind orig with
  | none => s
  | some b =>
    if !b.awaiting.isEmpty ∨ b.upSent then s
    else
      let s := s.modBcast c kind orig (fun b => { b with upSent := true })
      match b.parent with
      | some p =>
        let s := s.each b.records (fun s r => s.sendUp c p.toNat b r.position.toNat 0 (wordsBytes r.words))
        s.sendUp c p.toNat b 0x1F b.mask.toNat []
      | none =>
        if kind = 1 then s.rootDone c b
        else
          let all := (s.ctx c).group.cfg.map (fun g => (List.range 32).all (fun p =>
            !g.members.getLsbD p || (mget (s.ctx c).fences p).isSome || b.mask.getLsbD p))
          s.modCtx c (fun x => { x with group := { x.group with adoptReached := all.getD false } })
/-- A child is skipped (R369): its children are sent to directly. -/
def State.skipChild (s : State) (c kind orig child : Nat) (report : Bool) : State :=
  match (s.ctx c).bcast? kind orig, (s.ctx c).group.cfg with
  | some b, some g =>
    if !b.awaiting.contains (BitVec.ofNat 5 child) then s
    else
      let more := (s.ctx c).kidsOf g orig child
      let s := s.modBcast c kind orig (fun b => { b with
        awaiting := b.awaiting.filter (· != BitVec.ofNat 5 child) ++ more.map (fun p => BitVec.ofNat 5 p) })
      let root := (b.records.find? (fun r => r.position == b.orig)).getD (s.ctx c).joinRec
      let s := s.each more (fun s p => s.sendBcast c p b 1 ((s.ctx c).phase1 b root))
      let s := s.countCtx c 89
      let s := if report then
        ((s.emit 0x0044 2 (some c) [(0, child), (1, (s.ctx c).own), (4, b.gen.toNat)]).suspectIn c child 3).each
          (((s.ctxs.map Prod.fst).filter (fun d => d != c && (s.ctx d).holdsPos child))) (fun s d => s.suspectIn d child 3) else s
      s.bcastReady c kind orig
  | _, _ => s
/-- A child of any broadcast of the context is skipped. -/
def State.skipIn (s : State) (c child : Nat) (gen : Option (BitVec 32)) (report : Bool) : State :=
  s.each ((s.ctx c).group.bcasts.filter (fun b => !b.upSent && (match gen with | some g => b.gen == g | none => true)
    && b.awaiting.contains (BitVec.ofNat 5 child))) (fun s b => s.skipChild c b.kind.toNat b.orig.toNat child report)
/-- Start a broadcast of this node. -/
def State.originate (s : State) (c : Nat) (kind : Nat) (gen : BitVec 32) : State :=
  let x := s.ctx c
  let b : Bcast := { kind := BitVec.ofNat 8 kind, orig := BitVec.ofNat 5 x.own, gen := gen, parent := none }
  let s := (s.countCtx c 87).spread c b (x.phase1 b x.joinRec)
  s.bcastReady c kind x.own

def fieldsGroupJoin (s : State) (c : Cmd) : List Nat :=
  match (s.ctx c.cid).group.cfg with
  | none => []
  | some g => badAt (c.b.getLsbD 0 != decide (g.own = g.root)) 16
def chkGroupJoin (s : State) (c : Cmd) : Option Bad :=
  let x := s.ctx c.cid
  let short := x.recordTiles - (s.heldPlan x.recordTiles).length
  firstBad [
    check x.group.cfg.isSome (0x0401, 0),
    if x.group.joined then conflict 3 else none,
    if x.group.joining.isSome then conflict 8 else none,
    x.verdictBad,
    s.defaultBad c.cid 0, s.defaultBad c.cid 1,
    if (x.pool 1).sized then s.reserveBad c.cid (s.poolOn c.cid 1) else none,
    check (decide (short = 0)) (refusedPool 2 short),
    check x.keys.cur.isSome (0x0501, x.own)]
def takeGroupJoin (c : Cmd) (s : State) : State :=
  s.modCtx c.cid (fun x => { x with group := { x.group with
    joining := some (c.tag, BitVec.ofNat 32 (fld c.a 0 32), c.b.getLsbD 0) } })
/-- The root's broadcast starts when its GROUP_JOIN begins. -/
def effGroupJoin (c : Cmd) (s : State) : State :=
  if c.b.getLsbD 0 then s.originate c.cid 1 (BitVec.ofNat 32 (fld c.a 0 32)) else s
/-- GROUP_JOIN (R240, R308). -/
def execGroupJoin (c : Cmd) (s : State) : Host.Outcome State Fault Refusal :=
  .next (s.runCmd 0x31 fieldsGroupJoin chkGroupJoin noBytes takeGroupJoin effGroupJoin c)

/-! ### BCAST and BCAST_UP -/

/-- An adoption notice lifts the fence of its position only under a key made current after it (R317, R358). -/
def Ctx.noticeOk (x : Ctx) (p : Nat) (epoch : BitVec 8) : Bool :=
  match mget x.fences p with
  | none => true
  | some e => epoch == x.keys.epoch && e != x.keys.epoch
def State.liftFence (s : State) (c p tray : Nat) : State :=
  let s := s.modSign c p (fun _ => {})
  s.modCtx c (fun x => { x with fences := merase x.fences p, group := { x.group with reach := mset x.group.reach p tray } })
/-- A phase 2 transfer of a join: a record is kept and passed on; with the last one the join ends here. -/
def State.takePhase2 (s : State) (c : Nat) (b : Bcast) (pl : List Byte) : State :=
  let w := (wordAt pl 0).toNat
  let j := (JoinRec.ofWords ((List.range (pl.length / 8 - 1)).map (fun i => (wordAt pl (8 + 8 * i)).toNat))).1
  let seen := if b.phase2 then b.records else []
  if seen.any (fun r => r.position == j.position) then s
  else
    let recs := seen ++ [j]
    let s := s.modBcast c 1 b.orig.toNat (fun b => { b with phase2 := true, records := recs })
    let s := s.each b.kids (fun s p => s.sendBcast c p.toNat b 2 pl)
    if recs.length < cut w 32 6 then s
    else if w.testBit 40 then s.joinNow c recs 0 else s.joinFailed c 0x0401 0
/-- A broadcast that the node first receives. -/
def State.newBcast (s : State) (peel : Nat) (t : Xfer) (c kind orig phase : Nat) (gen : BitVec 32) (p tray : Nat) : State :=
  let pendingGen := (s.ctx c).group.joining.map (fun j => j.2.1)
  if phase ≠ 1 then s.respond peel t 0
  else if kind = 1 ∧ pendingGen ≠ some gen then s.respond peel t 5
  else
    let s := if kind = 2 then s.liftFence c p tray else s
    let b : Bcast := { kind := BitVec.ofNat 8 kind, orig := BitVec.ofNat 5 orig, gen := gen, parent := some (BitVec.ofNat 5 t.src) }
    ((s.respond peel t 0).spread c b t.payload).bcastReady c kind orig
def State.serveBcast (s : State) (peel : Nat) (t : Xfer) : State :=
  let c := t.ctx
  let x := s.ctx c
  let kind := t.num 8 1
  let orig := t.num 9 1
  let phase := t.num 10 1
  let gen := BitVec.ofNat 32 (t.num 12 4)
  let seen := x.bcast? kind orig
  let p := (wordAt t.payload 0).toNat % 32
  let tray := cut (wordAt t.payload 0).toNat 8 8
  if kind ≠ 1 ∧ kind ≠ 2 then s.drop peel 2
  else if kind = 2 ∧ phase = 1 ∧ !x.noticeOk p t.epoch then (s.reject peel 5 c t.src 1 0).count 23
  else match seen with
    | some b =>
      if gen.toNat ≤ b.gen.toNat then
        let s := s.respond peel t 0
        if gen = b.gen ∧ phase = 2 ∧ kind = 1 ∧ x.group.joining.isSome then s.takePhase2 c b t.payload
        else
          let s := s.countCtx c 88
          if b.upSent then s.sendUp c t.src b 0x1F b.mask.toNat [] else s
      else s.newBcast peel t c kind orig phase gen p tray
    | none => s.newBcast peel t c kind orig phase gen p tray
/-- BCAST (R368). -/
def execBcast (peel : Nat) (x : Xfer) (s : State) : Host.Outcome State Fault Refusal :=
  .next (s.inRequest 0x20 peel x (fun s => s.serveBcast peel x))

def State.serveUp (s : State) (peel : Nat) (t : Xfer) : State :=
  let c := t.ctx
  let kind := t.num 8 1
  let gen := BitVec.ofNat 32 (t.num 12 4)
  let s := s.respond peel t 0
  match (s.ctx c).group.bcasts.find? (fun b => b.kind.toNat == kind && b.gen == gen && !b.upSent) with
  | none => s
  | some b =>
    let o := b.orig.toNat
    if t.payload.length > 0 then
      let j := (JoinRec.ofWords ((List.range (t.payload.length / 8)).map (fun i => (wordAt t.payload (8 * i)).toNat))).1
      s.modBcast c kind o (fun b => { b with records := if b.records.any (fun r => r.position == j.position) then b.records else b.records ++ [j] })
    else
      let src := BitVec.ofNat 5 t.src
      if !b.awaiting.contains src then s
      else (s.modBcast c kind o (fun b => { b with
        awaiting := b.awaiting.filter (· != src), kids := b.kids ++ [src], mask := b.mask ||| BitVec.ofNat 32 (t.num 16 4) })).bcastReady c kind o
/-! ### GROUP_LEAVE (R242) -/

def chkGroupLeave (s : State) (c : Cmd) : Option Bad :=
  let x := s.ctx c.cid
  firstBad [x.notJoined, if x.bake.sealed ≠ 0 then some (0x0402, x.bake.sealed.toNat) else none, x.verdictBad]
/-- Changes that no seal will carry any more take effect (R137: outside a group they take effect at once). -/
def State.changesNow (s : State) (c : Nat) : State :=
  s.each ((s.ctx c).regions.filter (fun e => e.2.change.isSome)) (fun s e =>
    match e.2.change with
    | none => s
    | some ch =>
      let old := { e.2 with change := none }
      let s := (s.changeNow c e.1 (some old) (ch.goal.map (fun g => { old with cls := g, replica := ch.word }))).1
      match s.adm? c ch.tag with
      | none => s
      | some a => s.finish c ch.tag 0 (if a.op = 0x22 then old.count else (a.aux.getD 0) * (if a.op = 0x20 then 1 else 0)))
def TileRec.leave (r : TileRec) : TileRec :=
  { r with o := none, p := none, sb := none, sp := none, erasedOpen := false, erasedSealed := false, proofOld := none, proofNew := none,
           proofLost := false, owesBake := false }
def State.leaveGroup (s : State) (c : Nat) : State :=
  let now := (s.ctx c).bake.sealNow
  let members := (s.ctx c).group.cfg.map (fun g => g.order)
  let s := s.modCtx c (fun x => { x with
    tiles := mmap x.tiles (fun _ r => r.leave), fences := [], crustPool := {},
    group := { cfg := x.group.cfg, bcasts := x.group.bcasts, notesSent := x.group.notesSent },
    bake := { cadence := x.bake.cadence, cadenceNext := x.bake.cadenceNext, risk := x.bake.risk, riskNext := x.bake.riskNext } })
  let s := s.each (mkeys (s.ctx c).tiles) (fun s t => if (s.tile c t).owed = 0 then s.untrap c t else s)
  let s := s.dropJobs (fun j => j.ctx.toNat == c)
  let s := { s with fab := { s.fab with sums := s.fab.sums.filter (fun p => p.ctx.toNat != c),
                                        held := mkeep s.fab.held (fun k _ => k / 32 != c) } }
  let s := s.each (members.getD []) (fun s p => s.modSign c p (fun _ => {}))
  let s := (s.changesNow c).relieveAll c
  s.each now (fun s e => s.finish c e.1 0x0700 0)
def takeGroupLeave (c : Cmd) (s : State) : State := s.leaveGroup c.cid
/-- GROUP_LEAVE. -/
def execGroupLeave (c : Cmd) (s : State) : Host.Outcome State Fault Refusal :=
  .next (s.runCmd 0x33 noFields chkGroupLeave noBytes takeGroupLeave effDone0 c)

end Sys2Proof.Machine
end

