-- ==== Sys2Proof/Machine/Cancel.lean ====
section
/-!
DEFINITION. Machine/Cancel.lean: cancelling admitted commands (R99, R100, Table 4.8) and steps in flight (R282, R283).
-/
namespace Sys2Proof.Machine

/-- What a cancel finds: nothing to cancel, a command that has had its CANCELLED, or one whose final reply is awaited. -/
inductive CancelOut where
  | nothing | done | waits (tag : BitVec 16)
deriving DecidableEq, Repr

/-! ### Steps (R282, R283) -/

/-- STEP_ commands of the open step other than STEP_BEGIN. -/
def Step.owns (st : Step) (a : Adm) : Bool :=
  (a.inStep && (a.op == 0x43 || a.op == 0x44)) || a.op == 0x45 || (a.op == 0x46 && a.c.b == st.num)
def State.cancelStep (s : State) (c : Nat) (by_ : Option (BitVec 16)) : State × CancelOut :=
  match (s.ctx c).step with
  | none => (s, .nothing)
  | some st =>
    if st.unrisen ∨ st.awaitOnly ∨ (s.finalOf c).isSome then (s, .nothing)
    else if st.sent then
      let s := s.modStep c (fun st => { st with cancel := some by_, marked := true })
      let s := if st.marked then s else
        (s.countCtx c 20).counterAt c st.owner.toNat st.vctr.toNat 0 1 .u .mark
      (s, .waits st.tag)
    else
      let s := s.modStep c (fun st => { st with sent := true, marked := true, cancel := some by_ })
      let s := (s.countCtx c 20).counterAt c st.owner.toNat st.vctr.toNat 0 (findingOf true) .u .mark
      let s := (s.waitFinal c).countCtx c 17
      let others := s.link.admitted.filter (fun a => a.c.cid == c && st.owns a)
      let s := s.overflowPath c st 3 0
      let s := s.each others (fun s a => s.finish c a.c.tag 0x0700 0)
      (if s.canUnrise c then s.unrise c else s, .waits st.tag)

/-! ### Other commands -/

/-- The request slot of a cancelled wait completes as timed out, its tag quarantined (Table 4.8, R365). -/
def State.quarantine (s : State) (r : Req) : State :=
  let s := s.modPeel r.peel (fun p => { p with offered := p.offered.filter (fun o => o.2.2.resp || o.2.2.slot != r.slot) })
  { s with fab := { s.fab with
      reqs := s.fab.reqs.filter (fun q => !(q.peel == r.peel && q.slot == r.slot)),
      quar := s.fab.quar ++ [⟨r.peel, r.slot, s.frames.frame + 4⟩] } }
def State.dropWait (s : State) (c : Nat) (tag : BitVec 16) : State :=
  let mine := s.fab.reqs.filter (fun r => r.ctx.toNat == c && r.tag == tag && r.why == .command)
  let s := s.each mine (fun s r => s.quarantine r)
  { s with fab := { s.fab with
      locals := s.fab.locals.filter (fun w => !(w.ctx.toNat == c && w.tag == tag)),
      retries := s.fab.retries.filter (fun r => !(r.req.ctx.toNat == c && r.req.tag == tag && r.req.why == .command)) } }
/-- A change of class that waits for its seal is withdrawn. -/
def State.withdrawChange (s : State) (c : Nat) (tag : BitVec 16) : State :=
  match (s.ctx c).regions.find? (fun e => (e.2.change.map (fun h => h.tag == tag)).getD false) with
  | none => s
  | some (n, r) =>
    let defined := (s.adm? c tag).any (fun a => a.op == 0x20)
    let entered := (r.change.map (fun h => h.goal == some Cover.delta)).getD false && r.cls != Cover.delta
    let s := s.withRegion c n (if defined then none else some { r with change := none })
    (if entered then s.unprotect c r.tiles else s).regionPools c
/-- What a command leaves behind when it is cancelled before its end. -/
def State.withdraw (s : State) (c : Nat) (a : Adm) : State :=
  match a.op.toNat with
  | 0x05 => { s with frames := { s.frames with pending := none } }
  | 0x20 | 0x21 | 0x22 => s.withdrawChange c a.c.tag
  | 0x31 => s.modCtx c (fun x => { x with group := { x.group with joining := none } })
  | 0x51 => s.modCtx c (fun x => { x with bake := { x.bake with sealNow := x.bake.sealNow.filter (fun e => e.1 != a.c.tag) } })
  | 0x61 => s.modCtx c (fun x => { x with group := { x.group with adopting := none, adoptParts := [], adoptReached := false } })
  | 0x62 => (s.modCtx c (fun x => { x with group := { x.group with rebuild := none } })).dropJobs
      (fun j => j.ctx.toNat == c && j.tag == some a.c.tag)
  | 0x65 | 0x81 => s.dropJobs (fun j => j.ctx.toNat == c && j.tag == some a.c.tag)
  | 0x70 | 0x71 => s.modCtx c (fun x => { x with knead := { x.knead with
      jobs := mkeep x.knead.jobs (fun _ j => !(j.tag == some a.c.tag && j.stage == 0)) } })
  | 0x91 | 0x92 => s.countCtx c 131
  | 0xB1 => s.dropWait c a.c.tag
  | _ => s
/-- Cancel one admitted command by the rows of Table 4.8. -/
def State.cancelOne (s : State) (c : Nat) (a : Adm) (by_ : Option (BitVec 16)) : State × CancelOut :=
  let x := s.ctx c
  let step := match x.step with
    | some st => !st.awaitOnly && ((a.op == 0x42 && st.tag == a.c.tag) || (a.op != 0x46 && st.owns a))
    | none => false
  if !a.counts then (s, .nothing)
  else if step then s.cancelStep c by_
  else if a.op = 0x63 ∧ a.begun then (s, .nothing)
  else if a.op = 0x46 ∧ a.aux.isSome then (s, .nothing)
  else if a.op = 0xB1 ∧ a.begun ∧ fld a.c.a 12 2 ≠ 3 then (s, .nothing)
  else ((s.withdraw c a).finish c a.c.tag 0x0700 0, .done)

/-- The result of a cancel command: at once, or after the last final reply it waits for. -/
def State.cancelReply (s : State) (cmd : Cmd) (n : Nat) (wait : List Nat) : State :=
  if wait.isEmpty then s.done cmd n
  else s.modAdm cmd.cid cmd.tag (fun a => { a with work := wait, aux := some n })

/-- STATE_CONFLICT reason 5 (Table 4.8). -/
def chkCancelTag (s : State) (c : Cmd) : Option Bad :=
  match s.adm? c.cid (BitVec.ofNat 16 (fld c.a 0 16)) with
  | none => none
  | some a => if !a.counts || !a.c.cancellable then conflict 5 else none
def effCancelTag (c : Cmd) (s : State) : State :=
  match s.adm? c.cid (BitVec.ofNat 16 (fld c.a 0 16)) with
  | none => s.done c 0
  | some a =>
    let r := s.cancelOne c.cid a (some c.tag)
    match r.2 with
    | .nothing => r.1.done c 0
    | .done => r.1.done c 1
    | .waits g => r.1.cancelReply c 0 [g.toNat]
/-- CANCEL_TAG (R99). -/
def execCancelTag (c : Cmd) (s : State) : Host.Outcome State Fault Refusal :=
  .next (s.runCmd 0xF0 noFields chkCancelTag noBytes noTake effCancelTag c)

/-- Cancel the commands of a list that are still admitted: how many were, and the tags whose final replies are awaited. -/
def State.cancelList (s : State) (c : Nat) (l : List Adm) : State × Nat × List Nat :=
  l.foldl (fun (acc : State × Nat × List Nat) a =>
    match acc.1.adm? c a.c.tag with
    | none => (acc.1, acc.2.1 + 1, acc.2.2)
    | some a =>
      let r := acc.1.cancelOne c a none
      match r.2 with
      | .nothing => (r.1, acc.2.1, acc.2.2)
      | .done => (r.1, acc.2.1 + 1, acc.2.2)
      | .waits g => (r.1, acc.2.1, if acc.2.2.contains g.toNat then acc.2.2 else acc.2.2 ++ [g.toNat])) (s, 0, [])
def effCancelContext (c : Cmd) (s : State) : State :=
  let l := s.link.admitted.filter (fun a => a.c.cid == c.cid && a.counts)
  let r := s.cancelList c.cid l
  r.1.cancelReply c r.2.1 r.2.2
/-- CANCEL_CONTEXT (R100). -/
def execCancelContext (c : Cmd) (s : State) : Host.Outcome State Fault Refusal :=
  .next (s.runCmd 0xF1 noFields noCheck noBytes noTake effCancelContext c)

end Sys2Proof.Machine
end

