-- ==== Sys2Proof/Machine/Recovery.lean ====
section
/-!
DEFINITION. Machine/Recovery.lean: mending (R336 to R338), rebuild (R329 to R334), adoption (R326 to R328, R386), ROLLBACK (R323),
REPLAY_CHECK (R342, R343).
-/
namespace Sys2Proof.Machine

/-! ### Mending (R336 to R338) -/

/-- Replicas of a tile that are recorded and not fenced (R135, R331). -/
def Ctx.usableReplica (x : Ctx) (t : Nat) : Bool :=
  match x.regionOf t with
  | some (_, r) => r.cls == .replica && (List.range 4).any (fun i =>
      r.replica.getLsbD (8 * i + 7) && (mget x.fences (fld r.replica (8 * i) 5)).isNone)
  | none => false
/-- A mend fails before it asks (R337). -/
def State.mendFails (s : State) (c t : Nat) : Bool :=
  let x := s.ctx c
  let r := s.tile c t
  r.erasedOpen || r.erasedSealed || decide (x.bake.committed = 0)
    || (x.cover t == .snapshot && (r.proofOld.isSome || r.proofLost))
/-- Every record of a tile. -/
def TileRec.allDeltas (r : TileRec) : Tile := r.freshDelta ^^^ r.openDelta ^^^ r.sealedDelta
/-- A tile of a MEND_TILE is done: with the last one the command ends (R338). -/
def State.mendCommands (s : State) (c t : Nat) (ok : Bool) : State :=
  let l := s.link.admitted.filter (fun a => a.op == 0x65 && a.c.cid == c && a.work.contains t)
  s.each l (fun s a =>
    let s := s.modAdm c a.c.tag (fun a => { a with work := a.work.erase t, done := a.done + bit ok,
                                                   bad := if ok then a.bad else some (min t (a.bad.getD t)) })
    match s.adm? c a.c.tag with
    | none => s
    | some a => if a.work.isEmpty then
        (match a.bad with | some b => s.finish c a.c.tag 0x0600 b | none => s.finish c a.c.tag 0 a.done) else s)
/-- Class of a tile's mend and the command that asks for it: a MEND_TILE's class, with its hint (R109), else D. -/
def State.mendClass (s : State) (c t : Nat) : Cls × Option (BitVec 16) :=
  match s.link.admitted.find? (fun a => a.op == 0x65 && a.c.cid == c && a.begun && a.work.contains t) with
  | some a => (workClass (rowOf a.op) a.c, some a.c.tag)
  | none => (.d, none)
/-- A mend ends: the tile is rewritten and released, or it stays HELD (R336, R337). -/
def State.mendDone (s : State) (c t : Nat) (v : Option Tile) : State :=
  let r := s.tile c t
  let v := if (s.ctx c).cover t ≠ .replica ∧ s.mendFails c t then none else v
  let b := (((s.ctx c).batchOfTile t).map (fun p => p.1.toNat)).getD 0
  let s := s.modTile c t (fun r => { r with damaged := false })
  match v with
  | some d =>
    let w := if (s.ctx c).cover t = .delta then d ^^^ r.allDeltas else d
    let differs := decide (w ≠ s.homeVal c t)
    let s := (((s.setHome c t w).unholdTile c t .mendFailed).unholdTile c t .mend).serveTile c t (s.mendClass c t).1
    (((s.countCtx c 77).countCtx c 79 (bit differs)).emit 0x0053 1 (some c) [(0, t), (4, r.slice), (5, 0), (8, b)]).mendCommands c t true
  | none =>
    let s := (s.holdTile c t .mendFailed).unholdTile c t .mend
    ((s.countCtx c 78).emit 0x0053 3 (some c) [(0, t), (4, r.slice), (5, 1), (8, b)]).mendCommands c t false
/-- The mend of a tile that is HELD for it runs: it decodes the tile, or copies a replica. -/
def State.beginMend (s : State) (c t : Nat) : State :=
  let x := s.ctx c
  let s := s.holdTile c t .mend
  if x.cover t = .replica then
    if x.usableReplica t then (let r := s.freeTile; r.2.mendDone c t (some r.1)) else s.mendDone c t none
  else if s.mendFails c t then s.mendDone c t none
  else let w := s.mendClass c t; s.askOwn c .mend t w.1 w.2
/-- MEND (R336): at the head of class D. -/
def execMend (ctx : BitVec 4) (t : Nat) (s : State) : Host.Outcome State Fault Refusal :=
  let c := ctx.toNat
  if !(s.running && s.locked) || !s.heldFor c t .mend || !(s.ctx c).group.joined || (s.job? c .mend t).isSome then .next s
  else .next (s.beginMend c t)

/-! ### Rebuild (R329 to R334) -/

/-- Tiles and loaves that a region counts as (R333). -/
def Region.loaves (r : Region) : Nat := ceilDiv r.count 32
/-- Loaves that a rebuild covers: covered and replica regions, and the kept crust. -/
def Ctx.dataLoaves (x : Ctx) : Nat := sum ((x.regions.filter (fun e => e.2.cls != .uncovered)).map (fun e => e.2.loaves))
/-- A tile is rebuilt: written through the engine's own port and released (R329, R331). -/
def State.putRebuilt (s : State) (c t : Nat) (v : Tile) : State :=
  let loaf := (s.ctx c).loafTiles t
  let snap := decide ((s.ctx c).cover t = .snapshot)
  let s := ((s.portWrite c t v).serveTile c t .d).modTile c t (fun r => { r with unbuilt := false, owesBake := snap })
  let s := ((if snap then s.trap c t else s).unholdTile c t .mendFailed).unholdTile c t .unbuilt
  let s := s.modCtx c (fun x => { x with ranRebuild := true })
  let s := if loaf.any (fun u => (s.tile c u).unbuilt) then s else
    (s.countCtx c 73).modCtx c (fun x => { x with group := { x.group with rebuiltData := x.group.rebuiltData + 1 } })
  s.mendCommands c t true
/-- REBUILD_START ends DATA_UNCORRECTABLE once every loaf that can be decoded is done (R334). -/
def State.rebuildCheck (s : State) (c : Nat) : State :=
  let g := (s.ctx c).group
  match g.rebuild, g.rebuildBad with
  | some (tag, crust), some bad =>
    if s.fab.jobs.any (fun j => j.ctx.toNat == c && (j.why == .rebuild || (crust && j.why == .crust))) then s
    else (s.modCtx c (fun x => { x with group := { x.group with rebuild := none } })).finish c tag 0x0600 bad
  | _, _ => s
/-- A tile of a rebuild is decoded, or cannot be (R334). -/
def State.rebuildDecoded (s : State) (c t : Nat) (v : Option Tile) : State :=
  if !(s.tile c t).unbuilt then s
  else match v with
    | some d => (s.putRebuilt c t d).rebuildCheck c
    | none =>
      let s := s.modCtx c (fun x => { x with group := { x.group with rebuildBad := some (min t (x.group.rebuildBad.getD t)) } })
      (s.mendCommands c t false).rebuildCheck c
/-- Rebuild one unbuilt tile: a replica tile takes its replica's contents, or undefined ones (R331). -/
def State.rebuildTile (s : State) (c t : Nat) (tag : Option (BitVec 16)) : State :=
  if !(s.tile c t).unbuilt then s
  else if (s.ctx c).cover t = .replica then (let r := s.freeTile; r.2.putRebuilt c t r.1)
  else s.askOwn c .rebuild t .d tag
/-- A crust tile is decoded: of an unbuilt loaf into home H0, with POINTER at 0 (R332); of a struck one into its place as of
the rollback target (Table 14.4). -/
def State.crustDecoded (s : State) (c : Nat) (b : BitVec 32) (row o : Nat) (v : Option Tile) : State :=
  let k := (s.ctx c).crustOf b row
  match v with
  | none =>
    if k.unbuilt then
      (s.modCtx c (fun x => { x with group := { x.group with
        rebuildBad := if x.group.rebuild.isSome then some (min 0xFFFFFFFF (x.group.rebuildBad.getD 0xFFFFFFFF)) else x.group.rebuildBad } })).rebuildCheck c
    else s
  | some d =>
    if !k.unbuilt then
      s.modCrust c b row (fun k => if k.limbo then k.setRis (mset k.ris o d) else k.setCom (mset k.com o d))
    else
      let whole := !(List.range 32).any (fun i => i != o && (s.job? c .crust (crustJob b row i)).isSome)
      let s := (s.serve (s.homeSlice c b row 0) .m 65536).modCrust c b row (fun k =>
        { k with h0 := mset k.h0 o d, pointer := false, unbuilt := !whole })
      if whole then
        let s := (s.countCtx c 75).modCtx c (fun x => { x with
          ranRebuild := true, group := { x.group with rebuiltCrust := x.group.rebuiltCrust + 1 } })
        (s.commitReady c).rebuildCheck c
      else s
/-- Every tile and crust loaf that a REBUILD_START rebuilds is asked for. -/
def State.startRebuild (s : State) (c : Nat) (tag : BitVec 16) (crust : Bool) : State :=
  let ts := ((s.ctx c).tiles.filter (fun e => e.2.unbuilt)).map Prod.fst
  let s := s.each ts (fun s t => s.rebuildTile c t (some tag))
  let ks := if crust then (s.ctx c).kept.filter (fun e => ((s.ctx c).crustOf e.1 e.2).unbuilt) else []
  s.each ks (fun s e => s.askCrust c e.1 e.2 (List.range 32) .m)
def chkRebuildStart (s : State) (c : Cmd) : Option Bad :=
  let g := (s.ctx c.cid).group
  firstBad [if g.adopted ≠ some (BitVec.ofNat 5 (fld c.a 0 5)) then conflict 9 else none,
    if g.rebuild.isSome then conflict 8 else none]
/-- The command is admitted: the count of loaves and of frames starts. -/
def takeRebuildStart (c : Cmd) (s : State) : State :=
  let crust := c.b.getLsbD 0
  s.modCtx c.cid (fun x => { x with group := { x.group with
    rebuild := some (c.tag, crust), rebuildFrame := s.frames.frame, rebuildBad := none, rebuiltData := 0, rebuiltCrust := 0,
    rebuiltAll := x.dataLoaves + (if crust then x.kept.length else 0) } })
def effRebuildStart (c : Cmd) (s : State) : State := s.startRebuild c.cid c.tag (c.b.getLsbD 0)
def bytesUnbuilt (s : State) (c : Cmd) : List (Nat × Nat) :=
  s.bytesBySlice c.cid 65536 (((s.ctx c.cid).tiles.filter (fun e => e.2.unbuilt)).map Prod.fst)
/-- REBUILD_START (R329). -/
def execRebuildStart (c : Cmd) (s : State) : Host.Outcome State Fault Refusal :=
  .next (s.runCmd 0x62 noFields chkRebuildStart bytesUnbuilt takeRebuildStart effRebuildStart c)

/-- DEMAND_REBUILD (R330): the loaf of an unbuilt tile goes to the head of class D. -/
def execDemandRebuild (slice tile : Nat) (s : State) : Host.Outcome State Fault Refusal :=
  match s.owner slice tile with
  | none => .next s
  | some (c, t) =>
    if !(s.running && s.locked) || !(s.tile c t).unbuilt then .next s
    else if (s.ctx c).cover t = .replica then
      let s := (s.countCtx c 74).modCtx c (fun x => { x with group := { x.group with demand := x.group.demand + 1 } })
      .next (s.each ((s.ctx c).loafTiles t) (fun s u => s.rebuildTile c u none))
    else .next (s.demandLoaf c t)

def Group.rebuilt (g : Group) : Nat := g.rebuiltData + (match g.rebuild with | some (_, true) => g.rebuiltCrust | _ => 0)
/-- REBUILD_PROGRESS (R333): every 128 frames while a rebuild runs. -/
def execRebuildProgress (ctx : BitVec 4) (s : State) : Host.Outcome State Fault Refusal :=
  let c := ctx.toNat
  let g := (s.ctx c).group
  let n := (s.frames.frame - g.rebuildFrame).toNat
  match g.rebuild, g.adopted with
  | some _, some p =>
    if n = 0 ∨ n % 128 ≠ 0 then .next s
    else .next (s.emit 0x0050 0 (some c) [(0, p.toNat), (4, sat32 g.rebuilt), (8, sat32 g.rebuiltAll), (12, sat32 g.demand)])
  | _, _ => .next s

/-- The kinds of a rebuild that have ended: 0 data, 1 crust. -/
def Ctx.builtData (x : Ctx) : Bool := !x.tiles.any (fun e => e.2.unbuilt)
def Ctx.builtCrust (x : Ctx) : Bool := !x.kept.any (fun e => (x.crustOf e.1 e.2).unbuilt)
/-- REBUILD_DONE (R333): once for each kind; REBUILD_START completes with the last kind it covers. -/
def execRebuildDone (ctx : BitVec 4) (kind : Bool) (s : State) : Host.Outcome State Fault Refusal :=
  let c := ctx.toNat
  let x := s.ctx c
  match x.group.adopted with
  | none => .next s
  | some p =>
    let said := if kind then x.group.rebuildCrust else x.group.rebuildData
    if !s.live || said || !(if kind then x.builtCrust else x.builtData) then .next s
    else
      let s := s.modCtx c (fun x => { x with group :=
        if kind then { x.group with rebuildCrust := true } else { x.group with rebuildData := true } })
      let n := if kind then x.group.rebuiltCrust else x.group.rebuiltData
      let s := s.emit 0x0051 1 (some c)
        [(0, p.toNat), (4, sat32 n), (8, (s.frames.frame - x.group.rebuildFrame).toNat), (12, bit kind)]
      let g := (s.ctx c).group
      match g.rebuild with
      | some (tag, crust) =>
        if g.rebuildData ∧ (!crust ∨ g.rebuildCrust) then
          .next ((s.modCtx c (fun x => { x with group := { x.group with rebuild := none } })).finish c tag 0 (sat32 g.rebuilt))
        else .next s
      | none => .next s

/-! ### MEND_TILE (R338) -/

def chkMendTile (s : State) (c : Cmd) : Option Bad :=
  let x := s.ctx c.cid
  firstBad [x.tilesBad (fld c.a 0 32) c.n (fun t => x.cover t == .uncovered), x.notJoined]
/-- The tiles of a MEND_TILE that are at home begin their mend; those in the pantry are promoted first. -/
def State.runMends (s : State) (c : Nat) (tag : BitVec 16) : State :=
  match s.adm? c tag with
  | none => s
  | some a => s.each a.work (fun s t =>
      if (s.tile c t).unbuilt then (if (s.job? c .rebuild t).isSome then s else s.rebuildTile c t none)
      else if (s.tile c t).tier1 then s.askPromotion c t 3
      else if s.heldFor c t .mend ∧ (s.job? c .mend t).isSome then s
      else s.beginMend c t)
def effMendTile (c : Cmd) (s : State) : State :=
  (s.modAdm c.cid c.tag (fun a => { a with work := extent (fld c.a 0 32) c.n })).runMends c.cid c.tag
def bytesExtent (s : State) (c : Cmd) : List (Nat × Nat) := s.bytesBySlice c.cid 65536 (extent (fld c.a 0 32) c.n)
/-- MEND_TILE. -/
def execMendTile (c : Cmd) (s : State) : Host.Outcome State Fault Refusal :=
  .next (s.runCmd 0x65 noFields chkMendTile bytesExtent noTake effMendTile c)

/-! ### REPLAY_CHECK (R342, R343) -/

def chkReplay (s : State) (c : Cmd) : Option Bad :=
  let x := s.ctx c.cid
  firstBad [
    match x.step with
    | some st => if !st.awaitOnly && st.num == c.a then some (0x0403, fld st.num 0 32) else none
    | none => none,
    match x.ledger.find? (fun e => e.step == c.a) with
    | some e => if e.replay.isNone then conflict 6 else none
    | none => conflict 6]
def effReplay (c : Cmd) (s : State) : State :=
  match (s.ctx c.cid).ledger.find? (fun e => e.step == c.a) with
  | none => s.finish c.cid c.tag 0x0400 6
  | some e =>
    let l := decide (c.b ≠ e.loss)
    let d := decide (e.replay ≠ some e.digest)
    if !l && !d then
      ((s.countCtx c.cid 81).emit 0x0052 0 (some c.cid) [(0, c.a.toNat), (8, 0)]).done c 0
    else
      let s := (s.countCtx c.cid 82).modCtx c.cid (fun x => { x with stopped := true })
      (s.emit 0x0052 4 (some c.cid) [(0, c.a.toNat), (8, if l then 1 else 2)]).finish c.cid c.tag 0x0602 (bit l + 2 * bit d)
/-- REPLAY_CHECK. -/
def execReplayCheck (c : Cmd) (s : State) : Host.Outcome State Fault Refusal :=
  .next (s.runCmd 0x64 noFields chkReplay noBytes noTake effReplay c)

/-! ### ROLLBACK (R323, R139, R280, R307) -/

/-- The step is withdrawn: no mark, no finding, e not halved, tallies dropped (R280). One whose overflow verdict has been read
keeps that outcome (Table 12.3). -/
def State.withdrawStep (s : State) (c : Nat) : State :=
  match (s.ctx c).step with
  | none => s
  | some st =>
    let s := if st.awaitOnly || st.unrisen then s else s.verdictEvent c st 3 ((s.finalOf c).getD 0)
    let s := if st.unrisen && st.cancel.isNone then (s.finish c st.tag 0 1).endPublishes c st.num 0x0400 6 else s
    let gone := s.link.admitted.filter (fun a => a.c.cid == c && st.owns a)
    let s := s.each gone (fun s a => s.finish c a.c.tag 0x0700 0)
    let s := s.finish c st.tag 0x0700 0
    let waits := s.fab.reqs.filter (fun r => r.ctx.toNat == c && r.why == Why.verdict)
    let s := s.each waits (fun s r => s.quarantine r)
    let s := { s with fab := { s.fab with retries := s.fab.retries.filter (fun r => !(r.req.ctx.toNat == c && r.req.why == Why.verdict)) } }
    s.modCtx c (fun x => { x with step := none })
/-- Every command of the context admitted before a ROLLBACK is cancelled; none while an earlier ROLLBACK runs. -/
def State.clearFor (s : State) (cmd : Cmd) : State :=
  let c := cmd.cid
  match s.adm? c cmd.tag with
  | none => s
  | some me =>
    if (s.earlier me).any (fun b => b.op == 0x63) then s
    else
      let old := s.earlier me
      let s := s.withdrawStep c
      s.each old (fun s a => match s.adm? c a.c.tag with | some a => (s.cancelOne c a none).1 | none => s)
/-- The drain stops; a due seal and what waits for it are dropped (R296, R309). -/
def State.stopDrain (s : State) (c : Nat) : State :=
  let now := (s.ctx c).bake.sealNow
  let s := s.countCtx c 49 (bit ((s.ctx c).bake.due.isSome || (s.ctx c).bake.deferred))
  let s := s.modCtx c (fun x => { x with bake := { x.bake with stopShip := true, due := none, deferred := false, sealNow := [] } })
  let s := (s.each now (fun s e => s.finish c e.1 0x0700 0)).dropJobs (fun j => j.ctx.toNat == c && (j.why == .drain || j.why == .mend))
  { s with
    fab := { s.fab with retries := s.fab.retries.filter (fun r =>
      !(r.req.ctx.toNat == c && (r.req.typ == 0x10 || r.req.typ == 0x11))) },
    slices := mmap s.slices (fun _ sl => { sl with landing := sl.landing.filter (fun l => l.ctx.toNat != c) }) }
/-- A transfer of the bake or of a step that has not been acknowledged. -/
def State.unacked (s : State) (c : Nat) : Bool :=
  s.fab.reqs.any (fun r => r.ctx.toNat == c && (r.typ == 0x10 || r.typ == 0x11 ||
    (match r.why with | .commit _ => true | .finding | .mark | .riskMax | .riskRead => true | _ => false)))
/-- Class that a tile had as of the rollback target (R139). -/
def Ctx.coverThen (x : Ctx) (t : Nat) : Cover :=
  match x.bake.was.find? (fun e => x.laterSealed && e.2.tiles.contains t) with
  | some e => e.2.cls
  | none => x.cover t
def Ctx.left (x : Ctx) (t : Nat) : Bool := x.laterSealed && decide (x.coverThen t ≠ x.cover t)
/-- Tiles that a rollback restores: of every class but UNCOVERED (Table 1.5). -/
def Ctx.toRestore (x : Ctx) : List Nat := (mkeys x.tiles).filter (fun t => x.coverThen t != .uncovered && !((mgetD x.tiles t {}).unbuilt))
/-- The live value is unknown. -/
def State.unknown (s : State) (c t : Nat) : Bool :=
  let r := s.tile c t
  r.erasedOpen || r.erasedSealed || r.damaged || s.heldFor c t .mendFailed || s.heldFor c t .mend
    || ((s.ctx c).coverThen t == .snapshot && r.proofLost)
/-- The value that a known tile returns to; none where it has not changed. -/
def State.restored (s : State) (c t : Nat) : Option Tile :=
  let x := s.ctx c
  let r := s.tile c t
  if x.coverThen t = .snapshot then x.targetCopy r
  else
    let base := if x.left t then r.proofNew.getD (s.homeVal c t ^^^ r.freshDelta ^^^ r.openDelta)
      else s.homeVal c t ^^^ r.freshDelta ^^^ r.openDelta
    if r.records.isEmpty && !(x.left t && r.proofNew.isSome) then none
    else some (base ^^^ (if x.laterSealed then r.sealedDelta else 0))
/-- Tiles in the pantry that a rollback must write. -/
def State.farRestore (s : State) (c : Nat) : List Nat :=
  (s.ctx c).toRestore.filter (fun t => (s.tile c t).tier1 &&
    (s.unknown c t || !((s.tile c t).records.filter (fun k => decide (some k ≠ (s.tile c t).ex))).isEmpty
      || ((s.ctx c).targetCopy (s.tile c t)).isSome))
/-- Write a tile's restored value, and count it. -/
def State.rewrite (s : State) (c t : Nat) (tag : BitVec 16) (v : Tile) (known : Bool) : State :=
  let s := (if known then s.portWrite c t v else s.setHome c t v).serveTile c t .u 131072
  s.modAdm c tag (fun a => { a with done := a.done + 1 })
def TileRec.noRecords (r : TileRec) : TileRec :=
  { r with f := none, o := none, p := none, sb := none, sp := none, begun := none }
/-- A decode for a rollback ends: an undecodable tile stays HELD unless a copy of it stands (R310, R323). -/
def State.rollbackDecoded (s : State) (c t : Nat) (tag : BitVec 16) (v : Option Tile) : State :=
  match (match (s.ctx c).targetCopy (s.tile c t) with
    | some k => if (s.ctx c).coverThen t = .snapshot then some k else v
    | none => v) with
  | some w =>
    (((s.rewrite c t tag w false).modTile c t (fun r => { r with damaged := false, dirty := true })).unholdTile c t .mend).unholdTile c t .mendFailed
  | none =>
    ((s.holdTile c t .mendFailed).unholdTile c t .mend).modAdm c tag (fun a => { a with bad := some (min t (a.bad.getD t)) })
/-- A tile of unknown value is asked for in class U; a replica tile is copied from a replica. -/
def State.restoreUnknown (s : State) (c t : Nat) (tag : BitVec 16) : State :=
  if (s.ctx c).coverThen t = .replica then
    if (s.ctx c).usableReplica t then (let r := s.freeTile; r.2.rollbackDecoded c t tag (some r.1)) else s.rollbackDecoded c t tag none
  else match (s.ctx c).shipPlace t with
    | some (b, i, o) => s.askDecode c .rollback t b i o (s.ctx c).bake.committed .u (some tag)
    | none => s
/-- The tiles in ascending order: known ones restored at once, unknown ones asked for. -/
def State.restoreTiles (s : State) (c : Nat) (tag : BitVec 16) : State :=
  let s := s.each (s.ctx c).toRestore (fun s t =>
    if s.unknown c t then s.restoreUnknown c t tag
    else match s.restored c t with
      | some v => (s.rewrite c t tag v true).modTile c t (fun r => { r with dirty := true })
      | none => s)
  (s.modCtx c (fun x => { x with tiles := mmap x.tiles (fun _ r => r.noRecords) })).relieveAll c
/-- Masters whose active copy is recast. -/
def State.recastable (s : State) (c : Nat) : List Nat :=
  (s.masters c).filter (fun t => !(s.tile c t).unbuilt && !s.heldFor c t .mendFailed)
/-- Counters that the owner of the verdicts, of the risk levels, and the root set to zero. -/
def State.zeroCounters (s : State) (c : Nat) : State :=
  let x := s.ctx c
  let three := fun (s : State) (k : Nat) => [0, 1, 2].foldl (fun s i => s.setCtr (k + i) 0) s
  let s := match x.verdictAt with | some (k, o) => if x.own = o.toNat then three s k.toNat else s | none => s
  let s := match x.bake.risk with | some (k, o) => if x.own = o.toNat then three s k.toNat else s | none => s
  match x.group.cfg with
  | some g => if g.own = g.root then s.setCtr g.bakeCtr.toNat 0 else s
  | none => s
/-- The context takes up the records of the rollback target (R209, R226, R307). -/
def Ctx.takeUp (x : Ctx) (f : BitVec 32) (r : BakeRec) : Ctx :=
  { x with
    e := r.e, g := r.g, c := r.c, seed := r.seed, verBit := r.verBit, lastStep := some r.step, lastClean := some r.step,
    ordinal := 0, predicted := [],
    highStep := (match x.highStep, x.lastStep with
      | some h, some l => some (if h.toNat < l.toNat then l else h)
      | none, l => l
      | h, none => h),
    tiles := mmap x.tiles (fun t k => { k with contrib := mget r.contrib t }),
    bake := { x.bake with recs := [(f.toNat, r)], sealed := 0, sLast := r.step, levels := [], toShip := [], part := [], shipped := [], noticed := [],
                          blocked := [], stopShip := false, commitAdd := 0, rackDone := false, jobSinceBegin := false } }
/-- Proof copies and marks of the abandoned bake go; snapshot tiles owe a copy of the target (R307). -/
def Ctx.clearMarks (x : Ctx) : Ctx :=
  { x with tiles := mmap x.tiles (fun t r => { r with
      erasedOpen := false, erasedSealed := false, damaged := false, proofOld := none, proofNew := none, proofLost := false,
      other := false, owesBake := decide (x.cover t = .snapshot) && !r.unbuilt }) }
/-- The end of a ROLLBACK. -/
def State.endRollback (s : State) (c : Nat) (tag : BitVec 16) : State :=
  let x := s.ctx c
  let f := x.bake.committed
  let s := match mget x.bake.recs f.toNat with
    | some r => s.modCtx c (fun x => x.takeUp f r)
    | none => s
  let s := s.modCtx c Ctx.clearMarks
  let step := ((s.ctx c).lastStep).getD 0
  let s := s.each (s.recastable c) (fun s t => (s.recast c t step (s.ctx c).verBit).1)
  let s := s.each (mkeys (s.ctx c).tiles) (fun s t =>
    if (s.tile c t).owesBake then s.trap c t else if (s.tile c t).owed = 0 then s.untrap c t else s)
  let s := (s.zeroCounters c).relieveAll c
  match s.adm? c tag with
  | none => s
  | some a =>
    let s := (s.countCtx c 67).countCtx c 68 a.done
    match a.bad with
    | some b => s.finish c tag 0x0600 b
    | none => s.finish c tag 0 (sat32 a.done)
/-- ROLLBACK's work, as far as it can go now; `aux` keeps its stage. -/
def State.runRollback (s : State) (c : Nat) (tag : BitVec 16) : State :=
  if !(s.running && s.locked) then s
  else match (s.adm? c tag).bind (fun a => a.aux) with
    | some 0 =>
      let far := s.farRestore c
      if s.unacked c then s
      else if !far.isEmpty then s.each far (fun s t => s.askPromotion c t 3 (some tag))
      else (((s.revertCrust c).restoreTiles c tag).modAdm c tag (fun a => { a with aux := some 1 }))
    | some 1 =>
      let v := ((mget (s.ctx c).bake.recs (s.ctx c).bake.committed.toNat).map (fun r => r.verBit)).getD (s.ctx c).verBit
      let need := (s.recastable c).flatMap (s.recastTiles c v)
      if s.fab.jobs.any (fun j => j.ctx.toNat == c && j.why == .rollback) then s
      else if !need.all (fun u => !(s.tile c u).tier1 || s.heldFor c u .mendFailed) then
        s.each need (fun s u => s.askPromotion c u 3 (some tag))
      else s.endRollback c tag
    | _ => s
def chkRollback (s : State) (c : Cmd) : Option Bad :=
  let x := s.ctx c.cid
  firstBad [x.notJoined, if x.stopped then conflict 6 else none,
    if x.bake.committed = 0 ∨ x.bake.committed ≠ BitVec.ofNat 32 (fld c.a 0 32) then conflict 7 else none]
/-- ROLLBACK begins: what was taken before it is cancelled, and it is checked against the target in force. -/
def effRollback (c : Cmd) (s : State) : State :=
  let s := s.clearFor c
  match chkRollback s c with
  | some e => s.finish c.cid c.tag e.1 e.2
  | none => (((s.stopDrain c.cid).modAdm c.cid c.tag (fun a => { a with aux := some 0 })).runRollback c.cid c.tag).runRollback c.cid c.tag
/-- ROLLBACK. -/
def execRollback (c : Cmd) (s : State) : Host.Outcome State Fault Refusal :=
  .next (s.runCmd 0x63 noFields chkRollback noBytes (fun c s => s.clearFor c) effRollback c)

/-! ### Adoption (R326 to R328, R386) -/

def chkAdopt (s : State) (c : Cmd) : Option Bad :=
  let x := s.ctx c.cid
  firstBad [
    check x.group.cfg.isSome (0x0401, 0),
    if x.group.joined || !x.regions.isEmpty then conflict 9 else none,
    if x.stopped then conflict 6 else none,
    if x.group.adopting.isSome then conflict 8 else none,
    check x.keys.cur.isSome (0x0501, fld c.b 0 5)]
/-- The adopter takes the position and starts an adoption notice of its own tray of reach, T8. -/
def State.sendNotice (s : State) (c : Nat) : State :=
  let s := s.modCtx c (fun x => { x with group := { x.group with notesSent := x.group.notesSent + 1 } })
  s.originate c 2 (BitVec.ofNat 32 ((s.ctx c).keys.epoch.toNat + 256 * (s.ctx c).group.notesSent))
def State.endAdopt (s : State) (c : Nat) (status detail : Nat) : State :=
  match (s.ctx c).group.adopting with
  | none => s
  | some (tag, _, _) =>
    (s.modCtx c (fun x => { x with group := { x.group with adopting := none, adoptParts := [], adoptReached := false } })).finish c tag status detail
/-- What an adoption does once its notice has gone round: the fetch, or the failure (R327). -/
def State.adoptNext (s : State) (c : Nat) : State :=
  let g := (s.ctx c).group
  match g.adopting with
  | none => s
  | some (_, p, b) =>
    if g.adoptReached then
      if s.awaits c (fun w => w == .adopt) || !g.adoptParts.isEmpty then s
      else s.issue c .d 0x22 b.toNat [(8, p.toNat), (9, 0), (12, 0)] [] .adopt
    else match (s.ctx c).bcast? 2 p.toNat with
      | some k => if k.upSent && !k.mask.getLsbD b.toNat then s.endAdopt c 0x0502 b.toNat else s
      | none => s
/-- A notice that did not reach every unfenced member goes round again under the next plan (R370). -/
def State.noticeAgain (s : State) (c : Nat) : State :=
  let g := (s.ctx c).group
  match g.adopting with
  | none => s
  | some (_, p, _) =>
    match (s.ctx c).bcast? 2 p.toNat with
    | some k => if k.upSent && !g.adoptReached then (s.sendNotice c).adoptNext c else s
    | none => (s.sendNotice c).adoptNext c
def effAdopt (c : Cmd) (s : State) : State :=
  let p := BitVec.ofNat 5 (fld c.a 0 5)
  let s := s.modCtx c.cid (fun x => { x with group := { x.group with
    cfg := x.group.cfg.map (fun g => { g with own := p }), reach := mset x.group.reach p.toNat 8,
    adopting := some (c.tag, p, BitVec.ofNat 5 (fld c.b 0 5)), adoptParts := [], adoptReached := false } })
  (s.sendNotice c.cid).adoptNext c.cid
/-- ADOPT_POSITION. -/
def execAdoptPosition (c : Cmd) (s : State) : Host.Outcome State Fault Refusal :=
  .next (s.runCmd 0x61 noFields chkAdopt noBytes noTake effAdopt c)
/-- BCAST_UP (R368). -/
def execBcastUp (peel : Nat) (x : Xfer) (s : State) : Host.Outcome State Fault Refusal :=
  .next (s.inRequest 0x21 peel x (fun s => (s.serveUp peel x).adoptNext x.ctx))
/-- BCAST_CHILD_TIMEOUT (R369). -/
def execBcastChildTimeout (ctx : BitVec 4) (child : BitVec 5) (s : State) : Host.Outcome State Fault Refusal :=
  .next (if s.live then (s.skipIn ctx.toNat child.toNat none true).adoptNext ctx.toNat else s)

/-! #### Installing the record -/

/-- A part of the record that has come whole: parts 0 to 4, and 5 for the directory. -/
def Group.partOf (g : Group) (k : Nat) : Option (List Nat) :=
  match unframe (HeldRec.part g.adoptParts k false), unframe (HeldRec.part g.adoptParts k true) with
  | some l, none => some l
  | none, some l => some l
  | some a, some b => some (if a.isEmpty then b else a)
  | none, none => none
/-- Regions of part 1, and what follows them. -/
def regionsOf (l : List Nat) : FMap Region × List Nat :=
  let n := l.getD 0 0
  ((List.range n).foldl (fun m i =>
    let w := l.getD (1 + 4 * i) 0
    mset m (cut w 0 8) { first := l.getD (2 + 4 * i) 0, count := l.getD (3 + 4 * i) 0, cls := coverNo (cut w 8 2),
                         pgroup := BitVec.ofNat 8 (cut w 16 8), replica := BitVec.ofNat 64 (l.getD (4 + 4 * i) 0) }) [],
   l.drop (1 + 4 * n))
/-- A bake's summary of part 3: its number and records. -/
def summaryOf (l : List Nat) : Option (BitVec 32 × BakeRec) :=
  match l with
  | [] => none
  | w :: _ =>
    let n := l.getD 4 0
    some (BitVec.ofNat 32 (cut w 0 32),
      { step := BitVec.ofNat 64 (l.getD 1 0), e := BitVec.ofNat 8 (cut w 40 8), g := BitVec.ofNat 32 (cut (l.getD 2 0) 0 32),
        c := BitVec.ofNat 32 (cut (l.getD 2 0) 32 32), seed := BitVec.ofNat 64 (l.getD 3 0), verBit := w.testBit 32,
        contrib := (List.range n).foldl (fun m i =>
          let a := l.getD (5 + 2 * i) 0
          mset m (cut a 0 32) ⟨BitVec.ofNat 64 (l.getD (6 + 2 * i) 0), BitVec.ofNat 32 (cut a 32 32)⟩) [] })
def ledgerOf (l : List Nat) : List Ledger :=
  (List.range (l.getD 0 0)).map (fun i =>
    let a := fun (k : Nat) => BitVec.ofNat 64 (l.getD (1 + 5 * i + k) 0)
    ⟨a 0, a 1, a 2, if (a 4).getLsbD 0 then some (a 3) else none⟩)
/-- A covered tile of the adopter, or a replica tile with a replica recorded, is HELD until it is rebuilt. -/
def Ctx.mustRebuild (x : Ctx) (t : Nat) : Bool :=
  match x.regionOf t with
  | some (_, r) => r.cls.covered || (r.cls == .replica && (List.range 4).any (fun i => r.replica.getLsbD (8 * i + 7)))
  | none => false
/-- Directory entries of the pantry window, by logical tile (R386). -/
def dirEntry (l : List Byte) (t : Nat) : Word := wordAt l (8 * t)
/-- Size in tiles of a pool of the position, by pool number; bit 63 says that the driver sized it. -/
def adoptSize (pools : List Nat) (k : Nat) : Nat := cut (pools.getD k 0) 0 63
/-- The first pool of the position that does not fit. -/
def State.adoptShort (t : State) (c : Nat) (pools : List Nat) : Option Bad :=
  [0, 1, 3].findSome? (fun k =>
    let n := t.poolShort c k (t.poolShares c k (adoptSize pools k))
    if n = 0 then none else some (refusedPool k n))
/-- The position's map, regions and group table. -/
def State.adoptMap (s : State) (c : Nat) (foreign : Bool) (ws : List Word) (ps st : List (Nat × Nat)) (regs pools : List Nat) : State :=
  let t := s.loadMap c foreign 0 [] ws ps st
  let rs := regionsOf regs
  let t := t.modCtx c (fun x => { x with regions := rs.1, group := { x.group with recs := joinRecs rs.2.length rs.2, joined := true, crust := [] } })
  t.modCtx c (fun x => { x with floor := pools.getD 4 0, reserve := pools.getD 5 0 })
/-- The position's pools. -/
def State.adoptPools (t : State) (c : Nat) (pools : List Nat) : State :=
  [0, 1, 3].foldl (fun t k => (t.placePool c k (t.poolShares c k (adoptSize pools k))).modCtx c (fun x =>
    x.setPool k { x.pool k with sized := (pools.getD k 0).testBit 63 })) t
/-- What each tile owes: a promotion, or a rebuild. -/
def State.adoptOwed (t : State) (c : Nat) (dir : List Byte) : State :=
  t.each (mkeys (t.ctx c).tiles) (fun t u =>
    let e := dirEntry dir u
    if deValid e then
      let snap := decide ((t.ctx c).cover u = .snapshot)
      let t := (t.modTile c u (fun r => { r with tier1 := true, dir := e, owesBake := snap })).holdTile c u .tier1
      if snap then t.trap c u else t
    else if (t.ctx c).mustRebuild u then (t.modTile c u (fun r => { r with unbuilt := true })).holdTile c u .unbuilt
    else t)
/-- The rest of the position: its crust plan, protection, bakes and ledger. -/
def State.adoptRest (t : State) (c : Nat) (p : BitVec 5) (dir : List Byte) (n : Nat) (bake ledger : List Nat) : State :=
  let t := t.applyDefault c 2
  let held := t.heldPlan (t.ctx c).recordTiles
  let t := t.modCtx c (fun x => { x with group := { x.group with heldTiles := held, adopted := some p, rebuildData := false, rebuildCrust := false } })
  let delta := ((t.ctx c).tiles.filter (fun e => (t.ctx c).cover e.1 == .delta)).map Prod.fst
  let t := (t.protect c delta).1
  let t := match summaryOf bake with
    | none => t
    | some (f, r) => t.modCtx c (fun x => { (({ x with bake := { x.bake with committed := f } }).takeUp f r) with highStep := none })
  let t := t.modCtx c (fun x => { x with
    ledger := ledgerOf ledger,
    group := { x.group with crust := x.kept.foldl (fun m e => mset m (crustKey e.1 e.2) { unbuilt := true }) [] } })
  let t := (t.adoptOwed c dir).modCtx c (fun x => { x with knead := { x.knead with fresh := false } })
  t.endAdopt c 0 (sat32 n)
/-- The directory of `n` entries fits the pantry window, where one is set. -/
def Knead.holdsDir (k : Knead) (n : Nat) : Bool := decide (k.size = 0) || decide (4096 * dirGranules n ≤ k.size)
/-- The position is taken over in `u`, or its adoption ends in `s` with what does not fit. -/
def State.adoptEnd (u s : State) (bad : Option Bad) (c : Nat) (p : BitVec 5) (dir : List Byte) (n : Nat) (bake ledger : List Nat) : State :=
  match bad with
  | some e => s.endAdopt c e.1 e.2
  | none => u.adoptRest c p dir n bake ledger
/-- The position whose map entries could be placed is taken over, unless a pool or the directory does not fit. -/
def State.adoptWith (s : State) (c : Nat) (foreign : Bool) (w : List Word × List (Nat × Nat) × List (Nat × Nat)) (p : BitVec 5)
    (dir : List Byte) (regs pools bake ledger : List Nat) : State :=
  let t := s.adoptMap c foreign w.1 w.2.1 w.2.2 regs pools
  let u := t.adoptPools c pools
  u.adoptEnd s (firstBad [check ((u.ctx c).knead.holdsDir w.1.length) badRange, t.adoptShort c pools, u.defaultBad c 2])
    c p dir w.1.length bake ledger
/-- The whole record is here, and the directory where a window is set: the position is taken over. -/
def State.adoptInstall (s : State) (c : Nat) (map regs pools bake ledger : List Nat) : State :=
  let x := s.ctx c
  let foreign := (map.getD 0 0).testBit 32
  match s.planWords c foreign ((map.drop 1).map (fun w => BitVec.ofNat 64 w)) [] with
  | .error e => s.endAdopt c e.1 e.2
  | .ok w =>
    match x.group.adopting, x.group.cfg with
    | some a, some _ => s.adoptWith c foreign w a.2.1 (HeldRec.part x.group.adoptParts 5 false) regs pools bake ledger
    | _, _ => s
/-- Every part has come: the directory is read first where the pantry window is set. -/
def State.adoptStep (s : State) (c : Nat) : State :=
  let g := (s.ctx c).group
  match g.partOf 0, g.partOf 1, g.partOf 2, g.partOf 3, g.partOf 4 with
  | some map, some regs, some pools, some bake, some ledger =>
    let k := (s.ctx c).knead
    let need := if k.size = 0 then 0 else dirGranules (map.length - 1)
    let have_ := (List.range need).filter (fun i => (mget g.adoptParts (partKey 5 i)).isSome)
    if have_.length = need then s.adoptInstall c map regs pools bake ledger
    else if !have_.isEmpty ∨ s.awaits c (fun w => w == .adopt) then s
    else s.each (List.range need) (fun s i => s.issue c .d 1 0 [(8, k.granule i), (16, 16)] [] .adopt (BitVec.ofNat 16 i))
  | _, _, _, _, _ => s

/-! #### RECORD (R326) -/

def State.serveRecord (s : State) (peel : Nat) (t : Xfer) : State :=
  let c := t.ctx
  let g := (s.ctx c).group
  let member := t.num 8 1
  let part := t.num 9 1
  let idx := t.num 12 4
  let holds := g.joined && (match g.cfg with | some k => k.heldMembers.contains member | none => false)
  let mine := match g.adopting with | some (_, p, b) => decide (p.toNat = member ∧ b.toNat = t.src) | none => false
  if t.payload.isEmpty then
    if holds then (s.respond peel t 0).sendHeld c member t.src
    else if g.joined ∧ (s.ctx c).own = member then (s.respond peel t 0).shareAll c
    else s.respond peel t 5
  else if mine then
    let s := s.respond peel t 0
    (s.modCtx c (fun x => { x with group := { x.group with adoptParts := mset x.group.adoptParts (partKey part idx) t.payload } })).adoptStep c
  else if holds ∧ t.src = member then (s.respond peel t 0).keepPiece c member part idx t.payload
  else s.respond peel t 5
/-- RECORD. -/
def execRecord (peel : Nat) (x : Xfer) (s : State) : Host.Outcome State Fault Refusal :=
  .next (s.inRequest 0x22 peel x (fun s => s.serveRecord peel x))

end Sys2Proof.Machine
end

