-- ==== Sys2Proof/Machine/Knead.lean ====
section
/-!
DEFINITION. Machine/Knead.lean: demotion and promotion of tiles between the tiers (R372 to R385), hints, pins, policy, and
CTX_SET_TILEMAP with the initialisation of the pantry's directory (R377).
-/
namespace Sys2Proof.Machine

/-! ### Extents (R378) -/

/-- Extents in use: granule and length in granules, of tier-1 tiles and of demotions under way. -/
def Ctx.extents (x : Ctx) : List (Nat × Nat) :=
  let es := (x.tiles.filter (fun e => deValid e.2.dir)).map (fun e => e.2.dir)
    ++ (x.knead.jobs.filter (fun j => j.2.kind == 0 && decide (j.2.stage ≠ 0))).map (fun j => j.2.entry)
  es.map (fun w => (deGranule w, deSpan w))
/-- The lowest granule from `lo` on with `n` free ones, of extents in rising order. -/
def freeRun (n lim : Nat) : Nat → List (Nat × Nat) → Option Nat
  | lo, [] => if lo + n ≤ lim then some lo else none
  | lo, e :: l => if lo + n ≤ e.1 then some lo else freeRun n lim (max lo (e.1 + e.2)) l
def Ctx.allocate (x : Ctx) (n : Nat) : Option Nat :=
  freeRun n (x.knead.size / 4096) (dirGranules x.n) (sortBy Prod.fst x.extents)
def Ctx.granulesUsed (x : Ctx) : Nat := sum (x.extents.map Prod.snd)
/-- Granules in use, and the most since the window was set (R388). -/
def State.countGranules (s : State) (c : Nat) : State :=
  let n := (s.ctx c).granulesUsed
  (s.setCtxValue c 104 n).peakCtx c 105 n
def extentBytes (c t : Nat) (v : Tile) (body : List Byte) : List Byte :=
  bytesOfNat 4 t ++ bytesOfNat 4 c ++ bytesOfWord (tileCrc v) ++ List.replicate 48 0 ++ body
/-- The 256-byte unit of the directory that holds an entry, with that entry at a given value. -/
def Ctx.dirUnit (x : Ctx) (t : Nat) (w : Word) : List Byte :=
  (List.range 32).flatMap (fun i =>
    let u := t / 32 * 32 + i
    bytesOfWord (if u = t then w else ((mget x.tiles u).map (fun r => r.dir)).getD 0))
def State.storeDir (s : State) (c t : Nat) (w : Word) (cls : Cls) (why : Why) (tag : BitVec 16 := 0) : State :=
  let x := s.ctx c
  s.issue c cls 2 0 [(8, x.knead.entryAt (t / 32 * 32))] (x.dirUnit t w) why tag

/-! ### What may move (R375) -/

/-- A command in flight names a tile as state, stream or slot. -/
def State.named (s : State) (c t : Nat) : Bool :=
  s.link.admitted.any (fun a => (a.op == 0x43 || a.op == 0x44) && a.c.cid == c && (if a.begun then a.work else extent (firstTile a.c) a.c.n).any (fun u =>
    let w := s.workTiles a.c a.h0 (a.op == 0x44) u
    w.1.contains t || w.2.contains t))
def State.kneadable (s : State) (c t : Nat) : Bool :=
  let x := s.ctx c
  let r := s.tile c t
  (match x.regionOf t with | some (_, g) => g.change.isNone | none => false)
    && !x.mapArea.contains (r.slice, r.stack) && !r.pin0 && !s.named c t
    && (match x.cover t with
      | .uncovered => true
      | .snapshot => r.ret == .trapped && (if x.laterSealed then r.proofOld.isNone else r.proofOld.isNone && r.proofNew.isNone)
      | _ => r.f.isNone && !r.hasOpen && r.sb.isNone && r.sp.isNone && !r.erasedOpen && !r.erasedSealed)
/-- A tile at home that nothing moves or holds. -/
def State.atHome (s : State) (c t : Nat) : Bool :=
  !(s.tile c t).tier1 && ((s.ctx c).job? t).isNone && decide ((s.slice (s.tile c t).slice).state (s.tile c t).stack ≠ .held)

/-- Class of a move: an update's is U, a demand's or a read's D, a hint's as its command says, a pin's and idleness's M. -/
def State.moveClass (s : State) (c : Nat) (j : KneadJob) : Cls :=
  if j.kind = 1 ∧ j.cause = 3 then .u
  else if j.kind = 1 ∧ (j.cause = 2 ∨ j.cause = 4) then .d
  else match j.tag.bind (fun g => s.adm? c g) with
    | some a => workClass (rowOf a.op) a.c
    | none => .m

/-! ### Ends of a move -/

/-- A KNEAD_HINT whose moves have all ended completes with the tiles moved (R383). -/
def State.hintDone (s : State) (c : Nat) (tag : BitVec 16) : State :=
  match s.adm? c tag with
  | none => s
  | some a =>
    if a.op ≠ 0x70 ∨ !a.begun ∨ (s.ctx c).knead.jobs.any (fun j => j.2.tag == some tag) then s
    else s.finish c tag 0 (sat32 a.done)
def State.moved (s : State) (c : Nat) (j : KneadJob) : State :=
  match j.tag with
  | none => s
  | some g => (s.modAdm c g (fun a => if a.op = 0x70 then { a with done := a.done + 1 } else a)).hintDone c g
/-- A demotion is given up (R379). -/
def State.giveUp (s : State) (c t : Nat) (j : KneadJob) : State :=
  let s := s.abandonDemotion c t
  match j.tag with
  | some g => s.hintDone c g
  | none => s
/-- One STORE of an extent has ended. -/
def State.demoteStored (s : State) (c t : Nat) (ok : Bool) : State :=
  match (s.ctx c).job? t with
  | none => s
  | some j =>
    if j.kind ≠ 0 ∨ j.stage ≠ 1 then s
    else
      let j := { j with left := j.left - 1, bad := j.bad || !ok }
      if j.left ≠ 0 then s.setJob c t (some j)
      else if j.bad then s.giveUp c t j
      else (s.setJob c t (some { j with stage := 2 })).storeDir c t j.entry (s.moveClass c j) (.directory t)
/-- The STORE of a directory entry has ended: a demoted tile is in tier 1, a promoted one at home (R379, R380). -/
def State.directoryDone (s : State) (c t : Nat) (ok : Bool) : State :=
  match (s.ctx c).job? t with
  | none => s
  | some j =>
    if j.stage ≠ 2 then s
    else if j.kind = 0 then
      if !ok then s.giveUp c t j
      else
        let s := (s.setJob c t none).modTile c t (fun r => { r with tier1 := true, dir := j.entry, busy := false })
        let s := (s.holdTile c t .tier1).unholdTile c t .moving
        let s := if (s.slice (s.tile c t).slice).parked.contains (s.tile c t).stack then s.askPromotion c t 2 else s
        ((s.countCtx c (demotedCtr j.cause)).countGranules c).moved c j
    else if !ok then s.storeDir c t 0 (s.moveClass c j) (.directory t)
    else
      let s := (s.setJob c t none).modTile c t (fun r => { r with tier1 := false, dir := 0, busy := false, used := true })
      let s := s.unholdTile c t .tier1
      ((s.countCtx c (promotedCtr j.cause)).countGranules c).moved c j
/-- The home of a promoted tile is written, and its directory entry cleared (R380). -/
def State.writeHome (s : State) (c t : Nat) (j : KneadJob) (v : Tile) : State :=
  let s := ((s.setHome c t v).serveTile c t (s.moveClass c j)).setJob c t (some { j with kind := 1, stage := 2, got := [], value := none })
  s.storeDir c t 0 (s.moveClass c j) (.directory t)
/-- A load that fails (R381): a covered tile is decoded, a replica copied, an UNCOVERED tile becomes zero. -/
def State.loadFailed (s : State) (c t : Nat) (j : KneadJob) : State :=
  let j := { j with kind := 1, cause := if j.kind = 2 then 4 else j.cause }
  let x := s.ctx c
  let bad := fun (s : State) (b : Nat) => s.emit 0x0053 3 (some c) [(0, t), (4, (s.tile c t).slice), (5, 1), (8, b)]
  if (x.cover t).covered && x.group.joined && decide (x.bake.committed ≠ 0) then
    ((s.countCtx c 102).setJob c t (some { j with stage := 3, got := [] })).askOwn c .promote t (s.moveClass c j) j.tag
  else if x.usableReplica t then
    let r := s.freeTile
    ((r.2.countCtx c 102).emit 0x0053 1 (some c) [(0, t), (4, (s.tile c t).slice), (5, 0), (8, 0)]).writeHome c t j r.1
  else (bad (s.countCtx c 103) 0xFFFFFFFF).writeHome c t j 0
/-- The decode of a covered tile whose extent could not be read (R381); an undecodable one stays HELD, its contents free (R337). -/
def State.promoteDecoded (s : State) (c t : Nat) (v : Option Tile) : State :=
  match (s.ctx c).job? t with
  | none => s
  | some j =>
    let b := (((s.ctx c).batchOfTile t).map (fun p => p.1.toNat)).getD 0
    match v with
    | some d => (s.emit 0x0053 1 (some c) [(0, t), (4, (s.tile c t).slice), (5, 0), (8, b)]).writeHome c t j d
    | none =>
      let r := s.freeTile
      ((r.2.emit 0x0053 3 (some c) [(0, t), (4, (s.tile c t).slice), (5, 1), (8, b)]).holdTile c t .mendFailed).writeHome c t j r.1
/-- One LOAD of an extent has ended. -/
def State.extentLoaded (s : State) (c t piece : Nat) (l : Option (List Byte)) : State :=
  match (s.ctx c).job? t with
  | none => s
  | some j =>
    if j.kind = 0 ∨ j.stage ≠ 1 then s
    else
      let j := match l with
        | some l => { j with left := j.left - 1, got := mset j.got piece l }
        | none => { j with left := j.left - 1, bad := true }
      if j.left ≠ 0 then s.setJob c t (some j)
      else match (if j.bad then none else extentValue c t j.entry ((mvals j.got).flatMap id)) with
        | none => s.loadFailed c t j
        | some v => if j.kind = 1 then s.writeHome c t j v
          else s.setJob c t (some { j with stage := 4, value := some v, got := [] })

/-! ### DEMOTION and PROMOTION -/

/-- A demotion starts where the fabric's share has room for the extent (R116): the tile is held, packed, and its extent stored (R379). -/
def State.startDemotion (s : State) (c t : Nat) (j : KneadJob) : State :=
  let v := s.homeVal c t
  let p := (s.ctx c).planesAt t
  let body := packCrumb p v
  let span := ceilDiv (64 + body.1.length) 4096
  let n := 4096 * span
  let fits := s.fabricFits (s.moveClass c j) (s.peelFor 0) 1 n (s.agedWork (s.moveClass c j) c j.tag t)
  if !fits.1 then s
  else match (s.ctx c).allocate span with
  | none => (s.setJob c t none).countCtx c 99 |> fun s => match j.tag with | some g => s.hintDone c g | none => s
  | some g =>
    let e : Word := pack [(0, g), (32, body.1.length), (49, bit body.2), (50, p.toNat), (52, 1)]
    let l := (chunks 4096 span (extentBytes c t v body.1)).zipIdx
    let s := (s.chargeFabric (s.moveClass c j) 1 n fits.2).holdTile c t .moving
    let s := s.modTile c t (fun r => { r with busy := true })
    let s := (s.serveTile c t (s.moveClass c j)).setJob c t (some { j with stage := 1, left := l.length, entry := e })
    let k := (s.ctx c).knead
    (s.each l (fun s q => s.issue c (s.moveClass c j) 2 0 [(8, k.granule (g + q.2))] (padTo 4096 q.1) (.demote t))).countGranules c
/-- DEMOTION (R379, R383): of a tile asked for, once its piece is issued (R111); a kneadable tile pinned to tier 1 is asked for. -/
def execDemotion (ctx : BitVec 4) (t : Nat) (s : State) : Host.Outcome State Fault Refusal :=
  let c := ctx.toNat
  let x := s.ctx c
  if !(s.running && s.locked) || !s.hasKnead || x.knead.size = 0 || (s.tile? c t).isNone then .next s
  else match x.job? t with
    | some j =>
      if j.kind ≠ 0 ∨ j.stage ≠ 0 then .next s
      else if !s.kneadable c t ∨ (s.tile c t).tier1 then
        .next (match j.tag with | some g => (s.setJob c t none).hintDone c g | none => s.setJob c t none)
      else if (s.slice (s.tile c t).slice).state (s.tile c t).stack = .held ∨ !s.granted (s.moveClass c j) c j.tag t then .next s
      else .next (s.startDemotion c t j)
    | none =>
      if (s.tile c t).pin1 && s.kneadable c t && s.atHome c t then .next (s.setJob c t (some { kind := 0, cause := 1 })) else .next s
/-- PROMOTION (R380): the extent of a tile asked for is loaded, once its piece is issued. -/
def execPromotion (ctx : BitVec 4) (t : Nat) (s : State) : Host.Outcome State Fault Refusal :=
  let c := ctx.toNat
  if !(s.running && s.locked) then .next s
  else match (s.ctx c).job? t with
    | some j =>
      if j.kind ≠ 1 ∨ j.stage ≠ 0 ∨ !(s.tile c t).tier1 ∨ !s.granted (s.moveClass c j) c j.tag t then .next s
      else
        let e := (s.tile c t).dir
        let s := s.setJob c t (some { j with stage := 1, left := deSpan e, entry := e, bad := false, got := [] })
        .next ((s.modTile c t (fun r => { r with busy := true })).loadExtent c t (s.moveClass c j))
    | none => .next s

/-! ### KNEAD_HINT, KNEAD_PIN, KNEAD_IDLE_DEMOTE -/

def chkKnead (s : State) (c : Cmd) : Option Bad := (s.ctx c.cid).extentBad (fld c.a 0 32) c.n
def effKneadHint (c : Cmd) (s : State) : State :=
  let ts := extent (fld c.a 0 32) c.n
  let s := if c.b.getLsbD 0 then
      s.each ts (fun s t =>
        if (s.tile c.cid t).tier1 ∨ (s.ctx c.cid).knead.size = 0 ∨ !s.kneadable c.cid t ∨ ((s.ctx c.cid).job? t).isSome then s
        else s.setJob c.cid t (some { kind := 0, cause := 0, tag := some c.tag }))
    else
      s.each ts (fun s t =>
        if !(s.tile c.cid t).tier1 ∨ (s.tile c.cid t).pin1 then s
        else s.askPromotion c.cid t 0 (some c.tag) c.deadline)
  s.hintDone c.cid c.tag
/-- KNEAD_HINT (R383). -/
def execKneadHint (c : Cmd) (s : State) : Host.Outcome State Fault Refusal :=
  .next (s.runCmd 0x70 noFields chkKnead bytesExtent noTake effKneadHint c)

/-- One tile's pin; whether it changed. -/
def TileRec.setPin (r : TileRec) (pin tier1 : Bool) : TileRec :=
  if pin then { r with pin0 := !tier1, pin1 := tier1 }
  else if tier1 then { r with pin1 := false } else { r with pin0 := false }
def effKneadPin (c : Cmd) (s : State) : State :=
  let ts := extent (fld c.a 0 32) c.n
  let pin := c.b.getLsbD 0
  let one := c.b.getLsbD 1
  let n := (ts.filter (fun t => (s.tile c.cid t).setPin pin one != s.tile c.cid t)).length
  let s := s.each ts (fun s t =>
    let s := s.modTile c.cid t (fun r => r.setPin pin one)
    if pin ∧ !one then s.askPromotion c.cid t 1
    else if pin ∧ (s.ctx c.cid).knead.size ≠ 0 ∧ s.kneadable c.cid t ∧ s.atHome c.cid t then
      s.setJob c.cid t (some { kind := 0, cause := 1 })
    else s)
  (s.modAdm c.cid c.tag (fun a => { a with done := c.n })).done c n
/-- KNEAD_PIN (R383). -/
def execKneadPin (c : Cmd) (s : State) : Host.Outcome State Fault Refusal :=
  .next (s.runCmd 0x71 noFields chkKnead noBytes noTake effKneadPin c)

/-- KNEAD_IDLE_DEMOTE (R384): a tile idle for 2^IDLE_LOG2 frames becomes a candidate. -/
def execKneadIdleDemote (ctx : BitVec 4) (t : Nat) (s : State) : Host.Outcome State Fault Refusal :=
  let c := ctx.toNat
  let k := (s.ctx c).knead
  if s.running && s.hasKnead && k.size ≠ 0 && k.idleLog ≠ 0 && (s.tile? c t).isSome
      && decide (2 ^ k.idleLog ≤ (s.tile c t).idle.toNat) && s.kneadable c t && s.atHome c t then
    .next (s.setJob c t (some { kind := 0, cause := 2 }))
  else .next s

/-! ### KNEAD_POLICY (R376, R377) -/

def windowOf (w : Word) : Nat × Nat := (fld w 0 35 * 4096, fld w 35 16 * 2 ^ 30)
def overlap (a b : Nat × Nat) : Bool := decide (a.2 ≠ 0) && decide (b.2 ≠ 0) && decide (a.1 < b.1 + b.2) && decide (b.1 < a.1 + a.2)
def fieldsPolicy (s : State) (c : Cmd) : List Nat :=
  let w := windowOf (c.param 0)
  reservedBits (c.param 0) 0x00FFFFFFFFFFFFFF 32
    ++ badAt (decide (w.1 + w.2 > 2 ^ 47)
        || s.ctxs.any (fun e => e.1 != c.cid && e.2.isOpen && overlap w (windowOf e.2.knead.word))) 32
def chkPolicy (s : State) (c : Cmd) : Option Bad :=
  let x := s.ctx c.cid
  if windowOf (c.param 0) ≠ windowOf x.knead.word ∧ x.tiles.any (fun e => e.2.tier1) then conflict 8 else none
def effPolicy (c : Cmd) (s : State) : State :=
  let w := c.param 0
  let moved := decide (windowOf w ≠ windowOf (s.ctx c.cid).knead.word)
  let s := s.modCtx c.cid (fun x => { x with knead := { x.knead with
    word := w, fresh := if moved then decide ((windowOf w).2 ≠ 0) else x.knead.fresh } })
  (if moved then s.setCtxValue c.cid 105 (s.ctx c.cid).granulesUsed else s).done c 0
/-- KNEAD_POLICY. -/
def execKneadPolicy (c : Cmd) (s : State) : Host.Outcome State Fault Refusal :=
  .next (s.runCmd 0x72 fieldsPolicy chkPolicy noBytes noTake effPolicy c)

/-! ### CTX_SET_TILEMAP (R127, R377) -/

/-- The directory of N entries fits the window. -/
def Knead.fits (k : Knead) (n : Nat) : Bool := decide (k.size = 0) || decide (4096 * dirGranules n ≤ k.size)
def chkCtxSetTilemap (s : State) (c : Cmd) : Option Bad :=
  firstBad [chkSetTilemap s c, check ((s.ctx c.cid).knead.fits c.n) badRange]
/-- Each granule of a directory is stored as zero, in class M. -/
def State.clearDirectory (s : State) (c : Nat) (tag : BitVec 16) : State :=
  let k := (s.ctx c).knead
  s.each (List.range (dirGranules (s.ctx c).n)) (fun s i =>
    s.issue c .m 2 0 [(8, k.granule i)] (List.replicate 4096 0) .command tag)
def effCtxSetTilemap (c : Cmd) (s : State) : State :=
  let k := (s.ctx c.cid).knead
  let init := decide (k.size ≠ 0) && (k.fresh || (s.ctx c.cid).tiles.any (fun e => e.2.tier1))
  let s := (s.setTilemap c).modCtx c.cid (fun x => { x with knead := { x.knead with fresh := false, jobs := [] } })
  let s := s.modAdm c.cid c.tag (fun a => { a with done := c.n, aux := some (s.ctx c.cid).n })
  if init then s.clearDirectory c.cid c.tag else s.done c (sat32 (s.ctx c.cid).n)
/-- CTX_SET_TILEMAP. -/
def execCtxSetTilemap (c : Cmd) (s : State) : Host.Outcome State Fault Refusal :=
  .next (s.runCmd 0x12 noFields chkCtxSetTilemap noBytes noTake effCtxSetTilemap c)

end Sys2Proof.Machine
end

