-- ==== Sys2Proof/Machine/Export.lean ====
section
/-!
DEFINITION. Machine/Export.lean: exports and restores (R391 to R404): tiles as of a bake, records, the manifest and its seal.
-/
namespace Sys2Proof.Machine

/-- Of every class but UNCOVERED (Table 1.5): what an export takes and a restore holds. -/
def Ctx.guarded (x : Ctx) (t : Nat) : Bool := x.cover t != .uncovered
def Ctx.guardedTiles (x : Ctx) : List Nat := (mkeys x.tiles).filter x.guarded
/-- Ids count from 1 and skip 0 when they wrap. -/
def nextId (i : BitVec 32) : BitVec 32 := if i + 1 = 0 then 1 else i + 1
/-- Bytes of a record, header included. -/
def recordBytes : Nat := 65600

/-! ### EXPORT_BEGIN (R392) -/

/-- A tile has changed since the seal of the target. -/
def Ctx.changedSince (x : Ctx) (r : TileRec) : Bool :=
  r.f.isSome || r.hasOpen || (x.laterSealed && (r.sb.isSome || r.sp.isSome)) || r.erasedOpen || r.erasedSealed
    || r.proofOld.isSome || r.proofNew.isSome
/-- The open export is abandoned (R400). -/
def State.abandonExport (s : State) (c : Nat) : State :=
  if (s.ctx c).exp.open?.isNone then s
  else
    let s := (s.countCtx c 109).dropJobs (fun j => j.ctx.toNat == c && j.why == .exporting)
    s.modCtx c (fun x => let x := x.dropExport; { x with exp := { x.exp with
      open? := none, set := [], left := [], crcs := [], pieces := 0, overtaken := none, bake := none } })
def fieldsExportBegin (s : State) (c : Cmd) : List Nat :=
  let x := s.ctx c.cid
  if x.group.joined then
    badAt (decide (x.bake.committed = 0) || decide (BitVec.ofNat 32 (fld c.a 0 32) ≠ x.bake.committed)) 8
      ++ badAt (decide (fld c.b 0 32 ≠ 0) && decide ((x.exp.last.map (fun l => l.1.toNat)) ≠ some (fld c.b 0 32))) 16
  else []
def chkExportBegin (s : State) (c : Cmd) : Option Bad :=
  let x := s.ctx c.cid
  firstBad [x.notJoined, if x.stopped then conflict 6 else none, if x.rst.open?.isSome then conflict 8 else none]
/-- An EXPORT_BEGIN whose decodes have all come ends: an undecodable tile abandons the export. -/
def State.exportBegun (s : State) (c : Nat) (tag : BitVec 16) : State :=
  match s.adm? c tag with
  | none => s
  | some a =>
    if s.fab.jobs.any (fun j => j.ctx.toNat == c && j.why == .exporting) then s
    else match a.bad with
      | some b => (s.abandonExport c).finish c tag 0x0600 b
      | none => (s.judgeExport c).finish c tag 0 (((s.ctx c).exp.open?.map (fun o => o.1.toNat)).getD 0)
/-- The value of a self-erased tile as of the export's bake. -/
def State.exportDecoded (s : State) (c t : Nat) (tag : Option (BitVec 16)) (v : Option Tile) : State :=
  match tag with
  | none => s
  | some g =>
    match v with
    | some d => (s.modTile c t (fun r => { r with exCopy := some d })).exportBegun c g
    | none => (s.modAdm c g (fun a => { a with bad := some (min t (a.bad.getD t)) })).exportBegun c g
def effExportBegin (c : Cmd) (s : State) : State :=
  let k := c.cid
  let s := s.abandonExport k
  let x := s.ctx k
  let id := nextId x.exp.ids
  let full := decide (fld c.b 0 32 = 0)
  let set := (x.tiles.filter (fun e => x.guarded e.1 && (full || e.2.dirty))).map Prod.fst
  let cleared := set.filter (fun t => (mgetD x.tiles t {}).dirty && !x.changedSince (mgetD x.tiles t {}))
  let s := s.modCtx k (fun x => { x with
    exp := { x.exp with ids := id, open? := some (id, x.bake.committed, BitVec.ofNat 32 (fld c.b 0 32)), set := set, left := set,
                        crcs := [], pieces := 0, cleared := cleared, overtaken := none, bake := mget x.bake.recs x.bake.committed.toNat },
    tiles := mmap x.tiles (fun t r => { r with inExport := set.contains t, dirty := r.dirty && !cleared.contains t }) })
  let cls := if c.hint = 2 then Cls.d else .m
  let lost := set.filter (fun t => (s.tile k t).erasedOpen || (s.tile k t).erasedSealed)
  ((s.countCtx k 107).each lost (fun s t => s.askOwn k .exporting t cls (some c.tag))).exportBegun k c.tag
/-- EXPORT_BEGIN. -/
def execExportBegin (c : Cmd) (s : State) : Host.Outcome State Fault Refusal :=
  .next (s.runCmd 0x80 fieldsExportBegin chkExportBegin noBytes noTake effExportBegin c)

/-! ### Records and the manifest (R396 to R398) -/

def recordHeader (kind id index shard crc bake : Nat) : List Byte :=
  bytesOfNat 4 kind ++ bytesOfNat 4 id ++ bytesOfNat 4 index ++ bytesOfNat 4 shard ++ bytesOfNat 8 crc ++ bytesOfNat 4 bake
    ++ List.replicate 36 0
/-- A tile as of the export's bake (Table 17.1); none while a far read of it is on its way. -/
def State.exportValue (s : State) (c t : Nat) : Option Tile :=
  let x := s.ctx c
  let r := s.tile c t
  match r.exCopy with
  | some v => some v
  | none =>
    if x.cover t = .snapshot then
      match r.proofOld, r.proofNew with
      | some v, _ => some v
      | none, some v => some v
      | none, none => s.readVal c t
    else (s.readVal c t).map (· ^^^ r.freshDelta ^^^ r.openDelta ^^^ (if x.laterSealed then r.sealedDelta else 0) ^^^ deltaOf r.ex)
/-- Entry of the REGIONS table. -/
def regionEntry : Option Region → List Byte
  | some r => bytesOfNat 4 r.first ++ bytesOfNat 4 r.count ++ bytesOfNat 1 (coverCode r.cls) ++ bytesOfNat 1 r.pgroup.toNat
      ++ bytesOfNat 1 1 ++ List.replicate 5 0
  | none => List.replicate 16 0
def Ctx.regionTable (x : Ctx) : List Byte := (List.range 256).flatMap (fun i => regionEntry (mget x.regions i))
def Ctx.mapDigest (x : Ctx) : Word := digestOf (x.tiles.map (fun e => crc64 (bytesOfWord e.2.word0)))
/-- Shards of CRCs by tile: shard, tiles, digest. -/
def shardsOf (crcs : FMap Word) : List (Nat × Nat × Word) :=
  let ss := (crcs.map (fun e => e.1 / 65536)).foldl insertAsc []
  ss.map (fun k => let l := crcs.filter (fun e => e.1 / 65536 == k); (k, l.length, digestOf (l.map Prod.snd)))
/-- Die serial, as EV_READY gives it. -/
def State.serial (s : State) : Nat := fld (s.page 0) 64 64
/-- The manifest of the open export (Table 17.3), its seal last. -/
def State.manifest (s : State) (c : Nat) (id bake parent : BitVec 32) : List Byte :=
  let x := s.ctx c
  let r : BakeRec := x.exp.bake.getD { step := 0, e := 0, g := 0, c := 0, seed := 0 }
  let shards := shardsOf x.exp.crcs
  let recs := r.contrib.filter (fun e => e.2.step == r.step)
  let len := 4256 + 16 * shards.length + 8 * recs.length
  let stamp := if parent = 0 then 0 else (x.exp.last.map (fun l => l.2.toNat)).getD 0
  let l := bytesOfNat 4 1 ++ bytesOfNat 4 id.toNat ++ bytesOfNat 4 parent.toNat ++ bytesOfNat 4 bake.toNat ++ bytesOfNat 8 r.step.toNat
    ++ bytesOfNat 32 stamp ++ bytesOfNat 1 c ++ bytesOfNat 1 x.own ++ bytesOfNat 1 (bit x.foreign)
    ++ bytesOfNat 1 s.presentSlices.length ++ bytesOfNat 4 s.boot.version.toNat ++ bytesOfNat 8 s.serial
    ++ bytesOfWord x.mapDigest ++ bytesOfNat 4 x.n ++ bytesOfNat 4 x.exp.set.length ++ bytesOfNat 4 shards.length
    ++ bytesOfNat 4 recs.length ++ bytesOfNat 1 r.e.toNat ++ bytesOfNat 1 (bit r.verBit) ++ [0, 0]
    ++ bytesOfNat 4 r.g.toNat ++ bytesOfNat 4 r.c.toNat ++ bytesOfNat 8 r.seed.toNat ++ bytesOfNat 4 len ++ bytesOfNat 8 0
    ++ x.regionTable
    ++ shards.flatMap (fun k => bytesOfNat 4 k.1 ++ bytesOfNat 4 k.2.1 ++ bytesOfWord k.2.2)
    ++ recs.flatMap (fun e => bytesOfNat 4 e.1 ++ bytesOfNat 4 e.2.q.toNat)
  l ++ sha256 l

/-! ### EXPORT_NEXT (R397) -/

def fieldsExportNext (s : State) (c : Cmd) : List Nat :=
  let e := (s.ctx c.cid).exp
  let id := fld c.a 0 32
  badAt (decide (e.open?.map (fun o => o.1.toNat) ≠ some id) && decide (e.last.map (fun l => l.1.toNat) ≠ some id)) 8
def chkExportNext (s : State) (c : Cmd) : Option Bad :=
  let e := (s.ctx c.cid).exp
  let mine := decide (e.open?.map (fun o => o.1.toNat) = some (fld c.a 0 32))
  firstBad [check (s.bufferOk c.b (recordBytes * c.n)) badRange,
    if mine then e.overtaken.map (fun d => (0x0201, d)) else none]
/-- One tile record at a buffer address. -/
def State.writeRecord (s : State) (c at_ t : Nat) (id bake : BitVec 32) (v : Tile) (cls : Cls) : State :=
  let k := tileCrc v
  let s := s.portDie at_ (recordHeader 1 id.toNat t (t / 65536) k.toNat bake.toNat ++ bytesOfTile v)
  let s := s.modCtx c (fun x => { x with
    tiles := (match mget x.tiles t with
      | some r => mset x.tiles t { r with ex := none, exCopy := none, inExport := false }
      | none => x.tiles),
    exp := { x.exp with left := x.exp.left.erase t, crcs := mset x.exp.crcs t k } })
  ((s.countCtx c 111).serveTile c t cls 131136).endRead c t
/-- Tile records in ascending order until the count or the set is exhausted, a far read is awaited, or the tile's piece has not been
issued. -/
def State.exportTiles (s : State) (c : Nat) (tag : BitVec 16) (id bake : BitVec 32) : Nat → State
  | 0 => s
  | f + 1 =>
    match s.adm? c tag, (s.ctx c).exp.left with
    | some a, t :: _ =>
      if a.done ≥ a.c.n ∨ !s.granted (workClass (rowOf a.op) a.c) c (some tag) t then s
      else match s.exportValue c t with
        | none => s.askRead c t (workClass (rowOf a.op) a.c) a.c.deadline
        | some v =>
          ((s.writeRecord c (a.c.b.toNat + recordBytes * a.done) t id bake v (workClass (rowOf a.op) a.c)).modAdm c tag (fun a => { a with done := a.done + 1 })).exportTiles
            c tag id bake f
    | _, _ => s
/-- The export is the context's last complete one (R397). -/
def State.exportDone (s : State) (c : Nat) (id bake : BitVec 32) (stamp : BitVec 256) : State :=
  let n := (s.ctx c).exp.set.length
  let shards := (shardsOf (s.ctx c).exp.crcs).length
  let s := s.modCtx c (fun x => { x with
    tiles := mmap x.tiles (fun _ r => { r with inExport := false, ex := none, exCopy := none }),
    exp := { x.exp with open? := none, set := [], left := [], crcs := [], pieces := 0, cleared := [], bake := none, last := some (id, stamp) } })
  ((s.relieveAll c).countCtx c 108).emit 0x0090 1 (some c) [(0, id.toNat), (4, bake.toNat), (8, n), (12, shards)]
/-- Manifest pieces, once every tile has been written. -/
def State.exportPieces (s : State) (c : Nat) (tag : BitVec 16) (id bake parent : BitVec 32) : State :=
  let m := s.manifest c id bake parent
  let n := ceilDiv m.length 65536
  let k := (s.ctx c).exp.pieces
  match s.adm? c tag with
  | none => s
  | some a =>
    let take := min (n - k) (a.c.n - a.done)
    let s := s.each (List.range take) (fun s i =>
      let d := padTo 65536 ((m.drop (65536 * (k + i))).take 65536)
      s.portDie (a.c.b.toNat + recordBytes * (a.done + i))
        (recordHeader 2 id.toNat (k + i) n (crc64 d).toNat bake.toNat ++ d))
    let s := (s.countCtx c 112 take).modAdm c tag (fun a => { a with done := a.done + take })
    let s := s.modCtx c (fun x => { x with exp := { x.exp with pieces := k + take } })
    if k + take = n then s.exportDone c id bake (BitVec.ofNat 256 (natOfBytes (m.drop (m.length - 32)))) else s
/-- EXPORT_NEXT's work, as far as it can go now. -/
def State.runExport (s : State) (c : Nat) (tag : BitVec 16) : State :=
  match s.adm? c tag, (s.ctx c).exp.open? with
  | some a, some (id, bake, parent) =>
    if id.toNat ≠ fld a.c.a 0 32 then s.finish c tag 0 a.done
    else match (s.ctx c).exp.overtaken with
      | some d => s.finish c tag 0x0201 d
      | none =>
        let s := s.exportTiles c tag id bake (a.c.n + 1)
        let s := if (s.ctx c).exp.left.isEmpty then s.exportPieces c tag id bake parent else s
        match s.adm? c tag with
        | none => s
        | some a => if a.done ≥ a.c.n ∨ (s.ctx c).exp.open?.isNone then s.finish c tag 0 a.done else s
  | some a, none => s.finish c tag 0 a.done
  | none, _ => s
def effExportNext (c : Cmd) (s : State) : State := s.runExport c.cid c.tag
def bytesExport (s : State) (c : Cmd) : List (Nat × Nat) :=
  s.bytesBySlice c.cid 65536 ((s.ctx c.cid).exp.left.take c.n)
/-- EXPORT_NEXT. -/
def execExportNext (c : Cmd) (s : State) : Host.Outcome State Fault Refusal :=
  .next (s.runCmd 0x81 fieldsExportNext chkExportNext bytesExport noTake effExportNext c)

/-! ### RESTORE_BEGIN (R399) -/

def sealOf (c : Cmd) : BitVec 256 :=
  BitVec.ofNat 256 ((List.range 4).foldl (fun a i => a + (c.param i).toNat * 2 ^ (64 * i)) 0)
def fieldsRestoreBegin (s : State) (c : Cmd) : List Nat := badAt (c.a.getLsbD 0 != (s.ctx c.cid).foreign) 8
def chkRestoreBegin (s : State) (c : Cmd) : Option Bad :=
  let x := s.ctx c.cid
  firstBad [if x.exp.open?.isSome then conflict 8 else none, x.verdictBad,
    if x.bake.sealed ≠ 0 then some (0x0402, x.bake.sealed.toNat) else none]
/-- A context that has joined a group gives up its bakes, its records and its crust. -/
def Ctx.giveUpBakes (x : Ctx) : Ctx :=
  let x := x.newForming
  { x with
    tiles := mmap x.tiles (fun _ r => { r with
      f := none, o := none, p := none, sb := none, sp := none, erasedOpen := false, erasedSealed := false, damaged := false, proofOld := none, proofNew := none, proofLost := false, owesBake := false,
      ret := if r.ret = .trapped ∧ r.owed = 0 then r.base else r.ret }),
    ledger := [],
    group := { x.group with crust := mmap x.group.crust (fun _ _ => {}) },
    bake := { x.bake with committed := 0, recs := [], due := none, deferred := false, levels := [], toShip := [], part := [], fullTiles := [],
                          leaving := [], was := [], commitAdd := 0, rackDone := false } }
/-- The restore opens as its command passes its checks. -/
def takeRestoreBegin (c : Cmd) (s : State) : State :=
  let k := c.cid
  let s := s.countCtx k 117 (bit (s.ctx k).rst.open?.isSome)
  let s := s.modCtx k (fun x => { x with rst := { x.rst with
    ids := nextId x.rst.ids, open? := some (nextId x.rst.ids, sealOf c), pieces := [], passed := false, failed := false, holding := true,
    tiles := [] } })
  s.modAdm k c.tag (fun a => { a with aux := some (s.ctx k).rst.ids.toNat })
def effRestoreBegin (c : Cmd) (s : State) : State :=
  let k := c.cid
  let s := s.each (s.ctx k).guardedTiles (fun s t => s.holdTile k t .restore)
  let s := if (s.ctx k).group.joined then ((s.modCtx k Ctx.giveUpBakes).relieveAll k).dropJobs (fun j => j.ctx.toNat == k) else s
  let s := (s.modCtx k (fun x => { x with tiles := mmap x.tiles (fun _ r => { r with crc := none }) })).countCtx k 115
  match s.adm? k c.tag with
  | some a => s.done c (a.aux.getD 0)
  | none => s
/-- RESTORE_BEGIN. -/
def execRestoreBegin (c : Cmd) (s : State) : Host.Outcome State Fault Refusal :=
  .next (s.runCmd 0x82 fieldsRestoreBegin chkRestoreBegin noBytes takeRestoreBegin effRestoreBegin c)

/-! ### RESTORE_NEXT (R401, R402) -/

def fieldsRestoreId (s : State) (c : Cmd) : List Nat :=
  badAt (decide ((s.ctx c.cid).rst.open?.map (fun o => o.1.toNat) ≠ some (fld c.a 0 32))) 8
def chkRestoreNext (s : State) (c : Cmd) : Option Bad :=
  let x := s.ctx c.cid
  firstBad [check (s.bufferOk c.b (recordBytes * c.n)) badRange, if x.rst.failed then some (0x0601, 0xFFFFFFFF) else none]
/-- The manifest's bytes, once every piece is there. -/
def Restore.bytes (r : Restore) : List Byte := (mvals r.pieces).flatMap id
def numAt (l : List Byte) (off n : Nat) : Nat := natOfBytes ((l.drop off).take n)
def manLen (m : List Byte) : Nat := numAt m 116 4
/-- The checks of R402. -/
def Ctx.manifestOk (x : Ctx) (stamp : BitVec 256) (m : List Byte) : Bool :=
  let len := manLen m
  let sum := BitVec.ofNat 256 (natOfBytes (sha256 (m.take (len - 32))))
  decide (4256 ≤ len) && decide (len ≤ m.length) && decide (numAt m (len - 32) 32 = sum.toNat) && sum == stamp
    && decide (numAt m 0 4 = 1) && decide (numAt m 80 4 = x.n) && decide ((m.drop 128).take 4096 = x.regionTable)
    && (!x.foreign || decide (numAt m 72 8 = x.mapDigest.toNat))
    && (decide (numAt m 8 4 = 0) || decide (x.rst.parentSeal = some (BitVec.ofNat 256 (numAt m 24 32))))
/-- How taking a record ends: the next one, a wait for the tile to be at home, or the command's end. -/
inductive Take where
  | more (s : State) | wait (s : State) | stop (status detail : Nat) (s : State)
/-- A manifest piece: kept, and with the last one the manifest is checked. -/
def State.takePiece (s : State) (c index pieces : Nat) (d : List Byte) : Take :=
  let x := s.ctx c
  let s := s.modCtx c (fun x => { x with rst := { x.rst with pieces := mset x.rst.pieces index d } })
  let r := (s.ctx c).rst
  if !(List.range pieces).all (fun i => (mget r.pieces i).isSome) then .more s
  else if x.manifestOk ((r.open?.map Prod.snd).getD 0) r.bytes then .more (s.modCtx c (fun x => { x with rst := { x.rst with passed := true } }))
  else .stop 0x0601 0xFFFFFFFF ((s.modCtx c (fun x => { x with rst := { x.rst with failed := true } })).countCtx c 118)
/-- A tile is written through the engine's port, its CRC kept; a hold for a mend or a rebuild of it ends. -/
def State.restoreTile (s : State) (c t : Nat) (v : Tile) (crc : Word) (tag : BitVec 16) : State :=
  let cls := ((s.adm? c tag).map (fun a => workClass (rowOf a.op) a.c)).getD .m
  let s := (s.portWrite c t v).serveTile c t cls 131136
  let s := s.modTile c t (fun r => { r with crc := some crc, dirty := true, unbuilt := false })
  let s := ((s.unholdTile c t .unbuilt).unholdTile c t .mendFailed).unholdTile c t .mend
  let s := s.modCtx c (fun x => { x with rst := { x.rst with tiles := mset x.rst.tiles t crc } })
  s.modAdm c tag (fun a => { a with aux := some (a.aux.getD 0 + 1) })
/-- One staged record. -/
def State.takeRecord (s : State) (c at_ : Nat) (tag : BitVec 16) : Take :=
  let l := s.readDie at_ recordBytes
  let d := l.drop 64
  let kind := numAt l 0 1
  let index := numAt l 8 4
  let shard := numAt l 12 4
  let crc := BitVec.ofNat 64 (numAt l 16 8)
  let r := (s.ctx c).rst
  let m := r.bytes
  let known := !r.pieces.isEmpty
  let foreign := known && (decide (numAt l 4 4 ≠ numAt m 4 4) || decide (numAt l 24 4 ≠ numAt m 12 4)) && r.passed
  if kind ≠ 1 ∧ kind ≠ 2 then .stop 0x0302 16 s
  else if kind = 1 ∧ !r.passed then .stop 0x0601 0xFFFFFFFF s
  else if foreign then .stop 0x0302 16 s
  else if kind = 1 ∧ !(s.ctx c).guarded index then .stop 0x0303 index s
  else if crc64 d ≠ crc then .stop 0x0601 shard (s.countCtx c 121)
  else if kind = 2 then
    if r.passed then .more (s.countCtx c 120) else s.takePiece c index shard d
  else if (mget r.tiles index).isSome then .more (s.countCtx c 120)
  else if (s.tile c index).tier1 then .wait (s.askPromotion c index 3 (some tag))
  else .more (s.restoreTile c index (tileOfBytes d) crc tag)
/-- What a command does after a record: goes on with the next, waits, or ends. -/
def Take.andThen (r : Take) (c : Nat) (tag : BitVec 16) (next : State → State) : State :=
  match r with
  | .more s => next s
  | .wait s => s
  | .stop st d s => s.finish c tag st d
/-- Records in staged order, as far as their pieces are issued and they can be taken now; `done` counts those taken, `aux` the tiles written. -/
def State.runRestore (s : State) (c : Nat) (tag : BitVec 16) : Nat → State
  | 0 => s
  | f + 1 =>
    match s.adm? c tag with
    | none => s
    | some a =>
      if a.done ≥ a.c.n then s.finish c tag 0 (a.aux.getD 0)
      else if !s.granted (workClass (rowOf a.op) a.c) c (some tag) a.done then s
      else (s.takeRecord c (a.c.b.toNat + recordBytes * a.done) tag).andThen c tag (fun s =>
        ((s.countCtx c 119).modAdm c tag (fun a => { a with done := a.done + 1 })).runRestore c tag f)
def effRestoreNext (c : Cmd) (s : State) : State := s.runRestore c.cid c.tag (c.n + 1)
def bytesRestore (_ : State) (c : Cmd) : List (Nat × Nat) := [(addrSlice c.b.toNat, 65536 * c.n)]
/-- RESTORE_NEXT. -/
def execRestoreNext (c : Cmd) (s : State) : Host.Outcome State Fault Refusal :=
  .next (s.runCmd 0x83 fieldsRestoreId chkRestoreNext bytesRestore noTake effRestoreNext c)

/-! ### RESTORE_COMMIT (R403, R404) -/

def manShards (m : List Byte) : List (Nat × Nat × Word) :=
  (List.range (numAt m 88 4)).map (fun i =>
    (numAt m (4224 + 16 * i) 4, numAt m (4228 + 16 * i) 4, BitVec.ofNat 64 (numAt m (4232 + 16 * i) 8)))
def manRecords (m : List Byte) : FMap Contrib :=
  let base := 4224 + 16 * numAt m 88 4
  (List.range (numAt m 92 4)).foldl (fun l i =>
    mset l (numAt m (base + 8 * i) 4) ⟨BitVec.ofNat 64 (numAt m 16 8), BitVec.ofNat 32 (numAt m (base + 8 * i + 4) 4)⟩) []
/-- The first shard that fails its check. -/
def Restore.badShard (r : Restore) : Option Nat :=
  let m := r.bytes
  let have_ := shardsOf r.tiles
  let listed := manShards m
  match listed.find? (fun k => match have_.find? (fun h => h.1 == k.1) with
      | some h => decide (h.2 ≠ k.2)
      | none => true) with
  | some k => some k.1
  | none => (have_.find? (fun h => !listed.any (fun k => k.1 == h.1))).map (fun h => h.1)
/-- What the manifest restores (R403), and the seal it makes due in a group (R404). -/
def Ctx.restoreFrom (x : Ctx) (m : List Byte) : Ctx :=
  let step := BitVec.ofNat 64 (numAt m 16 8)
  let recs := manRecords m
  let stamp := BitVec.ofNat 256 (numAt m (manLen m - 32) 32)
  { x with
    e := BitVec.ofNat 8 (numAt m 96 1), g := BitVec.ofNat 32 (numAt m 100 4), c := BitVec.ofNat 32 (numAt m 104 4),
    seed := BitVec.ofNat 64 (numAt m 108 8), verBit := decide (numAt m 97 1 % 2 = 1), ordinal := 0, predicted := [],
    highStep := (match x.highStep, x.lastStep with
      | some h, some l => some (if h.toNat < l.toNat then l else h)
      | none, l => l
      | h, none => h),
    lastStep := some step, lastClean := some step, stopped := false,
    tiles := mmap x.tiles (fun t r => { r with
      contrib := mget recs t, other := false, dirty := false, owesBake := decide (x.cover t = .snapshot) && !r.unbuilt }),
    exp := { x.exp with last := some (BitVec.ofNat 32 (numAt m 4 4), stamp) },
    rst := { x.rst with open? := none, pieces := [], passed := false, holding := false, tiles := [], parentSeal := some stamp },
    bake := if x.group.joined then { x.bake with full := true, restoreDue := true, sLast := step } else x.bake }
def chkRestoreCommit (s : State) (c : Cmd) : Option Bad :=
  let r := (s.ctx c.cid).rst
  if r.failed ∨ !r.passed then some (0x0601, 0xFFFFFFFF) else none
/-- The working copies that a commit recasts must be at home first. -/
def State.runCommit (s : State) (c : Nat) (tag : BitVec 16) : State :=
  let r := (s.ctx c).rst
  let m := r.bytes
  let v := decide (numAt m 97 1 % 2 = 1)
  let need := (s.recastable c).flatMap (s.recastTiles c v)
  match r.badShard with
  | some k => (s.countCtx c 122).finish c tag 0x0601 k
  | none =>
    if !(s.running && s.locked) then s
    else if !need.all (fun u => !(s.tile c u).tier1) then s.each need (fun s u => s.askPromotion c u 3 (some tag))
    else
      let n := r.tiles.length
      let s := s.modCtx c (fun x => x.restoreFrom m)
      let step := ((s.ctx c).lastStep).getD 0
      let s := s.each (s.recastable c) (fun s t => (s.recast c t step (s.ctx c).verBit).1)
      let s := s.each (s.ctx c).guardedTiles (fun s t =>
        (if (s.tile c t).owesBake then s.trap c t else s).unholdTile c t .restore)
      (s.countCtx c 116).finish c tag 0 n
def effRestoreCommit (c : Cmd) (s : State) : State :=
  match chkRestoreCommit s c with
  | some e => s.finish c.cid c.tag e.1 e.2
  | none => s.runCommit c.cid c.tag
/-- RESTORE_COMMIT. -/
def execRestoreCommit (c : Cmd) (s : State) : Host.Outcome State Fault Refusal :=
  .next (s.runCmd 0x84 fieldsRestoreId noCheck noBytes noTake effRestoreCommit c)

end Sys2Proof.Machine
end

