-- ==== Sys2Proof/Machine/Branch.lean ====
section
/-!
DEFINITION. Machine/Branch.lean: branches, copy-on-write pictures of one region (R406 to R417).
-/
namespace Sys2Proof.Machine

/-! ### Space (R409) and use -/

/-- Branch space of a slice that no branch has reserved: a joined context's share of the proof pool less the reserve of
R300, another context's whole share. -/
def State.freeBranch (s : State) (c i : Nat) : Nat :=
  let kept := if (s.ctx c).group.joined then max (2 * s.tilesOn c i (· == .snapshot)) (s.bakeCopies c i) else 0
  s.poolOn c 1 i - kept - s.branchTiles c i
/-- Tiles of a list on each present slice. -/
def State.bySlice (s : State) (c : Nat) (ts : List Nat) : FMap Nat :=
  s.presentSlices.foldl (fun m i =>
    let n := (ts.filter (fun t => (s.tile c t).slice == i)).length
    if n = 0 then m else mset m i n) []
/-- Tiles by which the slices fall short of a region's reservation, summed. -/
def State.branchShort (s : State) (c : Nat) (ts : List Nat) : Nat :=
  sum ((s.bySlice c ts).map (fun e => e.2 - s.freeBranch c e.1))
/-- A slice has one of the four HOLD_REGION entries free (R64, R79). -/
def Slice.holdFree (sl : Slice) : Bool :=
  ((List.range Config.allRanges).drop Config.generalRanges).any (fun i => (mget sl.ranges i).isNone)
/-- An entry is free on every slice that holds tiles of a list. -/
def State.holdsFree (s : State) (c : Nat) (ts : List Nat) : Bool := (s.bySlice c ts).all (fun e => (s.slice e.1).holdFree)
/-- DEFERRED until an entry frees: the command has not begun (R79). -/
def State.awaitHold (s : State) (c : Cmd) : State :=
  (s.defer c.cid c.tag (s.frames.frame + 1)).modAdm c.cid c.tag (fun a => { a with begun := false })
/-- The branch that a command on a live branch names. -/
def branchOf (op : Byte) (c : Cmd) : Nat := if op = 0x92 then fld c.a 0 6 else fld c.b 0 6
/-- An admitted command names the branch (Table 18.1). -/
def State.branchBusy (s : State) (b : Nat) : Bool :=
  s.link.admitted.any (fun a => (a.op == 0x90 || a.op == 0x91 || a.op == 0x92 || a.op == 0x93) && branchOf a.op a.c == b)
/-- The live branch of a number that a context took. -/
def State.branch? (s : State) (c b : Nat) : Option Branch :=
  (mget s.branches b).bind (fun x => if x.ctx.toNat = c then some x else none)
def Cover.branchable : Cover → Bool
  | .snapshot => true | .uncovered => true | _ => false
/-- The first tile of a region whose class no branch takes (R406). -/
def Region.branchBad (r : Region) : Option Bad := check r.cls.branchable (0x0303, r.first)
/-- STATE_CONFLICT of Table 18.1: a stopped context, a restore. -/
def Ctx.branchConflict (x : Ctx) : Option Bad :=
  firstBad [if x.stopped then conflict 6 else none, if x.rst.holding then conflict 8 else none]
def State.branchEvent (s : State) (c b st region n : Nat) : State :=
  s.emit 0x00A0 0 (some c) [(0, b), (1, st), (2, region), (4, n)]

/-! ### BRANCH_TAKE (R410, R411) -/

def fieldsBranchTake (s : State) (c : Cmd) : List Nat := badAt (mget (s.ctx c.cid).regions (fld c.a 0 8)).isNone 8
def chkBranchTake (s : State) (c : Cmd) : Option Bad :=
  let k := c.cid
  let r := s.region k (fld c.a 0 8)
  let b := fld c.b 0 6
  let short := s.branchShort k r.tiles
  firstBad [r.branchBad, (s.ctx k).branchConflict,
    if (mget s.branches b).isSome || s.branchBusy b || r.change.isSome then conflict 8 else none,
    check (decide (short = 0)) (refusedPool 1 short)]
/-- The tile owes a copy to a branch, and is trapped, or will be when its hold ends (R407, R411). -/
def State.oweBranch (s : State) (c b t : Nat) : State :=
  (s.modTile c t (fun r => { r with owed := r.owed ||| BitVec.ofNat 64 (2 ^ b) })).trap c t
def effBranchTake (c : Cmd) (s : State) : State :=
  let k := c.cid
  let n := fld c.a 0 8
  let b := fld c.b 0 6
  let ts := (s.region k n).tiles
  let short := s.branchShort k ts
  if short ≠ 0 then
    let e := refusedPool 1 short
    (s.countCtx k 127).finish k c.tag e.1 e.2
  else if !s.holdsFree k ts then s.awaitHold c
  else
    let s := { s with branches := mset s.branches b { ctx := c.ctx, region := n, space := s.bySlice k ts } }
    let s := (s.each ts (fun s t => s.oweBranch k b t)).countCtx k 123
    ((s.branchEvent k b 0 n ts.length).modAdm k c.tag (fun a => { a with done := ts.length })).done c ts.length
/-- A take refused for branch space is counted (R418). -/
def State.countRefused (s t : State) (c : Cmd) : State :=
  let refusal := fun (f : Flit) => match f with
    | .reply r => r.opcode == 0x90 && r.status == 0x0201 && r.tag == c.tag && r.ctx == c.ctx
    | .event _ => false
  if (t.link.outq.drop s.link.outq.length).any refusal then t.countCtx c.cid 127 else t
/-- BRANCH_TAKE. -/
def execBranchTake (c : Cmd) (s : State) : Host.Outcome State Fault Refusal :=
  .next (s.countRefused (s.runCmd 0x90 fieldsBranchTake chkBranchTake noBytes noTake effBranchTake c) c)

/-! ### BRANCH_RESTORE (R412) -/

/-- The engine can write a tile whole now: it is at home and no move, mend or rebuild has it. -/
def State.settled (s : State) (c t : Nat) : Bool :=
  !(s.tile c t).tier1 && ((s.ctx c).job? t).isNone && !s.heldFor c t .mend && !s.heldFor c t .unbuilt
/-- The tiles to be written are brought home first; the command has not begun (R373, Table 18.1). -/
def State.awaitSettled (s : State) (c : Cmd) (ts : List Nat) : State :=
  (s.each ts (fun s t => if (s.tile c.cid t).tier1 then s.askPromotion c.cid t 2 else s.abandonDemotion c.cid t)).modAdm
    c.cid c.tag (fun a => { a with begun := false })
/-- Damage ends the command before any effect; a branch that is gone cannot be named. -/
def State.damagedEnd (s : State) (c : Cmd) (b : Branch) : Option State :=
  b.damaged.map (fun t => s.finish c.cid c.tag 0x0600 t)
def fieldsBranchRestore (s : State) (c : Cmd) : List Nat :=
  match s.branch? c.cid (fld c.b 0 6) with
  | some b => badAt (b.region != fld c.a 0 8) 8
  | none => [16]
def chkBranchUse (op : Byte) (s : State) (c : Cmd) : Option Bad :=
  firstBad [(s.ctx c.cid).branchConflict, if s.branchBusy (branchOf op c) then conflict 8 else none]
/-- One tile of a restore: every other copy it owes, then the branch's value; its copy is freed and owed again. -/
def State.resetTile (s : State) (c b t : Nat) (v : Tile) (cls : Cls) : State :=
  let s := ((s.portWrite c t v).serveTile c t cls 131072).modTile c t (fun r => { r with dirty := true })
  (s.modBranch b (fun x => { x with copies := merase x.copies t })).oweBranch c b t
def effBranchRestore (c : Cmd) (s : State) : State :=
  let k := c.cid
  let b := fld c.b 0 6
  match s.branch? k b with
  | none => s.finish k c.tag 0x0302 16
  | some br =>
    match s.damagedEnd c br with
    | some s => s
    | none =>
      let ts := mkeys br.copies
      if !(ts.all (s.settled k)) then s.awaitSettled c ts
      else if !s.holdsFree k (s.region k br.region).tiles then s.awaitHold c
      else
        let n := ts.length
        let s := s.each br.copies (fun s e => s.resetTile k b e.1 e.2 (workClass (rowOf 0x91) c))
        let s := ((s.countCtx k 124).countCtx k 129 n).branchEvent k b 1 br.region n
        (s.modAdm k c.tag (fun a => { a with done := n })).done c n
/-- Bytes of a restore: a read and a write of each copy. -/
def bytesBranchRestore (s : State) (c : Cmd) : List (Nat × Nat) :=
  match s.branch? c.cid (fld c.b 0 6) with
  | some b => s.bytesBySlice c.cid 131072 (mkeys b.copies)
  | none => []
/-- BRANCH_RESTORE. -/
def execBranchRestore (c : Cmd) (s : State) : Host.Outcome State Fault Refusal :=
  .next (s.runCmd 0x91 fieldsBranchRestore (chkBranchUse 0x91) bytesBranchRestore noTake effBranchRestore c)

/-! ### BRANCH_FORK (R413) -/

def fieldsBranchFork (s : State) (c : Cmd) : List Nat :=
  match s.branch? c.cid (fld c.a 0 6) with
  | some b => badAt (decide (fld c.b 0 8 = b.region) || (mget (s.ctx c.cid).regions (fld c.b 0 8)).isNone) 16
  | none => 8 :: badAt (mget (s.ctx c.cid).regions (fld c.b 0 8)).isNone 16
/-- Source and destination tiles of a fork, in order. -/
def State.forkPairs (s : State) (c : Nat) (b : Branch) (dest : Nat) : List (Nat × Nat) :=
  List.zip (s.region c b.region).tiles (s.region c dest).tiles
def chkBranchFork (s : State) (c : Cmd) : Option Bad :=
  let k := c.cid
  match s.branch? k (fld c.a 0 6) with
  | none => none
  | some b =>
    let d := s.region k (fld c.b 0 8)
    firstBad [d.branchBad, check (decide (d.count = (s.region k b.region).count)) (0x0303, d.first),
      ((s.forkPairs k b (fld c.b 0 8)).find? (fun p => (s.tile k p.1).slice != (s.tile k p.2).slice)).map (fun p => (0x0303, p.2)),
      chkBranchUse 0x92 s c]
/-- The branch's value at a source tile (R407); none while a far read of the live tile is on its way. -/
def State.branchValue (s : State) (c : Nat) (b : Branch) (t : Nat) : Option Tile :=
  match mget b.copies t with
  | some v => some v
  | none => s.readVal c t
def State.forkTile (s : State) (c : Nat) (b : Branch) (p : Nat × Nat) (cls : Cls) : State :=
  let s := (s.portWrite c p.2 ((s.branchValue c b p.1).getD 0)).serveTile c p.2 cls 131072
  (s.modTile c p.2 (fun r => { r with dirty := true })).endRead c p.1
def effBranchFork (c : Cmd) (s : State) : State :=
  let k := c.cid
  match s.branch? k (fld c.a 0 6) with
  | none => s.finish k c.tag 0x0302 8
  | some br =>
    match s.damagedEnd c br with
    | some s => s
    | none =>
      let ps := s.forkPairs k br (fld c.b 0 8)
      let live := (ps.map Prod.fst).filter (fun t => (mget br.copies t).isNone)
      let dests := ps.map Prod.snd
      if !(dests.all (s.settled k)) then s.awaitSettled c dests
      else if !s.holdsFree k dests then s.awaitHold c
      else s.waitRead c live (workClass (rowOf 0x92) c) fun s =>
        let n := ps.length
        let s := s.each ps (fun s p => s.forkTile k br p (workClass (rowOf 0x92) c))
        let s := ((s.countCtx k 125).countCtx k 130 n).branchEvent k (fld c.a 0 6) 2 (fld c.b 0 8) n
        (s.modAdm k c.tag (fun a => { a with done := n })).done c n
def bytesBranchFork (s : State) (c : Cmd) : List (Nat × Nat) :=
  s.bytesBySlice c.cid 131072 (s.region c.cid (fld c.b 0 8)).tiles
/-- BRANCH_FORK. -/
def execBranchFork (c : Cmd) (s : State) : Host.Outcome State Fault Refusal :=
  .next (s.runCmd 0x92 fieldsBranchFork chkBranchFork bytesBranchFork noTake effBranchFork c)

/-! ### BRANCH_DROP (R415) -/

/-- A branch is freed: its copies, its reservation and every debt owed to it. -/
def State.dropBranch (s : State) (c b : Nat) : State :=
  let owing := ((s.ctx c).tiles.filter (fun e => e.2.owed.getLsbD b)).map Prod.fst
  let s := { s with branches := merase s.branches b }
  s.each owing (fun s t =>
    let s := s.modTile c t (fun r => { r with owed := r.owed &&& ~~~(BitVec.ofNat 64 (2 ^ b)) })
    if (s.tile c t).owes then s else s.untrap c t)
def fieldsBranchDrop (s : State) (c : Cmd) : List Nat := badAt (s.branch? c.cid (fld c.b 0 6)).isNone 16
def effBranchDrop (c : Cmd) (s : State) : State :=
  let k := c.cid
  let b := fld c.b 0 6
  match s.branch? k b with
  | none => s.finish k c.tag 0x0302 16
  | some br =>
    let n := br.copies.length
    ((((s.dropBranch k b).countCtx k 126).branchEvent k b 3 br.region n).modAdm k c.tag (fun a => { a with done := n })).done c n
/-- BRANCH_DROP. -/
def execBranchDrop (c : Cmd) (s : State) : Host.Outcome State Fault Refusal :=
  .next (s.runCmd 0x93 fieldsBranchDrop (chkBranchUse 0x93) noBytes noTake effBranchDrop c)

end Sys2Proof.Machine
end

