-- ==== Sys2Proof/Machine/Decoded.lean ====
section
/-!
DEFINITION. Machine/Decoded.lean: decode requests on their way (R319 to R322): sending them, the answers that make the requester ask
again, the parts that come back, and what each decoded tile is for.
-/
namespace Sys2Proof.Machine

/-- A decode ends: with the tile's value as of its bake, or with none where the offset is undecodable. -/
def State.finishJob (s : State) (j : DecodeJob) (v : Option Tile) : State :=
  let c := j.ctx.toNat
  let s := s.dropJobs (fun k => k.id == j.id)
  match j.why with
  | .mend => s.mendDone c j.tile v
  | .rebuild => s.rebuildDecoded c j.tile v
  | .crust => s.crustDecoded c (BitVec.ofNat 32 (j.tile / 32 / 4)) (j.tile / 32 % 4) (j.tile % 32) v
  | .drain => s.drainDecoded c j.tile v
  | .exporting => s.exportDecoded c j.tile j.tag v
  | .promote => s.promoteDecoded c j.tile v
  | .rollback => match j.tag with
    | some g => (s.rollbackDecoded c j.tile g v).runRollback c g
    | none => s

/-! ### Requests (R319, R320) -/

/-- Send a decode's requests, one for each contributor; none are needed where every slot is phantom, and with fewer than k
slots the offset is undecodable. -/
def State.sendDecode (s : State) (j : DecodeJob) : State :=
  let c := j.ctx.toNat
  let x := s.ctx c
  match x.group.cfg with
  | none => s
  | some g =>
    let bake := x.bake.committed
    let first := j.avail.isEmpty
    let av := x.available g j.batch j.lost j.refused
    let cs := x.group.contributors g j.batch av
    if av.length < g.k then s.finishJob j none
    else if cs.isEmpty then s.finishJob j (some 0)
    else
      let s := s.modDecode j.id (fun k => { k with bake := bake, avail := av, parts := [], again := false })
      let s := s.countCtx c (if first then 69 else 70)
      s.each cs (fun s e => s.issue c j.cls 0x12 e.2
        [(8, j.batch.toNat), (12, bake.toNat), (16, j.lost), (17, j.offset), (18, 1), (20, (slotMask av).toNat), (24, x.own)]
        [] (.decode j.id))
/-- A decode's requests wait to leave: new ones, those refused or timed out, and those of a rollback target that has moved (R319:
among them the ones answered stale). -/
def State.jobWaits (s : State) (j : DecodeJob) : Bool :=
  (s.ctx j.ctx.toNat).group.joined && (j.again || (s.ctx j.ctx.toNat).bake.committed != j.bake)
/-- With a plan, the requests leave whose pieces it issued. -/
def State.pumpJobs (s : State) : State :=
  s.each s.fab.jobs (fun s j =>
    match s.fab.jobs.find? (fun k => k.id == j.id) with
    | none => s
    | some j => if s.jobWaits j && s.granted j.cls j.ctx.toNat j.tag j.tile then s.sendDecode j else s)

/-! ### Answers to a request (R319, R322, Table 15.3) -/

/-- Slots that a position holds in a batch. -/
def GroupCfg.slotsAt (g : GroupCfg) (b : BitVec 32) (p : Nat) : List Nat :=
  (List.range (g.k + g.m)).filter (fun y => g.posOf (slotMember g (batchB b) y) == p)
/-- A contributor answers a decode request. DONE: its product is on its way. STALE: the request waits until the rollback target
has moved. UNAVAILABLE and NOT_JOINED: its slot leaves A. -/
def State.decodeAnswered (s : State) (id from_ status : Nat) : State :=
  match s.fab.jobs.find? (fun j => j.id == id) with
  | none => s
  | some j =>
    let c := j.ctx.toNat
    if status = 3 then s.countCtx c 71
    else if status = 4 ∨ status = 5 then
      let gone := ((s.ctx c).group.cfg.map (fun g => g.slotsAt j.batch from_)).getD []
      (s.countCtx c 72).modDecode id (fun j => { j with refused := j.refused ++ gone, again := true })
    else s
/-- A hop of a decode timed out: the whole request goes out again with the next frame (R322). -/
def State.decodeTimedOut (s : State) (id : Nat) : State := s.modDecode id (fun j => { j with again := true })

/-! ### DECODE_PART (R321) -/

/-- A piece of a result for this member: with the last one the tile is decoded. A target that has moved since makes the requester
ask again. -/
def State.takeResult (s : State) (j : DecodeJob) (mask : BitVec 32) (piece : Nat) (l : List Byte) : State :=
  let x := s.ctx j.ctx.toNat
  match x.group.cfg with
  | none => s
  | some g =>
    if slotMask ((x.group.contributors g j.batch j.avail).map Prod.fst) ≠ mask then s
    else
      let parts := mset j.parts piece l
      let all := (List.range 16).map (fun i => 16 * i)
      if !(all.all (fun k => (mget parts k).isSome)) then s.modDecode j.id (fun j => { j with parts := parts })
      else if j.bake ≠ x.bake.committed then s.modDecode j.id (fun j => { j with parts := [], again := true })
      else s.finishJob j (some (tileOfBytes (all.flatMap (fun k => mgetD parts k []))))
/-- A part is this member's own result where it asked for that offset; else it sums it as tray head or root. -/
def State.serveDecodePart (s : State) (peel : Nat) (t : Xfer) : State :=
  let c := t.ctx
  if !(s.ctx c).group.joined then s.respond peel t 5
  else
    let s := s.respond peel t 0
    let b := BitVec.ofNat 32 (t.num 8 4)
    let bake := BitVec.ofNat 32 (t.num 12 4)
    let mask := BitVec.ofNat 32 (t.num 20 4)
    let mine := s.fab.jobs.filter (fun j => j.ctx.toNat == c && j.batch == b && j.bake == bake && j.lost == t.num 16 1 && j.offset == t.num 17 1)
    if mine.isEmpty then s.takePart c b bake (t.num 16 1) (t.num 17 1) mask (t.num 24 1) t.payload
    else s.each mine (fun s j =>
      match s.fab.jobs.find? (fun k => k.id == j.id) with
      | some j => s.takeResult j mask (t.num 24 1) t.payload
      | none => s)
/-- DECODE_PART. -/
def execDecodePart (peel : Nat) (x : Xfer) (s : State) : Host.Outcome State Fault Refusal :=
  .next (s.inRequest 0x13 peel x (fun s => s.serveDecodePart peel x))

end Sys2Proof.Machine
end

