-- ==== Sys2Proof/Machine/Errors.lean ====
section
/-!
DEFINITION. Machine/Errors.lean: what an error of a stack line does (R41, R42, R45, R67, R336, R339, R373, R426, R428): fault-once
entries, mends, remapped lines, and Table 14.4 for the tiles that the engine holds for itself.
-/
namespace Sys2Proof.Machine

/-- The gate records a tile for which it has answered HOLD, or whose read the controller has parked (R71, R73). -/
def State.parkTile (s : State) (i t : Nat) : State :=
  let r := (s.slice i).park t
  (s.modSlice i (fun _ => r.1)).countSlice i 5 (bit r.2)
/-- The line's bytes can no longer be read: what the stack holds there is unknown. -/
def State.loseLine (s : State) (i line : Nat) : State :=
  let r := s.freeTile
  { r.2 with mem := writeMem r.2.mem (i * 2 ^ 37 + line * 64) (bytesOfNat 64 r.1.toNat) }
/-- The gate writes a fault-once entry; a full list loses its oldest (R67). -/
def Slice.addFault (sl : Slice) (line : BitVec 31) : Slice × Bool :=
  let l := sl.faultOnce.filter (· != line) ++ [line]
  if l.length > Config.faultOnceMax then ({ sl with faultOnce := l.drop 1 }, true) else ({ sl with faultOnce := l }, false)
def State.faultLine (s : State) (i : Nat) (line : BitVec 31) : State :=
  let r := (s.slice i).addFault line
  (s.modSlice i (fun _ => r.1)).countSlice i 6 (bit r.2)

/-! ### Remapped lines (R426, R428) -/

/-- A line that qualifies takes the lowest free remap entry, its value in the spare line; with none free it is refused. -/
def State.remapLine (s : State) (i : Nat) (line : BitVec 31) : State :=
  match (List.range Config.remapMax).find? (fun k => (mget (s.slice i).remap k).isNone) with
  | some k =>
    let v := lineOfBytes (readMem s.mem (i * 2 ^ 37 + line.toNat * 64) 64)
    (s.modSlice i (fun sl => { sl with spare := mset sl.spare k v, remap := mset sl.remap k line })).countSlice i 64
  | none =>
    let s := s.countSlice i 65
    if (s.slice i).remapFull then s
    else (s.modSlice i (fun sl => { sl with remapFull := true })).emit 0x0082 2 none [(0, i), (4, line.toNat)]
def Slice.remapRoom (sl : Slice) : Bool := decide (sl.remap.length < Config.remapMax)
/-- A corrected line: remembered among the last 64, and remapped when it was corrected within the last 1,024 frames. -/
def State.lineCorrected (s : State) (i : Nat) (line : BitVec 31) : State :=
  let sl := s.slice i
  let again := sl.corrected.any (fun e => e.1 == line && decide ((s.frames.frame - e.2).toNat ≤ 1024))
  let l := sl.corrected.filter (fun e => e.1 != line) ++ [(line, s.frames.frame)]
  let full := decide (l.length > 64)
  let s := (s.modSlice i (fun sl => { sl with corrected := if full then l.drop 1 else l })).countSlice i 66 (bit full)
  if again ∧ s.running then s.remapLine i line else s

/-! ### The engine's own tiles (Table 14.4) -/

/-- Index of a stack tile among a pool's tiles on its slice. -/
def poolIndex (l : List (Nat × Nat)) (i t : Nat) : Option Nat := findIdx (· == t) (onSlice i l)
/-- A record lies over a line of the slice's share. -/
def Crumb.over (l : Nat) (k : Option Crumb) : Bool :=
  match k with
  | some k => decide (k.line.toNat ≤ l) && decide (l < k.line.toNat + k.lines)
  | none => false
/-- A line of the crumb pool is lost: the records over it. -/
def State.loseRecords (s : State) (c i l : Nat) : State :=
  let mine := (s.ctx c).tiles.filter (fun e => e.2.slice == i && (e.2.records.any (fun k => Crumb.over l (some k))))
  s.each mine (fun s e =>
    let r := e.2
    let s := if Crumb.over l r.f then s.modTile c e.1 (fun r => { r with damaged := true }) else s
    let s := if Crumb.over l r.o ∨ Crumb.over l r.p then s.spillTile c e.1 else s
    let s := if Crumb.over l r.sb ∨ Crumb.over l r.sp then
      s.modTile c e.1 (fun r => { r with sb := none, sp := none, erasedSealed := true }) else s
    if Crumb.over l r.ex then
      let v := s.freeTile
      v.2.modTile c e.1 (fun r => { r with ex := none, exCopy := some v.1 })
    else s)
/-- What a tile of the proof pool may hold on a slice. -/
inductive ProofTile where
  | old (t : Nat) | new (t : Nat) | ex (t : Nat) | branch (b t : Nat)
deriving DecidableEq, Repr
def State.proofHeld (s : State) (c i : Nat) : List ProofTile :=
  let ts := (s.ctx c).tiles.filter (fun e => e.2.slice == i)
  (ts.filter (fun e => e.2.proofOld.isSome)).map (fun e => ProofTile.old e.1)
    ++ (ts.filter (fun e => e.2.proofNew.isSome)).map (fun e => ProofTile.new e.1)
    ++ (ts.filter (fun e => e.2.exCopy.isSome)).map (fun e => ProofTile.ex e.1)
    ++ (s.branches.filter (fun b => b.2.ctx.toNat == c)).flatMap (fun b =>
      ((mkeys b.2.copies).filter (fun t => (s.tile c t).slice == i)).map (fun t => ProofTile.branch b.1 t))
def State.mendFailedEvent (s : State) (c t b : Nat) : State :=
  s.emit 0x0053 3 (some c) [(0, t), (4, (s.tile c t).slice), (5, 1), (8, b)]
def State.loseCopy (s : State) (c : Nat) : ProofTile → State
  | .old t => s.modTile c t (fun r => { r with proofOld := none, proofLost := true })
  | .new t =>
    let s := s.modTile c t (fun r => { r with proofNew := none, proofLost := r.proofLost || r.proofOld.isNone })
    let s := s.modCtx c (fun x => { x with bake := { x.bake with stopShip := true } })
    s.mendFailedEvent c t ((((s.ctx c).batchOfTile t).map (fun p => p.1.toNat)).getD 0xFFFFFFFF)
  | .ex t => let v := s.freeTile; v.2.modTile c t (fun r => { r with exCopy := some v.1 })
  | .branch b t =>
    let first := (mget s.branches b).any (fun x => x.damaged.isNone)
    let s := s.modBranch b (fun x => { x with damaged := some (min t (x.damaged.getD t)) })
    (s.countCtx c 132 (bit first)).mendFailedEvent c t 0xFFFFFFFF
/-- A crust tile of the slice: batch, row, home and offset. -/
def State.crustHeld (s : State) (c i : Nat) : List (BitVec 32 × Nat × Bool × Nat) :=
  let x := s.ctx c
  x.kept.flatMap (fun e =>
    let k := x.crustOf e.1 e.2
    (if s.homeSlice c e.1 e.2 0 = i then (mkeys k.h0).map (fun o => (e.1, e.2, false, o)) else [])
      ++ (if s.homeSlice c e.1 e.2 1 = i then (mkeys k.h1).map (fun o => (e.1, e.2, true, o)) else []))
/-- A committed crust tile is decoded again; a rising one is cleared, and its applied bits with it. -/
def State.loseCrust (s : State) (c : Nat) (e : BitVec 32 × Nat × Bool × Nat) : State :=
  let x := s.ctx c
  let (b, j, home, o) := e
  let k := x.crustOf b j
  if home = k.pointer then s.askCrust c b j [o] .d
  else
    let srcs := match x.group.cfg with
      | some g => ((List.range g.k).filter (fun y => (mgetD k.applied o 0).getLsbD y)).map (fun y => g.posOf (slotMember g (batchB b) y))
      | none => []
    let s := s.modCrust c b j (fun k => { k.setRis (merase k.ris o) with applied := merase k.applied o })
    s.modCtx c (fun x => { x with group := { x.group with
      applied := srcs.foldl (fun m p => mset m p (mgetD m p 0 - 1)) x.group.applied } })
/-- A line of the map store holds half the bookkeeping of one tile. -/
def State.loseBookkeeping (s : State) (c t : Nat) : State :=
  if (s.tile? c t).isNone then s
  else
    let s := if ((s.ctx c).cover t).covered ∧ (s.ctx c).group.joined then s.spillTile c t else s
    s.modTile c t (fun r => { r with other := false })
/-- One of a list, which one the spec does not say: of `n` tiles of a share the listed ones are in use. -/
def State.oneOf {α : Type} (s : State) (n : Nat) (l : List α) : State × Option α :=
  let r := s.free
  (r.2, l[r.1.toNat % max 1 n]?)
/-- An uncorrectable line of a stack tile that a context holds for itself; none where no pool or store has the tile. -/
def State.loseOwn (s : State) (i t line : Nat) : Option State :=
  s.ctxs.findSome? fun e =>
    let c := e.1
    let x := e.2
    match poolIndex x.crumb.tiles i t, poolIndex x.proof.tiles i t, poolIndex x.crustPool.tiles i t,
        findIdx (· == (i, t)) x.store with
    | some j, _, _, _ => some (s.loseRecords c i (1024 * j + line % 1024))
    | _, some _, _, _ =>
      let r := s.oneOf (s.poolOn c 1 i) (s.proofHeld c i)
      some (match r.2 with | some h => r.1.loseCopy c h | none => r.1)
    | _, _, some _, _ =>
      let r := s.oneOf (s.poolOn c 2 i) (s.crustHeld c i)
      some (match r.2 with | some h => r.1.loseCrust c h | none => r.1)
    | _, _, _, some j => some (s.loseBookkeeping c (512 * j + line % 1024 / 2))
    | _, _, _, _ => none

/-! ### An uncorrectable line (R42, R336, R339, R373) -/

/-- A tile that the engine mends: covered, or of a replica class with a replica recorded, in a context that has joined. -/
def Ctx.mendable (x : Ctx) (t : Nat) : Bool :=
  x.group.joined && (match x.regionOf t with
    | some (_, r) => r.cls.covered || (r.cls == .replica && (List.range 4).any (fun i => r.replica.getLsbD (8 * i + 7)))
    | none => false)
/-- The tile is released with an error for the request that failed (R42, R67). -/
def State.faultTile (s : State) (i t : Nat) (line : BitVec 31) (waiting : Bool) : State :=
  let s := s.loseLine i line.toNat
  let s := if waiting then (s.parkTile i t).faultLine i line else s
  let s := s.hold i t .mend
  if s.running then s.unhold i t .mend else s
/-- A line of a present slice is uncorrectable. `waiting`: the controller has parked a read of it (kind 010). -/
def State.strike (s : State) (i : Nat) (line : BitVec 31) (waiting : Bool) : State :=
  let t := lineTile line.toNat
  let sl := s.slice i
  match s.owner i t with
  | some (c, l) =>
    let x := s.ctx c
    let r := s.tile c l
    if r.tier1 then (if waiting then s.parkTile i t else s).countCtx c 106
    else if x.mendable l then
      let s := if waiting then s.parkTile i t else s
      if sl.mended.contains line && !s.heldFor c l .mend && !s.heldFor c l .mendFailed && s.running && sl.remapRoom then
        (s.remapLine i line).modSlice i (fun sl => sl.settle t)
      else
        let s := if sl.mended.contains line && !s.heldFor c l .mend && !sl.remapRoom then s.remapLine i line else s
        let s := (s.loseLine i line.toNat).modSlice i (fun sl =>
          { sl with mended := if sl.mended.contains line then sl.mended else sl.mended ++ [line] })
        s.holdTile c l .mend
    else s.faultTile i t line waiting
  | none =>
    match s.loseOwn i t line.toNat with
    | some s => (if waiting then s.parkTile i t else s).modSlice i (fun sl => sl.settle t)
    | none => s.faultTile i t line waiting
/-- Tiles held by a report that a freeze kept from being released, and that no mend is for, are released (R42, R74). -/
def State.releaseFaults (s : State) : State :=
  s.each s.presentSlices (fun s i =>
    s.each ((s.slice i).holds.filter (fun e => e.2.getLsbD 0)) (fun s e =>
      match s.owner i e.1 with
      | some (c, l) => if (s.ctx c).mendable l || (s.tile c l).damaged || (s.job? c .mend l).isSome then s else s.unhold i e.1 .mend
      | none => s.unhold i e.1 .mend))

/-! ### MC_ERROR_REPORT (R41, R42, Table 2.6) -/

def riskOfKind : Nat → Option Nat
  | 1 => some 0 | 3 => some 0 | 5 => some 1 | 6 => some 3 | 2 => some 5 | 4 => some 5
  | _ => none
/-- MC_ERROR_REPORT. -/
def execMcErrorReport (slice : Nat) (kind : BitVec 3) (line : BitVec 31) (s : State) : Host.Outcome State Fault Refusal :=
  let k := kind.toNat
  if !s.up || !s.present slice then .next s
  else
    let told := k = 2 ∧ (s.slice slice).poisoned.contains line
    let s := s.modSlice slice (fun sl => { sl with poisoned := if k = 2 then sl.poisoned.erase line else sl.poisoned })
    let s := if told then s else
      let s := s.countSlice slice (10 + k)
      match riskOfKind k with
      | some r => s.risk r 1
      | none => s
    if k = 0 ∨ 4 < k then .next s
    else if ((s.slice slice).remapOf line.toNat).isSome then .next (s.countSlice slice 8)
    else if lineTile line.toNat ≥ Config.stackTiles then .next s
    else if k = 2 ∨ k = 4 then .next (s.strike slice line (k == 2))
    else
      let s := s.lineCorrected slice line
      .next (if k = 3 then s.modSlice slice (fun sl => { sl with
        rewrites := if sl.rewrites.contains line then sl.rewrites else sl.rewrites ++ [line] }) else s)

/-! ### MEM_READ_RESPONSE (R45) -/

/-- A poisoned line counts once as kind 010. -/
def State.poisonLine (s : State) (i : Nat) (line : BitVec 31) : State :=
  let sl := s.slice i
  if sl.mended.contains line && sl.heldFor (lineTile line.toNat) .mend then s
  else
    let s := ((s.countSlice i 12).risk 5 1).modSlice i (fun sl => { sl with poisoned := sl.poisoned ++ [line] })
    if (sl.remapOf line.toNat).isSome then s.countSlice i 8 else s.strike i line false
/-- MEM_READ_RESPONSE: the read with the tag ends; the engine uses no poisoned line. -/
def execMemReadResponse (slice : Nat) (tag : BitVec 10) (data : List LineData) (poison : BitVec 32) (s : State) :
    Host.Outcome State Fault Refusal :=
  match (s.slice slice).reads.find? (fun r => r.1 == tag) with
  | none => .next s
  | some r =>
    if !s.up || !s.present slice then .next s
    else
      let s := s.modSlice slice (fun sl => { sl with reads := sl.reads.filter (fun q => q.1 != tag) })
      let bad := (List.range (min 32 data.length)).filter (fun j => poison.getLsbD j)
      .next (s.each bad (fun s j => s.poisonLine slice (r.2 + BitVec.ofNat 31 j)))

end Sys2Proof.Machine
end

