-- ==== Sys2Proof/Machine/Storage.lean ====
section
/-!
DEFINITION. Machine/Storage.lean: reads of the engine's own storage with their check (R420 to R425), the treatment of an
uncorrectable word (Table 19.2), the scrub (R423), CHECKBIT_WRITE and RAW_READ (R429, R430).
-/
namespace Sys2Proof.Machine

/-! ### Uncorrectable words (Table 19.2, R422) -/

/-- Action code of a unit. -/
def unitAction (u : Nat) : Nat := [6, 4, 5, 2, 3, 7, 1, 1, 1, 4, 4].getD u 0
/-- The content of a landing buffer's word is discarded: which crumb holds it the spec does not say. -/
def State.loseLanding (s : State) (i : Nat) : State :=
  let r := s.free
  match (s.slice i).landing[r.1.toNat % max 1 (s.slice i).landing.length]? with
  | some l => r.2.modSlice i (fun sl => { sl with landing := sl.landing.erase l })
  | none => s
/-- The line behind a spare line is treated as an uncorrectable read: the mend writes the spare line. -/
def State.loseSpare (s : State) (i k : Nat) : State :=
  match mget (s.slice i).remap k with
  | none => s
  | some line =>
    let t := lineTile line.toNat
    match s.owner i t with
    | some (c, l) => if (s.ctx c).mendable l then s.holdTile c l .mend else s.faultTile i t line false
    | none => match s.loseOwn i t line.toNat with
      | some s => s
      | none => s
def State.treatWord (s : State) (a : Nat) : State :=
  let u := iaUnit a
  let i := iaSlice a
  let w := iaWord a
  let s := (s.countUnit u i 2).emit 0x0081 3 none [(0, a), (4, u), (5, unitAction u)]
  match u with
  | 0 => s.faultFreeze 3
  | 1 => s
  | 2 => s.poisonCtr w
  | 4 => s.loseLanding i
  | 5 => s.loseSpare i (w / 8)
  | 9 => (s.modSlice i (fun sl => { sl with faultOnce := sl.faultOnce.eraseIdx w })).countSlice i 6 (bit (decide (w < (s.slice i).faultOnce.length)))
  | 6 | 7 | 8 => s.each (s.slice i).parked (fun s t => s.modSlice i (fun sl => sl.settle t))
  | 10 => s.modSlice i (fun sl => { sl with parked := sl.parked.eraseIdx w, overflow := true })
  | _ => s

/-! ### A read of a word (R420, R423) -/

/-- A gate table, whose words the sequencer rewrites from its own records (R422). -/
def gateTable (u : Nat) : Bool := decide (6 ≤ u) && decide (u ≤ 8)
/-- The word at an internal address is read by the unit or by its scrub: a word with chosen check bits is checked, and is no
longer set apart. Another write that has reached the unit's word since stands. An uncorrectable word of a gate table stays as it
is while the sequencer does not run. -/
def State.checkWord (s : State) (a : Nat) (scrub : Bool) : State :=
  match mget s.sram a with
  | none => s
  | some r =>
    let u := iaUnit a
    let i := iaSlice a
    let w := iaWord a
    let old := s
    let s := { s with sram := merase s.sram a }
    if s.unitWord u i w ≠ r.was then s.count 92 (bit scrub)
    else match corrected r.data r.chk with
      | none => if gateTable u && !s.running then old else s.treatWord a
      | some v =>
        let s := s.setUnitWord u i w v
        if syndrome r.data r.chk = .clean then s else s.noteCorrected a scrub
/-- Every word of a unit and slice that waits for its check is read. -/
def State.checkUnit (s : State) (u i : Nat) : State :=
  s.each ((mkeys s.sram).filter (fun a => iaUnit a == u && iaSlice a == i)) (fun s a => s.checkWord a false)
/-- STORAGE_SCRUB (R423): the scrub reads one word; a frozen engine's firmware writes nothing, but the scrub is hardware. -/
def execStorageScrub (addr : BitVec 32) (s : State) : Host.Outcome State Fault Refusal :=
  .next (if s.up then s.checkWord addr.toNat true else s)

/-! ### CHECKBIT_WRITE and RAW_READ (R429, R430) -/

/-- Bad fields of an internal word address: bits [31:28], or a unit code that Table 19.2 does not list; for a write, units 0 and 1.
Every word is beyond unit 0x1F, which the table lists without a word count. -/
def addrFields (a : Word) (write : Bool) : List Nat :=
  let u := fld a 23 5
  badAt (decide (fld a 32 32 ≠ 0)) 12 ++ badAt (decide (fld a 28 4 ≠ 0)) 11 ++ badAt ((unitWords u).isNone && u != 0x1F) 10
    ++ badAt (write && decide (u ≤ 1)) 8
/-- A word beyond its unit, or a slice that is absent or not the unit's. -/
def State.addrRange (s : State) (a : Word) : Option Bad :=
  let u := fld a 23 5
  let i := fld a 18 5
  check (decide (fld a 0 18 < (unitWords u).getD 0) && (if unitEngine u then i == 0x1F else s.present i)) badRange
def fieldsCheckbit (_ : State) (c : Cmd) : List Nat := addrFields c.a true ++ badAt (decide (fld (c.param 0) 16 48 ≠ 0)) 34
def chkCheckbit (s : State) (c : Cmd) : Option Bad := s.addrRange c.a
def effCheckbit (c : Cmd) (s : State) : State :=
  let a := fld c.a 0 28
  let r : RawWord := { data := c.b, chk := BitVec.ofNat 16 (fld (c.param 0) 0 16), was := s.unitWord (iaUnit a) (iaSlice a) (iaWord a) }
  State.done { s with sram := mset s.sram a r } c 0
/-- CHECKBIT_WRITE (R429). -/
def execCheckbitWrite (c : Cmd) (s : State) : Host.Outcome State Fault Refusal :=
  .next (s.runCmd 0xC0 fieldsCheckbit chkCheckbit noBytes noTake effCheckbit c)

/-- The word, its check bits and its line's valid bit as they are stored. Contents that the model does not hold, and the
valid bit of a line that reads zero throughout, are free values. -/
def State.rawWord (s : State) (a : Nat) : State × Word × BitVec 16 × Bool :=
  let u := iaUnit a
  let i := iaSlice a
  let w := iaWord a
  match mget s.sram a with
  | some r => (s, r.data, r.chk, true)
  | none =>
    match s.unitWord u i w with
    | some v =>
      let line := (List.range 8).map (fun k => w / 8 * 8 + k)
      if line.any (fun k => (mget s.sram (iaOf u i k)).isSome || decide ((s.unitWord u i k).getD 0 ≠ 0)) then (s, v, checkBits v, true)
      else
        let r := s.free
        (r.2, 0, 0, r.1.getLsbD 0)
    | none =>
      let lo := s.free
      let hi := lo.2.free
      let ok := hi.2.free
      let v : Word := if ok.1.getLsbD 0 then BitVec.ofNat 64 (lo.1.toNat + hi.1.toNat * 2 ^ 32) else 0
      (ok.2, v, checkBits v, ok.1.getLsbD 0)
def fieldsRawRead (_ : State) (c : Cmd) : List Nat := addrFields c.a false
def chkRawRead (s : State) (c : Cmd) : Option Bad := firstBad [s.addrRange c.a, check (s.bufferOk c.b 64) badRange]
def effRawRead (c : Cmd) (s : State) : State :=
  let (s, v, k, ok) := s.rawWord (fld c.a 0 28)
  let l := bytesOfWord v ++ bytesOfNat 2 k.toNat ++ [if ok then 1 else 0] ++ List.replicate 53 0
  (s.portDie c.b.toNat l).done c k.toNat
/-- RAW_READ (R430). -/
def execRawRead (c : Cmd) (s : State) : Host.Outcome State Fault Refusal :=
  .next (s.runCmd 0xC1 fieldsRawRead chkRawRead noBytes noTake effRawRead c)

end Sys2Proof.Machine
end

