-- ==== Sys2Proof/Machine/Gate.lean ====
section
/-!
DEFINITION. Machine/Gate.lean: the gate's answer to a request (R34 to R40, R68 to R76), proof copies (R75, R76), spare lines (R40),
and GATE_FORCE.
-/
namespace Sys2Proof.Machine

/-! ### The answer (R68) -/

/-- What the gate answers (R35). -/
inductive Answer where
  | pass | hold | redirect | fault
deriving DecidableEq, Repr
def Answer.code : Answer → BitVec 2
  | .pass => 0 | .hold => 1 | .redirect => 2 | .fault => 3
/-- The first matching row of Table 3.4 for a request; `stall`: words of the tables that wait to be rewritten hold the tile
(R422). -/
def Slice.row (sl : Slice) (line src : Nat) (write stall : Bool) : Nat :=
  let t := lineTile line
  let mapped := (sl.remapOf line).isSome
  if 6 ≤ src then 1
  else if Config.stackTiles ≤ t then 2
  else if src = 5 then 3
  else if src = 0 then (if mapped then 4 else 5)
  else if sl.faultOnce.any (fun l => l.toNat == line) then 6
  else if sl.state t = .held ∨ sl.regionHeld t ∨ stall then 7
  else if write ∧ sl.state t = .trapped then 8
  else if write ∧ sl.protected t ∧ sl.state t ≠ .exempt then 9
  else if mapped then 10 else 11
def answerOf (row : Nat) (write : Bool) : Answer :=
  if row = 3 then (if write then .fault else .pass)
  else if row = 4 ∨ row = 10 then .redirect
  else if row = 7 ∨ row = 8 then .hold
  else if row = 5 ∨ row = 11 then .pass
  else .fault
/-- gate_redir_addr [36:6] of spare line k (R40). -/
def redirOf (k : Nat) : BitVec 31 := BitVec.ofNat 31 (0x7FFFFFE0 + k)
/-- Counter of a row, if it is counted (R80, R487). -/
def rowCounter (row : Nat) (write : Bool) : Option Nat :=
  match row with
  | 1 => some 0 | 2 => some 1 | 6 => some 2 | 9 => some 3 | 7 => some 4 | 8 => some 4
  | 3 => if write then some 74 else none
  | _ => none

/-! ### Proof copies (R75, R76) -/

/-- Proof tiles of the slice's share that are not in use. -/
def State.proofFree (s : State) (c i : Nat) : Nat := s.poolOn c 1 i - s.proofUsed c i
/-- A copy that would find no proof tile for the bake it owes. -/
def State.starved (s : State) (i t : Nat) : Bool :=
  match s.owner i t with
  | some (c, l) => (s.tile c l).owesBake && decide (s.proofFree c i = 0)
  | none => false
/-- The lowest free tags for a tile's reads of 32 lines each (Table 2.7). -/
def Slice.readTile (sl : Slice) (t : Nat) : List (BitVec 10 × BitVec 31) :=
  let free := (List.range 1024).filter (fun g => !sl.reads.any (fun r => r.1.toNat == g))
  (List.zip free (List.range 32)).map (fun e => (BitVec.ofNat 10 e.1, BitVec.ofNat 31 (1024 * t + 32 * e.2)))
/-- Copies take running places, in order, and begin their reads; one without a proof tile stalls, counted once. -/
def State.startCopies (s : State) (i : Nat) : Nat → State
  | 0 => s
  | f + 1 =>
    let sl := s.slice i
    match sl.copyQ with
    | [] => s
    | j :: q =>
      if sl.copies.length ≥ Config.copiesMax then s
      else
        let stall := s.starved i j.tile
        let s := s.modSlice i (fun sl => { sl with
          copyQ := q, copies := sl.copies ++ [{ j with stalled := stall }], reads := sl.reads ++ sl.readTile j.tile })
        (s.countSlice i 7 (bit stall)).startCopies i f
/-- A trapped write: the tile is HELD and its copy queued. -/
def State.queueCopy (s : State) (i t : Nat) : State :=
  let s := s.hold i t .copy
  (s.modSlice i (fun sl => { sl with copyQ := sl.copyQ ++ [{ tile := t }] })).startCopies i Config.copiesMax
/-- PROOF_COPY_DONE (R75, R76): every copy the tile owes is written from one read; the tile is dirty (R391) and is released. A
copy without a proof tile stays in its place, and one of a tile that is mended waits. -/
def execProofCopyDone (slice tile : Nat) (s : State) : Host.Outcome State Fault Refusal :=
  let sl := s.slice slice
  let mine := fun (j : CopyJob) => j.tile == tile
  if !s.running || !sl.copies.any mine || sl.heldFor tile .mend || sl.heldFor tile .mendFailed then .next s
  else if s.starved slice tile then
    let fresh := sl.copies.any (fun j => j.tile == tile && !j.stalled)
    .next ((s.modSlice slice (fun sl => { sl with copies := replaceFirst mine (fun j => { j with stalled := true }) sl.copies })).countSlice
      slice 7 (bit fresh))
  else
    let s := match s.owner slice tile with
      | some (c, l) =>
        let n := bit (s.tile c l).owesBake + (s.tile c l).owedBranches.length
        ((s.serve slice .d (65536 * (1 + n))).makeCopies c l).modTile c l (fun r => { r with dirty := true })
      | none => s
    let s := s.modSlice slice (fun sl => { sl with
      copies := dropFirst mine sl.copies, reads := sl.reads.filter (fun r => lineTile r.2.toNat != tile) })
    .next ((s.unhold slice tile .copy).startCopies slice Config.copiesMax)

/-! ### GATE_REQUEST -/

/-- A word of a gate table that cannot be corrected waits to be rewritten: the range table or the remap table holds every tile,
a bitmap word its 32 (R422). -/
def State.tableStall (s : State) (i t : Nat) : Bool :=
  (mkeys s.sram).any (fun a => iaSlice a == i && s.wordBad (iaUnit a) i (iaWord a)
    && (iaUnit a == 6 || iaUnit a == 8 || (iaUnit a == 7 && iaWord a == t / 32)))
/-- The gate reads its tables: a correctable word is corrected; one of the fault-once list or the parked set is treated. -/
def State.readTables (s : State) (i : Nat) : State :=
  let go := (mkeys s.sram).filter (fun a => iaSlice a == i && decide (6 ≤ iaUnit a) && decide (iaUnit a ≤ 10)
    && (decide (9 ≤ iaUnit a) || !s.wordBad (iaUnit a) i (iaWord a)))
  s.each go (fun s a => s.checkWord a false)
/-- The sequencer rewrites the words that cannot be corrected from its own records, and what they held is released (R422). -/
def State.rewriteTables (s : State) (i : Nat) : State :=
  if !s.running then s
  else
    let bad := (mkeys s.sram).filter (fun a => iaSlice a == i && decide (6 ≤ iaUnit a) && decide (iaUnit a ≤ 8))
    if bad.isEmpty then s
    else
      let s := s.each bad (fun s a => s.checkWord a false)
      s.each (s.slice i).parked (fun s t => s.modSlice i (fun sl => sl.settle t))
/-- The sequencer acts on a HOLD of a tile in the pantry or under demotion (R373, R385). -/
def State.holdDemand (s : State) (i t : Nat) (write : Bool) : State :=
  match s.owner i t with
  | none => s
  | some (c, l) =>
    if (s.tile c l).tier1 then s.askPromotion c l 2
    else if write && (s.slice i).heldFor t .moving then s.abandonDemotion c l
    else s
/-- The answer is driven, and counted. -/
def State.answer (s : State) (i line src : Nat) (write : Bool) (row : Nat) : State :=
  let a := answerOf row write
  let k := ((s.slice i).remapOf line).getD 0
  let moves := decide (a = .pass) || decide (a = .redirect)
  let s := match rowCounter row write with
    | some b => s.countSlice i b
    | none => s
  s.modSlice i (fun sl => { sl with
    ans := a.code, redir := if a = .redirect then redirOf k else 0, touched := true,
    lines := sl.lines + bit moves, otherLines := sl.otherLines + bit (moves && decide (src ≠ 0)) })
/-- What follows an answer: a fault-once entry is cleared, a held tile is recorded and its copy or promotion begun, and the
controller performs a passed write (R36). The engine's own writes are its commands' effects. -/
def State.follow (s : State) (i line : Nat) (write : Bool) (wdata : LineData) (row : Nat) : State :=
  let t := lineTile line
  match row with
  | 6 => s.modSlice i (fun sl => { sl with faultOnce := sl.faultOnce.filter (fun l => l.toNat != line) })
  | 7 => (s.parkTile i t).holdDemand i t write
  | 8 => (s.parkTile i t).queueCopy i t
  | 11 => if write then { s with mem := writeMem s.mem (i * 2 ^ 37 + line * 64) (bytesOfLine wdata) } else s
  | _ => s
/-- A parked request of sources 0x1 to 0x4 stalls the context whose tile it is for (Table 20.8). -/
def Slice.stalls (sl : Slice) (t : Nat) : Bool := sl.heldFor t .copy || sl.heldFor t .mend || sl.heldFor t .mendFailed || sl.regionHeld t
def State.noteStall (s : State) (i t src row : Nat) : State :=
  if (row = 7 ∨ row = 8) ∧ 1 ≤ src ∧ src ≤ 4 then
    let s := s.modSlice i (fun sl => { sl with outer := insertAsc sl.outer t })
    match s.owner i t with
    | some (c, _) => if (s.slice i).stalls t then s.modCtx c (fun x => { x with ranStall := true }) else s
    | none => s
  else s
/-- GATE_REQUEST (R68): answered in every state but cold reset, whatever the sequencer does. -/
def execGateRequest (slice : Nat) (line : BitVec 31) (write : Bool) (src : BitVec 4) (wdata : LineData) (s : State) :
    Host.Outcome State Fault Refusal :=
  if !s.up || !s.present slice then .next s
  else
    let s := s.readTables slice
    let t := lineTile line.toNat
    let row := (s.slice slice).row line.toNat src.toNat write (s.tableStall slice t)
    let s := match s.owner slice t with
      | some (c, l) => s.touch c l
      | none => s
    let s := (s.answer slice line.toNat src.toNat write row).follow slice line.toNat write wdata row
    .next ((s.noteStall slice t src.toNat row).rewriteTables slice)

/-! ### SPARE_LINE_ACCESS (R40) -/

/-- Bytes that a mask enables take new values. -/
def maskLine (old new : LineData) (mask : BitVec 64) : LineData :=
  lineOfBytes ((List.range 64).map (fun k => if mask.getLsbD k then (bytesOfLine new).getD k 0 else (bytesOfLine old).getD k 0))
/-- SPARE_LINE_ACCESS: a read returns the line, a write takes effect on the enabled bytes. -/
def execSpareLineAccess (slice : Nat) (write : Bool) (idx : BitVec 5) (wdata : LineData) (wmask : BitVec 64) (s : State) :
    Host.Outcome State Fault Refusal :=
  let k := idx.toNat
  if !s.up || !s.present slice then .next s
  else if write then
    let v := maskLine ((s.slice slice).spareLine k) wdata wmask
    .next (s.modSlice slice (fun sl => { sl with spare := if v = 0 then merase sl.spare k else mset sl.spare k v }))
  else
    let s := s.each ((List.range 8).map (fun j => iaOf 5 slice (8 * k + j))) (fun s a => s.checkWord a false)
    .next (s.modSlice slice (fun sl => { sl with spareRd := some (sl.spareLine k) }))

/-! ### GATE_FORCE -/

def chkGateForce (s : State) (c : Cmd) : Option Bad :=
  check (s.present (fld c.a 0 5) && decide (fld c.a 16 21 < Config.stackTiles)) badRange
/-- The bitmap takes the state given; a tile that leaves HELD clears (R72). The detail is the state it had. -/
def effGateForce (c : Cmd) (s : State) : State :=
  let i := fld c.a 0 5
  let t := fld c.a 16 21
  let old := (s.slice i).state t
  let new := TileState.ofCode (fld c.b 0 2)
  let s := if new = .held then s.hold i t .forced
    else s.modSlice i (fun sl => ({ sl with holds := mput sl.holds t (
        let b := mgetD sl.holds t 0 &&& ~~~(BitVec.ofNat 8 (2 ^ HoldWhy.forced.bit))
        if b = 0 then none else some b) }.setState t new).settle t)
  s.done c old.code
/-- GATE_FORCE. -/
def execGateForce (c : Cmd) (s : State) : Host.Outcome State Fault Refusal :=
  .next (s.runCmd 0xC2 noFields chkGateForce noBytes noTake effGateForce c)

end Sys2Proof.Machine
end

