-- ==== Sys2Proof/Machine/Responses.lean ====
section
/-!
DEFINITION. Machine/Responses.lean: how a request of this engine ends: by its response (R351), by its timeout (R362), by a fence (R316)
or as a late arrival (R365), and what each end does for its purpose. COUNTER_OP (R493) and FENCE_MEMBER (R316 to R318).
-/
namespace Sys2Proof.Machine

/-- How a request ends: answered with a status, a value and a payload, or timed out. -/
inductive Ending where
  | answered (status : Nat) (value : Word) (payload : List Byte)
  | timedOut
deriving DecidableEq, Repr

def Ending.ok : Ending → Bool
  | .answered 0 _ _ => true
  | _ => false
def Ending.expired : Ending → Bool
  | .timedOut => true
  | _ => false

def State.reqAt (s : State) (peel : Nat) (slot : BitVec 10) : Option Req := s.fab.reqs.find? (fun r => r.peel == peel && r.slot == slot)
def State.freeReq (s : State) (r : Req) : State :=
  { s with fab := { s.fab with reqs := s.fab.reqs.filter (fun q => !(q.peel == r.peel && q.slot == r.slot)) } }
/-- The request goes out again under a later plan, with RESEND set (R351). -/
def State.retryLater (s : State) (r : Req) : State := { s with fab := { s.fab with retries := s.fab.retries ++ [⟨r⟩] } }
/-- The request goes out again at once (R274, R288). -/
def State.reissue (s : State) (r : Req) : State := (s.countCtx r.ctx.toNat 54).issueWith r 4
/-- Position that FABRIC_TIMEOUT names (R351): DST for a tagged type. -/
def Req.position (r : Req) : Nat := if untagged r.typ.toNat then 0xFFFFFFFF else r.dst.toNat

/-! ### Ends by purpose -/

/-- A command's own request: COUNTER_OP (R493), PUBLISH_TARGETS' SET (R175), the directory stores of CTX_SET_TILEMAP and
CTX_CLOSE (R377, R387). -/
def State.commandBack (s : State) (r : Req) (e : Ending) : State :=
  let c := r.ctx.toNat
  match s.adm? c r.tag with
  | none => s
  | some a =>
    if a.op = 0x12 ∨ a.op = 0x11 then
      let s := if e.ok then s else s.modAdm c r.tag (fun a => { a with bad := some 0 })
      if s.fab.reqs.any (fun q => q.ctx == r.ctx && q.tag == r.tag && q.why == .command)
          || s.fab.retries.any (fun q => q.req.ctx == r.ctx && q.req.tag == r.tag && q.req.why == .command) then s
      else if a.bad.isSome || !e.ok then s.finish c r.tag 0x0500 0xFFFFFFFF
      else s.finish c r.tag 0 (a.aux.getD 0)
    else match e with
      | .answered 0 v _ => s.finish c r.tag 0 (if a.op = 0xB1 then fld v 0 32 else 0)
      | .answered 5 _ _ => s.finish c r.tag 0x0401 0
      | _ => s.finish c r.tag 0x0500 r.position
/-- The finding's ADD: never resent (R272); a member whose ADD brought FINDINGS to the expected count was last (R450). -/
def State.findingEnds (s : State) (r : Req) (e : Ending) : State :=
  let c := r.ctx.toNat
  let s := s.countCtx c 19 (bit e.expired)
  match e with
  | .answered 0 v _ =>
    let last := match (s.ctx c).step with
      | some st => decide (s.health.mode ≠ 0) && fld v 32 16 == st.expected.toNat
      | none => false
    (s.risk 7 (bit last)).findingBack c 0 0
  | .answered 5 _ _ => s.findingBack c 0x0401 0
  | _ => s.findingBack c 0x0500 r.dst.toNat
/-- The wait for FINAL (R274): a wait that times out is issued again at once. -/
def State.verdictEnds (s : State) (r : Req) (e : Ending) : State :=
  let c := r.ctx.toNat
  match e, (s.ctx c).step with
  | .answered 0 v _, _ => s.modStep c (fun st => { st with final := some v })
  | .timedOut, some _ => s.reissue r
  | .answered _ _ _, some _ => s.retryLater r
  | _, none => s
/-- The MAX of a published level, and the read of a level (R288): issued again until they return. -/
def State.riskEnds (s : State) (r : Req) (e : Ending) : State :=
  let c := r.ctx.toNat
  match e with
  | .answered 0 v _ =>
    if r.why = .riskMax then s.modStep c (fun st => { st with riskDone := true })
    else s.modCtx c (fun x => { x with bake := { x.bake with
      levels := keepLevels x.bake.levels r.tag.toNat (BitVec.ofNat 3 (min 7 v.toNat)) } })
  | .timedOut => s.reissue r
  | _ => s.retryLater r
/-- A commit count (R302): never resent; the root becomes suspect, reason 2, by the sign of the timeout (Table 14.1). -/
def State.commitEnds (s : State) (r : Req) (e : Ending) : State :=
  let c := r.ctx.toNat
  s.countCtx c 53 (bit e.expired)
/-- A publish's STORE: the command ends when one fails (R92, R351). -/
def State.storeEnds (s : State) (r : Req) (target : BitVec 4) (v : Word) (e : Ending) : State :=
  let c := r.ctx.toNat
  match s.link.admitted.find? (fun a => a.op == 0x46 && a.c.cid == c && fld a.c.a 0 4 == target.toNat && a.aux.isSome) with
  | none => s
  | some a =>
    if e.ok ∨ (s.target c target.toNat).next ≠ v then s
    else (s.raiseAdmSat c a.c.tag).finish c a.c.tag 0x0500 0xFFFFFFFF
/-- A publish's flag store: the version is announced, or the command fails (R177). -/
def State.flagEnds (s : State) (r : Req) (target : BitVec 4) (v : Word) (e : Ending) : State :=
  let c := r.ctx.toNat
  let k := target.toNat
  if (s.target c k).next ≠ v ∨ (s.adm? c r.tag).isNone then s
  else if e.ok then s.versionOut c k r.tag
  else (s.raiseAdmSat c r.tag).finish c r.tag 0x0500 r.dst.toNat
/-- The fetch of an adoption record or of the pantry's directory (R327, R386). -/
def State.adoptEnds (s : State) (r : Req) (e : Ending) : State :=
  let c := r.ctx.toNat
  match e with
  | .answered 0 _ l =>
    if r.typ = 1 then
      (s.modCtx c (fun x => { x with group := { x.group with
        adoptParts := mset x.group.adoptParts (partKey 5 r.tag.toNat) l } })).adoptStep c
    else s
  | .answered 5 _ _ => s.endAdopt c 0x0401 0
  | _ => s.endAdopt c 0x0500 r.position
/-- What a request's end does. A crumb, a notice or a piece of a record that is not acknowledged goes out again under a later
plan; a decode's hop makes the requester ask again (R322). -/
def State.endReq (s : State) (r : Req) (e : Ending) : State :=
  let c := r.ctx.toNat
  let again := if e.ok || e == .answered 5 0 [] || s.fencedAny r.dst.toNat then s else s.retryLater r
  match r.why with
  | .command => s.commandBack r e
  | .finding => s.findingEnds r e
  | .mark => s
  | .verdict => s.verdictEnds r e
  | .riskMax | .riskRead => s.riskEnds r e
  | .commit _ => s.commitEnds r e
  | .probe => s.count 20 (bit e.expired)
  | .crumb _ _ _ | .notice | .record => again
  | .part => again
  | .decode id => match e with
    | .answered st _ _ => if st = 2 then s.decodeTimedOut id else s.decodeAnswered id r.dst.toNat st
    | .timedOut => s.decodeTimedOut id
  | .bcast gen => match e with
    | .answered st _ _ => if st = 2 ∨ st = 5 then (s.skipIn c r.dst.toNat (some gen) (decide (st = 2))).adoptNext c else s
    | .timedOut => s
  | .adopt => s.adoptEnds r e
  | .store t v => s.storeEnds r t v e
  | .flag t v => s.flagEnds r t v e
  | .demote t => s.demoteStored c t e.ok
  | .directory t => s.directoryDone c t e.ok
  | .load t i => (s.extentLoaded c t i (match e with | .answered 0 _ l => some l | _ => none)).pushSums
  | .replica _ => s

/-- Ends that write gate state, or that a freeze must keep from acting: they wait for the thaw (R467). -/
def Why.gated : Why → Bool
  | .demote _ | .directory _ | .load _ _ | .adopt | .decode _ | .store _ _ | .flag _ _ => true
  | _ => false

/-! ### Timeouts (R362, R365) -/

/-- Every context whose group holds the position notes the sign (Table 14.1). -/
def State.noteTimeout (s : State) (p : Nat) : State :=
  s.each (s.holdersOf p) (fun s c => s.modSign c p (fun g => { g with nowTimeout := true }))
def State.noteReply (s : State) (p : Nat) : State :=
  s.each (s.holdersOf p) (fun s c => s.modSign c p (fun g => { g with nowReply := true }))
/-- A request completes as timed out, its tag quarantined. -/
def State.expire (s : State) (r : Req) : State :=
  let s := ((s.countPeel r.peel (14 + r.cls.idx)).risk 2 1).quarantine r
  if untagged r.typ.toNat then s else s.noteTimeout r.dst.toNat
/-- FABRIC_REQUEST_TIMEOUT. -/
def execFabricRequestTimeout (peel : Nat) (slot : BitVec 10) (s : State) : Host.Outcome State Fault Refusal :=
  match s.reqAt peel slot with
  | none => .next s
  | some r =>
    if s.fab.heldRsp.any (fun h => h.1 == peel && h.2.1 == slot) || s.unsent peel slot then .next s
    else if s.boot.guardFrz && s.live && r.why.gated then
      .next { s with fab := { s.fab with heldRsp := s.fab.heldRsp ++ [(peel, slot, none)] } }
    else
      let s := s.expire r
      .next (if s.live then s.endReq r .timedOut else s)

/-! ### Responses (R351, R364, R365) -/

/-- The response answers the slot's present request: same TYPE, and for a tagged type the ECHO of its SEQUENCE. -/
def Req.matches (r : Req) (t : Xfer) : Bool := r.typ.toNat == t.typ && (untagged t.typ || t.echo == r.seq.toNat)
/-- A late arrival is dropped and counted; the first of a frame on a peel raises EV_LATE_ARRIVAL. -/
def State.lateArrival (s : State) (peel : Nat) (t : Xfer) : State :=
  let s := s.drop peel 8
  let p := s.peel peel
  let s := s.modPeel peel (fun p => { p with lateNow := p.lateNow + 1, late := some (p.late.getD (BitVec.ofNat 5 t.src, BitVec.ofNat 16 (t.num 2 2))) })
  if p.late.isSome then s else s.emit 0x0043 1 none [(0, t.src), (1, peel), (2, t.num 2 2), (4, p.lateNow + 1)]
/-- A matching response: the slot is free, and the request ends by the status. -/
def State.takeResponse (s : State) (peel : Nat) (r : Req) (t : Xfer) : State :=
  let s := s.freeReq r
  let p := r.dst.toNat
  let tagged := !untagged r.typ.toNat
  let s := if tagged then s.noteReply p else s
  let s := if t.status = 2 then
      let s := s.count 21
      if tagged then s.lost p 1 else s
    else s
  if t.status = 1 then
    ((s.countPeel peel 19).countCtx r.ctx.toNat 35 (bit (r.typ == 0x10 || r.typ == 0x11))).retryLater r
  else
    let s := if t.status = 6 then s.countPeel peel 21 else s
    s.endReq r (.answered t.status (t.word 16) t.payload)
/-- INBOUND_RESPONSE. -/
def execInboundResponse (peel : Nat) (x : Xfer) (s : State) : Host.Outcome State Fault Refusal :=
  if s.up = false ∨ peel ≥ s.peelsPresent ∨ !x.resp then .next s
  else
    let q := s.admitXfer peel x
    let s := q.1
    if !q.2 then .next s
    else match s.reqAt peel x.slot with
      | none => .next (s.lateArrival peel x)
      | some r =>
        if !r.matches x ∨ s.fab.heldRsp.any (fun h => h.1 == peel && h.2.1 == x.slot) then .next (s.lateArrival peel x)
        else if !s.live then .next (s.freeReq r)
        else if s.stopped then .next (s.holdWake peel x)
        else if s.boot.guardFrz && r.why.gated then
          .next { s with fab := { s.fab with heldRsp := s.fab.heldRsp ++ [(peel, x.slot, some x)] } }
        else .next (State.takeResponse { s with fab := { s.fab with rxNow := true } } peel r x)

/-- The thaw of a guard freeze (R468): what waited for it is taken up in order, and satisfied waiters are answered. -/
def State.takeHeld (s : State) : State :=
  let l := s.fab.heldRsp
  let s := { s with fab := { s.fab with heldRsp := [] } }
  let s := s.each l (fun s h => match s.reqAt h.1 h.2.1 with
    | none => s
    | some r => match h.2.2 with
      | some x => s.takeResponse h.1 r x
      | none => (s.expire r).endReq r .timedOut)
  s.each (s.fab.waiters.map (fun w => w.ctr.toNat)).dedup (fun s k => s.wakeWaiters k)

/-! ### COUNTER_OP (R493) -/

def opPosition (c : Cmd) : Nat := fld c.a 16 5
def chkCounterOp (s : State) (c : Cmd) : Option Bad := (s.ctx c.cid).fencedBad (opPosition c)
def effCounterOp (c : Cmd) (s : State) : State :=
  let k := fld c.a 0 12
  let op := fld c.a 12 2
  let x := s.ctx c.cid
  if x.own = opPosition c then
    let s := if op = 2 then s else s.checkCtr k
    if s.poison.contains k ∧ op ≠ 2 then s.finish c.cid c.tag 0x0600 0xFFFFFFFF
    else if op = 3 then
      if c.b.toNat ≤ (s.pc k).toNat then s.done c (fld (s.pc k) 0 32)
      else { s with fab := { s.fab with locals := s.fab.locals ++ [⟨c.ctx, c.tag, BitVec.ofNat 12 k, c.b, .command⟩] } }
    else
      let t := s.ctrOp k op c.b
      (if op = 0 then t.noteBarrier c.cid k x.own (s.pc k) else t).done c (fld (t.pc k) 0 32)
  else if x.keys.cur.isNone then s.finish c.cid c.tag 0x0501 x.own
  else s.counterAt c.cid (opPosition c) k op c.b .u .command c.tag
/-- COUNTER_OP. -/
def execCounterOp (c : Cmd) (s : State) : Host.Outcome State Fault Refusal :=
  .next (s.runCmd 0xB1 noFields chkCounterOp noBytes noTake effCounterOp c)
/-- LOCAL_WAIT_TIMEOUT (R493): a COMPARE-WAIT on a counter of this engine completes FABRIC_TIMEOUT with its own position. -/
def execLocalWaitTimeout (ctx : BitVec 4) (tag : BitVec 16) (s : State) : Host.Outcome State Fault Refusal :=
  let mine := fun (w : LocalWait) => w.ctx == ctx && w.tag == tag
  if !s.live || !s.fab.locals.any mine then .next s
  else
    let s := { s with fab := { s.fab with locals := s.fab.locals.filter (fun w => !mine w) } }
    .next (s.finish ctx.toNat tag 0x0500 (s.ctx ctx.toNat).own)

/-! ### FENCE_MEMBER (R316 to R318) -/

def fieldsFence (s : State) (c : Cmd) : List Nat :=
  let x := s.ctx c.cid
  let p := fld c.a 0 5
  badAt (x.group.joined && (!((x.group.cfg.map (fun g => g.members.getLsbD p)).getD false) || p == x.own)) 8
def chkFence (s : State) (c : Cmd) : Option Bad := (s.ctx c.cid).notJoined
/-- Batches that hold a position and that this member keeps or sources. -/
def Ctx.batchesWith (x : Ctx) (g : GroupCfg) (p : Nat) : List (BitVec 32) :=
  ((x.keptBatches ++ x.sourced).dedup).filter (fun b => (List.range (g.k + g.m)).any (fun y =>
    (decide (g.k ≤ y) || !x.group.phantom g b y) && g.posOf (slotMember g (batchB b) y) == p))
/-- EV_MARGIN_REDUCED with cause 1. -/
def State.fenceMargin (s : State) (c p : Nat) : State :=
  let x := s.ctx c
  match x.group.cfg with
  | none => s
  | some g => match lowest ((x.batchesWith g p).map (fun b => (b, x.margin g b))) with
    | some (b, n) => s.marginEvent c b n 1 x.bake.committed
    | none => s
/-- Every request to the position, of any context, completes as timed out. -/
def State.dropRequests (s : State) (p : Nat) : State :=
  let to_ := fun (r : Req) => !untagged r.typ.toNat && r.dst.toNat == p
  let out := s.fab.reqs.filter to_
  let late := (s.fab.retries.filter (fun r => to_ r.req)).map (·.req)
  let s := { s with fab := { s.fab with retries := s.fab.retries.filter (fun r => !to_ r.req) } }
  let s := s.each (List.range 2) (fun s q =>
    s.modPeel q (fun l => { l with offered := l.offered.filter (fun o => untagged o.2.2.typ || o.2.2.dst != p) }))
  let s := s.each out (fun s r => (((s.countPeel r.peel (14 + r.cls.idx)).risk 2 1).quarantine r).endReq r .timedOut)
  s.each late (fun s r => s.endReq r .timedOut)
/-- The position is fenced: its requests end, it leaves the broadcast trees, and the margins are judged. -/
def State.fence (s : State) (c p : Nat) : State :=
  let s := s.modCtx c (fun x => { x with fences := mset x.fences p x.keys.epoch })
  let s := (s.modSign c p (fun _ => {})).dropRequests p
  let s := s.each (mkeys s.ctxs) (fun s d => (s.skipIn d p none false).adoptNext d)
  (s.countCtx c 66).fenceMargin c p
def effFence (c : Cmd) (s : State) : State :=
  let p := fld c.a 0 5
  if (mget (s.ctx c.cid).fences p).isSome then s.done c 0 else (s.fence c.cid p).done c 0
/-- FENCE_MEMBER. -/
def execFenceMember (c : Cmd) (s : State) : Host.Outcome State Fault Refusal :=
  .next (s.runCmd 0x60 fieldsFence chkFence noBytes noTake effFence c)

end Sys2Proof.Machine
end

