-- ==== Sys2Proof/Machine/Power.lean ====
section
/-!
DEFINITION. Machine/Power.lean: the power model and its plan (R434 to R438, R440), stack states and caps (R436, R441, R442), the risk
score (R446 to R448), and the rows of power, heat and health that come between plans.
-/
namespace Sys2Proof.Machine

/-! ### Frame and rates -/

/-- Frame period in microseconds (R102). -/
def State.periodUs (s : State) : Nat := 125 * 2 ^ s.frames.j.toNat
/-- A stack's full rate over a frame, in bytes. -/
def State.fullBytes (s : State) : Nat := Config.stackRate * s.periodUs
/-- Stack requests of a frame in bytes (R434). -/
def Slice.frameBytes (sl : Slice) : Nat := 64 * sl.lines

/-! ### Temperature (R60, R442) -/

/-- Readings of the other stacks that are readings. -/
def State.otherReadings (s : State) (i : Nat) : List Int :=
  (s.presentSlices.filter (fun k => k != i && !(s.slice k).sensorFailed && decide ((s.slice k).therm ≠ 0x200))).map
    (fun k => (s.slice k).therm.toInt)
def maxInt : List Int → Option Int
  | [] => none
  | a :: l => some (l.foldl max a)
/-- Effective temperature of a stack; a free value where every sensor has failed. -/
def State.tempOf (s : State) (i : Nat) : State × Int :=
  let off := s.sensorOffset i
  if (s.slice i).sensorFailed then
    match maxInt (s.otherReadings i) with
    | some m => (s, m + s.sensorMargin + off)
    | none => (s.free.2, (s.free.1.setWidth 10).toInt)
  else (s, (s.slice i).therm.toInt + off)
/-- The thermal cap. -/
def State.thermalCap (s : State) (t : Int) : Nat :=
  if t < s.tCap then 255
  else if t < s.tCrit then (255 - (192 * (t - s.tCap)) / (s.tCrit - s.tCap)).toNat
  else 0
/-- A stack's temperature is judged: its cap, and EV_THERMAL kind 0 when it first reaches T_CAP. -/
def State.judgeTemp (s : State) (i : Nat) : State :=
  let r := s.tempOf i
  let s := r.1
  let t := r.2
  let hot := decide (s.tCap ≤ t)
  let ev := hot && !(s.slice i).thermHot
  let s := s.modSlice i (fun sl => { sl with
    effTemp := BitVec.ofInt 16 t, capped := decide (s.thermalCap t < 255),
    thermHot := if hot then true else if t < s.tCap - 8 then false else sl.thermHot })
  if ev then s.emit 0x0061 2 none [(0, i), (1, 0), (2, (BitVec.ofInt 16 t).toNat)] else s
/-- EV_THERMAL kind 1: the stack's sensor counts as failed. -/
def State.failSensor (s : State) (i : Nat) : State :=
  let s := s.modSlice i (fun sl => { sl with sensorFailed := true })
  let r := s.tempOf i
  r.1.emit 0x0061 2 none [(0, i), (1, 1), (2, (BitVec.ofInt 16 r.2).toNat)]
/-- The sample of a frame (R60): an unchanged reading is counted, a new one ends a failure, 0x200 is one. -/
def State.sampleTherm (s : State) (i : Nat) (v : BitVec 10) : State :=
  let sl := s.slice i
  let same := decide (v = sl.therm)
  let s := s.modSlice i (fun sl => { sl with
    therm := v, thermSame := if same then min 65535 (sl.thermSame + 1) else 0, sensorFailed := sl.sensorFailed && same })
  if v = 0x200 ∧ !(s.slice i).sensorFailed then s.failSensor i else s
/-- SENSOR_STALE (R60): 64 frames without change. -/
def execSensorStale (slice : Nat) (s : State) : Host.Outcome State Fault Refusal :=
  let sl := s.slice slice
  if s.live && s.present slice && !sl.sensorFailed && decide (64 ≤ sl.thermSame) then .next ((s.failSensor slice).judgeTemp slice)
  else .next s

/-! ### Statics and coefficients (R434) -/

/-- Static power of the engine at a point, in 0.125 W; while a change runs, the larger of the two points' (R438). -/
def State.pointStatic (s : State) (p : Nat) : Nat := if p = 3 then Config.stoppedStatic.toNat else (calEngStatic p).value s
def State.engStatic (s : State) : Nat :=
  let new := s.pointStatic s.power.opReq.toNat
  if s.power.opAck then new else max new (s.pointStatic s.power.opOld.toNat)
/-- Static power of the stacks in their requested states. -/
def State.stackStatic (s : State) : Nat := sum (s.presentSlices.map (fun i => (calStkStatic (s.slice i).stackState.toNat).value s))
/-- Energy of a byte through a slice, in 1/256 pJ. -/
def State.byteEnergy (s : State) (i : Nat) : Nat := s.eStack i + s.eEng
/-- Energy of 0.125 W over a frame, in 1/256 pJ. -/
def State.wattFrame (s : State) : Nat := 32000000 * s.periodUs
/-- Demand of a frame with given bytes on each slice and fabric payload, in 0.125 W, rounded down. -/
def State.demandOf (s : State) (bytes : Nat → Nat) (fabric : Nat) : Nat :=
  s.engStatic + s.stackStatic
    + (sum (s.presentSlices.map (fun i => bytes i * s.byteEnergy i)) + fabric * s.eFab) / s.wattFrame
/-- The effective envelope W (R58). -/
def State.envelopeOf (s : State) (pin : BitVec 16) : Nat :=
  let d := s.power.envelope.toNat
  let p := pin.toNat
  if d = 0 ∧ p = 0 then calFactoryMax.value s else if d = 0 then p else if p = 0 then d else min d p

/-! ### The operating point (R438) -/

/-- U demand of a slice (R494). -/
def Slice.uDemand (sl : Slice) : Nat := max sl.uQueued sl.uPrev
/-- Elements of class U work: demand over the bytes per element of the master tiles queued, else of those last served. -/
def Slice.uElements (sl : Slice) (queued : Nat × Nat) : Nat :=
  let r := if queued.2 ≠ 0 then queued else sl.masters
  if r.1 = 0 then 0 else ceilDiv (sl.uDemand * r.2) r.1
/-- The lowest point that serves every slice's elements. -/
def pointFor (us : Nat) (es : List Nat) : Nat :=
  if es.all (fun e => decide (e ≤ 128 * 550 * us)) then 2
  else if es.all (fun e => decide (e ≤ 128 * 880 * us)) then 1 else 0
/-- Nothing is left to do that needs clk_eng. -/
def State.idleNow (s : State) : Bool :=
  s.link.admitted.isEmpty && !s.fab.rxPrev && s.fab.waiters.isEmpty && s.fab.reqs.isEmpty && s.fab.locals.isEmpty
/-- At most one change of pwr_state_req a frame, while pwr_state_ack is 1 (R56, R438). -/
def State.setPoint (s : State) (p : Nat) : State :=
  let new := BitVec.ofNat 3 p
  if !s.power.opAck ∨ new = s.power.opReq then s
  else { (s.count (95 + p)) with power := { s.power with opOld := s.power.opReq, opReq := new, opAck := false } }

/-! ### Stack states (R441) -/

/-- Table 20.1. -/
def Slice.wantState (sl : Slice) (queued : Bool) : BitVec 2 :=
  if sl.awake ≠ 0 then 0
  else if 64 ≤ sl.quiet ∧ !queued then 2
  else if 16 ≤ sl.slow ∧ sl.uQueued = 0 then 1
  else 0

/-! ### Power bytes and caps (R435, R436) -/

/-- Energy left for stack traffic, in 1/256 pJ; none where it is not positive. -/
def State.availEnergy (s : State) (w : Nat) : Nat := (w - (s.engStatic + s.stackStatic)) * s.wattFrame - s.fab.sentPrev * s.eFab
def State.sliceBytes (s : State) (w i : Nat) : Nat :=
  let on := (s.presentSlices.filter (fun k => !(s.slice k).gated)).length
  if on = 0 ∨ s.byteEnergy i = 0 then 0 else s.availEnergy w / (on * s.byteEnergy i)
def State.powerCap (s : State) (b : Nat) : Nat := min 255 (256 * b / s.fullBytes - 1)

/-! ### Risk (R446 to R448) -/

/-- One frame of a decayed count. -/
def decayed (a x d : Nat) : Nat := min 0xFFFFFFFF (a - a / 2 ^ d + 256 * x)
def State.rawLevel (s : State) (score : Nat) : Nat :=
  maxOf (((List.range 7).map (· + 1)).filter (fun l => decide (s.threshold l ≤ score)))
/-- The thermal term of the score. -/
def State.thermalTerm (s : State) : Nat :=
  match maxInt (s.presentSlices.map (fun i => (s.slice i).effTemp.toInt)) with
  | none => 0
  | some t => ((s.weight 6 : Int) * max 0 (80 - (s.tCap - t)) / 64).toNat
def State.riskEvent (s : State) (new old score : Nat) : State :=
  (s.count 105).emit 0x0060 1 none [(0, new), (1, old), (2, score), (4, s.frames.frame.toNat)]
/-- The monitor's work at the end of a frame: counts, score, and a rise of the level. -/
def State.judgeRisk (s : State) (done : BitVec 32) : State :=
  let h := s.health
  let d := s.decayLog
  let a := (List.range 8).map (fun i => if i = 6 then 0 else decayed (h.a.getD i 0) (h.now.getD i 0) d)
  let therm := s.thermalTerm
  let score := min 255 (sum ((List.range 8).map (fun i => if i = 6 then 0 else s.weight i * a.getD i 0)) / 4096 + therm)
  let raw := s.rawLevel score
  let old := h.level.toNat
  let s := { s with health := { h with
    a := a, x := h.now, now := [0, 0, 0, 0, 0, 0, 0, 0], score := BitVec.ofNat 8 score, raw := BitVec.ofNat 3 raw,
    thermal := BitVec.ofNat 8 (min 255 therm), frame := done, corrNow := [],
    level := BitVec.ofNat 3 (max old raw), below := if raw < old then min 65535 (h.below + 1) else 0 } }
  let s := if old < raw then s.riskEvent raw old score else s
  s.count (106 + (max old raw))
/-- RISK_LEVEL_FALL (R448): after each 256 frames with the raw level below it, the level falls by one. -/
def execRiskLevelFall (s : State) : Host.Outcome State Fault Refusal :=
  let h := s.health
  if !s.live || h.below = 0 || decide (h.below % 256 ≠ 0) || h.level = 0 || h.fellAt = some s.frames.frame then .next s
  else
    let s := { s with health := { h with level := h.level - 1, fellAt := some s.frames.frame } }
    .next (s.riskEvent (h.level - 1).toNat h.level.toNat h.score.toNat)

/-! ### Power rows between plans -/

/-- POWER_CAP_EVENT (R437): the first frame of the condition, and every 1,024 frames while it holds. -/
def execPowerCapEvent (s : State) : Host.Outcome State Fault Refusal :=
  let p := s.power
  if !s.live || decide (p.uncapped ≤ p.inForce.toNat) || (p.capped && decide (p.capFrames < 1024)) then .next s
  else
    let s := { s with power := { p with capped := true, capFrames := 0 } }
    .next (s.emit 0x0062 1 none [(0, p.inForce.toNat), (2, sat 0xFFFF p.uncapped), (4, s.frames.frame.toNat)])
/-- STACK_STATE_EXIT (R59): counted; a stack woken from self-refresh is held active for 64 frames (R441). -/
def execStackStateExit (slice : Nat) (s : State) : Host.Outcome State Fault Refusal :=
  let sl := s.slice slice
  if !s.up || !s.present slice || !sl.stackAck then .next s
  else
    let woke := decide (sl.stackState = 2)
    let s := s.modSlice slice (fun sl => { sl with stackAck := false, awake := if woke then 64 else sl.awake })
    .next ((s.countSlice slice 19).countSlice slice 70 (bit woke))

/-- Serve a transfer that a wake buffer held: it has passed its checks. -/
def State.serveHeld (s : State) (peel : Nat) (x : Xfer) : State :=
  if s.frozen then (if x.resp then s else s.respond peel x 2)
  else
    let s := { s with fab := { s.fab with rxNow := true } }
    if x.resp then
      match s.reqAt peel x.slot with
      | none => s.lateArrival peel x
      | some r => if r.matches x then s.takeResponse peel r x else s.lateArrival peel x
    else match x.typ with
      | 0x03 => s.serveCounter peel x
      | 0x10 => s.serveCrumb peel x
      | 0x11 => s.serveNotice peel x
      | 0x12 => s.serveDecodeReq peel x
      | 0x13 => s.serveDecodePart peel x
      | 0x20 => s.serveBcast peel x
      | 0x21 => (s.serveUp peel x).adoptNext x.ctx
      | 0x22 => s.serveRecord peel x
      | _ => s
/-- POWER_STATE_ACK (R56, R439): the requested point is in force; what the wake buffers hold is served. -/
def execPowerStateAck (s : State) : Host.Outcome State Fault Refusal :=
  if !s.up || s.power.opAck then .next s
  else
    let s := { s with power := { s.power with opAck := true, opOld := s.power.opReq } }
    if s.stopped then .next s
    else .next (s.each [0, 1] (fun s p =>
      let l := (s.peel p).wake
      (s.modPeel p (fun q => { q with wake := [] })).each l (fun s x => s.serveHeld p x)))
/-- CLOCK_STOP_WAKE (R439): a transfer, or a command's flit or doorbell, finds clk_eng stopped. -/
def execClockStopWake (peel : Nat) (x : Option Xfer) (s : State) : Host.Outcome State Fault Refusal :=
  if !s.live || !s.stopped then .next s
  else match x with
    | none => .next s.wake
    | some t =>
      if peel ≥ s.peelsPresent then .next s
      else
        let q := s.admitXfer peel t
        if !q.2 then .next q.1
        else if !t.resp ∧ s.frozen then .next (q.1.respond peel t 2)
        else if !t.resp ∧ t.typ = 4 then .next (q.1.respond peel t 0)
        else .next (q.1.holdWake peel t)

end Sys2Proof.Machine
end

