-- ==== Sys2Proof/Machine/Plan.lean ====
section
/-!
DEFINITION. Machine/Plan.lean: frames and their plans (R102 to R124): the queue of pieces, the division of each slice's credit, the plan
build and its cutoff, deadlines (R120), SET_FRAME and the switch of the period (R103, R104), and tick lock (R53, R122).
-/
namespace Sys2Proof.Machine

/-! ### The queue of pieces (R107, R108) -/

/-- A tile of class D, K or M work that waits: its class, slice, context, command and number. -/
structure Work where
  cls   : Cls
  slice : Nat
  ctx   : Nat
  tag   : Option (BitVec 16)
  tile  : Nat
deriving DecidableEq, Repr

def Work.key (w : Work) : Cls × Nat × Nat × Option (BitVec 16) := (w.cls, w.slice, w.ctx, w.tag)
def State.jobWork (s : State) (j : DecodeJob) : Work :=
  let c := j.ctx.toNat
  let sl := if j.why = .crust then s.homeSlice c j.batch (j.tile / 32 % 4) 0 else (s.tile c j.tile).slice
  ⟨j.cls, sl, c, j.tag, j.tile⟩
def State.workIn (s : State) (c : Nat) : List Work :=
  let x := s.ctx c
  let drain := if x.bake.sealed = 0 ∨ x.bake.stopShip then [] else
    x.bake.toShip.map (fun t => (⟨.k, (s.tile c t).slice, c, none, t⟩ : Work))
  let knead := (x.knead.jobs.filter (fun j => decide (j.2.stage = 0))).map (fun j =>
    (⟨s.moveClass c j.2, (s.tile c j.1).slice, c, j.2.tag, j.1⟩ : Work))
  let export_ := match s.link.admitted.find? (fun a => a.op == 0x81 && a.c.cid == c && a.begun) with
    | some a => (x.exp.left.take (a.c.n - a.done)).map (fun t => (⟨workClass (rowOf a.op) a.c, (s.tile c t).slice, c, some a.c.tag, t⟩ : Work))
    | none => []
  let restore := match s.link.admitted.find? (fun a => a.op == 0x83 && a.c.cid == c && a.begun) with
    | some a => ((List.range a.c.n).drop a.done).map (fun k => (⟨workClass (rowOf a.op) a.c, addrSlice a.c.b.toNat, c, some a.c.tag, k⟩ : Work))
    | none => []
  drain ++ knead ++ export_ ++ restore
/-- Everything that waits; class U is never queued in pieces. -/
def State.workList (s : State) : List Work :=
  ((s.fab.jobs.filter s.jobWaits).map s.jobWork ++ (mkeys s.ctxs).flatMap s.workIn
    ++ s.presentSlices.flatMap (fun i => (s.slice i).rewrites.map (fun l => (⟨.m, i, 0, none, lineTile l.toNat⟩ : Work)))).filter
    (fun w => w.cls != .u)
def Piece.holds (p : Piece) (w : Work) : Bool :=
  p.cls == w.cls && p.slice == w.slice && p.ctx.toNat == w.ctx && p.tag == w.tag && p.tiles.contains w.tile
/-- Frame in which a tile's work was queued: that of the piece it waits in, else the last frame (R113). -/
def State.bornOf (s : State) (w : Work) : BitVec 32 :=
  match s.frames.pieces.find? (fun p => p.holds w) with
  | some p => p.born
  | none => s.frames.frame - 1
/-- A piece of at most 32 tiles of one age; it keeps the number of the piece that its first tile waited in. -/
def State.pieceOf (s : State) (used : List Nat) (id : Nat) (w : Work) (born : BitVec 32) (ts : List Nat) : Piece :=
  let b := s.frames.pieces.find? (fun p => p.holds w && !used.contains p.id)
  { id := (b.map (·.id)).getD id, cls := w.cls, slice := w.slice, ctx := BitVec.ofNat 4 w.ctx, tag := w.tag,
    tiles := ts, bytes := 65536 * ts.length, born := born,
    aged := ((b.map (·.aged)).getD false) || decide (s.frames.ageLimit.toNat ≤ (s.frames.frame - born).toNat),
    pinned := (w.tag.bind (fun g => s.adm? w.ctx g)).bind (fun a => if a.c.pin then some a.c.deadline else none) }
/-- The queue as it stands. -/
def State.queue (s : State) : State :=
  let work := s.workList.map (fun w => (w, s.bornOf w))
  let keys := (work.map (fun e => (e.1.key, e.2))).dedup
  let groups := keys.flatMap (fun k =>
    let l := work.filter (fun e => (e.1.key, e.2) == k)
    chunks 32 l.length l)
  let r := groups.foldl (fun (acc : List Piece × Nat) g =>
    match g with
    | [] => acc
    | e :: _ =>
      let p := s.pieceOf (acc.1.map (·.id)) acc.2 e.1 e.2 (g.map (·.1.tile))
      (acc.1 ++ [p], max acc.2 (p.id + 1))) ([], s.frames.nextPiece)
  { s with frames := { s.frames with pieces := r.1, nextPiece := r.2 } }
/-- PIECE_AGED (R113). -/
def execPieceAged (piece : Nat) (s : State) : Host.Outcome State Fault Refusal :=
  let due := fun (p : Piece) => p.id == piece && !p.aged && decide (s.frames.ageLimit.toNat ≤ (s.frames.frame - p.born).toNat)
  if !s.live || !s.frames.pieces.any due then .next s
  else .next { s with frames := { s.frames with pieces := replaceFirst due (fun p => { p with aged := true }) s.frames.pieces } }

/-! ### Credits (R110 to R112, R115) -/

/-- Bytes of a slice's pieces of a class. -/
def State.demand (s : State) (w : Cls) (i : Nat) : Nat := sum ((s.frames.pieces.filter (fun p => p.cls == w && p.slice == i)).map (·.bytes))
/-- The oldest aged piece of a class on a slice. -/
def State.agedBytes (s : State) (w : Cls) (i : Nat) : Nat :=
  match s.frames.pieces.filter (fun p => p.cls == w && p.slice == i && p.aged) with
  | [] => 0
  | p :: l => (l.foldl (fun a q => if (q.born - a.born).toNat > 2 ^ 31 then q else a) p).bytes
/-- Proof copies run in class D without pieces (R76). -/
def Slice.copyBytes (sl : Slice) : Nat := 131072 * (sl.copies.length + sl.copyQ.length)
/-- The division of R111. -/
def divide (f : Frames) (credit d k m u aD aK aM : Nat) : Grant :=
  let share := fun (n : Nat) => credit * n / 100
  let aged := aD + aK + aM
  let left := credit - aged
  let gd := min (min (d - aD) (share f.dCap.toNat)) left
  let left := left - gd
  let low := min (min (k - aK) (share f.kFloor.toNat)) left
  let left := left - low - u
  let high := min (min (k - aK - low) (share f.kCap.toNat - low)) left
  let left := left - high
  { credit := credit, aged := aged, d := gd, kLow := low, u := u, kHigh := high, m := min (min (m - aM) (share f.mCap.toNat)) left }
def State.divideOn (s : State) (i credit : Nat) : Grant :=
  let sl := s.slice i
  divide s.frames credit (s.demand .d i + sl.copyBytes) (s.demand .k i) (s.demand .m i) sl.uDemand (s.agedBytes .d i) (s.agedBytes .k i)
    (s.agedBytes .m i)
def Grant.total (g : Grant) : Nat := g.aged + g.d + g.kLow + g.u + g.kHigh + g.m
/-- First amount of R110: the full rate less the refresh cycles of the last frame, halved on a slowed stack. -/
def State.rateBytes (s : State) (i : Nat) : Nat :=
  let cycles := 1100 * s.periodUs
  let n := s.fullBytes * (cycles - (s.slice i).refresh) / cycles
  if (s.slice i).stackState = 1 then n / 2 else n
/-- Second amount of R110. -/
def State.capBytes (s : State) (cap : Nat) : Nat := s.fullBytes * (cap + 1) / 256
/-- The engine's fabric credit (R115). -/
def State.fabricCredit (s : State) : Nat :=
  min (Config.linkRate * s.periodUs * s.frames.fabShare.toNat / 100) (s.peelsPresent * (Config.peelRate * s.periodUs))

/-! ### Issuing pieces (R111, R113, R118, R119, R121) -/

/-- Pieces in the order of their ages, oldest first. -/
def Frames.byAge (f : Frames) (l : List Piece) : List Piece := sortBy (fun p => 2 ^ 32 - (f.frame - p.born).toNat) l
/-- A FRAME_PIN command's pieces are issued in its frame alone. -/
def Frames.mayIssue (f : Frames) (p : Piece) : Bool := match p.pinned with | none => true | some d => d == f.frame
/-- Bytes of a class that its queued pieces share on a slice; proof copies take theirs first. -/
def State.room (s : State) (w : Cls) (i : Nat) : Nat :=
  (s.slice i).grant.of w - (if w = .d then (s.slice i).copyBytes else 0)
/-- Numbers of the pieces issued for a class on a slice: the oldest aged piece, and then, oldest first, those that fit the grant. -/
def State.issueOf (s : State) (w : Cls) (i : Nat) : List Nat :=
  let l := s.frames.byAge (s.frames.pieces.filter (fun p => p.cls == w && p.slice == i && s.frames.mayIssue p))
  let first := ((l.find? (·.aged)).map (·.id)).toList
  (l.foldl (fun (acc : List Nat × Nat) p =>
    if acc.1.contains p.id ∨ acc.2 < p.bytes then acc else (acc.1 ++ [p.id], acc.2 - p.bytes)) (first, s.room w i)).1
/-- Frame in which a command's queued work on a slice is expected to be done (R119). -/
def State.expectOn (s : State) (w : Cls) (i c : Nat) (tag : BitVec 16) : BitVec 32 :=
  let l := s.frames.byAge (s.frames.pieces.filter (fun p => p.cls == w && p.slice == i && !p.issued))
  let mine := fun (p : Piece) => p.ctx.toNat == c && p.tag == some tag
  let ahead := (l.reverse.dropWhile (fun p => !mine p)).reverse
  let g := (s.slice i).grant.of w
  let n := if g > 0 then max 1 (ceilDiv (sum (ahead.map (·.bytes))) g)
    else match ahead.find? mine with
      | some p => max 1 (s.frames.ageLimit.toNat - (s.frames.frame - p.born).toNat) + ahead.length - 1
      | none => 1
  s.frames.frame + BitVec.ofNat 32 n
/-- DEFERRED for a command some of whose pieces the plan has left (R90, R118). -/
def State.deferWork (s : State) (a : Adm) : State :=
  let mine := s.frames.pieces.filter (fun p => !p.issued && p.ctx.toNat == a.c.cid && p.tag == some a.c.tag)
  let f := s.frames.frame
  let e := maxOf (mine.map (fun p => (s.expectOn p.cls p.slice a.c.cid a.c.tag - f).toNat))
  if mine.isEmpty || a.c.pin then s else s.defer a.c.cid a.c.tag (f + BitVec.ofNat 32 e)
/-- The plan issues its pieces; what it leaves is counted as deferred, and the commands concerned hear of it. -/
def State.issuePieces (s : State) : State :=
  let ids := s.presentSlices.flatMap (fun i => [Cls.d, .k, .m].flatMap (fun w => s.issueOf w i))
  let s : State := { s with
    frames := { s.frames with pieces := s.frames.pieces.map (fun p => { p with issued := ids.contains p.id }) } }
  let s := s.each (s.frames.pieces.filter (fun p => !p.issued)) (fun s p => s.countSlice p.slice (24 + p.cls.idx))
  s.each s.link.admitted (fun s a => s.deferWork a)

/-! ### The plan of a slice -/

/-- Master tiles queued on a slice: their traffic and elements; and all class U bytes queued there (R494). -/
def State.uWork (s : State) (i : Nat) : Nat × Nat × Nat :=
  (s.link.admitted.filter (fun a => (a.op == 0x43 || a.op == 0x44) && a.begun)).foldl (fun acc a =>
    (a.work.filter (fun t => (s.tile a.c.cid t).slice == i)).foldl (fun (acc : Nat × Nat × Nat) t =>
      let n := s.traffic (a.op == 0x44) a.c.cid t a.h0
      let master := a.op == 0x43 && !(s.tile a.c.cid t).raw
      (acc.1 + (if master then n else 0), acc.2.1 + (if master then 16384 else 0), acc.2.2 + n)) acc) (0, 0, 0)
/-- Cap, credit and grant of a slice under an envelope. -/
def State.planSlice (s : State) (w i : Nat) : State :=
  let b := s.sliceBytes w i
  let sl := s.slice i
  let cap := min (s.powerCap b) (s.thermalCap sl.effTemp.toInt)
  let credit := min (min (s.rateBytes i) (s.capBytes cap)) (b - 64 * sl.otherLines) - sl.debt
  let g := s.divideOn i credit
  s.modSlice i (fun sl => { sl with powerBytes := b, stackCap := BitVec.ofNat 8 cap, grant := g, debt := 0 })
/-- Unconstrained demand of the plan (R437), in 0.125 W. -/
def State.freeDemand (s : State) : Nat :=
  s.demandOf (fun i =>
    let sl := s.slice i
    let credit := min (s.rateBytes i) (s.capBytes (s.thermalCap sl.effTemp.toInt)) - sl.debt
    min s.fullBytes ((s.divideOn i credit).total + 64 * sl.otherLines)) s.fab.sentPrev
/-- Stack state of a slice for the frame, and what it counts (R453). -/
def State.planStack (s : State) (i : Nat) : State :=
  let queued := s.frames.pieces.any (fun p => p.slice == i) || decide ((s.slice i).uQueued ≠ 0)
  let st := (s.slice i).wantState queued
  ((s.modSlice i (fun sl => { sl with stackState := st, awake := sl.awake - 1 })).countSlice i (67 + st.toNat))
/-- The plan has no crust apply, decode or partial sum for a slice (R440). -/
def State.arrayIdle (s : State) (i : Nat) : Bool := (s.slice i).landing.isEmpty && s.fab.sums.isEmpty && s.fab.jobs.isEmpty
/-- A slice that may be gated: no staged crumb, and no work admitted to it (R57). -/
def State.mayGate (s : State) (i : Nat) : Bool :=
  let sl := s.slice i
  s.arrayIdle i && sl.copies.isEmpty && sl.copyQ.isEmpty && sl.uQueued == 0 && !s.frames.pieces.any (fun p => p.slice == i)
    && !s.link.admitted.any (fun a => a.begun && a.work.any (fun t => (s.tile a.c.cid t).slice == i))
/-- slice_pg_en of a slice for the frame (R57): the rule says when the engine may gate it and never that it does. -/
def State.planGate (s : State) (i : Nat) : State :=
  if s.mayGate i then
    let r := s.free
    r.2.modSlice i (fun sl => { sl with gated := r.1.getLsbD 0 })
  else s.modSlice i (fun sl => { sl with gated := false })
/-- The power manager's part of a plan (R434 to R441). -/
def State.planPower (s : State) (pin : BitVec 16) : State :=
  let s := s.each s.presentSlices (fun s i => s.modSlice i (fun sl => { sl with uQueued := (s.uWork i).2.2 }))
  let s := s.each s.presentSlices (fun s i => s.planGate i)
  let w := s.envelopeOf pin
  let us := s.presentSlices.map (fun i => (s.slice i).uDemand)
  let es := s.presentSlices.map (fun i => let q := s.uWork i; (s.slice i).uElements (q.1, q.2.1))
  let point := if us.all (· == 0) then (if s.idleNow then 3 else 2) else pointFor s.periodUs es
  let s := s.setPoint point
  let s := s.each s.presentSlices (fun s i => s.planStack i)
  let free := s.freeDemand
  let s := s.each s.presentSlices (fun s i => s.planSlice w i)
  let s := s.each s.presentSlices (fun s i =>
    let idle := s.arrayIdle i
    (((s.modSlice i (fun sl => { sl with arrayGated := idle })).countSlice i 72 (bit idle)).countSlice i 71
      (bit (s.slice i).capped)).countSlice i 73 (bit (s.slice i).sensorFailed))
  let excess := decide (w < free)
  let s := { s with power := { s.power with
    inForce := BitVec.ofNat 16 w, uncapped := free, capped := s.power.capped && excess,
    capFrames := if excess then s.power.capFrames + 1 else 0 } }
  let now := if s.power.opAck then s.power.opReq else s.power.opOld
  (s.count 94 (bit excess)).count (99 + now.toNat)

/-! ### The end of a frame -/

/-- What the pins show, and what the last frame moved. -/
def State.closeSlice (s : State) (inp : FrameIn) (i : Nat) : State :=
  let s := s.modSlice i (fun sl => { sl with
    quiet := if sl.touched then 0 else min 65535 (sl.quiet + 1),
    slow := if 4 * sl.frameBytes < s.fullBytes then min 65535 (sl.slow + 1) else 0,
    uPrev := sl.served.getD 0 0, masters := if sl.mastersNow.2 ≠ 0 then sl.mastersNow else sl.masters,
    refresh := inp.refresh.getD i 0, stackAck := inp.stackAck.getD i false,
    overflow := sl.overflow && !sl.parked.isEmpty, corrNow := [], remapFull := false, coarsening := false })
  (s.countSlice i 18 (inp.refresh.getD i 0)).sampleTherm i (inp.therm.getD i 0x200)
/-- Sums of the new frame begin at zero. -/
def Slice.fresh (sl : Slice) : Slice :=
  { sl with lines := 0, otherLines := 0, touched := false, served := [0, 0, 0, 0], mastersNow := (0, 0), outer := sl.outer.filter (fun t => sl.parked.contains t) }
/-- A position's signs of the frame (Table 14.1). -/
def State.judgeSign (s : State) (c p : Nat) : State :=
  let g := s.sign c p
  let n := if g.nowTimeout && !g.nowReply then g.timeouts + 1 else 0
  let held := (s.ctx c).holdsPos p
  let s := s.modSign c p (fun g => { g with timeouts := n, nowTimeout := false, nowReply := false, rejects := 0, authRaised := false })
  let s := if g.nowTimeout && held then s.suspectIn c p 2 else s
  if held && n ≠ 0 && decide (max 1 (fld s.win.memberNow 0 8) ≤ n) then s.lostIn c p 2 else s
def State.judgeSigns (s : State) : State := s.each (mkeys s.fab.signs) (fun s k => s.judgeSign (k / 32) (k % 32))
/-- Idle counts (R384). -/
def TileRec.age (r : TileRec) : TileRec :=
  if r.tier1 then { r with used := false }
  else { r with idle := if r.used then 0 else if r.idle = 0xFFFF then r.idle else r.idle + 1, used := false }
def Ctx.newFrame (x : Ctx) : Ctx :=
  { x with tiles := mmap x.tiles (fun _ r => r.age), sparse := none, sparseRaised := false, spillRaised := false, holdsNow := 0,
           knead := { x.knead with farRaised := false, farNow := 0 } }
/-- A promotion for a read whose deadline has passed becomes a far read (R382). -/
def State.farRead (s : State) (c t : Nat) (j : KneadJob) : State :=
  let d := s.tile c t
  let s := (s.countCtx c 100).countCtx c 101
  let s := s.modCtx c (fun x => { x with knead := { x.knead with farNow := x.knead.farNow + 1 } })
  let s := if j.stage = 0 then
      (s.setJob c t (some { j with kind := 2, stage := 1, left := deSpan d.dir, entry := d.dir })).loadExtent c t .d
    else s.setJob c t (some { j with kind := 2 })
  let k := (s.ctx c).knead
  if k.farRaised then s
  else (s.modCtx c (fun x => { x with knead := { x.knead with farRaised := true } })).emit 0x0072 1 (some c)
    [(0, t), (4, j.deadline.toNat), (8, k.farNow)]
def State.farReads (s : State) (c : Nat) : State :=
  s.each ((s.ctx c).knead.jobs.filter (fun j => j.2.kind == 1 && j.2.cause == 4 && decide (j.2.stage ≤ 1) && decide (j.2.deadline ≠ 0)
    && framePast j.2.deadline s.frames.frame)) (fun s j => s.farRead c j.1 j.2)

/-! ### Presence probes (R312) -/

/-- Positions one or two places after this member in the member order of a joined context. -/
def Ctx.followers (x : Ctx) : List Nat :=
  match x.group.cfg with
  | none => []
  | some g => if !x.group.joined then [] else
      ([1, 2].map (fun d => g.posOf ((Group.myIndex g + d) % g.n))).filter (fun p => p != x.own)
def State.probes (s : State) : State :=
  if s.win.memberNow.getLsbD 56 then s
  else
    let l := s.ctxs.flatMap (fun e => e.2.followers.map (fun p => (e.1, p)))
    let r := l.foldl (fun (acc : State × List Nat) e =>
      if acc.2.contains e.2 ∨ acc.1.fencedAny e.2 then acc
      else ((acc.1.count 19).issue e.1 .u 4 e.2 [] [] .probe, acc.2 ++ [e.2])) (s, [])
    r.1

/-! ### The switch of the period (R103, R104) -/

/-- An old frame number in the new numbering: the new frame that holds the last nanosecond of the old frame. -/
def convFrame (tick : Word) (old new : BitVec 3) (f : BitVec 32) : BitVec 32 :=
  let cur : Int := tick.toNat / periodNs old.toNat
  let d : Int := cur + (f - BitVec.ofInt 32 cur).toInt
  BitVec.ofInt 32 (((d + 1) * periodNs old.toNat - 1) / periodNs new.toNat)
def convDeadline (tick : Word) (old new : BitVec 3) (f : BitVec 32) : BitVec 32 := if f = 0 then 0 else convFrame tick old new f
def Adm.conv (f : BitVec 32 → BitVec 32) (a : Adm) : Adm :=
  { a with
    c := { a.c with deadline := if a.c.deadline = 0 then 0 else f a.c.deadline }, frame := f a.frame,
    deferred := a.deferred.map (fun d => if d = BitVec.allOnes 32 then d else f d) }
def Ctx.conv (f : BitVec 32 → BitVec 32) (x : Ctx) : Ctx :=
  { x with
    keys := { x.keys with prev := x.keys.prev.map (fun k => (k.1, f k.2)) },
    group := { x.group with firstNotice := x.group.firstNotice.map f, rebuildFrame := f x.group.rebuildFrame },
    knead := { x.knead with jobs := mmap x.knead.jobs (fun _ j => { j with deadline := if j.deadline = 0 then 0 else f j.deadline }) } }
/-- The period of a SET_FRAME whose boundary has come takes effect. -/
def State.switchPeriod (s : State) (tick : Word) : State :=
  match s.frames.pending with
  | none => s
  | some (c, tag, j, b) =>
    if tick.toNat < b.toNat then s
    else
      let f := convFrame s.frames.tick s.frames.j j
      let n := frameAt tick j
      let s : State := { s with
        frames := { s.frames with
          j := j, tick := tick, frame := n, pending := none,
          pieces := s.frames.pieces.map (fun p => { p with born := f p.born, pinned := p.pinned.map f }) },
        link := { s.link with admitted := s.link.admitted.map (Adm.conv f) },
        ctxs := mmap s.ctxs (fun _ x => x.conv f),
        fab := { s.fab with
          quar := s.fab.quar.map (fun q => { q with until_ := f q.until_ }),
          signs := mmap s.fab.signs (fun _ g => { g with last := mmap g.last (fun _ d => f d) }) } }
      s.finish c.toNat tag 0 n.toNat
/-- FRAME_PERIOD_SWITCH. -/
def execFramePeriodSwitch (tick : Word) (s : State) : Host.Outcome State Fault Refusal :=
  if !s.live || !s.frames.lock then .next s else .next (s.switchPeriod tick)

def chkSetFrame (s : State) (_ : Cmd) : Option Bad := if s.frames.pending.isSome then conflict 8 else none
/-- First boundary that is a multiple of both periods, at least one whole frame after the admission. -/
def switchAt (tick : Word) (old new : BitVec 3) : Word :=
  let p := periodNs old.toNat
  let l := max p (periodNs new.toNat)
  BitVec.ofNat 64 (ceilDiv ((tick.toNat / p + 2) * p) l * l)
def takeSetFrame (c : Cmd) (s : State) : State :=
  let j := BitVec.ofNat 3 (fld c.a 0 3)
  if j = s.frames.j then s
  else { s with frames := { s.frames with pending := some (c.ctx, c.tag, j, switchAt s.frames.tick s.frames.j j) } }
/-- SET_FRAME: DONE at once where the period stays, else when it changes. -/
def effSetFrame (c : Cmd) (s : State) : State :=
  if s.frames.pending.isSome then s else s.done c (s.frames.frame + 1).toNat
def execSetFrame (c : Cmd) (s : State) : Host.Outcome State Fault Refusal :=
  .next (s.runCmd 0x05 noFields chkSetFrame noBytes takeSetFrame effSetFrame c)

/-! ### FRAME_PLAN_BUILD and PLAN_CUTOFF (R105, R106) -/

/-- Bound of the plan build, in nanoseconds. -/
def State.buildBound (s : State) : Nat := if s.power.opReq = 2 ∨ s.power.opReq = 3 then 40000 else 20000
/-- Levels that a peel marks as saturated (R116). -/
def State.levelSat (s : State) (k : Nat) : Bool := [0, 1].any (fun p => (s.peel p).sat.getLsbD k)
/-- The boundary of a frame: what the last frame moved is closed, and the new one has its number. -/
def State.openFrame (s : State) (inp : FrameIn) : State :=
  let old := s.frames.frame
  let s := s.each s.presentSlices (fun s i => s.closeSlice inp i)
  let s := { s with
    frames := { s.frames with tick := inp.tick, frame := frameAt inp.tick s.frames.j, sinceDigest := s.frames.sinceDigest + 1 },
    win := { s.win with memberNow := s.win.member, fabricNow := s.win.fabric },
    power := { s.power with demand := BitVec.ofNat 16 (sat 0xFFFF (s.demandOf (fun i => (s.slice i).frameBytes) s.fab.sentNow)) },
    fab := { s.fab with sentPrev := s.fab.sentNow, sentNow := 0, rxPrev := s.fab.rxNow, rxNow := false } }
  let s := s.each (List.range s.peelsPresent) (fun s p =>
    s.modPeel p (fun q => { q with sat := inp.sat.getD p 0, late := none, lateNow := 0 }))
  let s := s.each s.presentSlices (fun s i => s.judgeTemp i)
  let s := (s.judgeSigns).judgeRisk old
  let s := { s with ctxs := mmap s.ctxs (fun _ x => x.newFrame) }
  s.each s.presentSlices (fun s i => s.each (s.slice i).holdStage (fun s c => s.holdFrame c i))
/-- Requests that a new plan lets out, whatever it issues. -/
def State.letOut (s : State) : State :=
  let s := s.each (mkeys s.ctxs) (fun s c => s.farReads c)
  let s := s.releaseFaults.resendAll
  let s := s.each (mkeys s.ctxs) (fun s c => s.noticeAgain c)
  s.probes
/-- The plan itself: the queue, the credits, and the pieces issued; the requests of those that are decodes leave, and what waited for
a coding array goes on (R440). -/
def State.makePlan (s : State) (inp : FrameIn) : State :=
  let s := (s.queue).planPower inp.envelope
  let s := (s.count 9 (bit (s.levelSat 0))).count 10 (bit (s.levelSat 1))
  let s := s.each s.presentSlices (fun s i => s.modSlice i Slice.fresh)
  let s : State := { s with frames := { s.frames with planned := true, fabCredit := s.fabricCredit, fabUsed := [], agedOut := [] } }
  (s.issuePieces.pumpJobs.each s.presentSlices (fun s i => s.applyLanded i)).pushSums
/-- FRAME_PLAN_BUILD: with lock, at a boundary. A plan still in force fires the watchdog; a table that fails its check, the
self-check (R20). -/
def execFramePlanBuild (inp : FrameIn) (s : State) : Host.Outcome State Fault Refusal :=
  if !s.live || !s.frames.lock then .next s
  else if s.frames.planned then .next (s.faultFreeze 1)
  else if !inp.tablesOk then .next (s.faultFreeze 3)
  else
    let s := (s.switchPeriod inp.tick).openFrame inp
    let s := if s.buildBound < inp.buildNs.toNat then
        (s.count 2).emit 0x0011 2 none [(0, s.frames.frame.toNat), (4, inp.buildNs.toNat)] else s
    .next (s.letOut.makePlan inp)

/-- Category of the frame (Table 20.8). -/
def State.countGoodput (s : State) (c : Nat) : State :=
  let x := s.ctx c
  let stall := x.ranStall || s.presentSlices.any (fun i => (s.slice i).holdStage.contains c ||
    (s.slice i).parked.any (fun t => (s.slice i).outer.contains t && (s.slice i).stalls t &&
      (match s.owner i t with | some (d, _) => d == c | none => false)))
  let k := if x.ranRebuild then some 133 else if x.ranReplay then some 134 else if stall then some 135
    else if x.ranUseful then some 136 else none
  let s := match k with | some k => s.countCtx c k | none => s
  s.modCtx c (fun x => { x with ranRebuild := false, ranReplay := false, ranStall := false, ranUseful := false })
/-- Class U bytes beyond the credit are charged to the frame (R112). -/
def State.chargeSlice (s : State) (i : Nat) : State :=
  let sl := s.slice i
  let excess := min (sl.served.getD 0 0) (sum sl.served - sl.grant.credit)
  (s.count 0 excess).modSlice i (fun sl => { sl with debt := excess })
/-- Pieces that the plan served, or returns to the queue (R105, R124). -/
def State.countPieces (s : State) : State :=
  let work := s.workList
  let s := s.each (s.frames.pieces.filter (·.issued)) (fun s p =>
    if work.any (fun w => p.holds w) then s.countSlice p.slice (24 + p.cls.idx) else s.count (5 + p.cls.idx) (bit p.aged))
  { s with frames := { s.frames with pieces := s.frames.pieces.map (fun p => { p with issued := false }) } }
/-- The plan is retired: corrected lines have been rewritten (R37), commits are added, sparse faults reported, the frame charged and put into its category. -/
def State.retire (s : State) : State :=
  let s := s.each s.presentSlices (fun s i =>
    (s.serve i .m (64 * (s.slice i).rewrites.length)).modSlice i (fun sl => { sl with rewrites := [] }))
  let s := s.countPieces
  let s := s.each s.presentSlices (fun s i => s.chargeSlice i)
  let s := s.each (mkeys s.ctxs) (fun s c => if (s.ctx c).isOpen then ((s.sendCommits c).raiseSparse c none).countGoodput c else s)
  { s with frames := { s.frames with planned := false } }
/-- PLAN_CUTOFF. -/
def execPlanCutoff (s : State) : Host.Outcome State Fault Refusal :=
  if !s.live || !s.frames.planned then .next s else .next s.retire

/-! ### Tick lock (R53, R122) -/

/-- TICK_LOCK_LOSS: counted; the plan is retired and none is built until lock returns. -/
def execTickLockLoss (s : State) : Host.Outcome State Fault Refusal :=
  if !s.up || !s.frames.lock then .next s
  else
    let s := s.count 5
    let s := if s.live && s.frames.planned then s.retire else s
    .next { s with frames := { s.frames with lock := false, planned := false } }
/-- TICK_LOCK_REGAINED: at a frame boundary; the frame number is computed anew. -/
def execTickLockRegained (tick : Word) (s : State) : Host.Outcome State Fault Refusal :=
  if !s.up || s.frames.lock then .next s
  else
    let n := frameAt tick s.frames.j
    let s := if s.live then s.count 4 (n - s.frames.frame).toNat else s
    .next { s with frames := { s.frames with lock := true, tick := tick, frame := n } }

/-! ### DEADLINE_MISS (R92, R120) -/

/-- The deadline that a command is judged by: a STEP_PUBLISH without one has its target's GRACE (R177). -/
def State.deadlineOf (s : State) (a : Adm) : BitVec 32 :=
  if a.op = 0x46 then (s.target a.c.cid (fld a.c.a 0 4)).deadline a else a.c.deadline
def State.missEvent (s : State) (a : Adm) : State :=
  s.emit 0x0070 2 (some a.c.cid) [(0, a.c.tag.toNat), (2, a.op.toNat), (4, (s.deadlineOf a).toNat), (8, s.frames.frame.toNat)]
/-- The step is held (R280). -/
def State.holdStep (s : State) (c : Nat) (tag : BitVec 16) : State :=
  match (s.ctx c).step with
  | none => s
  | some st =>
    if st.tag ≠ tag ∨ st.held ∨ st.unrisen ∨ st.awaitOnly ∨ (s.finalOf c).isSome then s
    else ((s.verdictEvent c st 2 0).countCtx c 15).modStep c (fun st => { st with held := true })
/-- A KNEAD_HINT promotes no further tile and completes (R382). -/
def State.stopHint (s : State) (c : Nat) (tag : BitVec 16) : State :=
  let s := s.modCtx c (fun x => { x with knead := { x.knead with
    jobs := mkeep x.knead.jobs (fun _ j => !(j.tag == some tag && j.stage == 0 && j.kind == 1)) } })
  match s.adm? c tag with
  | some a => s.finish c tag 0 (sat32 a.done)
  | none => s
/-- DEADLINE_MISS: found once for a command, when a plan is built after its deadline frame. -/
def execDeadlineMiss (ctx : BitVec 4) (tag : BitVec 16) (s : State) : Host.Outcome State Fault Refusal :=
  let c := ctx.toNat
  match s.adm? c tag with
  | none => .next s
  | some a =>
    let d := s.deadlineOf a
    if !s.live || !s.frames.lock || (a.op != 0x46 && d == 0) || a.missed || !framePast d s.frames.frame then .next s
    else
      let s := (s.count 3).modAdm c tag (fun a => { a with missed := true })
      if a.op = 0x46 ∧ a.aux.isNone ∧ (s.ctx c).lastClean = some a.c.b ∧ !s.leasesOk (s.target c (fld a.c.a 0 4)) then
        .next (s.skipPublish c a)
      else
        let s := s.missEvent a
        .next (if a.op = 0x42 then s.holdStep c tag
          else if a.op = 0x70 ∧ !a.c.b.getLsbD 0 then s.stopHint c tag else s)

end Sys2Proof.Machine
end

