-- ==== Sys2Proof/Machine/Context.lean ====
section
/-!
DEFINITION. Machine/Context.lean: opening, closing and resetting a context (R86, R387, R466), and the draw from a row of
scores (R227 to R229).
-/
namespace Sys2Proof.Machine

/-! ### CTX_OPEN (R86) -/

/-- STATE_CONFLICT reason 1 (Table 4.6). -/
def chkCtxOpen (s : State) (c : Cmd) : Option Bad := if (s.ctx c.cid).isOpen then conflict 1 else none
/-- A context bank reads zero (R484). -/
def State.clearBank (s : State) (c : Nat) : State := { s with ctxCtr := mkeep s.ctxCtr (fun k _ => decide (k / 184 ≠ c)) }
/-- The context opens in the moment the command passes its checks; every value of a context is as at CTX_OPEN. -/
def takeCtxOpen (c : Cmd) (s : State) : State :=
  (s.modCtx c.cid (fun _ => { isOpen := true, eight := c.a.getLsbD 0 })).clearBank c.cid
/-- CTX_OPEN. -/
def execCtxOpen (c : Cmd) (s : State) : Host.Outcome State Fault Refusal :=
  .next (s.runCmd 0x10 noFields chkCtxOpen noBytes takeCtxOpen effDone0 c)

/-! ### CTX_CLOSE (R86, R387) -/

/-- STATE_CONFLICT reasons 2 and 3 (Table 4.6). -/
def chkCtxClose (s : State) (c : Cmd) : Option Bad :=
  let x := s.ctx c.cid
  if s.link.admitted.any (fun a => a.c.cid == c.cid && a.counts) then conflict 2
  else if x.group.joined || !x.regions.isEmpty then conflict 3
  else none
/-- What the engine keeps of the context outside its own record goes: request slots (their tags quarantined), decodes, sums, waits,
landing crumbs, adoption records held, signs. -/
def State.dropOf (s : State) (c : Nat) : State :=
  let s := s.each (s.fab.reqs.filter (fun r => r.ctx.toNat == c)) (fun s r => s.quarantine r)
  let s := { s with fab := { s.fab with
    retries := s.fab.retries.filter (fun r => r.req.ctx.toNat != c),
    locals := s.fab.locals.filter (fun w => w.ctx.toNat != c),
    jobs := s.fab.jobs.filter (fun j => j.ctx.toNat != c),
    sums := s.fab.sums.filter (fun p => p.ctx.toNat != c),
    held := mkeep s.fab.held (fun k _ => k / 32 != c),
    signs := mkeep s.fab.signs (fun k _ => k / 32 != c),
    lateness := merase s.fab.lateness c } }
  { s with
    frames := { s.frames with pieces := s.frames.pieces.filter (fun p => p.ctx.toNat != c) },
    slices := mmap s.slices (fun _ sl => { sl with
      landing := sl.landing.filter (fun l => l.ctx.toNat != c),
      earlySeal := sl.earlySeal.erase c, holdStage := sl.holdStage.erase c }) }
/-- The context's record is gone: its pools, map store, map area, keys, targets, window and placement are free. -/
def State.vacate (s : State) (c : Nat) : State :=
  let s := s.dropOf c
  { s with ctxs := merase s.ctxs c }
/-- Stack tiles given up are released where they were held, and proof copies that wait may start (R72, R76). -/
def State.freeStacks (s : State) (l : List (Nat × Nat)) : State :=
  let s := s.each l (fun s p => s.freeStack p.1 p.2)
  s.each s.presentSlices (fun s i => s.startCopies i Config.copiesMax)
/-- Rack addresses of the 256-byte units of the directory that list a tier-1 tile. -/
def Ctx.listedUnits (x : Ctx) : List Nat :=
  (((x.tiles.filter (fun e => deValid e.2.dir)).map (fun e => e.1 / 32)).dedup).map (fun u => x.knead.entryAt (32 * u))
/-- A stack tile as a number below 2^26, and a rack address above it: what a CTX_CLOSE has still to do. -/
def stackNo (p : Nat × Nat) : Nat := p.1 * 2 ^ 21 + p.2
def stackOf (n : Nat) : Nat × Nat := (n / 2 ^ 21, n % 2 ^ 21)
/-- The context closes in the moment the command passes its checks. -/
def takeCtxClose (c : Cmd) (s : State) : State :=
  let x := s.ctx c.cid
  let l := x.homes.map stackNo ++ x.listedUnits.map (2 ^ 48 + ·)
  (s.vacate c.cid).modAdm c.cid c.tag (fun a => { a with work := l })
/-- The tiles of the old map are released, and the directory entries of its tier-1 tiles are written as zero. -/
def effCtxClose (c : Cmd) (s : State) : State :=
  let l := ((s.adm? c.cid c.tag).map (·.work)).getD []
  let s := s.freeStacks ((l.filter (fun n => decide (n < 2 ^ 48))).map stackOf)
  let units := l.filter (fun n => decide (2 ^ 48 ≤ n))
  if units.isEmpty then s.done c 0
  else s.each units (fun s u => s.issue c.cid .m 2 0 [(8, u - 2 ^ 48)] (List.replicate 256 0) .command c.tag)
/-- CTX_CLOSE. -/
def execCtxClose (c : Cmd) (s : State) : Host.Outcome State Fault Refusal :=
  .next (s.runCmd 0x11 noFields chkCtxClose noBytes takeCtxClose effCtxClose c)

/-! ### Context reset (R466) -/

/-- Every admitted command of the context ends with CANCELLED and its progress; a cancel command with its last. -/
def State.endCommands (s : State) (c : Nat) : State :=
  let l := s.link.admitted.filter (fun a => a.c.cid == c)
  let s := if l.any (fun a => a.op == 0x05) then { s with frames := { s.frames with pending := none } } else s
  s.each (l.filter Adm.counts ++ l.filter (fun a => !a.counts)) (fun s a => s.finish c a.c.tag 0x0700 0)
/-- Range entries of the context go: PROTECT entries that no other context needs, and its HOLD_REGION entries, whose parked
tiles clear (R72). -/
def State.dropRanges (s : State) (c : Nat) : State :=
  let ts := mkeys (s.ctx c).tiles
  let s := (s.modCtx c (fun x => { x with regions := [] })).unprotect c ts
  s.each s.presentSlices (fun s i => s.modSlice i (fun sl =>
    let holds := sl.ranges.filter (fun e => e.2.kind == 2 && e.2.ctx.toNat == c)
    let sl := { sl with ranges := mkeep sl.ranges (fun _ e => !(e.kind == 2 && e.ctx.toNat == c)) }
    (sl.parked.filter (fun t => holds.any (fun e => e.2.covers t))).foldl Slice.settle sl))
/-- A context reset: no unrise, nothing written to the pantry. -/
def State.contextReset (s : State) (c : Nat) : State :=
  let s := (s.endCommands c).dropRanges c
  let homes := (s.ctx c).homes
  let s := { s with branches := mkeep s.branches (fun _ b => b.ctx.toNat != c) }
  ((s.vacate c).freeStacks homes).clearBank c

/-! ### SAMPLE_ROW -/

def rowTemp (c : Cmd) : F32 := BitVec.ofNat 32 (fld c.b 0 32)
/-- The temperature is finite and above zero. -/
def fieldsSampleRow (_ : State) (c : Cmd) : List Nat :=
  badAt (isNan (rowTemp c) || isInf (rowTemp c) || !flt 0 (rowTemp c)) 16
/-- The logical tiles that hold the row's bytes, in order; none where one lies in no region of the context (R229). -/
def State.rowTiles (s : State) (c a n : Nat) : Option (List Nat) :=
  (List.range (ceilDiv (addrByte a % 65536 + n) 65536)).mapM (fun i =>
    match s.owner (addrSlice a) (addrByte a / 65536 + i) with
    | some (k, t) => if k = c ∧ ((s.ctx c).regionOf t).isSome then some t else none
    | none => none)
def chkSampleRow (s : State) (c : Cmd) : Option Bad :=
  let a := c.a.toNat
  check (s.validAddr a && decide (a % 64 = 0) && decide (addrByte a + 4 * c.n ≤ Config.stackTiles * Config.tileBytes)
    && (s.rowTiles c.cid a (4 * c.n)).isSome) badRange
def bytesSampleRow (_ : State) (c : Cmd) : List (Nat × Nat) := [(addrSlice c.a.toNat, 4 * c.n)]
/-- Bytes of a row, of the values of its tiles. -/
def rowBytes (a n : Nat) (vs : List Tile) : List Byte :=
  ((vs.flatMap bytesOfTile).drop (addrByte a % 65536)).take n
def f32s (n : Nat) (l : List Byte) : List F32 := (List.range n).map (fun i => BitVec.ofNat 32 (natOfBytes ((l.drop (4 * i)).take 4)))
/-- A row that can be read is drawn from at once; a tile in tier 1 comes as a far read first, a tile held for a mend or a rebuild
is awaited, and one whose mend has failed cannot be read. -/
def effSampleRow (c : Cmd) (s : State) : State :=
  let k := c.cid
  let a := c.a.toNat
  let w := workClass (rowOf 0xB0) c
  let ts := (s.rowTiles k a (4 * c.n)).getD []
  match ts.find? (fun t => s.heldFor k t .mendFailed) with
  | some t => s.finish k c.tag 0x0600 t
  | none =>
    if ts.any (fun t => s.heldFor k t .mend || s.heldFor k t .unbuilt) then
      (s.each (ts.filter (fun t => s.heldFor k t .unbuilt)) (fun s t => s.demandLoaf k t)).modAdm k c.tag
        (fun a => { a with begun := false })
    else s.waitRead c ts w fun s =>
      let l := rowBytes a (4 * c.n) (ts.map (fun t => s.valOf k t))
      let m := (s.adm? k c.tag).getD { op := 0xB0, c := c }
      let st := starter m.seed 1 (BitVec.ofNat 32 (fld c.b 32 32)) m.stepIn 0
      let s := s.each ts (fun s t => (s.touch k t).endRead k t)
      let s := (s.serve (addrSlice a) w (4 * c.n)).modAdm k c.tag (fun a => { a with done := c.n })
      s.done c (sampleRow (f32s c.n l) (rowTemp c) st)
/-- SAMPLE_ROW (R228, R229). -/
def execSampleRow (c : Cmd) (s : State) : Host.Outcome State Fault Refusal :=
  .next (s.runCmd 0xB0 fieldsSampleRow chkSampleRow bytesSampleRow noTake effSampleRow c)

end Sys2Proof.Machine
end

