-- ==== Sys2Proof/Machine/Guard.lean ====
section
/-!
DEFINITION. Machine/Guard.lean: the management port (R52, Table 2.10) and the guard's operations (R466 to R472). A request is
answered in the command that carries it; what it asks for follows the answer (R462, R470).
-/
namespace Sys2Proof.Machine

def reqOp (r : BitVec 32) : Nat := fld r 0 4
def reqArg (r : BitVec 32) : Nat := fld r 8 12
/-- Reserved bits of a request: [31:20], and for GUARD_RESET argument bits [11:6]. -/
def reqReserved (r : BitVec 32) : Bool := decide (fld r 20 12 ≠ 0) || (reqOp r == 4 && decide (fld r 14 6 ≠ 0))
/-- CONTEXT and DEBUG of a GUARD_RESET. -/
def reqContext (r : BitVec 32) : Bool := r.getLsbD 12
def reqDebug (r : BitVec 32) : Bool := r.getLsbD 13
/-- The response (R52); a request that fails is counted (R471). -/
def State.mgtAnswer (s : State) (r : BitVec 32) (result : Nat) (data : Option Word) : State :=
  let m : MgtRsp := { op := BitVec.ofNat 4 (reqOp r), seq := BitVec.ofNat 4 (fld r 4 4), result := BitVec.ofNat 4 result,
                      data := data }
  let s : State := { s with boot := { s.boot with mgt := some m } }
  if result = 0 then s else s.countGuard 7
/-- Result of a request whose operation is known. -/
def State.mgtResult (s : State) (r : BitVec 32) : Nat :=
  if reqReserved r then 2 else if reqOp r = 4 ∧ reqDebug r ∧ (s.fieldLock ∨ reqContext r) then 3 else 0
/-- One request for the operation `op`: a request for another is none of this command's. -/
def State.manage (s : State) (op : Nat) (r : BitVec 32) (data : State → Option Word) (act : State → State) : State :=
  if s.up = false ∨ reqOp r ≠ op then s
  else
    let e := s.mgtResult r
    if e = 0 then act (s.mgtAnswer r 0 (data s)) else s.mgtAnswer r e none

def noData (_ : State) : Option Word := none

/-- GUARD_STATUS (R469). -/
def execGuardStatus (r : BitVec 32) (s : State) : Host.Outcome State Fault Refusal :=
  .next (s.manage 1 r (fun s => some s.guardWord) id)

/-- GUARD_FREEZE (R467): held beneath the other causes. -/
def State.guardFreeze (s : State) : State := { s with boot := { s.boot with guardFrz := true } }.countGuard 3
def execGuardFreeze (r : BitVec 32) (s : State) : Host.Outcome State Fault Refusal :=
  .next (s.manage 2 r noData State.guardFreeze)

/-- GUARD_THAW (R468, R472): no effect without a guard freeze or in teardown; what waited for the thaw is taken up. -/
def State.guardThaw (s : State) : State :=
  if s.boot.guardFrz = false ∨ s.boot.phase = .teardown then s
  else
    let s := { s with boot := { s.boot with guardFrz := false } }.countGuard 5
    if s.live then s.takeHeld else s
def execGuardThaw (r : BitVec 32) (s : State) : Host.Outcome State Fault Refusal :=
  .next (s.manage 3 r noData State.guardThaw)

/-- GUARD_RESET without CONTEXT (R462, R470): a warm reset follows. -/
def execGuardReset (r : BitVec 32) (s : State) : Host.Outcome State Fault Refusal :=
  if reqContext r then .next s
  else .next (s.manage 4 r noData (fun s => s.beginWarm true (reqDebug r)))

/-- GUARD_RESET with CONTEXT (R466, R470): under a fault freeze, or while a warm reset is in progress, it is one of those. -/
def State.resetOf (s : State) (c : Nat) : State :=
  if s.boot.fault ≠ 0 ∨ s.boot.phase = .teardown then s.beginWarm true false
  else (s.contextReset c).countGuard 2
def execContextReset (r : BitVec 32) (s : State) : Host.Outcome State Fault Refusal :=
  if !reqContext r then .next s
  else .next (s.manage 4 r noData (fun s => s.resetOf (fld r 8 4)))

/-- GUARD_COUNTERS (R471). -/
def State.guardCounter (s : State) (n : Nat) : Word :=
  if n < 384 then s.counterWord n s.ctrSlice s.ctrCtx
  else if 0xF00 ≤ n ∧ n ≤ 0xF07 then mgetD s.boot.guardCtr (n - 0xF00) 0
  else 0
def execGuardCounters (r : BitVec 32) (s : State) : Host.Outcome State Fault Refusal :=
  .next (s.manage 5 r (fun s => some (s.guardCounter (reqArg r))) id)

/-- A request with an operation that Table 2.10 does not name: result 0x1. -/
def execGuardUnknownOp (r : BitVec 32) (s : State) : Host.Outcome State Fault Refusal :=
  if s.up = false ∨ (1 ≤ reqOp r ∧ reqOp r ≤ 5) then .next s
  else .next (s.mgtAnswer r 1 none)

end Sys2Proof.Machine
end

