-- ==== Sys2Proof/Machine/Begin.lean ====
section
/-!
DEFINITION. Machine/Begin.lean: what the block does when no command is at hand: admitted commands that waited begin when they may
(R87, R91, R122, R271, R467), and begun commands go on with what they could not do before.
-/
namespace Sys2Proof.Machine

/-- What a command does when it begins. -/
def effOf (op : Byte) : Cmd → State → State :=
  match op.toNat with
  | 0x00 => effNop | 0x01 => effPing | 0x02 => effQueryCaps | 0x03 => effReadCounters | 0x04 => effSetEventMask | 0x05 => effSetFrame
  | 0x10 => effDone0 | 0x11 => effCtxClose | 0x12 => effCtxSetTilemap | 0x13 => effDone0
  | 0x20 => effRegionDefine | 0x21 => effRegionSetClass | 0x22 => effRegionRelease | 0x23 => effPoolSize
  | 0x30 => effDone0 | 0x31 => effGroupJoin | 0x32 => effDone0 | 0x33 => effDone0
  | 0x40 => effDone0 | 0x41 => effDone0 | 0x42 => effNone | 0x43 => effGradReady | 0x44 => effAccumulate | 0x45 => effNone
  | 0x46 => effStepPublish | 0x47 => effPublishTargets | 0x48 => effLossScale
  | 0x50 => effDone0 | 0x51 => effNone | 0x52 => effBakeStatus | 0x53 => effDone0
  | 0x60 => effFence | 0x61 => effAdopt | 0x62 => effRebuildStart | 0x63 => effRollback | 0x64 => effReplay | 0x65 => effMendTile
  | 0x70 => effKneadHint | 0x71 => effKneadPin | 0x72 => effPolicy
  | 0x80 => effExportBegin | 0x81 => effExportNext | 0x82 => effRestoreBegin | 0x83 => effRestoreNext | 0x84 => effRestoreCommit
  | 0x90 => effBranchTake | 0x91 => effBranchRestore | 0x92 => effBranchFork | 0x93 => effBranchDrop
  | 0xA0 => effPowerEnvelope | 0xA1 => effCalUserSet | 0xA2 => effRiskWeights | 0xA3 => effHealthMode
  | 0xB0 => effSampleRow | 0xB1 => effCounterOp | 0xC0 => effCheckbit | 0xC1 => effRawRead | 0xC2 => effGateForce
  | 0xF0 => effCancelTag | 0xF1 => effCancelContext
  | _ => effNone

/-- A command that has begun goes on where it stopped. -/
def State.goOn (s : State) (a : Adm) : State :=
  let c := a.c.cid
  match a.op.toNat with
  | 0x44 => s.runAccumulate c a.c.tag
  | 0x46 => s.skipLate c a.c.tag
  | 0x63 => s.runRollback c a.c.tag
  | 0x65 => s.runMends c a.c.tag
  | 0x70 => s.hintDone c a.c.tag
  | 0x81 => s.runExport c a.c.tag
  | 0x83 => s.runRestore c a.c.tag (a.c.n + 1)
  | 0x84 => s.runCommit c a.c.tag
  | _ => s
/-- One admitted command: it begins if it waited and may begin now, or goes on. STEP_ACCUMULATE alone needs no gate write to go on. -/
def State.takeUp (s : State) (ctx : Nat) (tag : BitVec 16) : State :=
  match s.adm? ctx tag with
  | none => s
  | some a =>
    if !a.begun then s.beginOrWait a (effOf a.op)
    else if s.frames.lock && (s.running || a.op == 0x44) then s.goOn a
    else s
/-- No command is at hand: every admitted command is taken up once, in the order of admission, and sums that are whole leave. -/
def State.idle (s : State) : State :=
  if !s.live || s.stopped then s
  else
    let s := s.each (s.link.admitted.map (fun a => (a.c.cid, a.c.tag))) (fun s e => s.takeUp e.1 e.2)
    if s.running then s.pushSums else s

end Sys2Proof.Machine
end

