-- ==== Sys2Proof/Machine/Dispatch.lean ====
section
/-!
DEFINITION. Machine/Dispatch.lean: one arm for each command of the block, each one call of that command's meaning.
-/
namespace Sys2Proof.Machine

def exec (i : Instr) (s : State) : Host.Outcome State Fault Refusal :=
  match i with
  | .coldReset => Sys2Proof.Machine.execColdReset s
  | .fuseSenseDone pages => Sys2Proof.Machine.execFuseSenseDone pages s
  | .bootGo value => Sys2Proof.Machine.execBootGo value s
  | .imageAuthenticated poisoned => Sys2Proof.Machine.execImageAuthenticated poisoned s
  | .selftestDone failing => Sys2Proof.Machine.execSelftestDone failing s
  | .engineReady tick => Sys2Proof.Machine.execEngineReady tick s
  | .warmReset => Sys2Proof.Machine.execWarmReset s
  | .teardownDone => Sys2Proof.Machine.execTeardownDone s
  | .guardStatus req => Sys2Proof.Machine.execGuardStatus req s
  | .guardFreeze req => Sys2Proof.Machine.execGuardFreeze req s
  | .guardThaw req => Sys2Proof.Machine.execGuardThaw req s
  | .guardReset req => Sys2Proof.Machine.execGuardReset req s
  | .contextReset req => Sys2Proof.Machine.execContextReset req s
  | .guardCounters req => Sys2Proof.Machine.execGuardCounters req s
  | .guardUnknownOp req => Sys2Proof.Machine.execGuardUnknownOp req s
  | .cmdDoorbell value => Sys2Proof.Machine.execCmdDoorbell value s
  | .evqHeadWrite value => Sys2Proof.Machine.execEvqHeadWrite value s
  | .registerWrite addr value => Sys2Proof.Machine.execRegisterWrite addr value s
  | .eventRingWrite => Sys2Proof.Machine.execEventRingWrite s
  | .malformedCommand opcode tag ctx len flits => Sys2Proof.Machine.execMalformedCommand opcode tag ctx len flits s
  | .nop c => Sys2Proof.Machine.execNop c s
  | .ping c => Sys2Proof.Machine.execPing c s
  | .queryCaps c => Sys2Proof.Machine.execQueryCaps c s
  | .readCounters c => Sys2Proof.Machine.execReadCounters c s
  | .setEventMask c => Sys2Proof.Machine.execSetEventMask c s
  | .setFrame c => Sys2Proof.Machine.execSetFrame c s
  | .framePeriodSwitch tick => Sys2Proof.Machine.execFramePeriodSwitch tick s
  | .ctxOpen c => Sys2Proof.Machine.execCtxOpen c s
  | .ctxClose c => Sys2Proof.Machine.execCtxClose c s
  | .ctxSetTilemap c => Sys2Proof.Machine.execCtxSetTilemap c s
  | .ctxSetSeed c => Sys2Proof.Machine.execCtxSetSeed c s
  | .regionDefine c => Sys2Proof.Machine.execRegionDefine c s
  | .regionSetClass c => Sys2Proof.Machine.execRegionSetClass c s
  | .regionRelease c => Sys2Proof.Machine.execRegionRelease c s
  | .poolSize c => Sys2Proof.Machine.execPoolSize c s
  | .groupConfig c => Sys2Proof.Machine.execGroupConfig c s
  | .groupJoin c => Sys2Proof.Machine.execGroupJoin c s
  | .groupKey c => Sys2Proof.Machine.execGroupKey c s
  | .groupLeave c => Sys2Proof.Machine.execGroupLeave c s
  | .progLoad c => Sys2Proof.Machine.execProgLoad c s
  | .pgroupSet c => Sys2Proof.Machine.execPgroupSet c s
  | .stepBegin c => Sys2Proof.Machine.execStepBegin c s
  | .stepGradReady c => Sys2Proof.Machine.execStepGradReady c s
  | .masterTileUpdate ctx tile checkerBusy => Sys2Proof.Machine.execMasterTileUpdate ctx tile checkerBusy s
  | .stepAccumulate c => Sys2Proof.Machine.execStepAccumulate c s
  | .stepLoss c => Sys2Proof.Machine.execStepLoss c s
  | .riskLevelPublish ctx => Sys2Proof.Machine.execRiskLevelPublish ctx s
  | .stepFindingAdd ctx => Sys2Proof.Machine.execStepFindingAdd ctx s
  | .verdictDecide ctx => Sys2Proof.Machine.execVerdictDecide ctx s
  | .verdictClean ctx => Sys2Proof.Machine.execVerdictClean ctx s
  | .verdictOverflow ctx => Sys2Proof.Machine.execVerdictOverflow ctx s
  | .unriseDone ctx => Sys2Proof.Machine.execUnriseDone ctx s
  | .stepPublish c => Sys2Proof.Machine.execStepPublish c s
  | .publishWrite ctx target => Sys2Proof.Machine.execPublishWrite ctx target s
  | .publishTargets c => Sys2Proof.Machine.execPublishTargets c s
  | .lossScaleSet c => Sys2Proof.Machine.execLossScaleSet c s
  | .cadenceSet c => Sys2Proof.Machine.execCadenceSet c s
  | .bakeSealNow c => Sys2Proof.Machine.execBakeSealNow c s
  | .bakeStatus c => Sys2Proof.Machine.execBakeStatus c s
  | .bakeJobwide c => Sys2Proof.Machine.execBakeJobwide c s
  | .bakeSeal ctx => Sys2Proof.Machine.execBakeSeal ctx s
  | .crumbDrain ctx tile => Sys2Proof.Machine.execCrumbDrain ctx tile s
  | .sealNoticeSend ctx keeper => Sys2Proof.Machine.execSealNoticeSend ctx keeper s
  | .crumb peel x => Sys2Proof.Machine.execCrumb peel x s
  | .sealNotice peel x => Sys2Proof.Machine.execSealNotice peel x s
  | .rackCommit ctx => Sys2Proof.Machine.execRackCommit ctx s
  | .fenceMember c => Sys2Proof.Machine.execFenceMember c s
  | .adoptPosition c => Sys2Proof.Machine.execAdoptPosition c s
  | .rebuildStart c => Sys2Proof.Machine.execRebuildStart c s
  | .demandRebuild slice tile => Sys2Proof.Machine.execDemandRebuild slice tile s
  | .rebuildProgress ctx => Sys2Proof.Machine.execRebuildProgress ctx s
  | .rebuildDone ctx kind => Sys2Proof.Machine.execRebuildDone ctx kind s
  | .rollback c => Sys2Proof.Machine.execRollback c s
  | .replayCheck c => Sys2Proof.Machine.execReplayCheck c s
  | .mendTile c => Sys2Proof.Machine.execMendTile c s
  | .mend ctx tile => Sys2Proof.Machine.execMend ctx tile s
  | .kneadHint c => Sys2Proof.Machine.execKneadHint c s
  | .kneadPin c => Sys2Proof.Machine.execKneadPin c s
  | .kneadPolicy c => Sys2Proof.Machine.execKneadPolicy c s
  | .kneadIdleDemote ctx tile => Sys2Proof.Machine.execKneadIdleDemote ctx tile s
  | .demotion ctx tile => Sys2Proof.Machine.execDemotion ctx tile s
  | .promotion ctx tile => Sys2Proof.Machine.execPromotion ctx tile s
  | .exportBegin c => Sys2Proof.Machine.execExportBegin c s
  | .exportNext c => Sys2Proof.Machine.execExportNext c s
  | .restoreBegin c => Sys2Proof.Machine.execRestoreBegin c s
  | .restoreNext c => Sys2Proof.Machine.execRestoreNext c s
  | .restoreCommit c => Sys2Proof.Machine.execRestoreCommit c s
  | .branchTake c => Sys2Proof.Machine.execBranchTake c s
  | .branchRestore c => Sys2Proof.Machine.execBranchRestore c s
  | .branchFork c => Sys2Proof.Machine.execBranchFork c s
  | .branchDrop c => Sys2Proof.Machine.execBranchDrop c s
  | .powerEnvelope c => Sys2Proof.Machine.execPowerEnvelope c s
  | .calUserSet c => Sys2Proof.Machine.execCalUserSet c s
  | .riskWeights c => Sys2Proof.Machine.execRiskWeights c s
  | .healthMode c => Sys2Proof.Machine.execHealthMode c s
  | .sampleRow c => Sys2Proof.Machine.execSampleRow c s
  | .counterOp c => Sys2Proof.Machine.execCounterOp c s
  | .checkbitWrite c => Sys2Proof.Machine.execCheckbitWrite c s
  | .rawRead c => Sys2Proof.Machine.execRawRead c s
  | .gateForce c => Sys2Proof.Machine.execGateForce c s
  | .cancelTag c => Sys2Proof.Machine.execCancelTag c s
  | .cancelContext c => Sys2Proof.Machine.execCancelContext c s
  | .gateRequest slice line write src wdata => Sys2Proof.Machine.execGateRequest slice line write src wdata s
  | .proofCopyDone slice tile => Sys2Proof.Machine.execProofCopyDone slice tile s
  | .spareLineAccess slice write idx wdata wmask => Sys2Proof.Machine.execSpareLineAccess slice write idx wdata wmask s
  | .mcErrorReport slice kind line => Sys2Proof.Machine.execMcErrorReport slice kind line s
  | .memReadResponse slice tag data poison => Sys2Proof.Machine.execMemReadResponse slice tag data poison s
  | .probe peel x => Sys2Proof.Machine.execProbe peel x s
  | .counter peel x => Sys2Proof.Machine.execCounter peel x s
  | .decodeReq peel x => Sys2Proof.Machine.execDecodeReq peel x s
  | .decodePart peel x => Sys2Proof.Machine.execDecodePart peel x s
  | .bcast peel x => Sys2Proof.Machine.execBcast peel x s
  | .bcastUp peel x => Sys2Proof.Machine.execBcastUp peel x s
  | .record peel x => Sys2Proof.Machine.execRecord peel x s
  | .inboundResponse peel x => Sys2Proof.Machine.execInboundResponse peel x s
  | .fabricRequestTimeout peel slot => Sys2Proof.Machine.execFabricRequestTimeout peel slot s
  | .tagQuarantineEnd peel slot => Sys2Proof.Machine.execTagQuarantineEnd peel slot s
  | .compareWaitLimit peel src tag => Sys2Proof.Machine.execCompareWaitLimit peel src tag s
  | .localWaitTimeout ctx tag => Sys2Proof.Machine.execLocalWaitTimeout ctx tag s
  | .bcastChildTimeout ctx child => Sys2Proof.Machine.execBcastChildTimeout ctx child s
  | .sealWaitExpiry ctx position => Sys2Proof.Machine.execSealWaitExpiry ctx position s
  | .keyGraceEnd ctx => Sys2Proof.Machine.execKeyGraceEnd ctx s
  | .framePlanBuild inp => Sys2Proof.Machine.execFramePlanBuild inp s
  | .planCutoff => Sys2Proof.Machine.execPlanCutoff s
  | .frameWatchdog => Sys2Proof.Machine.execFrameWatchdog s
  | .firmwareDigestCheck digest => Sys2Proof.Machine.execFirmwareDigestCheck digest s
  | .deadlineMiss ctx tag => Sys2Proof.Machine.execDeadlineMiss ctx tag s
  | .pieceAged piece => Sys2Proof.Machine.execPieceAged piece s
  | .tickLockLoss => Sys2Proof.Machine.execTickLockLoss s
  | .tickLockRegained tick => Sys2Proof.Machine.execTickLockRegained tick s
  | .riskLevelFall => Sys2Proof.Machine.execRiskLevelFall s
  | .powerCapEvent => Sys2Proof.Machine.execPowerCapEvent s
  | .sensorStale slice => Sys2Proof.Machine.execSensorStale slice s
  | .powerStateAck => Sys2Proof.Machine.execPowerStateAck s
  | .clockStopWake peel x => Sys2Proof.Machine.execClockStopWake peel x s
  | .stackStateExit slice => Sys2Proof.Machine.execStackStateExit slice s
  | .storageScrub addr => Sys2Proof.Machine.execStorageScrub addr s
  | .coldResetAssert => Sys2Proof.Machine.execColdResetAssert s
  | .mainSupplyFall => Sys2Proof.Machine.execMainSupplyFall s
  | .peelLinkUpChange peel up => Sys2Proof.Machine.execPeelLinkUpChange peel up s
  | .malformedTransfer peel check => Sys2Proof.Machine.execMalformedTransfer peel check s
  | .crumbLandingTimeout ctx batch row slot offset => Sys2Proof.Machine.execCrumbLandingTimeout ctx batch row slot offset s
  | .backgroundFold ctx tile => Sys2Proof.Machine.execBackgroundFold ctx tile s

end Sys2Proof.Machine
end

