-- ==== Sys2Proof/Safety.lean ====
section
/-!
DEFINITION. Safety.lean: the words in which claims are made: the parts of the state and which of them a command may change, the
modes that the spec allows, the canonical form of the state's tables, and when a command on the command link is taken and
begins at once.
-/
namespace Sys2Proof.Machine

/-! ### Parts of the state -/

/-- The parts of the state beside the command queue. -/
inductive Part where
  | boot | win | link | frames | fab | power | health | slices | ctxs | branches | pctr | poison | engCtr | slcCtr | ctxCtr
  | sram | mem | freeIdx
deriving DecidableEq, Repr

/-- Two states hold the same in one part. -/
def State.sameIn (p : Part) (s t : State) : Prop :=
  match p with
  | .boot => t.boot = s.boot
  | .win => t.win = s.win
  | .link => t.link = s.link
  | .frames => t.frames = s.frames
  | .fab => t.fab = s.fab
  | .power => t.power = s.power
  | .health => t.health = s.health
  | .slices => t.slices = s.slices
  | .ctxs => t.ctxs = s.ctxs
  | .branches => t.branches = s.branches
  | .pctr => t.pctr = s.pctr
  | .poison => t.poison = s.poison
  | .engCtr => t.engCtr = s.engCtr
  | .slcCtr => t.slcCtr = s.slcCtr
  | .ctxCtr => t.ctxCtr = s.ctxCtr
  | .sram => t.sram = s.sram
  | .mem => t.mem = s.mem
  | .freeIdx => t.freeIdx = s.freeIdx

/-- The parts that each command may change; it leaves every other part as it is. -/
def Instr.parts : Instr → List Part
  | .coldReset | .teardownDone | .coldResetAssert =>
    [.boot, .win, .link, .frames, .fab, .power, .health, .slices, .ctxs, .branches, .pctr, .poison, .engCtr, .slcCtr, .ctxCtr, .sram]
  | .fuseSenseDone _ =>
    [.boot, .engCtr]
  | .bootGo _ | .cmdDoorbell _ | .evqHeadWrite _ | .registerWrite _ _ =>
    [.boot, .win, .link, .frames, .power, .engCtr]
  | .imageAuthenticated _ | .selftestDone _ | .guardStatus _ | .guardFreeze _ | .guardCounters _ | .guardUnknownOp _ =>
    [.boot]
  | .engineReady _ =>
    [.boot, .link, .frames, .engCtr]
  | .warmReset | .guardReset _ | .frameWatchdog =>
    [.boot, .link]
  | .guardThaw _ =>
    [.boot, .link, .fab, .health, .slices, .ctxs, .engCtr, .slcCtr, .ctxCtr, .mem, .freeIdx]
  | .contextReset _ =>
    [.boot, .link, .frames, .fab, .slices, .ctxs, .branches, .slcCtr, .ctxCtr]
  | .eventRingWrite =>
    [.link]
  | .malformedCommand _ _ _ _ _ | .nop _ | .ping _ | .stepPublish _ | .powerEnvelope _ | .powerCapEvent =>
    [.link, .power, .engCtr]
  | .queryCaps _ | .readCounters _ | .bakeStatus _ =>
    [.link, .power, .slices, .ctxs, .branches, .engCtr, .ctxCtr, .mem]
  | .setEventMask _ | .ctxSetSeed _ | .groupConfig _ | .progLoad _ | .pgroupSet _ | .stepBegin _ | .stepGradReady _
  | .stepLoss _ | .lossScaleSet _ | .cadenceSet _ | .bakeSealNow _ =>
    [.link, .power, .ctxs, .engCtr]
  | .setFrame _ =>
    [.link, .frames, .power, .engCtr]
  | .framePeriodSwitch _ =>
    [.link, .frames, .fab, .ctxs]
  | .ctxOpen _ | .groupKey _ | .replayCheck _ | .kneadPolicy _ =>
    [.link, .power, .ctxs, .engCtr, .ctxCtr]
  | .ctxClose _ =>
    [.link, .frames, .fab, .power, .slices, .ctxs, .engCtr, .slcCtr, .ctxCtr]
  | .ctxSetTilemap _ | .poolSize _ | .groupJoin _ | .adoptPosition _ | .restoreBegin _ =>
    [.link, .fab, .power, .slices, .ctxs, .engCtr, .ctxCtr]
  | .regionDefine _ | .regionSetClass _ | .regionRelease _ =>
    [.link, .power, .slices, .ctxs, .engCtr, .slcCtr]
  | .groupLeave _ =>
    [.link, .fab, .power, .slices, .ctxs, .engCtr, .slcCtr]
  | .masterTileUpdate _ _ _ =>
    [.link, .fab, .slices, .ctxs, .branches, .engCtr, .slcCtr, .ctxCtr, .mem, .freeIdx]
  | .stepAccumulate _ =>
    [.link, .fab, .power, .slices, .ctxs, .branches, .engCtr, .slcCtr, .ctxCtr, .mem, .freeIdx]
  | .riskLevelPublish _ | .stepFindingAdd _ | .verdictDecide _ | .rackCommit _ =>
    [.link, .fab, .health, .slices, .ctxs, .pctr, .poison, .engCtr, .slcCtr, .ctxCtr, .sram]
  | .verdictClean _ | .verdictOverflow _ =>
    [.link, .fab, .health, .slices, .ctxs, .branches, .pctr, .poison, .engCtr, .slcCtr, .ctxCtr, .sram, .mem]
  | .unriseDone _ =>
    [.link, .fab, .slices, .ctxs, .branches, .slcCtr, .ctxCtr, .mem]
  | .publishWrite _ _ =>
    [.link, .fab, .health, .slices, .ctxs, .pctr, .poison, .engCtr, .slcCtr, .ctxCtr, .sram, .mem]
  | .publishTargets _ =>
    [.link, .fab, .power, .health, .slices, .ctxs, .branches, .pctr, .poison, .engCtr, .slcCtr, .ctxCtr, .sram, .mem]
  | .bakeJobwide _ | .kneadHint _ | .kneadPin _ =>
    [.link, .power, .slices, .ctxs, .engCtr, .ctxCtr]
  | .bakeSeal _ | .bcastChildTimeout _ _ =>
    [.link, .fab, .slices, .ctxs, .engCtr, .ctxCtr]
  | .crumbDrain _ _ =>
    [.link, .frames, .fab, .slices, .ctxs, .engCtr, .slcCtr, .ctxCtr, .freeIdx]
  | .sealNoticeSend _ _ | .promotion _ _ =>
    [.fab, .ctxs, .engCtr, .ctxCtr]
  | .crumb _ _ | .record _ _ =>
    [.link, .fab, .power, .health, .slices, .ctxs, .engCtr, .slcCtr, .ctxCtr]
  | .sealNotice _ _ | .probe _ _ | .clockStopWake _ _ =>
    [.link, .fab, .power, .health, .ctxs, .engCtr, .ctxCtr]
  | .fenceMember _ | .inboundResponse _ _ =>
    [.link, .fab, .power, .health, .slices, .ctxs, .engCtr, .slcCtr, .ctxCtr, .mem, .freeIdx]
  | .rebuildStart _ | .mendTile _ =>
    [.link, .fab, .power, .slices, .ctxs, .branches, .engCtr, .slcCtr, .ctxCtr, .mem, .freeIdx]
  | .demandRebuild _ _ =>
    [.link, .fab, .slices, .ctxs, .branches, .slcCtr, .ctxCtr, .mem, .freeIdx]
  | .rebuildProgress _ =>
    [.link, .engCtr]
  | .rebuildDone _ _ =>
    [.link, .ctxs, .engCtr]
  | .rollback _ | .decodePart _ _ | .powerStateAck =>
    [.link, .frames, .fab, .power, .health, .slices, .ctxs, .branches, .pctr, .poison, .engCtr, .slcCtr, .ctxCtr, .sram, .mem, .freeIdx]
  | .mend _ _ =>
    [.link, .fab, .slices, .ctxs, .engCtr, .slcCtr, .ctxCtr, .mem, .freeIdx]
  | .kneadIdleDemote _ _ | .keyGraceEnd _ =>
    [.ctxs]
  | .demotion _ _ =>
    [.link, .frames, .fab, .slices, .ctxs, .engCtr, .slcCtr, .ctxCtr]
  | .exportBegin _ =>
    [.link, .fab, .power, .ctxs, .engCtr, .ctxCtr]
  | .exportNext _ | .branchFork _ =>
    [.link, .fab, .power, .slices, .ctxs, .branches, .engCtr, .slcCtr, .ctxCtr, .mem]
  | .restoreNext _ | .restoreCommit _ | .branchRestore _ =>
    [.link, .power, .slices, .ctxs, .branches, .engCtr, .slcCtr, .ctxCtr, .mem]
  | .branchTake _ | .branchDrop _ =>
    [.link, .power, .slices, .ctxs, .branches, .engCtr, .ctxCtr]
  | .calUserSet _ =>
    [.win, .link, .power, .engCtr]
  | .riskWeights _ =>
    [.link, .power, .health, .engCtr]
  | .healthMode _ =>
    [.link, .fab, .power, .health, .engCtr]
  | .sampleRow _ =>
    [.link, .fab, .power, .slices, .ctxs, .engCtr, .slcCtr, .ctxCtr]
  | .counterOp _ | .counter _ _ =>
    [.link, .fab, .power, .health, .slices, .ctxs, .pctr, .poison, .engCtr, .slcCtr, .ctxCtr, .sram]
  | .checkbitWrite _ =>
    [.link, .power, .engCtr, .sram]
  | .rawRead _ =>
    [.link, .power, .slices, .ctxs, .branches, .engCtr, .ctxCtr, .mem, .freeIdx]
  | .gateForce _ =>
    [.link, .power, .slices, .engCtr]
  | .cancelTag _ | .cancelContext _ =>
    [.link, .frames, .fab, .power, .health, .slices, .ctxs, .branches, .pctr, .poison, .engCtr, .slcCtr, .ctxCtr, .sram, .mem]
  | .gateRequest _ _ _ _ _ | .spareLineAccess _ _ _ _ _ | .storageScrub _ =>
    [.boot, .link, .fab, .health, .slices, .ctxs, .branches, .pctr, .poison, .engCtr, .slcCtr, .ctxCtr, .sram, .mem, .freeIdx]
  | .proofCopyDone _ _ =>
    [.slices, .ctxs, .branches, .slcCtr, .ctxCtr]
  | .mcErrorReport _ _ _ | .memReadResponse _ _ _ _ =>
    [.link, .fab, .health, .slices, .ctxs, .branches, .engCtr, .slcCtr, .ctxCtr, .mem, .freeIdx]
  | .decodeReq _ _ | .bcast _ _ | .bcastUp _ _ =>
    [.link, .fab, .power, .health, .slices, .ctxs, .engCtr, .ctxCtr]
  | .fabricRequestTimeout _ _ =>
    [.link, .fab, .health, .slices, .ctxs, .engCtr, .slcCtr, .ctxCtr, .mem, .freeIdx]
  | .tagQuarantineEnd _ _ | .compareWaitLimit _ _ _ =>
    [.fab]
  | .localWaitTimeout _ _ =>
    [.link, .fab]
  | .sealWaitExpiry _ _ =>
    [.link, .fab, .ctxs, .engCtr, .ctxCtr]
  | .framePlanBuild _ =>
    [.boot, .win, .link, .frames, .fab, .power, .health, .slices, .ctxs, .branches, .pctr, .poison, .engCtr, .slcCtr, .ctxCtr, .sram, .mem, .freeIdx]
  | .planCutoff | .tickLockLoss =>
    [.link, .frames, .fab, .health, .slices, .ctxs, .pctr, .poison, .engCtr, .slcCtr, .ctxCtr, .sram]
  | .firmwareDigestCheck _ =>
    [.boot, .link, .frames]
  | .deadlineMiss _ _ =>
    [.link, .ctxs, .engCtr, .ctxCtr]
  | .pieceAged _ =>
    [.frames]
  | .tickLockRegained _ =>
    [.frames, .engCtr]
  | .riskLevelFall =>
    [.link, .health, .engCtr]
  | .sensorStale _ =>
    [.link, .slices, .engCtr, .freeIdx]
  | .stackStateExit _ =>
    [.slices, .slcCtr]
  | .mainSupplyFall =>
    [.boot, .win, .link, .frames, .fab, .power, .health, .slices, .ctxs, .branches, .pctr, .poison, .engCtr, .slcCtr, .ctxCtr, .sram, .mem]
  | .peelLinkUpChange _ _ =>
    [.fab, .engCtr]
  | .malformedTransfer _ _ =>
    [.health, .engCtr]
  | .crumbLandingTimeout _ _ _ _ _ =>
    [.slices]
  | .backgroundFold _ _ =>
    [.link, .slices, .ctxs, .engCtr, .ctxCtr, .freeIdx]

/-! ### Sound states -/

/-- The modes that the spec allows together: without the main supply rst_cold_n is low (R31); while rst_cold_n is low the
phase is FUSE (R454); outside phase READY the boot freeze holds (R455); a fault freeze is a freeze of phase READY that a
warm reset ends (R22, R463). -/
structure Boot.Legal (b : Boot) : Prop where
  supply : b.supply = false → b.coldN = false
  cold : b.coldN = false → b.phase = .fuse
  frozen : b.phase ≠ .ready → b.bootFrz = true
  fault : b.fault ≠ 0 → b.phase = .ready ∨ b.phase = .teardown

/-- The state is sound: its modes are legal, and the stacks' bytes and every table of the machine stand in canonical form, so
that equal tables are equal data. -/
structure State.Sound (s : State) : Prop where
  legal : s.boot.Legal
  mem : Memory.wf s.mem = true
  slices : mwf s.slices = true
  ctxs : mwf s.ctxs = true
  branches : mwf s.branches = true
  pctr : mwf s.pctr = true
  engCtr : mwf s.engCtr = true
  slcCtr : mwf s.slcCtr = true
  ctxCtr : mwf s.ctxCtr = true
  sram : mwf s.sram = true

/-! ### Commands on the command link -/

/-- What Table 4.4 and a command's own rules give its row: its opcode, the bad fields, its further checks, the bytes it moves,
what it does as it passes its checks and what it does when it begins. -/
structure CmdRow where
  op : Byte
  fields : State → Cmd → List Nat
  chk : State → Cmd → Option Bad
  bytes : State → Cmd → List (Nat × Nat)
  take : Cmd → State → State
  eff : Cmd → State → State

/-- The row of a command that comes on the command link, and its packet. BRANCH_TAKE, which also counts a refusal, and
MALFORMED_COMMAND are not rows of this table. -/
def Instr.cmdRow? : Instr → Option (CmdRow × Cmd)
  | .nop c => some (⟨0x00, noFields, noCheck, noBytes, noTake, effNop⟩, c)
  | .ping c => some (⟨0x01, noFields, noCheck, noBytes, noTake, effPing⟩, c)
  | .queryCaps c => some (⟨0x02, noFields, chkQueryCaps, noBytes, noTake, effQueryCaps⟩, c)
  | .readCounters c => some (⟨0x03, fieldsReadCounters, chkReadCounters, noBytes, noTake, effReadCounters⟩, c)
  | .setEventMask c => some (⟨0x04, noFields, noCheck, noBytes, noTake, effSetEventMask⟩, c)
  | .setFrame c => some (⟨0x05, noFields, chkSetFrame, noBytes, takeSetFrame, effSetFrame⟩, c)
  | .ctxOpen c => some (⟨0x10, noFields, chkCtxOpen, noBytes, takeCtxOpen, effDone0⟩, c)
  | .ctxClose c => some (⟨0x11, noFields, chkCtxClose, noBytes, takeCtxClose, effCtxClose⟩, c)
  | .ctxSetTilemap c => some (⟨0x12, noFields, chkCtxSetTilemap, noBytes, noTake, effCtxSetTilemap⟩, c)
  | .ctxSetSeed c => some (⟨0x13, noFields, chkVerdict, noBytes, takeCtxSetSeed, effDone0⟩, c)
  | .regionDefine c => some (⟨0x20, fieldsRegionDefine, chkRegionDefine, noBytes, noTake, effRegionDefine⟩, c)
  | .regionSetClass c => some (⟨0x21, fieldsRegionSetClass, chkRegionSetClass, noBytes, noTake, effRegionSetClass⟩, c)
  | .regionRelease c => some (⟨0x22, fieldsRegionRelease, chkRegionRelease, noBytes, noTake, effRegionRelease⟩, c)
  | .poolSize c => some (⟨0x23, fieldsPoolSize, chkPoolSize, noBytes, noTake, effPoolSize⟩, c)
  | .groupConfig c => some (⟨0x30, fieldsGroupConfig, chkGroupConfig, noBytes, takeGroupConfig, effDone0⟩, c)
  | .groupJoin c => some (⟨0x31, fieldsGroupJoin, chkGroupJoin, noBytes, takeGroupJoin, effGroupJoin⟩, c)
  | .groupKey c => some (⟨0x32, noFields, chkGroupKey, noBytes, takeGroupKey, effDone0⟩, c)
  | .groupLeave c => some (⟨0x33, noFields, chkGroupLeave, noBytes, takeGroupLeave, effDone0⟩, c)
  | .progLoad c => some (⟨0x40, fieldsProgLoad, chkVerdict, noBytes, takeProgLoad, effDone0⟩, c)
  | .pgroupSet c => some (⟨0x41, fieldsPgroupSet, chkVerdict, noBytes, takePgroupSet, effDone0⟩, c)
  | .stepBegin c => some (⟨0x42, fieldsStepBegin, chkStepBegin, noBytes, takeStepBegin, effNone⟩, c)
  | .stepGradReady c => some (⟨0x43, fieldsGrad, chkGradReady, (fun s c => s.gradBytes false c), takeGradReady, effGradReady⟩, c)
  | .stepAccumulate c => some (⟨0x44, fieldsGrad, chkAccumulate, (fun s c => s.gradBytes true c), takeAccumulate, effAccumulate⟩, c)
  | .stepLoss c => some (⟨0x45, noFields, chkStepLoss, noBytes, takeStepLoss, effNone⟩, c)
  | .stepPublish c => some (⟨0x46, fieldsStepPublish, chkStepPublish, bytesStepPublish, noTake, effStepPublish⟩, c)
  | .publishTargets c => some (⟨0x47, fieldsPublishTargets, chkPublishTargets, noBytes, noTake, effPublishTargets⟩, c)
  | .lossScaleSet c => some (⟨0x48, fieldsLossScale, chkVerdict, noBytes, takeLossScale, effLossScale⟩, c)
  | .cadenceSet c => some (⟨0x50, fieldsCadence, chkCadence, noBytes, takeCadence, effDone0⟩, c)
  | .bakeSealNow c => some (⟨0x51, noFields, chkSealNow, noBytes, takeSealNow, effNone⟩, c)
  | .bakeStatus c => some (⟨0x52, noFields, chkBakeStatus, noBytes, noTake, effBakeStatus⟩, c)
  | .bakeJobwide c => some (⟨0x53, noFields, chkJobwide, noBytes, takeJobwide, effDone0⟩, c)
  | .fenceMember c => some (⟨0x60, fieldsFence, chkFence, noBytes, noTake, effFence⟩, c)
  | .adoptPosition c => some (⟨0x61, noFields, chkAdopt, noBytes, noTake, effAdopt⟩, c)
  | .rebuildStart c => some (⟨0x62, noFields, chkRebuildStart, bytesUnbuilt, takeRebuildStart, effRebuildStart⟩, c)
  | .rollback c => some (⟨0x63, noFields, chkRollback, noBytes, (fun c s => s.clearFor c), effRollback⟩, c)
  | .replayCheck c => some (⟨0x64, noFields, chkReplay, noBytes, noTake, effReplay⟩, c)
  | .mendTile c => some (⟨0x65, noFields, chkMendTile, bytesExtent, noTake, effMendTile⟩, c)
  | .kneadHint c => some (⟨0x70, noFields, chkKnead, bytesExtent, noTake, effKneadHint⟩, c)
  | .kneadPin c => some (⟨0x71, noFields, chkKnead, noBytes, noTake, effKneadPin⟩, c)
  | .kneadPolicy c => some (⟨0x72, fieldsPolicy, chkPolicy, noBytes, noTake, effPolicy⟩, c)
  | .exportBegin c => some (⟨0x80, fieldsExportBegin, chkExportBegin, noBytes, noTake, effExportBegin⟩, c)
  | .exportNext c => some (⟨0x81, fieldsExportNext, chkExportNext, bytesExport, noTake, effExportNext⟩, c)
  | .restoreBegin c => some (⟨0x82, fieldsRestoreBegin, chkRestoreBegin, noBytes, takeRestoreBegin, effRestoreBegin⟩, c)
  | .restoreNext c => some (⟨0x83, fieldsRestoreId, chkRestoreNext, bytesRestore, noTake, effRestoreNext⟩, c)
  | .restoreCommit c => some (⟨0x84, fieldsRestoreId, noCheck, noBytes, noTake, effRestoreCommit⟩, c)
  | .branchRestore c => some (⟨0x91, fieldsBranchRestore, (chkBranchUse 0x91), bytesBranchRestore, noTake, effBranchRestore⟩, c)
  | .branchFork c => some (⟨0x92, fieldsBranchFork, chkBranchFork, bytesBranchFork, noTake, effBranchFork⟩, c)
  | .branchDrop c => some (⟨0x93, fieldsBranchDrop, (chkBranchUse 0x93), noBytes, noTake, effBranchDrop⟩, c)
  | .powerEnvelope c => some (⟨0xA0, noFields, noCheck, noBytes, noTake, effPowerEnvelope⟩, c)
  | .calUserSet c => some (⟨0xA1, fieldsCalUserSet, noCheck, noBytes, noTake, effCalUserSet⟩, c)
  | .riskWeights c => some (⟨0xA2, fieldsRiskWeights, noCheck, noBytes, noTake, effRiskWeights⟩, c)
  | .healthMode c => some (⟨0xA3, noFields, noCheck, noBytes, noTake, effHealthMode⟩, c)
  | .sampleRow c => some (⟨0xB0, fieldsSampleRow, chkSampleRow, bytesSampleRow, noTake, effSampleRow⟩, c)
  | .counterOp c => some (⟨0xB1, noFields, chkCounterOp, noBytes, noTake, effCounterOp⟩, c)
  | .checkbitWrite c => some (⟨0xC0, fieldsCheckbit, chkCheckbit, noBytes, noTake, effCheckbit⟩, c)
  | .rawRead c => some (⟨0xC1, fieldsRawRead, chkRawRead, noBytes, noTake, effRawRead⟩, c)
  | .gateForce c => some (⟨0xC2, noFields, chkGateForce, noBytes, noTake, effGateForce⟩, c)
  | .cancelTag c => some (⟨0xF0, noFields, chkCancelTag, noBytes, noTake, effCancelTag⟩, c)
  | .cancelContext c => some (⟨0xF1, noFields, noCheck, noBytes, noTake, effCancelContext⟩, c)
  | _ => none

/-- The state once the engine has taken a command's flits from the ring: a stopped clock is asked to wake (R439), and
CMDQ_HEAD is past them (R82). -/
def State.taken (s : State) (c : Cmd) : State := s.wake.advanceHead (flitsOf c.len)

/-- The engine takes the command's flits: it is in phase READY with neither a boot nor a fault freeze and with its ring enabled,
the command fits the ring (R82, R49), and its tag is not in use (R88). -/
structure State.Offers (s : State) (c : Cmd) : Prop where
  accepts : s.accepts = true
  len : c.len < 512
  fits : s.fitsRing c.len = true
  free : s.adm? c.cid c.tag = none

/-- The command passes every check of R95. -/
structure State.Admits (s : State) (r : CmdRow) (c : Cmd) : Prop extends s.Offers c where
  head : (s.taken c).headerBad (rowOf r.op) c = none
  count : ¬((rowOf r.op).cnt.isSome ∧ c.n = 0)
  body : (s.taken c).bodyBad (rowOf r.op) r.fields r.chk r.bytes c = none

/-- The state with the command admitted, what it does as it passes its checks done. -/
def State.admitted (s : State) (r : CmdRow) (c : Cmd) : State :=
  let u := s.taken c
  r.take c { u with link := { u.link with admitted := u.link.admitted ++ [u.newAdm (rowOf r.op) c] } }
/-- The same, the command marked as begun. -/
def State.begun (s : State) (r : CmdRow) (c : Cmd) : State :=
  (s.admitted r c).modAdm c.cid c.tag (fun a => { a with begun := true })
/-- The frame that ACCEPTED names (R119). -/
def State.estimated (s : State) (r : CmdRow) (c : Cmd) : BitVec 32 :=
  (s.taken c).estimate (workClass (rowOf r.op) c) (r.bytes (s.taken c) c)
/-- The command passes its checks and nothing keeps it from beginning at once (R87, R91, R121, R122, R271, R323, R467). -/
structure State.Starts (s : State) (r : CmdRow) (c : Cmd) : Prop extends s.Admits r c where
  now : (s.admitted r c).waitFor ((s.taken c).newAdm (rowOf r.op) c) = none

/-- No cancel command of the context still waits for a final reply under the command's tag (R99, R100). -/
def State.unwatched (s : State) (c : Cmd) : Bool :=
  s.link.admitted.all (fun a => !((a.op == 0xF0 || a.op == 0xF1) && a.c.ctx.toNat == c.cid && a.work.contains c.tag.toNat))
/-- A command of the link that passes its checks and begins at once, and for whose final reply no cancel command waits. -/
def State.Begins (s : State) (i : Instr) : Prop := ∃ r c, Instr.cmdRow? i = some (r, c) ∧ s.Starts r c ∧ s.unwatched c = true
/-- The last flit queued is a final reply of the command, and the command is no longer admitted. -/
def State.Replied (t : State) (op : Byte) (c : Cmd) (status detail : Nat) (done : Nat := 0) : Prop :=
  t.adm? c.cid c.tag = none ∧ t.link.outq.getLast? = some (.reply
    { tag := c.tag, status := BitVec.ofNat 16 status, detail := BitVec.ofNat 32 detail, frame := t.frames.frame,
      progress := progressOf done, opcode := op, ctx := c.ctx })
/-- The command is admitted and has begun. -/
def State.Runs (t : State) (c : Cmd) : Prop := ∃ a, t.adm? c.cid c.tag = some a ∧ a.c = c ∧ a.begun = true
/-- The state with one more reply queued (Table 4.10). -/
def State.answered (s : State) (op : Byte) (c : Cmd) (status detail : Nat) (done : Nat := 0) : State :=
  { s with link := { s.link with outq := s.link.outq ++ [.reply
    { tag := c.tag, status := BitVec.ofNat 16 status, detail := BitVec.ofNat 32 detail, frame := s.frames.frame,
      progress := progressOf done, opcode := op, ctx := BitVec.ofNat 4 c.cid }] } }

/-! ### Transfers that come in -/

/-- A request of a type that passes the checks of Table 15.4 and that the engine serves at once: it is neither frozen (R312) nor
waking a stopped clock (R439). -/
structure State.Serves (s : State) (typ peel : Nat) (x : Xfer) : Prop where
  up : s.up = true
  port : peel < s.peelsPresent
  typ : x.typ = typ
  request : x.resp = false
  passes : (s.admitXfer peel x).2 = true
  thawed : s.frozen = false
  clock : s.stopped = false

/-- The state once a transfer has passed its checks and is counted. -/
def State.arrived (s : State) (peel : Nat) (x : Xfer) : State :=
  let u := (s.admitXfer peel x).1
  { u with fab := { u.fab with rxNow := true } }

end Sys2Proof.Machine
end

