-- ==== Sys2Proof/Certificates/Slice0/Obligations.lean ====
section
/-!
DEFINITION. Certificates/Slice0/Obligations.lean: the statements for the provers.
-/
open Sys2Proof Sys2Proof.Machine

/-- A step takes the command at the front of the queue (the queue is the model's, log entry 12) and answers what exec answers
on the rest; with nothing queued the block takes up what waits, and outside service it leaves the state as it is. -/
def Obligations.StepRunsTheFrontCommand : Prop :=
  (∀ (i : Instr) (q : List Instr) (s : State), step { s with pending := i :: q } = exec i { s with pending := q })
  ∧ (∀ s : State, s.pending = [] → step s = .next s.idle ∧ (s.live = false → s.idle = s))

/-- The state after reset is sound. -/
def Obligations.ResetStateIsSound : Prop := State.reset.Sound

/-- Every step answers a next state, and it keeps a sound state sound. -/
def Obligations.EveryStepKeepsSound : Prop :=
  ∀ s : State, ∃ t, step s = .next t ∧ (s.Sound → t.Sound)

/-- The frame of every command, over the parts of the state that Instr.parts lists for it. -/
def Obligations.EveryCommandChangesOnlyItsParts : Prop :=
  ∀ (i : Instr) (s : State), ∃ t, exec i s = .next t ∧ t.pending = s.pending ∧ ∀ p : Part, p ∉ Instr.parts i → State.sameIn p s t

/-- What the registers and tables hold after reset. -/
def Obligations.ResetRegisterValues : Prop :=
  State.reset.boot.phase = .fuse ∧ State.reset.boot.bootFrz = true ∧ State.reset.boot.guardFrz = false ∧ State.reset.boot.fault = 0
  ∧ [0x0048, 0x0050, 0x0058, 0x0060, 0x0080, 0x0088, 0x0090, 0x0098, 0x0028, 0x0030].map State.reset.readRaw = List.replicate 10 (some 0)
  ∧ ringOk State.reset.link.cmdSize = false ∧ ringOk State.reset.link.evSize = false
  ∧ State.reset.readRaw 0x0100 = some (pack [(0, 3), (8, 30), (16, 10), (24, 40), (32, 15), (40, 40), (48, 16)])
  ∧ (∀ c : Nat, (State.reset.ctx c).isOpen = false)
  ∧ (∀ i t : Nat, (State.reset.slice i).state t = .normal)
  ∧ (∀ i : Nat, (State.reset.slice i).ranges = [] ∧ (State.reset.slice i).remap = [] ∧ (State.reset.slice i).faultOnce = [])
  ∧ (∀ k : Nat, State.reset.pc k = 0) ∧ State.reset.poison = []
  ∧ State.reset.link.admitted = [] ∧ State.reset.link.outq = [] ∧ State.reset.link.evSeq = 0

/-- COLD_RESET, COLD_RESET_ASSERT and MAIN_SUPPLY_FALL. -/
def Obligations.ColdResetAndSupply : Prop :=
  ∀ s : State,
    (s.boot.coldN = false → exec .coldReset s = .next { State.reset with
      pending := s.pending, mem := s.mem, freeIdx := s.freeIdx, boot := { State.reset.boot with supply := true, coldN := true } })
    ∧ (s.boot.coldN = true → exec .coldReset s = .next s)
    ∧ exec .coldResetAssert s = .next { State.reset with
      pending := s.pending, mem := s.mem, freeIdx := s.freeIdx, boot := { State.reset.boot with supply := s.boot.supply } }
    ∧ exec .mainSupplyFall s = .next { State.reset with
      pending := s.pending, mem := [], freeIdx := s.freeIdx, boot := { State.reset.boot with supply := false } }

/-- FUSE_SENSE_DONE, BOOT_GO, IMAGE_AUTHENTICATED and SELFTEST_DONE in their phases. A boot failure is counted in guard
counter 6 (R471), a calibration field at its default in engine word 103. -/
def Obligations.StartUpToSelfTest : Prop :=
  ∀ s : State,
    (∀ pages, s.boot.coldN = true → s.boot.supply = true → s.boot.fuses = [] → s.boot.phase = .fuse →
      ∃ t, exec (.fuseSenseDone pages) s = .next t ∧ t.boot.phase = .bootWait
        ∧ t.boot.fuses = pages.take 16 ++ List.replicate (16 - pages.length) 0 ∧ t.boot.defaulted = t.calDefaulted
        ∧ t = { s with boot := t.boot, engCtr := (s.count 103 t.boot.defaulted).engCtr })
    ∧ (∀ v : Word, s.boot.coldN = true → s.boot.supply = true → s.boot.phase = .bootWait → v.getLsbD 0 = true →
      exec (.bootGo v) s = .next { s with
        win := { s.win with boot := v &&& 0x1FF03, err := false }, boot := { s.boot with phase := .load } })
    ∧ (∀ p, s.boot.phase = .load → s.boot.debugLoad = false → (s.patchOn = true → s.patchOk = true ∧ p = false) →
      exec (.imageAuthenticated p) s = .next (match s.authSlot? (sha256Val s.image) with
        | some i => s.authenticated i (sha256Val s.image)
        | none => s.failBoot 1 0))
    ∧ (∀ p, s.boot.phase = .load → s.boot.debugLoad = true → s.patchOn = true → s.patchOk = true → p = false →
      exec (.imageAuthenticated p) s = .next (s.authenticated 0 (sha256Val s.image)))
    ∧ (∀ p, s.boot.phase = .load → s.patchOn = true → (s.patchOk = false ∨ p = true) →
      exec (.imageAuthenticated p) s = .next (s.failBoot 3 0))
    ∧ (∀ p, s.boot.phase = .load → s.boot.debugLoad = true → s.patchOn = false →
      exec (.imageAuthenticated p) s = .next (s.failBoot 4 0))
    ∧ (∀ (i : Nat) (d : BitVec 256), (s.authenticated i d).boot.phase = .selftest ∧ (s.authenticated i d).boot.digest = d
        ∧ (s.authenticated i d).boot.authSlot = BitVec.ofNat 2 i ∧ (s.authenticated i d).boot.patched = s.patchOn
        ∧ (s.authenticated i d).boot.debugImage = s.boot.debugLoad ∧ s.authenticated i d = { s with boot := (s.authenticated i d).boot })
    ∧ (∀ i j : Nat, s.failBoot i j = { s with boot := { s.boot with
        phase := .failed, failCause := BitVec.ofNat 4 i, failUnit := BitVec.ofNat 5 j,
        guardCtr := mset s.boot.guardCtr 6 (mgetD s.boot.guardCtr 6 0 + 1) } })
    ∧ (s.boot.phase = .selftest → exec (.selftestDone []) s = .next { s with boot := { s.boot with phase := .tickWait } })
    ∧ (∀ (u : Nat) (us : List Nat), s.boot.phase = .selftest →
      exec (.selftestDone (u :: us)) s = .next (s.failBoot 2 (us.foldl min u)))

/-- ENGINE_READY. -/
def Obligations.EngineReadyThaws : Prop :=
  ∀ (s : State) (tick : Word), s.boot.phase = .tickWait ∨ s.boot.phase = .ringWait → s.frames.lock = true →
    (ringOk s.link.cmdSize = true → ringOk s.link.evSize = true → s.boot.fault = 0 → s.link.mask = 0 →
      s.link.evWaiting < Config.eventQueueMax →
      exec (.engineReady tick) s = .next { s with
        boot := { s.boot with phase := .ready, bootFrz := false },
        frames := { s.frames with tick := tick, j := 3, frame := BitVec.ofNat 32 (tick.toNat / 1000000) },
        link := { s.link with
          fetchTo := s.link.cmdTail, bell := false, evSeq := s.link.evSeq + 1,
          outq := s.link.outq ++ [.event (Event.mk 0x0010 0 0xFF tick (payload [(0, s.boot.version.toNat),
            (4, fld s.lyxCaps 8 24), (7, s.peelsPresent), (8, fld (s.page 0) 64 64)]) s.link.evSeq)] } })
    ∧ (ringOk s.link.cmdSize = false ∨ ringOk s.link.evSize = false →
      exec (.engineReady tick) s = .next { s with boot := { s.boot with phase := .ringWait } })

/-- WARM_RESET and TEARDOWN_DONE. -/
def Obligations.WarmResetTearsDown : Prop :=
  ∀ s : State,
    (s.boot.coldN = true → s.boot.supply = true → s.boot.phase ≠ .teardown → exec .warmReset s = .next { s with
      boot := { s.boot with
        phase := .teardown, bootFrz := true, debugLoad := false, lastReset := 1,
        guardCtr := mset s.boot.guardCtr 0 (mgetD s.boot.guardCtr 0 0 + 1) },
      link := { s.link with admitted := [], outq := [] } })
    ∧ (s.boot.coldN = true → s.boot.supply = true → s.boot.phase = .teardown → exec .warmReset s = .next s)
    ∧ (s.boot.phase = .teardown → ∃ t, exec .teardownDone s = .next t
        ∧ t.boot.phase = .bootWait ∧ t.boot.bootFrz = true ∧ t.boot.fault = 0 ∧ t.boot.guardFrz = s.boot.guardFrz
        ∧ t.boot.fuses = s.boot.fuses ∧ t.boot.guardCtr = s.boot.guardCtr
        ∧ t.link = State.reset.link ∧ t.ctxs = [] ∧ t.branches = [] ∧ t.pctr = [] ∧ t.poison = [] ∧ t.sram = [] ∧ t.slcCtr = []
        ∧ t.ctxCtr = [] ∧ t.win.trims = s.win.trims ∧ t.health.a = s.health.a ∧ t.mem = s.mem
        ∧ (∀ i ∈ s.presentSlices, (t.slice i).released = [0x1FFFFF] ∧ (t.slice i).bitmap = [] ∧ (t.slice i).ranges = []
            ∧ (t.slice i).remap = [] ∧ (t.slice i).faultOnce = [] ∧ (t.slice i).parked = [] ∧ (t.slice i).overflow = false))

/-- GUARD_THAW (R468). -/
def Obligations.GuardThawEndsAGuardFreeze : Prop :=
  ∀ (s : State) (r : BitVec 32), s.boot.coldN = true → s.boot.supply = true → fld r 0 4 = 3 → fld r 20 12 = 0 →
    ∃ t, exec (.guardThaw r) s = .next t
      ∧ t.boot.mgt = some { op := 3, seq := BitVec.ofNat 4 (fld r 4 4), result := 0, data := none }
      ∧ (s.boot.phase ≠ .teardown → t.boot.guardFrz = false)
      ∧ t.boot.bootFrz = s.boot.bootFrz ∧ t.boot.fault = s.boot.fault
      ∧ (s.boot.guardFrz = false → t = { s with boot := { s.boot with mgt := t.boot.mgt } })

/-- The other requests of the management port. -/
def Obligations.GuardRequestsAreAnswered : Prop :=
  ∀ (s : State) (r : BitVec 32), s.boot.coldN = true → s.boot.supply = true →
    let ans (n : Nat) (d : Option Word) : State := { s with
      boot := { s.boot with
        mgt := some ⟨BitVec.ofNat 4 (fld r 0 4), BitVec.ofNat 4 (fld r 4 4), BitVec.ofNat 4 n, d⟩ } }
    (fld r 0 4 = 1 → fld r 20 12 = 0 → exec (.guardStatus r) s = .next (ans 0 (some s.guardWord)))
    ∧ (fld r 0 4 = 2 → fld r 20 12 = 0 → exec (.guardFreeze r) s = .next { ans 0 none with boot := { (ans 0 none).boot with
        guardFrz := true, guardCtr := mset s.boot.guardCtr 3 (mgetD s.boot.guardCtr 3 0 + 1) } })
    ∧ (fld r 0 4 = 5 → fld r 20 12 = 0 → exec (.guardCounters r) s = .next (ans 0 (some
        (if fld r 8 12 < 384 then s.counterWord (fld r 8 12) s.ctrSlice s.ctrCtx
         else if 0xF00 ≤ fld r 8 12 ∧ fld r 8 12 ≤ 0xF07 then mgetD s.boot.guardCtr (fld r 8 12 - 0xF00) 0 else 0))))
    ∧ ((fld r 0 4 = 0 ∨ 6 ≤ fld r 0 4) → exec (.guardUnknownOp r) s = .next ((ans 1 none).countGuard 7))
    ∧ (fld r 20 12 ≠ 0 →
        (fld r 0 4 = 1 → exec (.guardStatus r) s = .next ((ans 2 none).countGuard 7))
        ∧ (fld r 0 4 = 2 → exec (.guardFreeze r) s = .next ((ans 2 none).countGuard 7))
        ∧ (fld r 0 4 = 3 → exec (.guardThaw r) s = .next ((ans 2 none).countGuard 7))
        ∧ (fld r 0 4 = 5 → exec (.guardCounters r) s = .next ((ans 2 none).countGuard 7)))

/-- GUARD_RESET, with and without CONTEXT. -/
def Obligations.GuardResetRequests : Prop :=
  ∀ (s : State) (r : BitVec 32), s.boot.coldN = true → s.boot.supply = true → fld r 0 4 = 4 →
    let ans (n : Nat) : State := { s with
      boot := { s.boot with mgt := some ⟨4, BitVec.ofNat 4 (fld r 4 4), BitVec.ofNat 4 n, none⟩ } }
    let run := if r.getLsbD 12 then exec (.contextReset r) s else exec (.guardReset r) s
    (fld r 20 12 ≠ 0 ∨ fld r 14 6 ≠ 0 → run = .next ((ans 2).countGuard 7))
    ∧ (fld r 20 12 = 0 → fld r 14 6 = 0 → r.getLsbD 13 = true → (s.fieldLock = true ∨ r.getLsbD 12 = true) →
        run = .next ((ans 3).countGuard 7))
    ∧ (fld r 20 12 = 0 → fld r 14 6 = 0 → r.getLsbD 12 = false → (r.getLsbD 13 = true → s.fieldLock = false) →
        s.boot.phase ≠ .teardown → exec (.guardReset r) s = .next { s with
          boot := { (ans 0).boot with
            phase := .teardown, bootFrz := true, debugLoad := r.getLsbD 13, lastReset := 2,
            guardCtr := mset s.boot.guardCtr 1 (mgetD s.boot.guardCtr 1 0 + 1) },
          link := { s.link with admitted := [], outq := [] } })
    ∧ (s.Sound → fld r 20 12 = 0 → fld r 14 6 = 0 → r.getLsbD 12 = true → r.getLsbD 13 = false → s.boot.fault = 0 →
        s.boot.phase ≠ .teardown → ∃ t, exec (.contextReset r) s = .next t ∧ (t.ctx (fld r 8 4)).isOpen = false
          ∧ t.link.admitted.all (fun a => a.c.cid != fld r 8 4) = true
          ∧ (∀ e ∈ t.branches, e.2.ctx.toNat ≠ fld r 8 4)
          ∧ mgetD t.boot.guardCtr 2 0 = mgetD s.boot.guardCtr 2 0 + 1
          ∧ t.boot.mgt = some { op := 4, seq := BitVec.ofNat 4 (fld r 4 4), result := 0, data := none })

/-- A write of LYX_FRAME_CFG, and the read that follows it. -/
def Obligations.FrameCfgWriteClamps : Prop :=
  ∀ (s : State) (v : Word), s.boot.coldN = true → s.boot.supply = true → s.boot.phase ≠ .teardown →
    let k := max 10 (min 100 (fld v 24 7))
    let w : List (Nat × Nat) := [(0, s.frames.j.toNat), (8, max 5 (min 100 (fld v 8 7))), (16, min k (fld v 16 7)), (24, k),
      (32, min 100 (fld v 32 7)), (40, max 10 (min 90 (fld v 40 7))), (48, max 1 (fld v 48 8)), (56, bit s.frames.pending.isSome)]
    ∃ t, exec (.registerWrite 0x0100 v) s = .next t ∧ t.readReg 0x0100 = some (pack w) ∧ t.win = { s.win with err := false }
      ∧ t = { s with
        win := t.win,
        frames := { s.frames with
          dCap := t.frames.dCap, kFloor := t.frames.kFloor, kCap := t.frames.kCap, mCap := t.frames.mCap,
          fabShare := t.frames.fabShare, ageLimit := t.frames.ageLimit } }

/-- REGISTER_WRITE. `ok` is the state after the access with only cfg_rsp_err written. -/
def Obligations.RegisterWritesOfTheWindow : Prop :=
  ∀ (s : State) (a : BitVec 16) (v : Word), s.boot.coldN = true → s.boot.supply = true →
    let ok (e : Bool) : State := { s with win := { s.win with err := e } }
    (s.readRaw (regOffset a) = none → exec (.registerWrite a v) s = .next (ok true))
    ∧ (s.boot.phase = .teardown → exec (.registerWrite a v) s = .next (ok (s.readRaw (regOffset a)).isNone))
    ∧ ((a = 0x0000 ∨ a = 0x0008 ∨ a = 0x0058 ∨ a = 0x0098) → exec (.registerWrite a v) s = .next (ok false))
    ∧ (s.boot.phase ≠ .teardown →
      exec (.registerWrite 0x0200 v) s = .next { ok false with power := { s.power with envelope := BitVec.ofNat 16 (fld v 0 16) } }
      ∧ (ringOk s.link.cmdSize = true → exec (.registerWrite 0x0060 v) s = .next { ok false with
          link := { s.link with cmdTail := BitVec.ofNat 16 (fld v 0 16 % s.link.cmdSize.toNat) } })
      ∧ exec (.registerWrite 0x0048 v) s = .next (if s.boot.phase.code ≤ 6 then
          { ok false with link := { s.link with cmdBase := v &&& ~~~0xFFF#64 } } else ok false)
      ∧ (v.getLsbD 11 = true → exec (.registerWrite 0x0020 v) s = .next { ok false with link := { s.link with evDrop := false } }))

/-- CMD_DOORBELL and EVQ_HEAD_WRITE. -/
def Obligations.DoorbellAndHeadWrites : Prop :=
  ∀ (s : State) (v : Word), s.boot.coldN = true → s.boot.supply = true → s.boot.phase ≠ .teardown →
    let ok : State := { s with win := { s.win with err := false } }
    (s.boot.phase = .ready → s.boot.bootFrz = false → exec (.cmdDoorbell v) s = .next { ok with
        link := { s.link with fetchTo := s.link.cmdTail },
        power := if s.power.opReq = 3 then { s.power with opReq := 2, opOld := 3, opAck := false } else s.power,
        engCtr := if s.power.opReq = 3 then mset s.engCtr 97 (mgetD s.engCtr 97 0 + 1) else s.engCtr })
    ∧ (s.boot.phase ≠ .ready → exec (.cmdDoorbell v) s = .next { ok with link := { s.link with bell := true } })
    ∧ (ringOk s.link.evSize = true → exec (.evqHeadWrite v) s = .next { ok with
        link := { s.link with evHead := BitVec.ofNat 16 (fld v 0 16 % s.link.evSize.toNat) } })

/-- EVENT_RING_WRITE, and the kind byte of the two kinds of flit. -/
def Obligations.EventRingWriteMovesOneFlit : Prop :=
  (∀ (s : State) (f : Flit) (q : List Flit), s.link.outq = f :: q → s.boot.phase = .ready → s.boot.bootFrz = false →
    (s.link.evFree ≠ 0 → exec .eventRingWrite s = .next { s with
      link := { s.link with
        outq := q, ring := mset s.link.ring s.link.evTail.toNat f.word,
        evTail := BitVec.ofNat 16 ((s.link.evTail.toNat + 1) % s.link.evSize.toNat) } })
    ∧ (s.link.evFree = 0 → exec .eventRingWrite s = .next s))
  ∧ (∀ s : State, s.link.outq = [] → exec .eventRingWrite s = .next s)
  ∧ (∀ r : Reply, fld r.flit 0 16 = r.tag.toNat ∧ fld r.flit 16 16 = r.status.toNat ∧ fld r.flit 32 32 = r.detail.toNat
      ∧ fld r.flit 64 32 = r.frame.toNat ∧ fld r.flit 96 16 = r.progress.toNat ∧ fld r.flit 112 8 = r.opcode.toNat
      ∧ fld r.flit 120 8 = r.ctx.toNat ∧ fld r.flit 128 128 = 0)
  ∧ (∀ e : Event, fld e.flit 248 8 = 1)

/-- MALFORMED_COMMAND. -/
def Obligations.MalformedCommandIsAnsweredOnce : Prop :=
  ∀ (s : State) (op : Byte) (tag : BitVec 16) (ctx : BitVec 4) (len : BitVec 16) (n : Nat),
    let whole : Prop := len.toNat < 512 ∧ s.fitsRing len.toNat = true ∧ n = flitsOf len.toNat
    let moved := s.wake.advanceHead (if s.fitsRing len.toNat then n else 1)
    let rep (st d : Nat) : State := { moved with link := { moved.link with outq := s.link.outq ++ [.reply
      (Reply.mk tag (BitVec.ofNat 16 st) (BitVec.ofNat 32 d) s.frames.frame 0 op ctx)] } }
    (s.accepts = true → s.adm? ctx.toNat tag = none → ¬ whole →
      exec (.malformedCommand op tag ctx len n) s = .next (rep 0x0301 len.toNat))
    ∧ (s.accepts = true → s.adm? ctx.toNat tag = none → whole → opKnown op = false →
      exec (.malformedCommand op tag ctx len n) s = .next (rep 0x0300 op.toNat))
    ∧ (s.accepts = true → (s.adm? ctx.toNat tag).isSome = true → (whole → opKnown op = false) →
      exec (.malformedCommand op tag ctx len n) s = .next (moved.count 24))
    ∧ (s.boot.coldN = true → s.boot.supply = true → s.live = false → s.boot.fault = 0 →
      exec (.malformedCommand op tag ctx len n) s = .next (s.count 25 n))

/-- Every row of Instr.cmdRow? that begins at once. -/
def Obligations.CommandBeginsAtOnce : Prop :=
  ∀ (i : Instr) (r : CmdRow) (c : Cmd) (s : State), Instr.cmdRow? i = some (r, c) → s.Starts r c →
    exec i s = .next ((r.eff c (s.begun r c)).ack (s.taken c).link.outq.length (rowOf r.op) c (s.estimated r c))

/-- Every row of Instr.cmdRow? that waits. -/
def Obligations.CommandWaitsItsTurn : Prop :=
  ∀ (i : Instr) (r : CmdRow) (c : Cmd) (s : State) (w : Wait), Instr.cmdRow? i = some (r, c) → s.Admits r c →
    (s.admitted r c).waitFor ((s.taken c).newAdm (rowOf r.op) c) = some w →
    exec i s = .next ((if w = .lock ∨ w = .thaw then (s.admitted r c).defer c.cid c.tag 0xFFFFFFFF else s.admitted r c).ack
      (s.taken c).link.outq.length (rowOf r.op) c (s.estimated r c))

/-- What becomes of a command that is not admitted. -/
def Obligations.CommandRefusedHasNoEffect : Prop :=
  ∀ (i : Instr) (r : CmdRow) (c : Cmd) (s : State), Instr.cmdRow? i = some (r, c) →
    (s.Offers c → ∀ e : Bad, (s.taken c).headerBad (rowOf r.op) c = some e →
      exec i s = .next ((s.taken c).answered (rowOf r.op).op c e.1 e.2))
    ∧ (s.Offers c → (s.taken c).headerBad (rowOf r.op) c = none → (rowOf r.op).cnt.isSome = true → c.n = 0 →
      exec i s = .next ((s.taken c).answered r.op c 0 0))
    ∧ (s.Offers c → (s.taken c).headerBad (rowOf r.op) c = none → ((rowOf r.op).cnt.isSome = true → c.n ≠ 0) →
      ∀ e : Bad, (s.taken c).bodyBad (rowOf r.op) r.fields r.chk r.bytes c = some e →
      exec i s = .next ((s.taken c).answered (rowOf r.op).op c e.1 e.2))
    ∧ (s.accepts = true → c.len < 512 → s.fitsRing c.len = true → (s.adm? c.cid c.tag).isSome = true →
      exec i s = .next ((s.taken c).count 24))
    ∧ (s.accepts = true → 512 ≤ c.len ∨ s.fitsRing c.len = false →
      let moved := s.wake.advanceHead (if s.fitsRing c.len then flitsOf c.len else 1)
      exec i s = .next (if (s.adm? c.cid c.tag).isSome then moved.count 24 else moved.answered r.op c 0x0301 c.len))
    ∧ (s.live = false → exec i s = .next (if s.up && decide (s.boot.fault = 0) then s.count 25 (flitsOf c.len) else s))

/-- The end of an admitted command. -/
def Obligations.FinalReplyEndsACommand : Prop :=
  ∀ (s : State) (x : Nat) (g : BitVec 16) (n d : Nat), s.live = true →
    (s.adm? x g = none → s.finish x g n d = s)
    ∧ (∀ a : Adm, s.adm? x g = some a →
      s.link.admitted.all (fun b => !((b.op == 0xF0 || b.op == 0xF1) && b.c.ctx.toNat == x && b.work.contains g.toNat)) = true →
      s.finish x g n d = { s with link := { s.link with
        outq := s.link.outq ++ [.reply (Reply.mk g (BitVec.ofNat 16 n) (BitVec.ofNat 32 d) s.frames.frame
          (BitVec.ofNat 16 (min (ceilDiv a.done 64) 0xFFFF)) a.op (BitVec.ofNat 4 x))],
        admitted := dropFirst (Adm.isAt x g) s.link.admitted } })

/-- What raising an event does. -/
def Obligations.EventsAreMaskedNumberedOrDropped : Prop :=
  ∀ (s : State) (code sev : Nat) (x : Option Nat) (pl : List (Nat × Nat)),
    let masked : Bool := s.link.mask.getLsbD (code / 16 % 16) || (match x with
      | some c => (s.ctx c).mask.getLsbD (code / 16 % 16)
      | none => false)
    (s.live = false → s.emit code sev x pl = s)
    ∧ (s.live = true → sev ≤ 2 → masked = true → s.emit code sev x pl = s.count 27)
    ∧ (s.live = true → (sev ≤ 2 → masked = false) → s.link.evWaiting < 64 →
      s.emit code sev x pl = { s with link := { s.link with
        evSeq := s.link.evSeq + 1,
        outq := s.link.outq ++ [.event (Event.mk (BitVec.ofNat 16 code) (BitVec.ofNat 8 sev) (BitVec.ofNat 8 (x.getD 0xFF))
          s.frames.tick (payload pl) s.link.evSeq)] } })
    ∧ (s.live = true → (sev ≤ 2 → masked = false) → 64 ≤ s.link.evWaiting →
      s.emit code sev x pl = { s.count 26 with link := { s.link with evSeq := s.link.evSeq + 1, evDrop := true } })

/-- The engine's own commands that set a register. -/
def Obligations.EngineCommandsComplete : Prop :=
  ∀ (s : State) (c : Cmd),
    let u := s.taken c
    (s.Begins (.nop c) → exec (.nop c) s = .next (u.answered 0x00 c 0 0))
    ∧ (s.Begins (.ping c) → exec (.ping c) s = .next (u.answered 0x01 c 0 (fld c.a 0 32)))
    ∧ (s.Begins (.setEventMask c) → exec (.setEventMask c) s = .next (if c.b.getLsbD 0
        then ({ u with link := { u.link with mask := BitVec.ofNat 16 (fld c.a 0 16) } } : State).answered 0x04 c 0 s.link.mask.toNat
        else (u.modCtx c.cid (fun x => { x with mask := BitVec.ofNat 16 (fld c.a 0 16) })).answered 0x04 c 0 (s.ctx c.cid).mask.toNat))
    ∧ (s.Begins (.powerEnvelope c) → exec (.powerEnvelope c) s = .next (State.answered { u with
        power := { u.power with envelope := BitVec.ofNat 16 (fld c.a 0 16) } } 0xA0 c 0 s.power.envelope.toNat))
    ∧ (s.Begins (.riskWeights c) →
        let th := (List.range 7).map (fun i => BitVec.ofNat 8 (fld (c.param 1) (8 * i) 8))
        exec (.riskWeights c) s = .next (State.answered { u with
          health := { s.health with
            weights := (List.range 8).map (fun i => BitVec.ofNat 8 (fld (c.param 0) (8 * i) 8)),
            thresholds := if th.all (· == 0) then s.health.thresholds else some th,
            decay := if fld (c.param 1) 56 4 = 0 then s.health.decay else BitVec.ofNat 4 (fld (c.param 1) 56 4) } } 0xA2 c 0 0))
    ∧ (s.Begins (.healthMode c) → exec (.healthMode c) s = .next (State.answered
        (if BitVec.ofNat 2 (fld c.a 0 2) = s.health.mode then u else { u with
          health := { s.health with mode := BitVec.ofNat 2 (fld c.a 0 2), a := s.health.a.take 7 ++ [0] },
          fab := { s.fab with lateness := [] } }) 0xA3 c 0 s.health.mode.toNat))

/-- CAL_USER_SET and the trims' register writes. A trim of 0 is not listed in the map of trims. -/
def Obligations.UserTrimsAreClamped : Prop :=
  ∀ (s : State) (c : Cmd),
    let u := s.taken c
    let lim (i : Nat) : Option Int := if i ≤ 25 then some 256 else if 32 ≤ i ∧ i ≤ 55 then some 16 else none
    let put (v : State) (i : Nat) (m x : Int) : State :=
      let n := max (-m) (min m x)
      let w : State := { v with
        win := { v.win with trims := if n = 0 then merase v.win.trims i else mset v.win.trims i (BitVec.ofInt 16 n) } }
      if n = x then w else w.count 104
    (∀ m, lim (fld c.a 0 12) = some m → s.Begins (.calUserSet c) →
      let v := put u (fld c.a 0 12) m (BitVec.ofNat 16 (fld c.b 0 16)).toInt
      exec (.calUserSet c) s = .next (v.answered 0xA1 c 0 (mgetD v.win.trims (fld c.a 0 12) 0).toNat))
    ∧ (lim (fld c.a 0 12) = none → s.Offers c → u.headerBad (rowOf 0xA1) c = none →
      reservedBits c.a (rowOf 0xA1).aMask 8 = [] → exec (.calUserSet c) s = .next (u.answered 0xA1 c 0x0302 8))
    ∧ (∀ (i : Nat) (v : Word) (m : Int), i < 56 → lim i = some m → s.boot.coldN = true → s.boot.supply = true →
      s.boot.phase ≠ .teardown → exec (.registerWrite (BitVec.ofNat 16 (0x1800 + 8 * i)) v) s
        = .next (put { s with win := { s.win with err := false } } i m (BitVec.ofNat 16 (fld v 0 16)).toInt))
    ∧ (s.boot.phase = .teardown → ∃ t, exec .teardownDone s = .next t ∧ t.win.trims = s.win.trims)
    ∧ (∃ t, exec .coldResetAssert s = .next t ∧ t.win.trims = [])

/-- The commands that answer in a result buffer. -/
def Obligations.EngineResultBuffers : Prop :=
  ∀ (s : State) (c : Cmd) (r : CmdRow), s.Starts r c → s.unwatched c = true →
    let b := s.begun r c
    (Instr.cmdRow? (.queryCaps c) = some (r, c) → exec (.queryCaps c) s = .next { b.portDie c.a.toNat
        (bytesOfWord s.lyxCaps ++ bytesOfWord s.lyxId ++ bytesOfWord s.lyxFw ++ bytesOfWord s.lyxFuse ++ List.replicate 32 0) with
        link := ((s.taken c).answered 0x02 c 0 (fld s.lyxCaps 0 32)).link })
    ∧ (Instr.cmdRow? (.readCounters c) = some (r, c) → exec (.readCounters c) s = .next { b.portDie c.a.toNat
        (((List.range c.n).map (fun i => b.counterWord (fld c.b 0 9 + i) b.ctrSlice c.cid)).flatMap bytesOfWord) with
        link := ((s.taken c).answered 0x03 c 0 c.n c.n).link })
    ∧ (Instr.cmdRow? (.bakeStatus c) = some (r, c) → exec (.bakeStatus c) s = .next { b.portDie c.a.toNat
        (bytesOfNat 64 ((pack (b.bakeStatus c.cid) : BitVec 512)).toNat) with
        link := ((s.taken c).answered 0x52 c 0
          (if (s.ctx c.cid).group.joined then (s.ctx c.cid).bake.committed.toNat else 0)).link })

/-- The commands that set a context's values. -/
def Obligations.ContextCommandsComplete : Prop :=
  ∀ (s : State) (c : Cmd),
    let u := s.taken c
    (s.Begins (.ctxOpen c) → exec (.ctxOpen c) s = .next (((u.modCtx c.cid (fun _ =>
        { isOpen := true, eight := c.a.getLsbD 0 })).clearBank c.cid).answered 0x10 c 0 0))
    ∧ (s.Begins (.ctxSetSeed c) → exec (.ctxSetSeed c) s = .next ((u.modCtx c.cid (fun x => { x with seed := c.a })).answered 0x13 c 0 0))
    ∧ (s.Begins (.groupConfig c) → exec (.groupConfig c) s = .next ((u.modCtx c.cid (fun x => { x with
        group := { x.group with cfg := some (cfgOf c.a (c.param 0)) } })).answered 0x30 c 0 0))
    ∧ (s.Begins (.groupKey c) → c.a.getLsbD 0 = false → exec (.groupKey c) s = .next ((u.modCtx c.cid (fun x => { x with
        keys := { x.keys with nxt := some (BitVec.ofNat 128 ((c.param 0).toNat + (c.param 1).toNat * 2 ^ 64)) } })).answered 0x32 c 0 0))
    ∧ (s.Begins (.groupKey c) → c.a.getLsbD 0 = true → exec (.groupKey c) s = .next (((u.modCtx c.cid (fun x => { x with
        keys := { x.keys with
          prev := x.keys.cur.map (fun k => (k, s.frames.frame + 4)), cur := x.keys.nxt, nxt := none,
          epoch := x.keys.epoch + 1, seq := 0 } })).setCtxValue c.cid 83 0).answered 0x32 c 0 0))
    ∧ (s.Begins (.progLoad c) → exec (.progLoad c) s = .next ((u.modCtx c.cid (fun x => { x with
        progs := mset x.progs (fld c.a 0 3) (instWords c) })).answered 0x40 c 0 0))
    ∧ (s.Begins (.pgroupSet c) → exec (.pgroupSet c) s = .next ((u.modCtx c.cid (fun x => { x with
        groups := mset x.groups (fld c.a 0 8) c.params })).answered 0x41 c 0 0))
    ∧ (s.Begins (.cadenceSet c) → exec (.cadenceSet c) s = .next ((u.modCtx c.cid (fun x => { x with
        bake := { x.bake with
          cadenceNext := c.params,
          riskNext := some (BitVec.ofNat 12 (fld c.b 0 12), BitVec.ofNat 5 (fld c.b 16 5)) } })).answered 0x50 c 0 0))
    ∧ (s.Begins (.kneadPolicy c) → windowOf (c.param 0) = windowOf (s.ctx c.cid).knead.word → exec (.kneadPolicy c) s = .next
        ((u.modCtx c.cid (fun x => { x with knead := { x.knead with word := c.param 0 } })).answered 0x72 c 0 0))
    ∧ (s.Begins (.kneadPolicy c) → windowOf (c.param 0) ≠ windowOf (s.ctx c.cid).knead.word →
        let v := u.modCtx c.cid (fun x => { x with
          knead := { x.knead with word := c.param 0, fresh := decide ((windowOf (c.param 0)).2 ≠ 0) } })
        exec (.kneadPolicy c) s = .next ((v.setCtxValue c.cid 105 (v.ctx c.cid).granulesUsed).answered 0x72 c 0 0))

/-- The diagnostic commands. -/
def Obligations.GateAndStorageCommandsComplete : Prop :=
  ∀ (s : State) (c : Cmd),
    let u := s.taken c
    (s.Begins (.gateForce c) → fld c.b 0 2 = 1 → exec (.gateForce c) s = .next ((u.modSlice (fld c.a 0 5) (fun sl =>
        sl.hold (fld c.a 16 21) .forced)).answered 0xC2 c 0 (((s.slice (fld c.a 0 5)).state (fld c.a 16 21)).code)))
    ∧ (s.Begins (.gateForce c) → fld c.b 0 2 ≠ 1 →
        let left : BitVec 8 := mgetD (s.slice (fld c.a 0 5)).holds (fld c.a 16 21) 0 &&& 0x7F
        exec (.gateForce c) s = .next ((u.modSlice (fld c.a 0 5) (fun sl => ({ sl with
            holds := mput sl.holds (fld c.a 16 21) (if left = 0 then none else some left) }.setState (fld c.a 16 21)
            (TileState.ofCode (fld c.b 0 2))).settle (fld c.a 16 21))).answered 0xC2 c 0
            (((s.slice (fld c.a 0 5)).state (fld c.a 16 21)).code)))
    ∧ (s.Begins (.checkbitWrite c) → ∃ w : RawWord, w.data = c.b ∧ w.chk = BitVec.ofNat 16 (fld (c.param 0) 0 16)
        ∧ exec (.checkbitWrite c) s = .next (State.answered { u with sram := mset s.sram (fld c.a 0 28) w } 0xC0 c 0 0))
    ∧ (∀ r, Instr.cmdRow? (.rawRead c) = some (r, c) → s.Starts r c → s.unwatched c = true →
        let e := (s.begun r c).rawWord (fld c.a 0 28)
        exec (.rawRead c) s = .next { e.1.portDie c.b.toNat (bytesOfWord e.2.1 ++ bytesOfNat 2 e.2.2.1.toNat
            ++ [if e.2.2.2 then 1 else 0] ++ List.replicate 53 0) with
          link := ((s.taken c).answered 0xC1 c 0 e.2.2.1.toNat).link })
    ∧ (∀ (i : Instr) (r : CmdRow), i = .gateForce c ∨ i = .checkbitWrite c ∨ i = .rawRead c → Instr.cmdRow? i = some (r, c) →
        s.Offers c → s.fieldLock = true → c.len = lenOf r.op c → c.n ≠ 0xFFFFFFFF → exec i s = .next (u.answered r.op c 0x0F00 0))

/-- The link commands whose effect is recorded as they pass their checks and whose final reply comes with a later event. -/
def Obligations.CommandsThatStayAdmitted : Prop :=
  ∀ (s : State) (c : Cmd),
    let k := c.cid
    let x := s.ctx k
    (s.Begins (.stepBegin c) → ∃ t st, exec (.stepBegin c) s = .next t ∧ t.Runs c ∧ (t.ctx k).step = some st
        ∧ st.num = c.a ∧ st.tag = c.tag ∧ st.ord = x.ordinal ∧ st.vctr = BitVec.ofNat 12 (fld c.b 0 12 + x.ordinal % 3)
        ∧ st.expected = BitVec.ofNat 16 (fld c.b 32 16) ∧ st.progs = x.progs ∧ st.groups = x.groups ∧ st.seed = x.seed
        ∧ st.named = [] ∧ st.updated = [] ∧ st.sent = false ∧ st.final = none
        ∧ (t.ctx k).lastStep = some c.a ∧ (t.ctx k).ordinal = x.ordinal + 1)
    ∧ (∀ st, s.Begins (.stepLoss c) → x.step = some st → ∃ t, exec (.stepLoss c) s = .next t ∧ t.Runs c
        ∧ t.ctxs = (s.modCtx k (fun x => { x with step := some { st with loss := some c.a, lossTag := some c.tag } })).ctxs)
    ∧ (s.Begins (.stepGradReady c) → ∃ t a, exec (.stepGradReady c) s = .next t ∧ t.Runs c ∧ t.adm? k c.tag = some a
        ∧ a.work = (List.range c.n).map (fun i => fld c.a 0 32 + i))
    ∧ (s.Begins (.stepPublish c) → x.namesStep c.b = true ∨ x.lastClean = some c.b →
        ∃ t, exec (.stepPublish c) s = .next t ∧ t.Runs c ∧ t.ctxs = s.ctxs)
    ∧ (s.Begins (.bakeSealNow c) → ∃ t, exec (.bakeSealNow c) s = .next t ∧ t.Runs c
        ∧ t.ctxs = (s.modCtx k (fun x => { x with bake := { x.bake with sealNow := x.bake.sealNow ++ [(c.tag, x.ordinal)] } })).ctxs)
    ∧ (s.Begins (.groupJoin c) → c.b.getLsbD 0 = false → ∃ t, exec (.groupJoin c) s = .next t ∧ t.Runs c
        ∧ t.ctxs = (s.modCtx k (fun x => { x with
          group := { x.group with joining := some (c.tag, BitVec.ofNat 32 (fld c.a 0 32), false) } })).ctxs)
    ∧ (s.Begins (.setFrame c) → BitVec.ofNat 3 (fld c.a 0 3) ≠ s.frames.j → ∃ t, exec (.setFrame c) s = .next t ∧ t.Runs c
        ∧ t.frames = { s.frames with
          pending := some (c.ctx, c.tag, BitVec.ofNat 3 (fld c.a 0 3), switchAt s.frames.tick s.frames.j (BitVec.ofNat 3 (fld c.a 0 3))) })

/-- SET_FRAME that finds its period in force, and FRAME_PERIOD_SWITCH. -/
def Obligations.SetFrameAndPeriodSwitch : Prop :=
  (∀ (s : State) (c : Cmd), s.Begins (.setFrame c) → BitVec.ofNat 3 (fld c.a 0 3) = s.frames.j →
    exec (.setFrame c) s = .next ((s.taken c).answered 0x05 c 0 (s.frames.frame + 1).toNat))
  ∧ (∀ (s : State) (tick : Word) (c : BitVec 4) (g : BitVec 16) (j : BitVec 3) (b : Word), s.live = true → s.frames.lock = true →
    s.frames.pending = some (c, g, j, b) →
    (b.toNat ≤ tick.toNat → ∃ t, exec (.framePeriodSwitch tick) s = .next t
      ∧ t.frames.j = j ∧ t.frames.tick = tick ∧ t.frames.pending = none
      ∧ t.frames.frame = BitVec.ofNat 32 (tick.toNat / (125000 * 2 ^ j.toNat))
      ∧ (∀ a, s.adm? c.toNat g = some a → a.c.ctx = c → a.c.tag = g →
        s.link.admitted.all (fun b => !((b.op == 0xF0 || b.op == 0xF1) && b.c.ctx == c && b.work.contains g.toNat)) = true →
        t.link.outq = s.link.outq ++ [.reply (Reply.mk g 0 t.frames.frame t.frames.frame (progressOf a.done) a.op c)]))
    ∧ (tick.toNat < b.toNat → exec (.framePeriodSwitch tick) s = .next s))
  ∧ (∀ (s : State) (tick : Word), s.frames.pending = none → exec (.framePeriodSwitch tick) s = .next s)

/-- The commands that shape a context. -/
def Obligations.RegionsPoolsAndMaps : Prop :=
  ∀ (s : State) (c : Cmd),
    let k := c.cid
    let n := fld c.a 0 8
    (s.Begins (.regionDefine c) → (s.ctx k).bakes .uncovered (newRegion c).cls = false → ∃ t d, exec (.regionDefine c) s = .next t
        ∧ t.Replied 0x20 c 0 d ∧ (t.ctx k).regions = mput (s.ctx k).regions (regionNo c) (some (newRegion c)))
    ∧ (s.Begins (.regionDefine c) → (s.ctx k).bakes .uncovered (newRegion c).cls = true → ∃ t, exec (.regionDefine c) s = .next t
        ∧ t.Runs c ∧ (t.ctx k).regions = mput (s.ctx k).regions (regionNo c) (some { newRegion c with
          cls := .uncovered, change := some { goal := some (newRegion c).cls, word := c.param 0, tag := c.tag } }))
    ∧ (s.Begins (.regionSetClass c) → (s.ctx k).bakes (s.region k n).cls (coverOf (fld c.b 0 2)) = false →
        ∃ t, exec (.regionSetClass c) s = .next t ∧ t.Replied 0x21 c 0 0
          ∧ (t.ctx k).regions = mput (s.ctx k).regions n (some { s.region k n with cls := coverOf (fld c.b 0 2), replica := c.param 0 }))
    ∧ (s.Begins (.regionSetClass c) → (s.ctx k).bakes (s.region k n).cls (coverOf (fld c.b 0 2)) = true →
        ∃ t, exec (.regionSetClass c) s = .next t ∧ t.Runs c
          ∧ (t.ctx k).regions = mput (s.ctx k).regions n (some { s.region k n with
            change := some { goal := some (coverOf (fld c.b 0 2)), word := c.param 0, tag := c.tag } }))
    ∧ (s.Begins (.regionRelease c) → (s.ctx k).bakes (s.region k n).cls .uncovered = false →
        ∃ t, exec (.regionRelease c) s = .next t ∧ t.Replied 0x22 c 0 (s.region k n).count
          ∧ (t.ctx k).regions = mput (s.ctx k).regions n none)
    ∧ (s.Begins (.regionRelease c) → (s.ctx k).bakes (s.region k n).cls .uncovered = true →
        ∃ t, exec (.regionRelease c) s = .next t ∧ t.Runs c
          ∧ (t.ctx k).regions = mput (s.ctx k).regions n (some { s.region k n with
            change := some { goal := none, word := 0, tag := c.tag } }))
    ∧ (s.Begins (.poolSize c) → ∃ t, exec (.poolSize c) s = .next t ∧ ((t.ctx k).pool (fld c.a 0 2)).sized = true
        ∧ t.Replied 0x23 c 0 (min ((s.ctx k).pool (fld c.a 0 2)).tiles.length 0xFFFFFFFF))
    ∧ (s.Begins (.ctxSetTilemap c) → (s.ctx k).knead.size = 0 → ∃ t, exec (.ctxSetTilemap c) s = .next t
        ∧ t.Replied 0x12 c 0 c.n c.n ∧ (t.ctx k).knead.jobs = [] ∧ (t.ctx k).n = c.n)
    ∧ (s.Sound → s.Begins (.ctxClose c) → ∃ t, exec (.ctxClose c) s = .next t ∧ (t.ctx k).isOpen = false)
    ∧ (s.Begins (.groupLeave c) → ∃ t, exec (.groupLeave c) s = .next t ∧ t.adm? k c.tag = none
        ∧ (t.ctx k).group.joined = false ∧ (t.ctx k).fences = [] ∧ (t.ctx k).crustPool = {} ∧ (t.ctx k).bake.sealNow = [])

/-- LOSS_SCALE_SET and REPLAY_CHECK. -/
def Obligations.LossScaleAndReplay : Prop :=
  ∀ (s : State) (c : Cmd),
    let k := c.cid
    let u := s.taken c
    (s.Begins (.lossScaleSet c) → ∃ t, exec (.lossScaleSet c) s = .next t
        ∧ t.Replied 0x48 c 0 (BitVec.ofInt 32 (s.ctx k).e.toInt).toNat
        ∧ t.ctxs = (s.modCtx k (fun x => { x with
          e := BitVec.ofNat 8 (fld c.a 0 8), c := 0,
          g := if fld c.b 0 17 = 0 then x.g else BitVec.ofNat 32 (fld c.b 0 17) })).ctxs)
    ∧ (s.Begins (.replayCheck c) → (s.ctx k).ledger.find? (fun e => e.step == c.a) = none →
        exec (.replayCheck c) s = .next (u.answered 0x64 c 0x0400 6))
    ∧ (∀ e, s.Begins (.replayCheck c) → (s.ctx k).ledger.find? (fun e => e.step == c.a) = some e →
        (c.b = e.loss → e.replay = some e.digest → exec (.replayCheck c) s
          = .next (((u.countCtx k 81).emit 0x0052 0 (some k) [(0, c.a.toNat), (8, 0)]).answered 0x64 c 0 0))
        ∧ ((c.b ≠ e.loss ∨ e.replay ≠ some e.digest) → exec (.replayCheck c) s
          = .next ((((u.countCtx k 82).modCtx k (fun x => { x with stopped := true })).emit 0x0052 4 (some k)
              [(0, c.a.toNat), (8, if c.b ≠ e.loss then 1 else 2)]).answered 0x64 c 0x0602
              ((if c.b ≠ e.loss then 1 else 0) + (if e.replay ≠ some e.digest then 2 else 0)))))

/-- COUNTER_OP. -/
def Obligations.CounterOpsOfTheOwnPosition : Prop :=
  ∀ (s : State) (c : Cmd), mwf s.pctr = true → s.Begins (.counterOp c) →
    let j := fld c.a 0 12
    let op := fld c.a 12 2
    let u := s.taken c
    ((s.ctx c.cid).own = fld c.a 16 5 → mget s.sram (iaOf 2 0x1F j) = none →
      (op ≠ 3 → (op = 2 ∨ s.poison.contains j = false) → ∃ t, exec (.counterOp c) s = .next t ∧ t.poison.contains j = false
        ∧ t.pc j = (if op = 0 then s.pc j + c.b else if op = 1 then (if (s.pc j).toNat < c.b.toNat then c.b else s.pc j) else c.b))
      ∧ (op = 3 → s.poison.contains j = false → c.b.toNat ≤ (s.pc j).toNat →
        exec (.counterOp c) s = .next (u.answered 0xB1 c 0 (fld (s.pc j) 0 32)))
      ∧ (op = 3 → s.poison.contains j = false → (s.pc j).toNat < c.b.toNat → ∃ t, exec (.counterOp c) s = .next t ∧ t.Runs c
        ∧ t.pctr = s.pctr ∧ t.fab = { s.fab with locals := s.fab.locals ++ [⟨c.ctx, c.tag, BitVec.ofNat 12 j, c.b, .command⟩] })
      ∧ (op ≠ 2 → s.poison.contains j = true → exec (.counterOp c) s = .next (u.answered 0xB1 c 0x0600 0xFFFFFFFF)))
    ∧ ((s.ctx c.cid).own ≠ fld c.a 16 5 → (s.ctx c.cid).keys.cur = none →
      exec (.counterOp c) s = .next (u.answered 0xB1 c 0x0501 (s.ctx c.cid).own))

/-- The branch commands. BRANCH_TAKE's row is written out: its meaning also counts a refusal. -/
def Obligations.BranchCommandsComplete : Prop :=
  ∀ (s : State) (c : Cmd),
    let k := c.cid
    let b := fld c.b 0 6
    (s.Starts ⟨0x90, fieldsBranchTake, chkBranchTake, noBytes, noTake, effBranchTake⟩ c → s.unwatched c = true →
        s.branchShort k (s.region k (fld c.a 0 8)).tiles = 0 → s.holdsFree k (s.region k (fld c.a 0 8)).tiles = true →
        ∃ t, exec (.branchTake c) s = .next t ∧ t.Replied 0x90 c 0 (s.region k (fld c.a 0 8)).tiles.length
            (s.region k (fld c.a 0 8)).tiles.length
          ∧ t.branches = mset s.branches b { ctx := c.ctx, region := fld c.a 0 8, space := s.bySlice k (s.region k (fld c.a 0 8)).tiles })
    ∧ (∀ br, s.Begins (.branchRestore c) → s.branch? k b = some br → br.damaged = none →
        (mkeys br.copies).all (s.settled k) = true → s.holdsFree k (s.region k br.region).tiles = true →
        ∃ t, exec (.branchRestore c) s = .next t ∧ t.Replied 0x91 c 0 br.copies.length br.copies.length)
    ∧ (∀ br, s.Begins (.branchFork c) → s.branch? k (fld c.a 0 6) = some br → br.damaged = none →
        let ps := s.forkPairs k br (fld c.b 0 8)
        (ps.map Prod.snd).all (s.settled k) = true → s.holdsFree k (ps.map Prod.snd) = true →
        s.readable k ((ps.map Prod.fst).filter (fun t => (mget br.copies t).isNone)) = true →
        ∃ t, exec (.branchFork c) s = .next t ∧ t.Replied 0x92 c 0 ps.length ps.length)
    ∧ (∀ br, s.Begins (.branchDrop c) → s.branch? k b = some br → ∃ t, exec (.branchDrop c) s = .next t
        ∧ t.branches = merase s.branches b ∧ t.Replied 0x93 c 0 br.copies.length br.copies.length)

/-- Group, recovery and publish commands. -/
def Obligations.GroupBakeAndPublishCommands : Prop :=
  ∀ (s : State) (c : Cmd),
    let k := c.cid
    let x := s.ctx k
    (s.Begins (.bakeJobwide c) → ∃ t, exec (.bakeJobwide c) s = .next t ∧ t.Replied 0x53 c 0 0
        ∧ (t.ctx k).bake.committed = x.bake.sealed ∧ (t.ctx k).bake.sealed = 0)
    ∧ (s.Begins (.fenceMember c) → mget x.fences (fld c.a 0 5) = none → ∃ t, exec (.fenceMember c) s = .next t
        ∧ mget (t.ctx k).fences (fld c.a 0 5) = some x.keys.epoch)
    ∧ (s.Begins (.fenceMember c) → (mget x.fences (fld c.a 0 5)).isSome = true →
        exec (.fenceMember c) s = .next ((s.taken c).answered 0x60 c 0 0))
    ∧ (s.Begins (.adoptPosition c) → ∃ t, exec (.adoptPosition c) s = .next t ∧ (t.ctx k).group.notesSent = x.group.notesSent + 1)
    ∧ (s.Begins (.rebuildStart c) → c.b.getLsbD 0 = false → x.tiles.all (fun e => !e.2.unbuilt) = true →
        ∃ t, exec (.rebuildStart c) s = .next t ∧ t.Runs c ∧ (t.ctx k).group.rebuild = some (c.tag, false)
          ∧ (t.ctx k).group.rebuildFrame = s.frames.frame ∧ (t.ctx k).tiles = x.tiles)
    ∧ (s.Begins (.publishTargets c) → s.keyless k { words := c.params } = false → ∃ t g, exec (.publishTargets c) s = .next t
        ∧ mget (t.ctx k).targets (fld c.a 0 4) = some g ∧ g.words = c.params ∧ g.next = 1)
    ∧ (s.Begins (.publishTargets c) → s.keyless k { words := c.params } = true →
        exec (.publishTargets c) s = .next ((s.taken c).answered 0x47 c 0x0501 x.own))

/-- Knead, export, restore and sampling commands. -/
def Obligations.KneadExportAndRestoreCommands : Prop :=
  ∀ (s : State) (c : Cmd),
    let k := c.cid
    let x := s.ctx k
    (s.Begins (.kneadPin c) → ∃ t, exec (.kneadPin c) s = .next t ∧ t.Replied 0x71 c 0
        ((extent (fld c.a 0 32) c.n).filter (fun i => (s.tile k i).setPin (c.b.getLsbD 0) (c.b.getLsbD 1) != s.tile k i)).length c.n)
    ∧ (s.Begins (.kneadHint c) → c.b.getLsbD 0 = true → x.knead.size = 0 → x.knead.jobs = [] →
        exec (.kneadHint c) s = .next ((s.taken c).answered 0x70 c 0 0))
    ∧ (s.Begins (.exportBegin c) → ∃ t, exec (.exportBegin c) s = .next t ∧ (t.ctx k).exp.ids = nextId x.exp.ids)
    ∧ (s.Begins (.restoreBegin c) → ∃ t, exec (.restoreBegin c) s = .next t ∧ t.Replied 0x82 c 0 (nextId x.rst.ids).toNat
        ∧ (t.ctx k).rst.open? = some (nextId x.rst.ids, sealOf c) ∧ (t.ctx k).rst.holding = true ∧ (t.ctx k).rst.tiles = [])
    ∧ (∀ ts, s.Begins (.sampleRow c) → s.rowTiles k c.a.toNat (4 * c.n) = some ts → s.readable k ts = true →
        ts.all (fun t => !s.heldFor k t .mendFailed && !s.heldFor k t .mend && !s.heldFor k t .unbuilt) = true →
        ∃ t, exec (.sampleRow c) s = .next t ∧ t.Replied 0xB0 c 0 (Sys2Proof.Machine.sampleRow
          (f32s c.n (rowBytes c.a.toNat (4 * c.n) (ts.map (fun t => s.valOf k t)))) (rowTemp c)
          (starter x.seed 1 (BitVec.ofNat 32 (fld c.b 32 32)) (x.lastStep.getD 0) 0)) c.n)

/-- The commands whose work is done by one shared runner. -/
def Obligations.WorkingCommandsRunTheirWork : Prop :=
  ∀ (s : State) (c : Cmd) (r : CmdRow), s.Starts r c →
    let k := c.cid
    let b := s.begun r c
    let out (o : Byte) (t : State) : Host.Outcome State Fault Refusal :=
      .next (t.ack (s.taken c).link.outq.length (rowOf o) c (s.estimated r c))
    (Instr.cmdRow? (.stepAccumulate c) = some (r, c) → exec (.stepAccumulate c) s
        = out 0x44 ((b.modAdm k c.tag (fun a => { a with work := extent (fld c.a 0 32) c.n })).runAccumulate k c.tag))
    ∧ (Instr.cmdRow? (.mendTile c) = some (r, c) → exec (.mendTile c) s
        = out 0x65 ((b.modAdm k c.tag (fun a => { a with work := extent (fld c.a 0 32) c.n })).runMends k c.tag))
    ∧ (Instr.cmdRow? (.rollback c) = some (r, c) → exec (.rollback c) s = out 0x63 (
        let u := b.clearFor c
        match chkRollback u c with
        | some e => u.finish k c.tag e.1 e.2
        | none => (((u.stopDrain k).modAdm k c.tag (fun a => { a with aux := some 0 })).runRollback k c.tag).runRollback k c.tag))
    ∧ (Instr.cmdRow? (.exportNext c) = some (r, c) → exec (.exportNext c) s = out 0x81 (b.runExport k c.tag))
    ∧ (Instr.cmdRow? (.restoreNext c) = some (r, c) → exec (.restoreNext c) s = out 0x83 (b.runRestore k c.tag (c.n + 1)))
    ∧ (Instr.cmdRow? (.restoreCommit c) = some (r, c) → exec (.restoreCommit c) s = out 0x84 (
        if (s.ctx k).rst.failed ∨ (s.ctx k).rst.passed = false then b.finish k c.tag 0x0601 0xFFFFFFFF else b.runCommit k c.tag))

/-- The cancel commands. -/
def Obligations.CancelCommandsComplete : Prop :=
  ∀ (s : State) (c : Cmd),
    let g := BitVec.ofNat 16 (fld c.a 0 16)
    (s.Begins (.cancelTag c) → s.adm? c.cid g = none → exec (.cancelTag c) s = .next ((s.taken c).answered 0xF0 c 0 0))
    ∧ (∀ a, s.Begins (.cancelTag c) → s.adm? c.cid g = some a → (s.ctx c.cid).step = none →
        [0x46, 0x63, 0xB1].all (fun o => a.op != o) = true → ∃ t, exec (.cancelTag c) s = .next t ∧ t.Replied 0xF0 c 0 1)
    ∧ (s.Begins (.cancelContext c) → s.link.admitted.all (fun a => a.c.cid != c.cid || !a.counts) = true →
        exec (.cancelContext c) s = .next ((s.taken c).answered 0xF1 c 0 0))
/-- RISK_LEVEL_PUBLISH and STEP_FINDING_ADD: one operation each on the step's counters, here at once where this member owns the
counter, else by one transfer. -/
def Obligations.RiskLevelAndFindingReachTheirCounters : Prop :=
  ∀ (s : State) (ctx : BitVec 4) (st : Step),
    let c := ctx.toNat
    let x := s.ctx c
    mwf s.pctr = true → s.running = true → x.step = some st → st.awaitOnly = false → s.stepWorked c = true →
    (∀ (j : BitVec 12) (owner : BitVec 5), x.bake.risk = some (j, owner) → st.riskSent = false → x.group.joined = true →
      ∃ t, exec (.riskLevelPublish ctx) s = .next t
        ∧ (t.ctx c).step = some { st with riskSent := true, riskDone := decide (x.own = owner.toNat) }
        ∧ (x.own ≠ owner.toNat → t.pctr = s.pctr)
        ∧ (x.own = owner.toNat → s.poison.contains (j.toNat + st.ord % 3) = false →
          mget s.sram (iaOf 2 0x1F (j.toNat + st.ord % 3)) = none →
          (t.pc (j.toNat + st.ord % 3)).toNat = max (s.pc (j.toNat + st.ord % 3)).toNat
            (if s.presentSlices.any (fun i => (s.slice i).earlySeal.contains c) then 7 else s.health.level.toNat)))
    ∧ (st.unrisen = false → st.sent = false → st.riskDone = true ∨ x.bake.risk = none ∨ x.group.joined = false →
      s.awaits c (fun w => w == .riskRead) = false →
      ∃ t, exec (.stepFindingAdd ctx) s = .next t
        ∧ (x.own ≠ st.owner.toNat → t.pctr = s.pctr ∧ (t.ctx c).step = some { st with sent := true })
        ∧ (x.own = st.owner.toNat → (t.ctx c).step = some { st with sent := true, addBack := true })
        ∧ (x.own = st.owner.toNat → s.poison.contains st.vctr.toNat = false → mget s.sram (iaOf 2 0x1F st.vctr.toNat) = none →
          t.pc st.vctr.toNat = s.pc st.vctr.toNat + BitVec.ofNat 64 (2 ^ 32 + bit st.overflow)))

/-- VERDICT_DECIDE on the owner. -/
def Obligations.OwnerDecidesTheVerdict : Prop :=
  ∀ (s : State) (ctx : BitVec 4) (st : Step),
    let c := ctx.toNat
    let k := st.vctr.toNat
    let next := st.vctr.toNat - st.ord % 3 + (st.ord + 2) % 3
    mwf s.pctr = true → s.running = true → (s.ctx c).step = some st → (s.ctx c).own = st.owner.toNat → st.decided = false →
    s.poison.contains k = false → mget s.sram (iaOf 2 0x1F k) = none → st.expected.toNat * 2 ^ 32 ≤ (s.pc k).toNat →
    ∃ t, exec (.verdictDecide ctx) s = .next t ∧ (t.ctx c).step = some { st with decided := true } ∧ t.pc next = 0
      ∧ (next ≠ k → t.pc k = s.pc k + BitVec.ofNat 64 (2 ^ 63 + (if fld (s.pc k) 0 32 ≠ 0 then 2 ^ 62 else 0)))
      ∧ (∀ i, i ≠ k → i ≠ next → t.pc i = s.pc i)

/-- VERDICT_CLEAN, VERDICT_OVERFLOW and UNRISE_DONE. -/
def Obligations.VerdictsAreApplied : Prop :=
  ∀ (s : State) (ctx : BitVec 4) (st : Step),
    let c := ctx.toNat
    let x := s.ctx c
    s.running = true → x.step = some st →
    (∀ v : Word, s.finalOf c = some v → st.unrisen = false → st.awaitOnly = false → s.stepQuiet c = true → x.sealWaits = false →
      (v.getLsbD 62 = false → s.frames.lock = true →
        ((s.toRecast c st).flatMap (s.recastTiles c (!x.verBit))).all (fun u => s.writable c u) = true →
        ∃ t, exec (.verdictClean ctx) s = .next t ∧ (t.ctx c).lastClean = some st.num ∧ (t.ctx c).verBit = !x.verBit
          ∧ (t.ctx c).step = none ∧ (t.ctx c).predicted = st.named ∧ (∀ i, (t.tile c i).f = none))
      ∧ (v.getLsbD 62 = true → ∃ t, exec (.verdictOverflow ctx) s = .next t
          ∧ (t.ctx c).e.toInt = max (x.e.toInt - 1) (-32) ∧ (t.ctx c).c = 0 ∧ (t.ctx c).verBit = x.verBit
          ∧ (t.ctx c).lastClean = x.lastClean
          ∧ (t.ctx c).step = some { st with unrisen := true, tallies := [], mxClip := 0, shadows := [] }))
    ∧ (st.unrisen = true → s.canUnrise c = true → x.tiles.any (fun e => e.2.damaged) = false →
      ∃ t, exec (.unriseDone ctx) s = .next t ∧ (∀ i, (t.tile c i).f = none)
        ∧ (t.ctx c).step = (if (s.finalOf c).isSome then none else some { st with unrisen := false, awaitOnly := true }))

/-- PUBLISH_WRITE of a local version: the version counter rises to it, and it is the target's version no more. -/
def Obligations.PublishWriteRaisesTheVersion : Prop :=
  ∀ (s : State) (ctx target : BitVec 4) (a : Adm),
    let c := ctx.toNat
    let g := s.target c target.toNat
    s.link.admitted.find? (fun b => b.op == 0x46 && b.c.cid == c && fld b.c.a 0 4 == target.toNat && b.begun && b.aux.isNone) = some a →
    s.running = true → s.frames.lock = true → (s.ctx c).lastClean = some a.c.b → s.leasesOk g = true → g.remote = false →
    s.readable c (s.publishReads c g (fld a.c.a 4 4)) = true →
    ∃ t, exec (.publishWrite ctx target) s = .next t ∧ (t.target c target.toNat).next = g.next + 1
      ∧ (mwf s.pctr = true → s.poison.contains g.versionCtr = false → mget s.sram (iaOf 2 0x1F g.versionCtr) = none →
        (t.pc g.versionCtr).toNat = max (s.pc g.versionCtr).toNat g.next.toNat)

/-- BAKE_SEAL, CRUMB_DRAIN, SEAL_NOTICE_SEND and RACK_COMMIT. CRUMB_DRAIN is stated for a tile without a sealed change and for
the last keeper that lacks its crumb. -/
def Obligations.SealDrainAndRackCommit : Prop :=
  ∀ (s : State) (ctx : BitVec 4),
    let c := ctx.toNat
    let x := s.ctx c
    (∀ step, x.bake.due = some step → s.running = true → s.published? c step = true → s.holdEntries c = true → x.stopped = false →
      x.rst.holding = false → x.bake.sealed = 0 → ∃ t, exec (.bakeSeal ctx) s = .next t
        ∧ (t.ctx c).bake.sealed = x.bake.committed + 1 ∧ (t.ctx c).bake.sLast = step ∧ (t.ctx c).bake.due = none
        ∧ (∀ i, (t.tile c i).o = none ∧ (t.tile c i).p = none ∧ (t.tile c i).erasedOpen = false)
        ∧ (x.regions.any (fun e => e.2.change.isSome) = false → ∀ i, (t.tile c i).sb = (s.tile c i).o ∧ (t.tile c i).sp = (s.tile c i).p
            ∧ (t.tile c i).erasedSealed = (s.tile c i).erasedOpen ∧ (x.cover i = .snapshot → (s.tile? c i).isSome = true → (t.tile c i).owesBake = true)))
    ∧ (∀ i, s.running = true → s.frames.lock = true → x.bake.sealed ≠ 0 → x.bake.toShip.contains i = true → x.bake.stopShip = false →
      s.granted .k c none i = true → (s.tile c i).unbuilt = false → x.cover i ≠ .snapshot → x.bake.fullTiles.contains i = false →
      (s.tile c i).erasedSealed = false → (s.tile c i).sp = none →
      ((s.tile c i).sb = none → ∃ t, exec (.crumbDrain ctx i) s = .next t ∧ (t.ctx c).bake.toShip = x.bake.toShip.erase i
          ∧ (t.ctx c).bake.shipped = x.bake.shipped ∧ t.fab = s.fab)
      ∧ (∀ k b j o p, (s.tile c i).sb = some k → x.shipPlace i = some (b, j, o) → p ∈ x.keepersOf b →
          (∀ q ∈ x.keepersOf b, q ≠ p → q ∈ mgetD x.bake.part i []) → p ∉ mgetD x.bake.part i [] → mget x.fences p = none →
          (s.fabricFits .k (s.peelFor (p % 2)) (bit (x.rackHop p)) (packCrumb k.planes k.delta).1.length (s.agedWork .k c none i)).1 = true →
          ∃ t, exec (.crumbDrain ctx i) s = .next t ∧ (t.ctx c).bake.toShip = x.bake.toShip.erase i
            ∧ mgetD (t.ctx c).bake.shipped p 0 = mgetD x.bake.shipped p 0 + 1))
    ∧ (∀ k : BitVec 5, s.running = true → x.bake.sealed ≠ 0 → x.bake.stopShip = false → x.myKeepers.contains k.toNat = true →
      x.bake.noticed.contains k.toNat = false → s.shippedAll c k.toNat = true → x.noticeBlocked k.toNat = false →
      mget x.fences k.toNat = none → ∃ t, exec (.sealNoticeSend ctx k) s = .next t
        ∧ (t.ctx c).bake.noticed = x.bake.noticed ++ [k.toNat] ∧ (t.ctx c).bake.shipped = x.bake.shipped)
    ∧ (∀ g, mwf s.pctr = true → x.group.cfg = some g → s.live = true → x.group.joined = true → x.own = g.root.toNat → x.bake.sealed ≠ 0 →
      x.bake.rackDone = false → s.poison.contains g.bakeCtr.toNat = false → x.commitTotal ≤ (s.pc g.bakeCtr.toNat).toNat →
      ∃ t, exec (.rackCommit ctx) s = .next t ∧ (t.ctx c).bake.rackDone = true ∧ t.pc g.bakeCtr.toNat = 0
        ∧ (t.ctx c).bake.sealed = x.bake.sealed)

/-- What a keeper does with crumbs and seal notices of the bake it forms. -/
def Obligations.KeepersTakeCrumbsAndNotices : Prop :=
  ∀ (s : State) (peel : Nat) (x : Xfer),
    let c := x.ctx
    let y := s.ctx c
    let f := BitVec.ofNat 32 (x.num 12 4)
    let k := y.crustOf x.batch (x.num 16 1)
    let sl := s.homeSlice c x.batch (x.num 16 1) (if k.pointer then 0 else 1)
    let u := s.arrived peel x
    (s.Serves 0x10 peel x → y.early f = false → y.rst.holding = false →
      (f ≠ y.forming ∨ y.group.committed.contains x.batch = true →
        exec (.crumb peel x) s = .next ((u.respond peel x 0).countCtx c 33 (bit (decide (x.num 24 1 = 0)))))
      ∧ (f = y.forming → y.group.committed.contains x.batch = false → k.unbuilt = false →
        ((mgetD k.applied (x.num 18 1) 0).getLsbD (x.num 17 1) = true →
          exec (.crumb peel x) s = .next ((u.respond peel x 0).countCtx c 32 (bit (decide (x.num 24 1 = 0)))))
        ∧ ((mgetD k.applied (x.num 18 1) 0).getLsbD (x.num 17 1) = false → y.group.cfg.isSome = true →
          (s.slice sl).landing.find? (Landing.isFor c x.batch (x.num 16 1) (x.num 17 1) (x.num 18 1)) = none →
          (s.slice sl).landed + descLen (BitVec.ofNat 21 (x.num 20 3)) ≤ 262144 →
          descLen (BitVec.ofNat 21 (x.num 20 3)) ≤ 256 * x.units → x.num 24 1 = 0 →
          ((s.slice sl).arrayGated = false →
            ∃ t, exec (.crumb peel x) s = .next t ∧ mgetD (t.ctx c).group.applied x.src 0 = mgetD y.group.applied x.src 0 + 1)
          ∧ ((s.slice sl).arrayGated = true → ∃ t, exec (.crumb peel x) s = .next t ∧ (t.ctx c).group.applied = y.group.applied
            ∧ ∃ l ∈ (t.slice sl).landing, l.isFor c x.batch (x.num 16 1) (x.num 17 1) (x.num 18 1) = true ∧ l.whole = true))))
    ∧ (s.Serves 0x11 peel x → y.group.joined = true → y.early f = false → f = y.forming →
      ∃ t, exec (.sealNotice peel x) s = .next t ∧ mget (t.ctx c).group.notices x.src = some (BitVec.ofNat 32 (x.num 16 4))
        ∧ (t.ctx c).group.firstNotice = some (y.group.firstNotice.getD s.frames.frame))
    ∧ (∀ (ctx : BitVec 4) (b : BitVec 32) (row : BitVec 2) (slot off : BitVec 5), ∃ t,
      exec (.crumbLandingTimeout ctx b row slot off) s = .next t
        ∧ ∀ i, (t.slice i).landing = (s.slice i).landing.filter (fun l => !(l.ctx == ctx && l.batch == b && l.row == row && l.slot == slot && l.offset == off && !l.whole))
          ∧ (t.slice i).bitmap = (s.slice i).bitmap)
    ∧ (∀ (ctx : BitVec 4) (p : BitVec 5) (g : GroupCfg) (n : BitVec 32),
      let z := s.ctx ctx.toNat
      let wait := fld s.win.memberNow 32 16
      z.group.cfg = some g → z.group.firstNotice = some n → s.live = true → wait ≠ 0 → z.holdsPos p.toNat = true →
      mget z.group.notices p.toNat = none → z.keptBatches.any (fun b => (z.sources g b).contains p.toNat) = true →
      (wait ≤ (s.frames.frame - n).toNat → z.group.missing.find? (fun e => e.1 == p.toNat) = none →
        ∃ t, exec (.sealWaitExpiry ctx p) s = .next t ∧ (t.ctx ctx.toNat).group.missing = z.group.missing ++ [(p.toNat, false)])
      ∧ (2 * wait ≤ (s.frames.frame - n).toNat → z.group.missing.find? (fun e => e.1 == p.toNat) = some (p.toNat, false) →
        ∃ t, exec (.sealWaitExpiry ctx p) s = .next t ∧ (t.sign ctx.toNat p.toNat).lost = true))

/-- Every inbound request, by its type: dropped at a check, answered FROZEN, or held while clk_eng is stopped. -/
def Obligations.InboundRequestsAreCheckedFirst : Prop :=
  ∀ (s : State) (peel : Nat) (x : Xfer) (k : Nat × (Nat → Xfer → Instr)),
    k ∈ [(0x03, Instr.counter), (0x04, .probe), (0x10, .crumb), (0x11, .sealNotice), (0x12, .decodeReq), (0x13, .decodePart),
      (0x20, .bcast), (0x21, .bcastUp), (0x22, .record)] →
    s.up = true → peel < s.peelsPresent → x.typ = k.1 → x.resp = false →
    let u := (s.admitXfer peel x).1
    ((s.admitXfer peel x).2 = false → exec (k.2 peel x) s = .next u
      ∧ u = { s with
        fab := { s.fab with signs := u.fab.signs }, health := { s.health with now := u.health.now },
        link := { s.link with outq := u.link.outq, evSeq := u.link.evSeq, evDrop := u.link.evDrop },
        engCtr := u.engCtr, ctxCtr := u.ctxCtr })
    ∧ ((s.admitXfer peel x).2 = true → s.frozen = true → exec (k.2 peel x) s = .next (u.respond peel x 2))
    ∧ ((s.admitXfer peel x).2 = true → s.frozen = false → s.stopped = true → k.1 ≠ 0x04 →
      exec (k.2 peel x) s = .next (u.holdWake peel x))

/-- PROBE, and COUNTER on a counter of which no word was written by CHECKBIT_WRITE. -/
def Obligations.ProbesAndCountersAreServed : Prop :=
  ∀ (s : State) (peel : Nat) (x : Xfer),
    let u := s.arrived peel x
    let k := x.num 8 2 % 4096
    let op := x.num 8 2 / 4096 % 4
    let v := x.word 16
    (s.up = true → peel < s.peelsPresent → x.typ = 0x04 → x.resp = false → (s.admitXfer peel x).2 = true → s.frozen = false →
      exec (.probe peel x) s = .next (u.respond peel x 0))
    ∧ (mwf s.pctr = true → s.Serves 0x03 peel x → mget s.sram (iaOf 2 0x1F k) = none →
      (op ≠ 3 → (op = 2 ∨ s.poison.contains k = false) → ∃ t, exec (.counter peel x) s = .next t ∧ t.poison.contains k = false
        ∧ t.pc k = (if op = 0 then s.pc k + v else if op = 1 then (if (s.pc k).toNat < v.toNat then v else s.pc k) else v)
        ∧ (∀ i, i ≠ k → t.pc i = s.pc i))
      ∧ (op ≠ 2 → s.poison.contains k = true → exec (.counter peel x) s = .next u)
      ∧ (op = 3 → s.poison.contains k = false →
        (v.toNat ≤ (s.pc k).toNat → exec (.counter peel x) s = .next (u.respond peel x 0 [(16, (s.pc k).toNat)]))
        ∧ ((s.pc k).toNat < v.toNat → s.fab.waiters.length < 512 → exec (.counter peel x) s = .next { u with
            fab := { u.fab with waiters := s.fab.waiters ++ [⟨peel, x, BitVec.ofNat 12 k, v⟩] } })
        ∧ ((s.pc k).toNat < v.toNat → 512 ≤ s.fab.waiters.length →
          exec (.counter peel x) s = .next ((u.countPeel peel 22).respond peel x 1))))

/-- DECODE_REQ and DECODE_PART. -/
def Obligations.DecodesAreServedAndSummed : Prop :=
  ∀ (s : State) (peel : Nat) (x : Xfer) (g : GroupCfg),
    let c := x.ctx
    let y := s.ctx c
    let u := s.arrived peel x
    let b := BitVec.ofNat 32 (x.num 8 4)
    let bake := BitVec.ofNat 32 (x.num 12 4)
    y.group.cfg = some g →
    (s.Serves 0x12 peel x →
      let mine := (y.group.contributors g b (slotsOf (BitVec.ofNat 32 (x.num 20 4)))).find? (fun e => e.2 == y.own)
      let offs := (List.range (min 32 (x.num 18 1))).map (fun i => (x.num 17 1 + i) % 32)
      (y.group.joined = false → exec (.decodeReq peel x) s = .next (u.respond peel x 5))
      ∧ (y.group.joined = true → mine = none → exec (.decodeReq peel x) s = .next (u.respond peel x 0))
      ∧ (∀ z, y.group.joined = true → mine = some z →
        (bake ≠ y.bake.committed → y.bake.sealed = 0 → exec (.decodeReq peel x) s = .next (u.respond peel x 3))
        ∧ (z.1 < g.k → bake = y.bake.committed →
          ((∃ o ∈ offs, ∃ i, y.tileAt g b z.1 o = some i ∧ s.unavailable c i false = true) →
            exec (.decodeReq peel x) s = .next (u.respond peel x 4))
          ∧ ((∀ o ∈ offs, ∀ i, y.tileAt g b z.1 o = some i → s.unavailable c i false = false) →
            ∃ t, exec (.decodeReq peel x) s = .next t
              ∧ mgetD t.ctxCtr (184 * c + 42) 0 = mgetD s.ctxCtr (184 * c + 42) 0 + 1))))
    ∧ (s.Serves 0x13 peel x →
      let mask := BitVec.ofNat 32 (x.num 20 4)
      let mine := s.fab.jobs.filter (fun j => j.ctx.toNat == c && j.batch == b && j.bake == bake && j.lost == x.num 16 1
        && j.offset == x.num 17 1)
      (y.group.joined = false → exec (.decodePart peel x) s = .next (u.respond peel x 5))
      ∧ (y.group.joined = true → mine = [] → s.fab.sums.find? (PartSum.isAt c b bake (x.num 16 1) (x.num 17 1)) = none →
        ∃ t p, exec (.decodePart peel x) s = .next t
          ∧ t.fab.sums.find? (PartSum.isAt c b bake (x.num 16 1) (x.num 17 1)) = some p
          ∧ mget p.parts (mask.toNat * 256 + x.num 24 1) = some x.payload)
      ∧ (∀ j, y.group.joined = true → mine = [j] → s.fab.jobs.find? (fun k => k.id == j.id) = some j →
        slotMask ((y.group.contributors g b j.avail).map Prod.fst) = mask →
        (∃ i < 16, mget (mset j.parts (x.num 24 1) x.payload) (16 * i) = none) →
        ∃ t, exec (.decodePart peel x) s = .next t
          ∧ t.fab.jobs.find? (fun k => k.id == j.id) = some { j with parts := mset j.parts (x.num 24 1) x.payload }))

/-- RECORD, BCAST and BCAST_UP, and BCAST_CHILD_TIMEOUT where one broadcast of the context waits for the child. -/
def Obligations.RecordsAndBroadcastsAreServed : Prop :=
  (∀ (s : State) (peel : Nat) (x : Xfer) (g : GroupCfg),
      let c := x.ctx
      let y := s.ctx c
      let u := s.arrived peel x
      let member := x.num 8 1
      let orig := x.num 9 1
      let gen := BitVec.ofNat 32 (x.num 12 4)
      y.group.cfg = some g →
      (s.Serves 0x22 peel x →
        (y.group.joined = false → y.group.adopting = none → exec (.record peel x) s = .next (u.respond peel x 5))
        ∧ (y.group.joined = true → g.heldMembers.contains member = true → x.src = member → y.group.adopting = none →
          x.payload ≠ [] → ∃ t, exec (.record peel x) s = .next t
            ∧ mget (mgetD t.fab.held (heldKey c member) {}).parts (partKey (x.num 9 1) (x.num 12 4)) = some x.payload
            ∧ (∀ k, k ≠ heldKey c member → mget t.fab.held k = mget s.fab.held k)))
      ∧ (s.Serves 0x20 peel x →
        (x.num 8 1 ≠ 1 → x.num 8 1 ≠ 2 → exec (.bcast peel x) s = .next (u.drop peel 2))
        ∧ (∀ (tag : BitVec 16) (r : Bool), x.num 8 1 = 1 → x.num 10 1 = 1 → mget y.fences x.src = none →
          y.group.joining = some (tag, gen, r) → (∀ b, y.bcast? 1 orig = some b → b.gen.toNat < gen.toNat) →
          ∃ t b, exec (.bcast peel x) s = .next t ∧ (t.ctx c).bcast? 1 orig = some b ∧ b.gen = gen
            ∧ b.parent = some (BitVec.ofNat 5 x.src) ∧ b.mask = BitVec.ofNat 32 (2 ^ g.own.toNat)
            ∧ b.awaiting = (y.kidsOf g orig g.own.toNat).map (fun p => BitVec.ofNat 5 p))
        ∧ (∀ b, x.num 8 1 = 1 → x.num 10 1 = 1 → mget y.fences x.src = none → y.bcast? 1 orig = some b → gen.toNat ≤ b.gen.toNat →
          let v := (u.respond peel x 0).countCtx c 88
          exec (.bcast peel x) s = .next (if b.upSent then v.sendUp c x.src b 0x1F b.mask.toNat [] else v)))
      ∧ (s.Serves 0x21 peel x → y.group.adopting = none →
        let waits := y.group.bcasts.find? (fun b => b.kind.toNat == x.num 8 1 && b.gen == gen && !b.upSent)
        (waits = none → exec (.bcastUp peel x) s = .next (u.respond peel x 0))
        ∧ (∀ b, waits = some b → y.bcast? (x.num 8 1) b.orig.toNat = some b → x.payload = [] →
          b.awaiting.contains (BitVec.ofNat 5 x.src) = true → b.awaiting.any (· != BitVec.ofNat 5 x.src) = true →
          ∃ t, exec (.bcastUp peel x) s = .next t ∧ (t.ctx c).bcast? (x.num 8 1) b.orig.toNat = some { b with
            awaiting := b.awaiting.filter (· != BitVec.ofNat 5 x.src), kids := b.kids ++ [BitVec.ofNat 5 x.src],
            mask := b.mask ||| BitVec.ofNat 32 (x.num 16 4) })))
    ∧ (∀ (s : State) (ctx : BitVec 4) (child : BitVec 5) (b : Bcast) (g : GroupCfg),
      let c := ctx.toNat
      let y := s.ctx c
      let more := (y.kidsOf g b.orig.toNat child.toNat).map (fun p => BitVec.ofNat 5 p)
      s.live = true → y.group.cfg = some g → y.group.adopting = none →
      y.group.bcasts.filter (fun e => !e.upSent && e.awaiting.contains child) = [b] →
      y.bcast? b.kind.toNat b.orig.toNat = some b → (b.awaiting.filter (· != child) ++ more).isEmpty = false →
      ∃ t, exec (.bcastChildTimeout ctx child) s = .next t
        ∧ (t.ctx c).bcast? b.kind.toNat b.orig.toNat = some { b with awaiting := b.awaiting.filter (· != child) ++ more }
        ∧ t.pctr = s.pctr ∧ t.link.admitted = s.link.admitted)

/-- INBOUND_RESPONSE. -/
def Obligations.ResponsesEndTheirRequests : Prop :=
  ∀ (s : State) (peel : Nat) (x : Xfer),
    let u := (s.admitXfer peel x).1
    s.up = true → peel < s.peelsPresent → x.resp = true →
    ((s.admitXfer peel x).2 = false → exec (.inboundResponse peel x) s = .next u)
    ∧ ((s.admitXfer peel x).2 = true → s.reqAt peel x.slot = none → exec (.inboundResponse peel x) s = .next (u.lateArrival peel x))
    ∧ (∀ r, (s.admitXfer peel x).2 = true → s.reqAt peel x.slot = some r →
      (r.matches x = false → exec (.inboundResponse peel x) s = .next (u.lateArrival peel x))
      ∧ (r.matches x = true → s.fab.heldRsp.any (fun h => h.1 == peel && h.2.1 == x.slot) = false → s.running = true →
        (s.stopped = true → exec (.inboundResponse peel x) s = .next (u.holdWake peel x))
        ∧ (s.stopped = false →
          (x.status = 1 → ∃ t, exec (.inboundResponse peel x) s = .next t ∧ t.reqAt peel x.slot = none
            ∧ t.fab.retries = s.fab.retries ++ [⟨r⟩])
          ∧ (x.status = 0 → r.why = .notice ∨ r.why = .record ∨ r.why = .part ∨ (∃ b i f, r.why = .crumb b i f) →
            ∃ t, exec (.inboundResponse peel x) s = .next t ∧ t.reqAt peel x.slot = none ∧ t.fab.retries = s.fab.retries
              ∧ t.ctxs = s.ctxs)
          ∧ (∀ st, x.status = 0 → (s.ctx r.ctx.toNat).step = some st →
            (r.why = .verdict → ∃ t, exec (.inboundResponse peel x) s = .next t
              ∧ (t.ctx r.ctx.toNat).step = some { st with final := some (x.word 16) })
            ∧ (r.why = .riskMax → ∃ t, exec (.inboundResponse peel x) s = .next t
              ∧ (t.ctx r.ctx.toNat).step = some { st with riskDone := true })
            ∧ (r.why = .finding → ∃ t, exec (.inboundResponse peel x) s = .next t
              ∧ (t.ctx r.ctx.toNat).step = some { st with addBack := true }))
          ∧ (x.status = 2 → r.why = .probe → untagged r.typ.toNat = false → ∃ t, exec (.inboundResponse peel x) s = .next t
            ∧ ∀ c ∈ s.holdersOf r.dst.toNat, (t.sign c r.dst.toNat).lost = true))))

/-- FABRIC_REQUEST_TIMEOUT and TAG_QUARANTINE_END, and the waits that end by time: a remote waiter's limit, a local
COMPARE-WAIT's period, the grace of a key. -/
def Obligations.FabricWaitsEndByTime : Prop :=
  (∀ (s : State) (peel : Nat) (slot : BitVec 10),
      (s.reqAt peel slot = none → exec (.fabricRequestTimeout peel slot) s = .next s)
      ∧ (∀ r, s.reqAt peel slot = some r → s.fab.heldRsp.any (fun h => h.1 == peel && h.2.1 == slot) = false →
        s.unsent peel slot = false →
        (s.expire r).reqAt peel slot = none ∧ (s.expire r).fab.quar = s.fab.quar ++ [⟨peel, slot, s.frames.frame + 4⟩]
        ∧ (s.live = false → exec (.fabricRequestTimeout peel slot) s = .next (s.expire r))
        ∧ (s.running = true → exec (.fabricRequestTimeout peel slot) s = .next ((s.expire r).endReq r .timedOut))
        ∧ (s.running = true → r.why = .notice ∨ r.why = .record ∨ (∃ b i f, r.why = .crumb b i f) → s.fencedAny r.dst.toNat = false →
          ∃ t, exec (.fabricRequestTimeout peel slot) s = .next t ∧ t.reqAt peel slot = none ∧ t.fab.retries = s.fab.retries ++ [⟨r⟩])
        ∧ (s.live = true → s.boot.guardFrz = true → r.why.gated = true → exec (.fabricRequestTimeout peel slot) s = .next { s with
            fab := { s.fab with heldRsp := s.fab.heldRsp ++ [(peel, slot, none)] } }))
      ∧ (s.unsent peel slot = true → exec (.fabricRequestTimeout peel slot) s = .next s)
      ∧ (∃ t, exec (.tagQuarantineEnd peel slot) s = .next t ∧ t = { s with fab := { s.fab with quar := t.fab.quar } }
        ∧ ∀ q, q ∈ t.fab.quar ↔ q ∈ s.fab.quar
          ∧ ¬(q.peel = peel ∧ q.slot = slot ∧ (q.until_ = s.frames.frame ∨ framePast q.until_ s.frames.frame = true))))
    ∧ (∀ s : State,
      (∀ (peel : Nat) (src : BitVec 5) (tag : BitVec 16),
        let mine (w : Waiter) : Prop := w.peel = peel ∧ w.x.src = src.toNat ∧ w.x.num 2 2 = tag.toNat
        (∀ (l r : List Waiter) (w : Waiter), s.fab.waiters = l ++ w :: r → (∀ v ∈ l, ¬ mine v) → mine w →
          exec (.compareWaitLimit peel src tag) s = .next { s with fab := { s.fab with waiters := l ++ r } })
        ∧ ((∀ v ∈ s.fab.waiters, ¬ mine v) → exec (.compareWaitLimit peel src tag) s = .next s))
      ∧ (∀ (ctx : BitVec 4) (tag : BitVec 16),
        (s.live = true → (∃ w ∈ s.fab.locals, w.ctx = ctx ∧ w.tag = tag) →
          exec (.localWaitTimeout ctx tag) s = .next (State.finish
            { s with fab := { s.fab with locals := s.fab.locals.filter (fun w => !(w.ctx == ctx && w.tag == tag)) } }
            ctx.toNat tag 0x0500 (s.ctx ctx.toNat).own))
        ∧ (s.live = false ∨ (∀ w ∈ s.fab.locals, ¬(w.ctx = ctx ∧ w.tag = tag)) → exec (.localWaitTimeout ctx tag) s = .next s))
      ∧ (∀ ctx : BitVec 4, ∃ t, exec (.keyGraceEnd ctx) s = .next t ∧ t = { s with ctxs := t.ctxs }
        ∧ (∀ k f, (s.ctx ctx.toNat).keys.prev = some (k, f) →
          (f = s.frames.frame ∨ framePast f s.frames.frame = true → t.ctx ctx.toNat = { s.ctx ctx.toNat with
            keys := { (s.ctx ctx.toNat).keys with prev := none } })
          ∧ (f ≠ s.frames.frame → framePast f s.frames.frame = false → t.ctx ctx.toNat = s.ctx ctx.toNat))))

/-- The peels: a link that rises or falls, malformed transfers, and what arrives while clk_eng is stopped. -/
def Obligations.PeelEventsTakeEffect : Prop :=
  ∀ (s : State) (peel : Nat),
    (s.up = true → peel < 2 →
      (∃ t, exec (.peelLinkUpChange peel false) s = .next t ∧ t = { s with fab := { s.fab with peels := t.fab.peels } }
        ∧ t.peel peel = { s.peel peel with linkUp := false })
      ∧ (∃ t, exec (.peelLinkUpChange peel true) s = .next t ∧ t.peel peel = { s.peel peel with linkUp := true, offered := [] }
        ∧ t.fab.tx = s.fab.tx ++ (s.peel peel).offered.map (fun o => (peel, o.1, o.2.2))))
    ∧ (∀ check : Nat, s.up = true → peel < s.peelsPresent → 1 ≤ check → check ≤ 3 →
      ∃ t, exec (.malformedTransfer peel check) s = .next t
        ∧ t = { s with engCtr := t.engCtr, health := { s.health with now := s.health.now.set 2 (s.health.now.getD 2 0 + 1) } }
        ∧ mgetD t.engCtr (32 + 24 * peel + 5 + check) 0 = mgetD s.engCtr (32 + 24 * peel + 5 + check) 0 + 1
        ∧ mgetD t.engCtr (32 + 24 * peel + 2) 0 = mgetD s.engCtr (32 + 24 * peel + 2) 0 + 1)
    ∧ (∀ x : Option Xfer, s.live = true → s.stopped = false → exec (.clockStopWake peel x) s = .next s)
    ∧ (s.live = true → s.power.opReq = 3 → ∃ t, exec (.clockStopWake peel none) s = .next t
        ∧ t.power = { s.power with opReq := 2, opOld := 3, opAck := false } ∧ t.fab = s.fab)
    ∧ (∀ x : Xfer, s.live = true → s.stopped = true → peel < s.peelsPresent → (s.admitXfer peel x).2 = true → s.frozen = false →
      (x.resp = true ∨ x.typ ≠ 0x04 → (s.peel peel).wake.length < 64 → ∃ t, exec (.clockStopWake peel (some x)) s = .next t
        ∧ t.peel peel = { s.peel peel with wake := (s.peel peel).wake ++ [x] } ∧ t.power.opReq ≠ 3)
      ∧ (x.resp = false → x.typ = 0x04 →
        exec (.clockStopWake peel (some x)) s = .next ((s.admitXfer peel x).1.respond peel x 0)))

/-- GATE_REQUEST on a slice none of whose table words was written by CHECKBIT_WRITE: the rows of Table 3.4 in order. -/
def Obligations.GateAnswersByTheFirstRow : Prop :=
  ∀ (s : State) (slice : Nat) (line : BitVec 31) (write : Bool) (src : BitVec 4) (wdata : LineData),
    let sl := s.slice slice
    let tile := line.toNat / 1024
    let k := sl.remap.find? (fun e => e.2.toNat == line.toNat)
    let named := sl.faultOnce.any (fun l => l.toNat == line.toNat)
    let outer := 1 ≤ src.toNat ∧ src.toNat ≤ 4 ∧ tile < 1098632 ∧ named = false
    let held := sl.state tile = .held ∨ sl.regionHeld tile = true
    s.up = true → s.present slice = true → (mkeys s.sram).all (fun a => iaSlice a != slice) = true →
    ∃ t, exec (.gateRequest slice line write src wdata) s = .next t
      ∧ (t.slice slice).ans = (if 6 ≤ src.toNat ∨ 1098632 ≤ tile then 3
          else if src.toNat = 5 then (if write then 3 else 0)
          else if src.toNat = 0 then (if k.isSome then 2 else 0)
          else if named then 3
          else if held ∨ (write = true ∧ sl.state tile = .trapped) then 1
          else if write = true ∧ sl.protected tile = true ∧ sl.state tile ≠ .exempt then 3
          else if k.isSome then 2 else 0)
      ∧ ((t.slice slice).ans = 2 → ∀ e, k = some e → (t.slice slice).redir = BitVec.ofNat 31 (0x7FFFFFE0 + e.1))
      ∧ ((t.slice slice).ans ≠ 2 → (t.slice slice).redir = 0)
      ∧ ((t.slice slice).ans = 1 → sl.heldFor tile .moving = false →
          ((t.slice slice).parked.contains tile = true ∨ (t.slice slice).overflow = true)
          ∧ ((t.slice slice).state tile = .held ∨ sl.regionHeld tile = true))
      ∧ (t.slice slice).faultOnce = (if 1 ≤ src.toNat ∧ src.toNat ≤ 4 ∧ tile < 1098632
          then sl.faultOnce.filter (fun l => l.toNat != line.toNat) else sl.faultOnce)
      ∧ t.mem = (if outer ∧ write = true ∧ (t.slice slice).ans = 0
          then writeMem s.mem (slice * 2 ^ 37 + line.toNat * 64) (bytesOfLine wdata) else s.mem)

/-- PROOF_COPY_DONE in sound states, and SPARE_LINE_ACCESS. -/
def Obligations.ProofCopiesAndSpareLines : Prop :=
  ∀ (s : State) (slice : Nat),
    (∀ (tile c i : Nat), s.Sound → s.running = true → (s.slice slice).copies.any (fun j => j.tile == tile) = true →
      (s.slice slice).heldFor tile .mend = false → (s.slice slice).heldFor tile .mendFailed = false →
      s.starved slice tile = false → s.owner slice tile = some (c, i) →
      ∃ t, exec (.proofCopyDone slice tile) s = .next t ∧ (t.tile c i).owesBake = false ∧ (t.tile c i).owed = 0
        ∧ (t.tile c i).dirty = true
        ∧ ((s.tile c i).owesBake = true → (s.ctx c).bake.sealed ≠ 0 → (t.tile c i).proofNew = some (s.homeVal c i))
        ∧ ((s.tile c i).owesBake = true → (s.ctx c).bake.sealed = 0 → (t.tile c i).proofOld = some (s.homeVal c i)))
    ∧ (∀ tile : Nat, s.running = true → (s.slice slice).copies.any (fun j => j.tile == tile) = true →
      (s.slice slice).heldFor tile .mend = false → (s.slice slice).heldFor tile .mendFailed = false →
      s.starved slice tile = true → ∃ t, exec (.proofCopyDone slice tile) s = .next t ∧ t.ctxs = s.ctxs ∧ t.mem = s.mem
        ∧ (t.slice slice).copies.any (fun j => j.tile == tile && j.stalled) = true
        ∧ (t.slice slice).bitmap = (s.slice slice).bitmap)
    ∧ (∀ (idx : BitVec 5) (wdata : LineData) (wmask : BitVec 64), s.up = true → s.present slice = true →
      (mwf (s.slice slice).spare = true → ∃ t, exec (.spareLineAccess slice true idx wdata wmask) s = .next t ∧ t.mem = s.mem
        ∧ (∀ k < 64, fld ((t.slice slice).spareLine idx.toNat) (8 * k) 8
          = if wmask.getLsbD k then fld wdata (8 * k) 8 else fld ((s.slice slice).spareLine idx.toNat) (8 * k) 8)
        ∧ (∀ k, k ≠ idx.toNat → (t.slice slice).spareLine k = (s.slice slice).spareLine k))
      ∧ ((mkeys s.sram).all (fun a => iaSlice a != slice) = true → ∃ t, exec (.spareLineAccess slice false idx wdata wmask) s = .next t
        ∧ t.slice slice = { s.slice slice with spareRd := some ((s.slice slice).spareLine idx.toNat) } ∧ t.mem = s.mem))

/-- MC_ERROR_REPORT and MEM_READ_RESPONSE. -/
def Obligations.ErrorReportsAreTreated : Prop :=
  ∀ (s : State) (slice : Nat) (kind : BitVec 3) (line : BitVec 31),
    let k := kind.toNat
    let sl := s.slice slice
    let tile := line.toNat / 1024
    (s.up = true → s.present slice = true →
      ((k = 0 ∨ 4 < k) → ∃ t, exec (.mcErrorReport slice kind line) s = .next t ∧ t.mem = s.mem ∧ t.ctxs = s.ctxs
          ∧ mgetD t.slcCtr (80 * slice + 10 + k) 0 = mgetD s.slcCtr (80 * slice + 10 + k) 0 + 1)
      ∧ (1 ≤ k → k ≤ 4 → (sl.remapOf line.toNat).isSome = true → ∃ t, exec (.mcErrorReport slice kind line) s = .next t
          ∧ t.mem = s.mem ∧ t.ctxs = s.ctxs ∧ mgetD t.slcCtr (80 * slice + 8) 0 = mgetD s.slcCtr (80 * slice + 8) 0 + 1)
      ∧ (k = 1 ∨ k = 3 → (sl.remapOf line.toNat).isSome = false → tile < 1098632 →
          sl.corrected.all (fun e => e.1 != line) = true → sl.corrected.length < 64 →
          ∃ t, exec (.mcErrorReport slice kind line) s = .next t ∧ t.mem = s.mem ∧ t.ctxs = s.ctxs
            ∧ (t.slice slice).corrected = sl.corrected ++ [(line, s.frames.frame)] ∧ (t.slice slice).remap = sl.remap
            ∧ (t.slice slice).rewrites.contains line = (sl.rewrites.contains line || decide (k = 3)))
      ∧ (k = 2 ∨ k = 4 → (sl.remapOf line.toNat).isSome = false → tile < 1098632 →
          (∀ c i, s.owner slice tile = some (c, i) → (s.ctx c).mendable i = true → (s.tile c i).tier1 = false →
            sl.mended.contains line = false → ∃ t, exec (.mcErrorReport slice kind line) s = .next t ∧ t.heldFor c i .mend = true)
          ∧ (k = 2 → s.owner slice tile = none → s.loseOwn slice tile line.toNat = none →
            ∃ t, exec (.mcErrorReport slice kind line) s = .next t ∧ (t.slice slice).faultOnce.contains line = true)))
    ∧ (∀ (tag : BitVec 10) (data : List LineData) (poison : BitVec 32),
      (sl.reads.find? (fun r => r.1 == tag) = none → exec (.memReadResponse slice tag data poison) s = .next s)
      ∧ (s.up = true → s.present slice = true → (sl.reads.find? (fun r => r.1 == tag)).isSome = true →
        (∃ t, exec (.memReadResponse slice tag data poison) s = .next t
          ∧ (t.slice slice).reads = sl.reads.filter (fun q => q.1 != tag))
        ∧ ((∀ j < 32, j < data.length → poison.getLsbD j = false) → exec (.memReadResponse slice tag data poison) s
          = .next (s.modSlice slice (fun x => { x with reads := x.reads.filter (fun q => q.1 != tag) })))))

/-- STORAGE_SCRUB, and the checks of Table 1.2 that FIRMWARE_DIGEST_CHECK and FRAME_WATCHDOG make. -/
def Obligations.ScrubsAndChecks : Prop :=
  ∀ s : State,
    (∀ a : BitVec 32, s.up = true → mget s.sram a.toNat = none → exec (.storageScrub a) s = .next s)
    ∧ (∀ (a : BitVec 32) (r : RawWord), s.up = true → mget s.sram a.toNat = some r →
      let b : State := { s with sram := merase s.sram a.toNat }
      let w := s.unitWord (iaUnit a.toNat) (iaSlice a.toNat) (iaWord a.toNat)
      (w ≠ r.was → exec (.storageScrub a) s = .next (b.count 92))
      ∧ (w = r.was → corrected r.data r.chk = none → (6 ≤ iaUnit a.toNat → iaUnit a.toNat ≤ 8 → s.running = true) →
        exec (.storageScrub a) s = .next (b.treatWord a.toNat))
      ∧ (w = r.was → corrected r.data r.chk = none → 6 ≤ iaUnit a.toNat → iaUnit a.toNat ≤ 8 → s.running = false →
        exec (.storageScrub a) s = .next s)
      ∧ (∀ v, w = r.was → corrected r.data r.chk = some v → exec (.storageScrub a) s = .next
        (if syndrome r.data r.chk = .clean then b.setUnitWord (iaUnit a.toNat) (iaSlice a.toNat) (iaWord a.toNat) v
         else (b.setUnitWord (iaUnit a.toNat) (iaSlice a.toNat) (iaWord a.toNat) v).noteCorrected a.toNat true)))
    ∧ (∀ d : BitVec 256, s.live = true → 1024 ≤ s.frames.sinceDigest →
      (d = s.boot.digest → exec (.firmwareDigestCheck d) s = .next { s with frames := { s.frames with sinceDigest := 0 } })
      ∧ (d ≠ s.boot.digest → ∃ t, exec (.firmwareDigestCheck d) s = .next t ∧ t.boot.fault = 3 ∧ t.frozen = true
          ∧ t.link.admitted = []))
    ∧ (s.live = true → s.frames.planned = true → s.frames.lock = true → ∃ t, exec .frameWatchdog s = .next t
        ∧ t.boot.fault = 1 ∧ t.frozen = true ∧ t.link.admitted = [] ∧ t.ctxs = s.ctxs ∧ t.mem = s.mem)
    ∧ (s.frames.planned = false → exec .frameWatchdog s = .next s)

/-- A plan is built at a boundary and retired at its cutoff. -/
def Obligations.PlansAreBuiltAndRetired : Prop :=
  ∀ s : State,
    (∀ inp : FrameIn, s.live = true → s.frames.lock = true →
      (s.frames.planned = false → inp.tablesOk = true → ∃ t, exec (.framePlanBuild inp) s = .next t
        ∧ t.frames.planned = true ∧ t.frames.tick = inp.tick
        ∧ t.frames.frame = BitVec.ofNat 32 (inp.tick.toNat / (125000 * 2 ^ t.frames.j.toNat))
        ∧ (s.frames.pending = none → t.frames.j = s.frames.j)
        ∧ t.win = { s.win with memberNow := s.win.member, fabricNow := s.win.fabric })
      ∧ (s.frames.planned = true → ∃ t, exec (.framePlanBuild inp) s = .next t ∧ t.boot.fault = 1 ∧ t.frames = s.frames)
      ∧ (s.frames.planned = false → inp.tablesOk = false → ∃ t, exec (.framePlanBuild inp) s = .next t ∧ t.boot.fault = 3
        ∧ t.frames = s.frames))
    ∧ (∀ inp : FrameIn, s.live = false ∨ s.frames.lock = false → exec (.framePlanBuild inp) s = .next s)
    ∧ (s.live = true → s.frames.planned = true → ∃ t, exec .planCutoff s = .next t ∧ t.frames.planned = false
        ∧ (∀ p ∈ t.frames.pieces, p.issued = false) ∧ t.frames.pieces.length = s.frames.pieces.length
        ∧ (∀ i ∈ s.presentSlices, (t.slice i).rewrites = []))
    ∧ (s.live = true → s.frames.planned = false → exec .planCutoff s = .next s)
    ∧ (s.up = true → s.frames.lock = true → ∃ t, exec .tickLockLoss s = .next t ∧ t.frames.lock = false ∧ t.frames.planned = false)
    ∧ (∀ tick : Word, s.up = true → s.frames.lock = false → ∃ t, exec (.tickLockRegained tick) s = .next t
        ∧ t.frames = { s.frames with
          lock := true, tick := tick, frame := BitVec.ofNat 32 (tick.toNat / (125000 * 2 ^ s.frames.j.toNat)) }
        ∧ (s.live = true → mgetD t.engCtr 4 0 = mgetD s.engCtr 4 0 + BitVec.ofNat 64 (t.frames.frame - s.frames.frame).toNat))

/-- DEADLINE_MISS and PIECE_AGED. -/
def Obligations.DeadlinesAndAges : Prop :=
  ∀ s : State,
    (∀ (ctx : BitVec 4) (tag : BitVec 16) (a : Adm), s.adm? ctx.toNat tag = some a → s.live = true → s.frames.lock = true →
      let u := (s.count 3).modAdm ctx.toNat tag (fun a => { a with missed := true })
      (a.op ≠ 0x46 → a.c.deadline = 0 ∨ a.missed = true ∨ framePast a.c.deadline s.frames.frame = false →
        exec (.deadlineMiss ctx tag) s = .next s)
      ∧ (a.c.deadline ≠ 0 → a.missed = false → framePast a.c.deadline s.frames.frame = true →
        ([0x42, 0x46, 0x70].contains a.op = false → exec (.deadlineMiss ctx tag) s = .next (u.missEvent a))
        ∧ (∀ st, a.op = 0x42 → (s.ctx ctx.toNat).step = some st → st.tag = tag → st.held = false → st.unrisen = false →
          st.awaitOnly = false → s.finalOf ctx.toNat = none → ∃ t, exec (.deadlineMiss ctx tag) s = .next t
            ∧ (t.ctx ctx.toNat).step = some { st with held := true })
        ∧ (a.op = 0x46 → a.aux = none → (s.ctx ctx.toNat).lastClean = some a.c.b → s.leasesOk (s.target ctx.toNat (fld a.c.a 0 4)) = false →
          exec (.deadlineMiss ctx tag) s = .next (u.skipPublish ctx.toNat a))))
    ∧ (∀ piece : Nat, s.live = true → (∃ p ∈ s.frames.pieces, p.id = piece ∧ p.aged = false
        ∧ s.frames.ageLimit.toNat ≤ (s.frames.frame - p.born).toNat) → ∃ t, exec (.pieceAged piece) s = .next t
        ∧ t = { s with frames := { s.frames with pieces := t.frames.pieces } }
        ∧ (∃ p ∈ t.frames.pieces, p.id = piece ∧ p.aged = true) ∧ t.frames.pieces.length = s.frames.pieces.length)

/-- Power, heat and risk between plans. -/
def Obligations.PowerHeatAndRiskEvents : Prop :=
  ∀ s : State,
    (s.live = true → s.health.below ≠ 0 → s.health.below % 256 = 0 → s.health.level ≠ 0 → s.health.fellAt ≠ some s.frames.frame →
      ∃ t, exec .riskLevelFall s = .next t ∧ t.health = { s.health with
          level := s.health.level - 1, fellAt := some s.frames.frame }
        ∧ mgetD t.engCtr 105 0 = mgetD s.engCtr 105 0 + 1)
    ∧ (s.health.below % 256 ≠ 0 ∨ s.health.level = 0 → exec .riskLevelFall s = .next s)
    ∧ (s.live = true → s.power.inForce.toNat < s.power.uncapped → s.power.capped = false ∨ 1024 ≤ s.power.capFrames →
      ∃ t, exec .powerCapEvent s = .next t ∧ t.power = { s.power with capped := true, capFrames := 0 })
    ∧ (s.power.uncapped ≤ s.power.inForce.toNat ∨ (s.power.capped = true ∧ s.power.capFrames < 1024) →
      exec .powerCapEvent s = .next s)
    ∧ (∀ i, s.live = true → s.present i = true → (s.slice i).sensorFailed = false → 64 ≤ (s.slice i).thermSame →
      ∃ t, exec (.sensorStale i) s = .next t ∧ (t.slice i).sensorFailed = true
        ∧ (∀ m, maxInt (s.otherReadings i) = some m →
          (t.slice i).effTemp = BitVec.ofInt 16 (m + s.sensorMargin + s.sensorOffset i) ∧ t.freeIdx = s.freeIdx))
    ∧ (∀ i, (s.slice i).thermSame < 64 ∨ (s.slice i).sensorFailed = true → exec (.sensorStale i) s = .next s)
    ∧ (s.up = true → s.power.opAck = false → ∃ t, exec .powerStateAck s = .next t
        ∧ t.power = { s.power with opAck := true, opOld := s.power.opReq }
        ∧ (s.power.opReq ≠ 3 → ∀ p < 2, (t.peel p).wake = [])
        ∧ (s.power.opReq = 3 → t.fab = s.fab))
    ∧ (s.power.opAck = true → exec .powerStateAck s = .next s)
    ∧ (∀ i, s.up = true → s.present i = true → (s.slice i).stackAck = true → ∃ t, exec (.stackStateExit i) s = .next t
        ∧ t.slice i = { s.slice i with
          stackAck := false, awake := if (s.slice i).stackState = 2 then 64 else (s.slice i).awake }
        ∧ mgetD t.slcCtr (80 * i + 19) 0 = mgetD s.slcCtr (80 * i + 19) 0 + 1)

/-- Rebuilding and mending begin, are reported and end. -/
def Obligations.RebuildsAndMendsProceed : Prop :=
  ∀ s : State,
    (∀ slice tile c i, c < 16 → s.owner slice tile = some (c, i) → s.running = true → s.frames.lock = true →
      (s.tile c i).unbuilt = true →
      ((s.ctx c).cover i ≠ .replica → ((s.ctx c).batchOfTile i).isSome = true →
        ((s.ctx c).loafTiles i).all (fun u => (s.job? c .rebuild u).isNone) = true → ∃ t, exec (.demandRebuild slice tile) s = .next t
          ∧ (t.job? c .rebuild i).isSome = true ∧ (t.ctx c).group.demand = (s.ctx c).group.demand + 1)
      ∧ ((s.ctx c).cover i = .replica → ∃ t, exec (.demandRebuild slice tile) s = .next t ∧ (t.tile c i).unbuilt = false))
    ∧ (∀ (ctx : BitVec 4) (p : BitVec 5),
      let g := (s.ctx ctx.toNat).group
      let n := (s.frames.frame - g.rebuildFrame).toNat
      g.adopted = some p →
      (g.rebuild.isSome = true → n ≠ 0 → n % 128 = 0 → exec (.rebuildProgress ctx) s = .next (s.emit 0x0050 0 (some ctx.toNat)
        [(0, p.toNat), (4, min 0xFFFFFFFF g.rebuilt), (8, min 0xFFFFFFFF g.rebuiltAll), (12, min 0xFFFFFFFF g.demand)]))
      ∧ (n % 128 ≠ 0 → exec (.rebuildProgress ctx) s = .next s)
      ∧ (s.live = true → g.rebuildData = false → (s.ctx ctx.toNat).tiles.all (fun e => !e.2.unbuilt) = true →
        ∃ t, exec (.rebuildDone ctx false) s = .next t ∧ (t.ctx ctx.toNat).group.rebuildData = true
          ∧ (∀ tag, g.rebuild = some (tag, false) → (t.ctx ctx.toNat).group.rebuild = none))
      ∧ (s.live = true → g.rebuildCrust = false → (s.ctx ctx.toNat).builtCrust = true →
        ∃ t, exec (.rebuildDone ctx true) s = .next t ∧ (t.ctx ctx.toNat).group.rebuildCrust = true))
    ∧ (∀ (ctx : BitVec 4) (i : Nat),
      let c := ctx.toNat
      s.running = true → s.frames.lock = true → s.heldFor c i .mend = true → (s.ctx c).group.joined = true →
      s.job? c .mend i = none →
      ((s.ctx c).cover i ≠ .replica → s.mendFails c i = false → ((s.ctx c).batchOfTile i).isSome = true →
        ∃ t, exec (.mend ctx i) s = .next t ∧ (t.job? c .mend i).isSome = true ∧ t.heldFor c i .mend = true)
      ∧ ((s.ctx c).cover i ≠ .replica → s.mendFails c i = true →
        ∃ t, exec (.mend ctx i) s = .next t ∧ t.heldFor c i .mendFailed = true))

/-- Moves between the tiers, and BACKGROUND_FOLD. -/
def Obligations.TilesMoveBetweenTiersAndFold : Prop :=
  ∀ (s : State) (ctx : BitVec 4) (i : Nat),
    let c := ctx.toNat
    let k := (s.ctx c).knead
    (s.running = true → s.hasKnead = true → k.size ≠ 0 → k.idleLog ≠ 0 → (s.tile? c i).isSome = true →
      s.kneadable c i = true → s.atHome c i = true →
      (2 ^ k.idleLog ≤ (s.tile c i).idle.toNat → exec (.kneadIdleDemote ctx i) s = .next (s.modCtx c (fun x => { x with
        knead := { x.knead with jobs := mset x.knead.jobs i { kind := 0, cause := 2 } } })))
      ∧ ((s.tile c i).idle.toNat < 2 ^ k.idleLog → exec (.kneadIdleDemote ctx i) s = .next s))
    ∧ (s.running = true → s.frames.lock = true → s.hasKnead = true → k.size ≠ 0 → (s.tile? c i).isSome = true →
      s.kneadable c i = true →
      (mget k.jobs i = none → (s.tile c i).pin1 = true → s.atHome c i = true → exec (.demotion ctx i) s
        = .next (s.modCtx c (fun x => { x with knead := { x.knead with jobs := mset x.knead.jobs i { kind := 0, cause := 1 } } })))
      ∧ (∀ j, mget k.jobs i = some j → j.kind = 0 → j.stage = 0 → (s.tile c i).tier1 = false →
        (s.slice (s.tile c i).slice).state (s.tile c i).stack ≠ .held → s.granted (s.moveClass c j) c j.tag i = true →
        let n := ceilDiv (64 + (packCrumb ((s.ctx c).planesAt i) (s.homeVal c i)).1.length) 4096
        (s.fabricFits (s.moveClass c j) (s.peelFor 0) 1 (4096 * n) (s.agedWork (s.moveClass c j) c j.tag i)).1 = true →
        ((s.ctx c).allocate n).isSome = true →
        ∃ t q, exec (.demotion ctx i) s = .next t ∧ (t.tile c i).busy = true ∧ t.heldFor c i .moving = true
          ∧ mget (t.ctx c).knead.jobs i = some q ∧ q.kind = 0 ∧ q.stage = 1 ∧ t.mem = s.mem))
    ∧ (∀ j, s.running = true → s.frames.lock = true → mget k.jobs i = some j → j.kind = 1 → j.stage = 0 → (s.tile c i).tier1 = true →
      s.granted (s.moveClass c j) c j.tag i = true → ∃ t, exec (.promotion ctx i) s = .next t ∧ (t.tile c i).busy = true
        ∧ mget (t.ctx c).knead.jobs i = some { j with
          stage := 1, left := deSpan (s.tile c i).dir, entry := (s.tile c i).dir, bad := false, got := [] })
    ∧ (s.running = true → s.frames.lock = true → (s.tile c i).p.isSome = true → (s.tile c i).f = none →
      (∀ line, s.fits c i (fun r => r.fold line) = true) → ∃ t, exec (.backgroundFold ctx i) s = .next t
        ∧ (t.tile c i).p = none ∧ (t.tile c i).openDelta = (s.tile c i).openDelta
        ∧ mgetD t.ctxCtr (184 * c + 26) 0 = mgetD s.ctxCtr (184 * c + 26) 0 + 1)

/-- MASTER_TILE_UPDATE. -/
def Obligations.MasterTilesAreUpdatedInOrder : Prop :=
  ∀ (s : State) (ctx : BitVec 4) (i : Nat) (busy : Bool) (a : Adm),
    let c := ctx.toNat
    let r := if (s.tile c i).raw then s.rawWrite c i a.c else s.updateTile c i a.c a.h0 busy
    s.running = true → s.frames.lock = true → s.nextOn c (s.tile c i).slice = some (a, i) →
    (s.tileReady a.c a.h0 false i = true →
      exec (.masterTileUpdate ctx i busy) s = .next (s.tileDone c a.c i r)
      ∧ (∀ u, r = some u → s.adm? c a.c.tag = some a → (a.work.erase i).isEmpty = false →
        ∃ t, exec (.masterTileUpdate ctx i busy) s = .next t
          ∧ t.adm? c a.c.tag = some { a with work := a.work.erase i, done := a.done + 1 }
          ∧ (∀ st, (s.tile c i).raw = false → (s.ctx c).step = some st → ((s.ctx c).groupOf i).isSome = true →
            (t.ctx c).step.map (fun q => q.updated) = some (insertAsc st.updated i)))
      ∧ (r = none → s.adm? c a.c.tag = some a → a.inStep = true → ∃ t, exec (.masterTileUpdate ctx i busy) s = .next t
        ∧ (t.slice (s.tile c i).slice).holdStage.contains c = true ∧ t.link.admitted = s.link.admitted ∧ t.mem = s.mem))
    ∧ (s.tileReady a.c a.h0 false i = false → exec (.masterTileUpdate ctx i busy) s = .next (s.promoteFor a.c a.h0 false i))
end

