-- ==== Sys2Proof/Laws/Maps.lean ====
section
/-!
SUPPORT. Laws/Maps.lean: sparse tables and the stacks' bytes: a read after a write, and that every operation keeps the
canonical form.
-/
namespace Sys2Proof.Machine

/-! ### Tables -/

/-- Every key lies above `b`. -/
def mAbove {α : Type} (b : Nat) (m : FMap α) : Prop := ∀ e ∈ m, b < e.1

theorem mwf_cons {α : Type} (k : Nat) (v : α) (m : FMap α) :
    mwf ((k, v) :: m) = true ↔ mAbove k m ∧ mwf m = true := by
  induction m generalizing k v with
  | nil => simp [mwf, mAbove]
  | cons e m ih =>
    obtain ⟨k', v'⟩ := e
    rw [mwf, Bool.and_eq_true, decide_eq_true_eq, ih]
    constructor
    · rintro ⟨h, ha, hw⟩
      refine ⟨fun e he => ?_, ha, hw⟩
      rcases List.mem_cons.mp he with rfl | he
      · exact h
      · exact Nat.lt_trans h (ha e he)
    · rintro ⟨h, ha, hw⟩
      exact ⟨h (k', v') (by simp), ha, hw⟩

theorem mAbove_mset {α : Type} {b : Nat} {m : FMap α} (h : mAbove b m) {i : Nat} (hi : b < i) (v : α) :
    mAbove b (mset m i v) := by
  induction m with
  | nil => intro e he; simp [mset] at he; subst he; exact hi
  | cons e m ih =>
    obtain ⟨k, w⟩ := e
    have hm : mAbove b m := fun e he => h e (by simp [he])
    intro e he
    rw [mset] at he
    split at he
    · rcases List.mem_cons.mp he with rfl | he
      · exact hi
      · exact h e he
    · split at he
      · rcases List.mem_cons.mp he with rfl | he
        · exact hi
        · exact hm e he
      · rcases List.mem_cons.mp he with rfl | he
        · exact h _ (by simp)
        · exact ih hm e he

theorem mwf_mset {α : Type} {m : FMap α} (h : mwf m = true) (i : Nat) (v : α) : mwf (mset m i v) = true := by
  induction m with
  | nil => rfl
  | cons e m ih =>
    obtain ⟨k, w⟩ := e
    have ⟨ha, hw⟩ := (mwf_cons k w m).mp h
    rw [mset]
    split
    · rename_i hi
      exact (mwf_cons _ _ _).mpr ⟨fun e he => by
        rcases List.mem_cons.mp he with rfl | he
        · exact hi
        · exact Nat.lt_trans hi (ha e he), h⟩
    · split
      · rename_i hi; subst hi; exact (mwf_cons _ _ _).mpr ⟨ha, hw⟩
      · exact (mwf_cons _ _ _).mpr ⟨mAbove_mset ha (by omega) v, ih hw⟩

theorem mAbove_filter {α : Type} {b : Nat} {m : FMap α} (h : mAbove b m) (p : Nat × α → Bool) : mAbove b (m.filter p) :=
  fun e he => h e (List.mem_of_mem_filter he)

theorem mwf_filter {α : Type} {m : FMap α} (h : mwf m = true) (p : Nat × α → Bool) : mwf (m.filter p) = true := by
  induction m with
  | nil => rfl
  | cons e m ih =>
    obtain ⟨k, w⟩ := e
    have ⟨ha, hw⟩ := (mwf_cons k w m).mp h
    rw [List.filter_cons]
    split
    · exact (mwf_cons _ _ _).mpr ⟨mAbove_filter ha p, ih hw⟩
    · exact ih hw

theorem mwf_mkeep {α : Type} {m : FMap α} (h : mwf m = true) (f : Nat → α → Bool) : mwf (mkeep m f) = true := mwf_filter h _

theorem mwf_mmap {α : Type} {m : FMap α} (h : mwf m = true) (f : Nat → α → α) : mwf (mmap m f) = true := by
  induction m with
  | nil => rfl
  | cons e m ih =>
    obtain ⟨k, w⟩ := e
    have ⟨ha, hw⟩ := (mwf_cons k w m).mp h
    refine (mwf_cons _ _ _).mpr ⟨fun e he => ?_, ih hw⟩
    obtain ⟨e', he', rfl⟩ := List.mem_map.mp he
    exact ha e' he'

theorem mAbove_merase {α : Type} {b : Nat} {m : FMap α} (h : mAbove b m) (i : Nat) : mAbove b (merase m i) := by
  induction m with
  | nil => exact h
  | cons e m ih =>
    obtain ⟨k, w⟩ := e
    have hm : mAbove b m := fun e he => h e (by simp [he])
    rw [merase]
    split
    · exact hm
    · intro e he
      rcases List.mem_cons.mp he with rfl | he
      · exact h _ (by simp)
      · exact ih hm e he

theorem mwf_merase {α : Type} {m : FMap α} (h : mwf m = true) (i : Nat) : mwf (merase m i) = true := by
  induction m with
  | nil => rfl
  | cons e m ih =>
    obtain ⟨k, w⟩ := e
    have ⟨ha, hw⟩ := (mwf_cons k w m).mp h
    rw [merase]
    split
    · exact hw
    · exact (mwf_cons _ _ _).mpr ⟨mAbove_merase ha i, ih hw⟩

/-- A table read after a write. -/
theorem mget_mset_self {α : Type} (m : FMap α) (i : Nat) (v : α) : mget (mset m i v) i = some v := by
  induction m with
  | nil => simp [mset, mget]
  | cons e m ih =>
    obtain ⟨k, w⟩ := e
    rw [mset]
    split
    · simp [mget]
    · split
      · simp [mget]
      · rename_i h1 h2
        rw [mget, if_neg (by omega), ih]

theorem mget_mset_ne {α : Type} (m : FMap α) {i j : Nat} (v : α) (h : i ≠ j) : mget (mset m i v) j = mget m j := by
  induction m with
  | nil => simp [mset, mget, h]
  | cons e m ih =>
    obtain ⟨k, w⟩ := e
    rw [mset]
    split
    · rw [mget, if_neg h]
    · split
      · rename_i h2; subst h2; rw [mget, if_neg h, mget, if_neg h]
      · rw [mget, mget, ih]

@[simp] theorem mgetD_mset_self {α : Type} (m : FMap α) (i : Nat) (v d : α) : mgetD (mset m i v) i d = v := by
  rw [mgetD, mget_mset_self]; rfl

theorem mgetD_mset_ne {α : Type} (m : FMap α) {i j : Nat} (v d : α) (h : i ≠ j) : mgetD (mset m i v) j d = mgetD m j d := by
  rw [mgetD, mget_mset_ne m v h, mgetD]

/-! ### The stacks' bytes -/

/-- Every cell lies at `a` or above. -/
def memFrom (a : Nat) (m : List Host.Cell) : Prop := ∀ c ∈ m, a ≤ c.1

theorem memWf_cons (c : Host.Cell) (m : List Host.Cell) :
    Memory.wf (c :: m) = true ↔ c.2 ≠ memDefault ∧ memFrom (c.1 + 1) m ∧ Memory.wf m = true := by
  induction m generalizing c with
  | nil => simp [Memory.wf, memFrom]
  | cons d m ih =>
    rw [Memory.wf, Bool.and_eq_true, Bool.and_eq_true, decide_eq_true_eq, decide_eq_true_eq, ih]
    constructor
    · rintro ⟨⟨hc, h⟩, hd, ha, hw⟩
      refine ⟨hc, fun e he => ?_, hd, ha, hw⟩
      rcases List.mem_cons.mp he with rfl | he
      · exact h
      · exact Nat.le_trans (Nat.le_trans h (Nat.le_succ _)) (ha e he)
    · rintro ⟨hc, h, hd, ha, hw⟩
      exact ⟨⟨hc, h d (by simp)⟩, hd, ha, hw⟩

theorem memWf_filter {m : List Host.Cell} (h : Memory.wf m = true) (p : Host.Cell → Bool) : Memory.wf (m.filter p) = true := by
  induction m with
  | nil => rfl
  | cons c m ih =>
    have ⟨hc, ha, hw⟩ := (memWf_cons c m).mp h
    rw [List.filter_cons]
    split
    · exact (memWf_cons _ _).mpr ⟨hc, fun e he => ha e (List.mem_of_mem_filter he), ih hw⟩
    · exact ih hw

theorem memFrom_cellsOf (a : Nat) (l : List Byte) : ∀ c ∈ cellsOf a l, a ≤ c.1 ∧ c.1 < a + l.length := by
  induction l generalizing a with
  | nil => intro c hc; simp [cellsOf] at hc
  | cons b l ih =>
    intro c hc
    rw [cellsOf] at hc
    simp only [List.length_cons]
    split at hc
    · have := ih (a + 1) c hc; omega
    · rcases List.mem_cons.mp hc with rfl | hc
      · simp
      · have := ih (a + 1) c hc; omega

theorem memWf_cellsOf (a : Nat) (l : List Byte) : Memory.wf (cellsOf a l) = true := by
  induction l generalizing a with
  | nil => rfl
  | cons b l ih =>
    rw [cellsOf]
    split
    · exact ih _
    · rename_i hb
      exact (memWf_cons _ _).mpr ⟨hb, fun c hc => (memFrom_cellsOf (a + 1) l c hc).1, ih _⟩

theorem memWf_append {m n : List Host.Cell} (hm : Memory.wf m = true) (hn : Memory.wf n = true)
    (h : ∀ c ∈ m, ∀ d ∈ n, c.1 < d.1) : Memory.wf (m ++ n) = true := by
  induction m with
  | nil => exact hn
  | cons c m ih =>
    have ⟨hc, ha, hw⟩ := (memWf_cons c m).mp hm
    refine (memWf_cons _ _).mpr ⟨hc, fun e he => ?_, ih hw fun c hc d hd => h c (by simp [hc]) d hd⟩
    rcases List.mem_append.mp he with he | he
    · exact ha e he
    · exact h c (by simp) e he

/-- A write keeps the canonical form. -/
theorem memWf_writeMem {m : List Host.Cell} (h : Memory.wf m = true) (a : Nat) (l : List Byte) :
    Memory.wf (writeMem m a l) = true := by
  refine memWf_append (memWf_append (memWf_filter h _) (memWf_cellsOf a l) ?_) (memWf_filter h _) ?_
  · intro c hc d hd
    have h1 : c.1 < a := by simpa using (List.mem_filter.mp hc).2
    exact Nat.lt_of_lt_of_le h1 (memFrom_cellsOf a l d hd).1
  · intro c hc d hd
    have h2 : a + l.length ≤ d.1 := by simpa using (List.mem_filter.mp hd).2
    rcases List.mem_append.mp hc with hc | hc
    · have h1 : c.1 < a := by simpa using (List.mem_filter.mp hc).2
      omega
    · have := (memFrom_cellsOf a l c hc).2; omega

end Sys2Proof.Machine
end

