-- ==== Sys2Proof/Laws/Kept.lean ====
section
/-!
SUPPORT. Laws/Kept.lean: `Kept W s₀ s` says once what a piece of a command may do: the queue stands, a sound state stays
sound, and every part outside `W` holds what it held. One lemma for each way a meaning is put together.
-/
namespace Sys2Proof.Machine

/-- From `s₀` to `s` only the parts of `W` may have changed, and soundness is kept. -/
structure Kept (W : Part → Prop) (s₀ s : State) : Prop where
  queue : s.pending = s₀.pending
  sound : s₀.Sound → s.Sound
  same : ∀ p, ¬ W p → State.sameIn p s₀ s

/-- The same of the state that an update may give. -/
structure KeptO (W : Part → Prop) (s₀ : State) (o : Option State) : Prop where
  get_ : ∀ t, o = some t → Kept W s₀ t
/-- A command answers a next state, and the same holds of it. -/
def KeptX (W : Part → Prop) (s₀ : State) (o : Host.Outcome State Fault Refusal) : Prop := ∃ t, o = .next t ∧ Kept W s₀ t

variable {W : Part → Prop} {s₀ s t : State}

theorem State.sameIn_refl (p : Part) (s : State) : State.sameIn p s s := by cases p <;> rfl
theorem State.sameIn_trans {p : Part} {s t u : State} (h : State.sameIn p s t) (g : State.sameIn p t u) :
    State.sameIn p s u := by
  cases p <;> exact Eq.trans g h

theorem Kept.refl (W : Part → Prop) (s : State) : Kept W s s := ⟨rfl, id, fun p _ => State.sameIn_refl p s⟩
theorem Kept.trans {u : State} (h : Kept W s₀ s) (g : Kept W s u) : Kept W s₀ u :=
  ⟨g.queue.trans h.queue, g.sound ∘ h.sound, fun p hp => State.sameIn_trans (h.same p hp) (g.same p hp)⟩
/-- Only the parts written count. -/
theorem Kept.mono {V : Part → Prop} (h : Kept V s₀ s) (hv : ∀ p, V p → W p) : Kept W s₀ s :=
  ⟨h.queue, h.sound, fun p hp => h.same p (fun q => hp (hv p q))⟩

theorem Kept.ite {c : Prop} [Decidable c] (h : c → Kept W s₀ s) (g : ¬ c → Kept W s₀ t) :
    Kept W s₀ (if c then s else t) := by
  split
  · exact h ‹_›
  · exact g ‹_›
theorem KeptO.ite {c : Prop} [Decidable c] {o p : Option State} (h : c → KeptO W s₀ o) (g : ¬ c → KeptO W s₀ p) :
    KeptO W s₀ (if c then o else p) := by
  split
  · exact h ‹_›
  · exact g ‹_›
theorem KeptX.ite {c : Prop} [Decidable c] {o p : Host.Outcome State Fault Refusal} (h : c → KeptX W s₀ o)
    (g : ¬ c → KeptX W s₀ p) : KeptX W s₀ (if c then o else p) := by
  split
  · exact h ‹_›
  · exact g ‹_›
/-- A value that a meaning names and goes on from. -/
theorem Kept.cut {P : Prop} (h : Kept W s₀ s) (g : Kept W s₀ s → P) : P := g h
theorem KeptO.some (h : Kept W s₀ s) : KeptO W s₀ (.some s) := ⟨fun _ e => Option.some.inj e ▸ h⟩
theorem KeptO.none : KeptO W s₀ .none := ⟨fun _ e => nomatch e⟩
theorem KeptO.get {o : Option State} (h : KeptO W s₀ o) (e : o = .some t) : Kept W s₀ t := h.get_ t e
theorem KeptX.next (h : Kept W s₀ s) : KeptX W s₀ (.next s) := ⟨s, rfl, h⟩
theorem Kept.snd {α : Type} {p : α × State} {a : α} (e : p = (a, t)) (h : Kept W s₀ p.2) : Kept W s₀ t := by
  subst e; exact h
theorem Kept.fst {α : Type} {p : State × α} {a : α} (e : p = (t, a)) (h : Kept W s₀ p.1) : Kept W s₀ t := by
  subst e; exact h
theorem Kept.foldl {α : Type} {l : List α} {f : State → α → State} (h : Kept W s₀ s)
    (hf : ∀ t x, Kept W s₀ t → Kept W s₀ (f t x)) : Kept W s₀ (l.foldl f s) := by
  induction l generalizing s with
  | nil => exact h
  | cons x l ih => exact ih (hf s x h)
theorem Kept.each {α : Type} {l : List α} {f : State → α → State} (h : Kept W s₀ s)
    (hf : ∀ t x, Kept W s₀ t → Kept W s₀ (f t x)) : Kept W s₀ (s.each l f) := Kept.foldl h hf
theorem Kept.foldl_fst {α β : Type} {l : List α} {f : State × β → α → State × β} {p : State × β} (h : Kept W s₀ p.1)
    (hf : ∀ p x, Kept W s₀ p.1 → Kept W s₀ (f p x).1) : Kept W s₀ (l.foldl f p).1 := by
  induction l generalizing p with
  | nil => exact h
  | cons x l ih => exact ih (hf p x h)
theorem Kept.foldl_snd {α β : Type} {l : List α} {f : β × State → α → β × State} {p : β × State} (h : Kept W s₀ p.2)
    (hf : ∀ p x, Kept W s₀ p.2 → Kept W s₀ (f p x).2) : Kept W s₀ (l.foldl f p).2 := by
  induction l generalizing p with
  | nil => exact h
  | cons x l ih => exact ih (hf p x h)
theorem KeptO.foldlM {α : Type} {l : List α} {f : State → α → Option State} (h : Kept W s₀ s)
    (hf : ∀ t x, Kept W s₀ t → KeptO W s₀ (f t x)) : KeptO W s₀ (l.foldlM f s) := by
  induction l generalizing s with
  | nil => exact KeptO.some h
  | cons x l ih =>
    refine ⟨fun t e => ?_⟩
    rw [List.foldlM_cons] at e
    cases hs : f s x with
    | none => rw [hs] at e; cases e
    | some u => rw [hs] at e; exact (ih ((hf s x h).get_ u hs)).get_ t e
theorem KeptO.foldlO {α : Type} {l : List α} {f : Option State → α → Option State} {o : Option State} (h : KeptO W s₀ o)
    (hf : ∀ o x, KeptO W s₀ o → KeptO W s₀ (f o x)) : KeptO W s₀ (l.foldl f o) := by
  induction l generalizing o with
  | nil => exact h
  | cons x l ih => exact ih (hf o x h)

/-! ### Writing one part -/

/-- A state that agrees with `s` outside the parts it may write, and is sound where `s` is. -/
theorem Kept.upd (h : Kept W s₀ s) (hq : t.pending = s.pending) (hs : s.Sound → t.Sound)
    (hp : ∀ p, ¬ W p → State.sameIn p s t) : Kept W s₀ t := h.trans ⟨hq, hs, hp⟩

theorem Kept.set_boot (h : Kept W s₀ s) (w : W .boot) {v : Boot} (hv : s.boot.Legal → v.Legal) :
    Kept W s₀ { s with boot := v } :=
  h.upd rfl (fun g => ⟨hv g.legal, g.mem, g.slices, g.ctxs, g.branches, g.pctr, g.engCtr, g.slcCtr, g.ctxCtr, g.sram⟩) (fun p hp => by cases p <;> first | rfl | exact absurd w hp)
theorem Kept.set_win (h : Kept W s₀ s) (w : W .win) (v : Window) : Kept W s₀ { s with win := v } :=
  h.upd rfl (fun g => ⟨g.legal, g.mem, g.slices, g.ctxs, g.branches, g.pctr, g.engCtr, g.slcCtr, g.ctxCtr, g.sram⟩) (fun p hp => by cases p <;> first | rfl | exact absurd w hp)
theorem Kept.set_link (h : Kept W s₀ s) (w : W .link) (v : Link) : Kept W s₀ { s with link := v } :=
  h.upd rfl (fun g => ⟨g.legal, g.mem, g.slices, g.ctxs, g.branches, g.pctr, g.engCtr, g.slcCtr, g.ctxCtr, g.sram⟩) (fun p hp => by cases p <;> first | rfl | exact absurd w hp)
theorem Kept.set_frames (h : Kept W s₀ s) (w : W .frames) (v : Frames) : Kept W s₀ { s with frames := v } :=
  h.upd rfl (fun g => ⟨g.legal, g.mem, g.slices, g.ctxs, g.branches, g.pctr, g.engCtr, g.slcCtr, g.ctxCtr, g.sram⟩) (fun p hp => by cases p <;> first | rfl | exact absurd w hp)
theorem Kept.set_fab (h : Kept W s₀ s) (w : W .fab) (v : Fabric) : Kept W s₀ { s with fab := v } :=
  h.upd rfl (fun g => ⟨g.legal, g.mem, g.slices, g.ctxs, g.branches, g.pctr, g.engCtr, g.slcCtr, g.ctxCtr, g.sram⟩) (fun p hp => by cases p <;> first | rfl | exact absurd w hp)
theorem Kept.set_power (h : Kept W s₀ s) (w : W .power) (v : Power) : Kept W s₀ { s with power := v } :=
  h.upd rfl (fun g => ⟨g.legal, g.mem, g.slices, g.ctxs, g.branches, g.pctr, g.engCtr, g.slcCtr, g.ctxCtr, g.sram⟩) (fun p hp => by cases p <;> first | rfl | exact absurd w hp)
theorem Kept.set_health (h : Kept W s₀ s) (w : W .health) (v : Health) : Kept W s₀ { s with health := v } :=
  h.upd rfl (fun g => ⟨g.legal, g.mem, g.slices, g.ctxs, g.branches, g.pctr, g.engCtr, g.slcCtr, g.ctxCtr, g.sram⟩) (fun p hp => by cases p <;> first | rfl | exact absurd w hp)
theorem Kept.set_slices (h : Kept W s₀ s) (w : W .slices) {v : FMap Slice} (hv : mwf s.slices = true → mwf v = true) :
    Kept W s₀ { s with slices := v } :=
  h.upd rfl (fun g => ⟨g.legal, g.mem, hv g.slices, g.ctxs, g.branches, g.pctr, g.engCtr, g.slcCtr, g.ctxCtr, g.sram⟩) (fun p hp => by cases p <;> first | rfl | exact absurd w hp)
theorem Kept.set_ctxs (h : Kept W s₀ s) (w : W .ctxs) {v : FMap Ctx} (hv : mwf s.ctxs = true → mwf v = true) :
    Kept W s₀ { s with ctxs := v } :=
  h.upd rfl (fun g => ⟨g.legal, g.mem, g.slices, hv g.ctxs, g.branches, g.pctr, g.engCtr, g.slcCtr, g.ctxCtr, g.sram⟩) (fun p hp => by cases p <;> first | rfl | exact absurd w hp)
theorem Kept.set_branches (h : Kept W s₀ s) (w : W .branches) {v : FMap Branch} (hv : mwf s.branches = true → mwf v = true) :
    Kept W s₀ { s with branches := v } :=
  h.upd rfl (fun g => ⟨g.legal, g.mem, g.slices, g.ctxs, hv g.branches, g.pctr, g.engCtr, g.slcCtr, g.ctxCtr, g.sram⟩) (fun p hp => by cases p <;> first | rfl | exact absurd w hp)
theorem Kept.set_pctr (h : Kept W s₀ s) (w : W .pctr) {v : FMap Word} (hv : mwf s.pctr = true → mwf v = true) :
    Kept W s₀ { s with pctr := v } :=
  h.upd rfl (fun g => ⟨g.legal, g.mem, g.slices, g.ctxs, g.branches, hv g.pctr, g.engCtr, g.slcCtr, g.ctxCtr, g.sram⟩) (fun p hp => by cases p <;> first | rfl | exact absurd w hp)
theorem Kept.set_poison (h : Kept W s₀ s) (w : W .poison) (v : List Nat) : Kept W s₀ { s with poison := v } :=
  h.upd rfl (fun g => ⟨g.legal, g.mem, g.slices, g.ctxs, g.branches, g.pctr, g.engCtr, g.slcCtr, g.ctxCtr, g.sram⟩) (fun p hp => by cases p <;> first | rfl | exact absurd w hp)
theorem Kept.set_engCtr (h : Kept W s₀ s) (w : W .engCtr) {v : FMap Word} (hv : mwf s.engCtr = true → mwf v = true) :
    Kept W s₀ { s with engCtr := v } :=
  h.upd rfl (fun g => ⟨g.legal, g.mem, g.slices, g.ctxs, g.branches, g.pctr, hv g.engCtr, g.slcCtr, g.ctxCtr, g.sram⟩) (fun p hp => by cases p <;> first | rfl | exact absurd w hp)
theorem Kept.set_slcCtr (h : Kept W s₀ s) (w : W .slcCtr) {v : FMap Word} (hv : mwf s.slcCtr = true → mwf v = true) :
    Kept W s₀ { s with slcCtr := v } :=
  h.upd rfl (fun g => ⟨g.legal, g.mem, g.slices, g.ctxs, g.branches, g.pctr, g.engCtr, hv g.slcCtr, g.ctxCtr, g.sram⟩) (fun p hp => by cases p <;> first | rfl | exact absurd w hp)
theorem Kept.set_ctxCtr (h : Kept W s₀ s) (w : W .ctxCtr) {v : FMap Word} (hv : mwf s.ctxCtr = true → mwf v = true) :
    Kept W s₀ { s with ctxCtr := v } :=
  h.upd rfl (fun g => ⟨g.legal, g.mem, g.slices, g.ctxs, g.branches, g.pctr, g.engCtr, g.slcCtr, hv g.ctxCtr, g.sram⟩) (fun p hp => by cases p <;> first | rfl | exact absurd w hp)
theorem Kept.set_sram (h : Kept W s₀ s) (w : W .sram) {v : FMap RawWord} (hv : mwf s.sram = true → mwf v = true) :
    Kept W s₀ { s with sram := v } :=
  h.upd rfl (fun g => ⟨g.legal, g.mem, g.slices, g.ctxs, g.branches, g.pctr, g.engCtr, g.slcCtr, g.ctxCtr, hv g.sram⟩) (fun p hp => by cases p <;> first | rfl | exact absurd w hp)
theorem Kept.set_mem (h : Kept W s₀ s) (w : W .mem) {v : List Host.Cell} (hv : Memory.wf s.mem = true → Memory.wf v = true) :
    Kept W s₀ { s with mem := v } :=
  h.upd rfl (fun g => ⟨g.legal, hv g.mem, g.slices, g.ctxs, g.branches, g.pctr, g.engCtr, g.slcCtr, g.ctxCtr, g.sram⟩) (fun p hp => by cases p <;> first | rfl | exact absurd w hp)
theorem Kept.set_freeIdx (h : Kept W s₀ s) (w : W .freeIdx) (v : Nat) : Kept W s₀ { s with freeIdx := v } :=
  h.upd rfl (fun g => ⟨g.legal, g.mem, g.slices, g.ctxs, g.branches, g.pctr, g.engCtr, g.slcCtr, g.ctxCtr, g.sram⟩) (fun p hp => by cases p <;> first | rfl | exact absurd w hp)
theorem Kept.set_win_frames_fab_power (h : Kept W s₀ s) (w0 : W .win) (w1 : W .frames) (w2 : W .fab) (w3 : W .power) {v0 : Window} {v1 : Frames} {v2 : Fabric} {v3 : Power}  :
    Kept W s₀ { s with win := v0, frames := v1, fab := v2, power := v3 } :=
  h.upd rfl (fun g => ⟨g.legal, g.mem, g.slices, g.ctxs, g.branches, g.pctr, g.engCtr, g.slcCtr, g.ctxCtr, g.sram⟩) (fun p hp => by cases p <;> first | rfl | exact absurd w0 hp | exact absurd w1 hp | exact absurd w2 hp | exact absurd w3 hp)
theorem Kept.set_fab_health (h : Kept W s₀ s) (w0 : W .fab) (w1 : W .health) {v0 : Fabric} {v1 : Health}  :
    Kept W s₀ { s with fab := v0, health := v1 } :=
  h.upd rfl (fun g => ⟨g.legal, g.mem, g.slices, g.ctxs, g.branches, g.pctr, g.engCtr, g.slcCtr, g.ctxCtr, g.sram⟩) (fun p hp => by cases p <;> first | rfl | exact absurd w0 hp | exact absurd w1 hp)
theorem Kept.set_fab_slices (h : Kept W s₀ s) (w0 : W .fab) (w1 : W .slices) {v0 : Fabric} {v1 : FMap Slice} (hv : mwf s.slices = true → mwf v1 = true) :
    Kept W s₀ { s with fab := v0, slices := v1 } :=
  h.upd rfl (fun g => ⟨g.legal, g.mem, hv g.slices, g.ctxs, g.branches, g.pctr, g.engCtr, g.slcCtr, g.ctxCtr, g.sram⟩) (fun p hp => by cases p <;> first | rfl | exact absurd w0 hp | exact absurd w1 hp)
theorem Kept.set_frames_slices (h : Kept W s₀ s) (w0 : W .frames) (w1 : W .slices) {v0 : Frames} {v1 : FMap Slice} (hv : mwf s.slices = true → mwf v1 = true) :
    Kept W s₀ { s with frames := v0, slices := v1 } :=
  h.upd rfl (fun g => ⟨g.legal, g.mem, hv g.slices, g.ctxs, g.branches, g.pctr, g.engCtr, g.slcCtr, g.ctxCtr, g.sram⟩) (fun p hp => by cases p <;> first | rfl | exact absurd w0 hp | exact absurd w1 hp)
theorem Kept.set_link_frames_fab_ctxs (h : Kept W s₀ s) (w0 : W .link) (w1 : W .frames) (w2 : W .fab) (w3 : W .ctxs) {v0 : Link} {v1 : Frames} {v2 : Fabric} {v3 : FMap Ctx} (hv : mwf s.ctxs = true → mwf v3 = true) :
    Kept W s₀ { s with link := v0, frames := v1, fab := v2, ctxs := v3 } :=
  h.upd rfl (fun g => ⟨g.legal, g.mem, g.slices, hv g.ctxs, g.branches, g.pctr, g.engCtr, g.slcCtr, g.ctxCtr, g.sram⟩) (fun p hp => by cases p <;> first | rfl | exact absurd w0 hp | exact absurd w1 hp | exact absurd w2 hp | exact absurd w3 hp)

end Sys2Proof.Machine
end

