-- ==== Sys2Proof/Laws/KeptOps.lean ====
section
/-!
SUPPORT. Laws/KeptOps.lean: what each operation of State, Ops, Ecc, Calib, Window, Boot, Copies, Command may change (`Kept`).
-/
namespace Sys2Proof.Machine
set_option linter.unreachableTactic false
set_option linter.unusedTactic false
set_option linter.tactic.unusedName false

variable {W : Part → Prop} {s₀ s t : State}

theorem Kept.count (h : Kept W s₀ s) (_ : W .engCtr) (a1 a2) : Kept W s₀ (State.count s a1 a2) := by
  unfold State.count
  repeat' first
    | with_reducible assumption
    | with_reducible apply Kept.ite
    | with_reducible apply Kept.foldl
    | with_reducible apply Kept.foldl_fst
    | intro _
    | (extract_lets +onlyGivenNames x; with_reducible refine Kept.cut (W := W) (s₀ := s₀) (s := x) ?_ (fun _ => ?_); (on_goal 1 => subst x); on_goal 2 => clear_value x)
    | (extract_lets +onlyGivenNames x; subst x)
    | split
    | with_reducible apply Kept.set_engCtr
    | with_reducible apply mwf_mset
    | with_reducible apply mwf_merase
    | with_reducible apply mwf_mkeep
    | with_reducible apply mwf_mmap

theorem Kept.countCtx (h : Kept W s₀ s) (_ : W .ctxCtr) (a1 a2 a3) : Kept W s₀ (State.countCtx s a1 a2 a3) := by
  unfold State.countCtx
  repeat' first
    | with_reducible assumption
    | with_reducible apply Kept.ite
    | with_reducible apply Kept.foldl
    | with_reducible apply Kept.foldl_fst
    | intro _
    | (extract_lets +onlyGivenNames x; with_reducible refine Kept.cut (W := W) (s₀ := s₀) (s := x) ?_ (fun _ => ?_); (on_goal 1 => subst x); on_goal 2 => clear_value x)
    | (extract_lets +onlyGivenNames x; subst x)
    | split
    | with_reducible apply Kept.set_ctxCtr
    | with_reducible apply mwf_mset
    | with_reducible apply mwf_merase
    | with_reducible apply mwf_mkeep
    | with_reducible apply mwf_mmap

theorem Kept.countPeel (h : Kept W s₀ s) (_ : W .engCtr) (a1 a2 a3) : Kept W s₀ (State.countPeel s a1 a2 a3) := by
  unfold State.countPeel
  repeat' first
    | with_reducible assumption
    | with_reducible apply Kept.ite
    | with_reducible apply Kept.count
    | with_reducible apply Kept.foldl
    | with_reducible apply Kept.foldl_fst
    | intro _
    | (extract_lets +onlyGivenNames x; with_reducible refine Kept.cut (W := W) (s₀ := s₀) (s := x) ?_ (fun _ => ?_); (on_goal 1 => subst x); on_goal 2 => clear_value x)
    | (extract_lets +onlyGivenNames x; subst x)
    | split

theorem Kept.countSlice (h : Kept W s₀ s) (_ : W .slcCtr) (a1 a2 a3) : Kept W s₀ (State.countSlice s a1 a2 a3) := by
  unfold State.countSlice
  repeat' first
    | with_reducible assumption
    | with_reducible apply Kept.ite
    | with_reducible apply Kept.foldl
    | with_reducible apply Kept.foldl_fst
    | intro _
    | (extract_lets +onlyGivenNames x; with_reducible refine Kept.cut (W := W) (s₀ := s₀) (s := x) ?_ (fun _ => ?_); (on_goal 1 => subst x); on_goal 2 => clear_value x)
    | (extract_lets +onlyGivenNames x; subst x)
    | split
    | with_reducible apply Kept.set_slcCtr
    | with_reducible apply mwf_mset
    | with_reducible apply mwf_merase
    | with_reducible apply mwf_mkeep
    | with_reducible apply mwf_mmap

theorem Kept.emit (h : Kept W s₀ s) (_ : W .link) (_ : W .engCtr) (a1 a2 a3 a4) : Kept W s₀ (State.emit s a1 a2 a3 a4) := by
  unfold State.emit
  repeat' first
    | with_reducible assumption
    | with_reducible apply Kept.ite
    | with_reducible apply Kept.count
    | with_reducible apply Kept.foldl
    | with_reducible apply Kept.foldl_fst
    | intro _
    | (extract_lets +onlyGivenNames x; with_reducible refine Kept.cut (W := W) (s₀ := s₀) (s := x) ?_ (fun _ => ?_); (on_goal 1 => subst x); on_goal 2 => clear_value x)
    | (extract_lets +onlyGivenNames x; subst x)
    | split
    | with_reducible apply Kept.set_link

theorem Kept.reply (h : Kept W s₀ s) (_ : W .link) (a1 a2 a3 a4 a5 a6) : Kept W s₀ (State.reply s a1 a2 a3 a4 a5 a6) := by
  unfold State.reply
  repeat' first
    | with_reducible assumption
    | with_reducible apply Kept.ite
    | with_reducible apply Kept.foldl
    | with_reducible apply Kept.foldl_fst
    | intro _
    | (extract_lets +onlyGivenNames x; with_reducible refine Kept.cut (W := W) (s₀ := s₀) (s := x) ?_ (fun _ => ?_); (on_goal 1 => subst x); on_goal 2 => clear_value x)
    | (extract_lets +onlyGivenNames x; subst x)
    | split
    | with_reducible apply Kept.set_link

theorem Kept.settle (h : Kept W s₀ s) (_ : W .link) (a1 a2 a3 a4) : Kept W s₀ (State.settle s a1 a2 a3 a4) := by
  unfold State.settle
  repeat' first
    | with_reducible assumption
    | with_reducible apply Kept.ite
    | with_reducible apply Kept.reply
    | with_reducible apply Kept.foldl
    | with_reducible apply Kept.foldl_fst
    | intro _
    | (extract_lets +onlyGivenNames x; with_reducible refine Kept.cut (W := W) (s₀ := s₀) (s := x) ?_ (fun _ => ?_); (on_goal 1 => subst x); on_goal 2 => clear_value x)
    | (extract_lets +onlyGivenNames x; subst x)
    | split
    | with_reducible apply Kept.set_link

theorem Kept.finish (h : Kept W s₀ s) (_ : W .link) (a1 a2 a3 a4) : Kept W s₀ (State.finish s a1 a2 a3 a4) := by
  unfold State.finish
  repeat' first
    | with_reducible assumption
    | with_reducible apply Kept.ite
    | with_reducible apply Kept.settle
    | with_reducible apply Kept.foldl
    | with_reducible apply Kept.foldl_fst
    | intro _
    | (extract_lets +onlyGivenNames x; with_reducible refine Kept.cut (W := W) (s₀ := s₀) (s := x) ?_ (fun _ => ?_); (on_goal 1 => subst x); on_goal 2 => clear_value x)
    | (extract_lets +onlyGivenNames x; subst x)
    | split
    | with_reducible apply Kept.set_link

theorem Kept.free (h : Kept W s₀ s) (_ : W .freeIdx) : Kept W s₀ s.free.2 := Kept.set_freeIdx h ‹_› _

theorem Kept.freeTile (h : Kept W s₀ s) (_ : W .freeIdx) : Kept W s₀ s.freeTile.2 := Kept.set_freeIdx h ‹_› _

theorem Kept.modSlice (h : Kept W s₀ s) (_ : W .slices) (a1 a2) : Kept W s₀ (State.modSlice s a1 a2) := by
  unfold State.modSlice
  repeat' first
    | with_reducible assumption
    | with_reducible apply Kept.ite
    | with_reducible apply Kept.foldl
    | with_reducible apply Kept.foldl_fst
    | intro _
    | (extract_lets +onlyGivenNames x; with_reducible refine Kept.cut (W := W) (s₀ := s₀) (s := x) ?_ (fun _ => ?_); (on_goal 1 => subst x); on_goal 2 => clear_value x)
    | (extract_lets +onlyGivenNames x; subst x)
    | split
    | with_reducible apply Kept.set_slices
    | with_reducible apply mwf_mset
    | with_reducible apply mwf_merase
    | with_reducible apply mwf_mkeep
    | with_reducible apply mwf_mmap

theorem Kept.hold (h : Kept W s₀ s) (_ : W .slices) (a1 a2 a3) : Kept W s₀ (State.hold s a1 a2 a3) := by
  unfold State.hold
  repeat' first
    | with_reducible assumption
    | with_reducible apply Kept.ite
    | with_reducible apply Kept.modSlice
    | with_reducible apply Kept.foldl
    | with_reducible apply Kept.foldl_fst
    | intro _
    | (extract_lets +onlyGivenNames x; with_reducible refine Kept.cut (W := W) (s₀ := s₀) (s := x) ?_ (fun _ => ?_); (on_goal 1 => subst x); on_goal 2 => clear_value x)
    | (extract_lets +onlyGivenNames x; subst x)
    | split

theorem Kept.holdTile (h : Kept W s₀ s) (_ : W .slices) (a1 a2 a3) : Kept W s₀ (State.holdTile s a1 a2 a3) := by
  unfold State.holdTile
  repeat' first
    | with_reducible assumption
    | with_reducible apply Kept.ite
    | with_reducible apply Kept.hold
    | with_reducible apply Kept.foldl
    | with_reducible apply Kept.foldl_fst
    | intro _
    | (extract_lets +onlyGivenNames x; with_reducible refine Kept.cut (W := W) (s₀ := s₀) (s := x) ?_ (fun _ => ?_); (on_goal 1 => subst x); on_goal 2 => clear_value x)
    | (extract_lets +onlyGivenNames x; subst x)
    | split

theorem Kept.modAdm (h : Kept W s₀ s) (_ : W .link) (a1 a2 a3) : Kept W s₀ (State.modAdm s a1 a2 a3) := by
  unfold State.modAdm
  repeat' first
    | with_reducible assumption
    | with_reducible apply Kept.ite
    | with_reducible apply Kept.foldl
    | with_reducible apply Kept.foldl_fst
    | intro _
    | (extract_lets +onlyGivenNames x; with_reducible refine Kept.cut (W := W) (s₀ := s₀) (s := x) ?_ (fun _ => ?_); (on_goal 1 => subst x); on_goal 2 => clear_value x)
    | (extract_lets +onlyGivenNames x; subst x)
    | split
    | with_reducible apply Kept.set_link

theorem Kept.modCtx (h : Kept W s₀ s) (_ : W .ctxs) (a1 a2) : Kept W s₀ (State.modCtx s a1 a2) := by
  unfold State.modCtx
  repeat' first
    | with_reducible assumption
    | with_reducible apply Kept.ite
    | with_reducible apply Kept.foldl
    | with_reducible apply Kept.foldl_fst
    | intro _
    | (extract_lets +onlyGivenNames x; with_reducible refine Kept.cut (W := W) (s₀ := s₀) (s := x) ?_ (fun _ => ?_); (on_goal 1 => subst x); on_goal 2 => clear_value x)
    | (extract_lets +onlyGivenNames x; subst x)
    | split
    | with_reducible apply Kept.set_ctxs
    | with_reducible apply mwf_mset
    | with_reducible apply mwf_merase
    | with_reducible apply mwf_mkeep
    | with_reducible apply mwf_mmap

theorem Kept.modPeel (h : Kept W s₀ s) (_ : W .fab) (a1 a2) : Kept W s₀ (State.modPeel s a1 a2) := by
  unfold State.modPeel
  repeat' first
    | with_reducible assumption
    | with_reducible apply Kept.ite
    | with_reducible apply Kept.foldl
    | with_reducible apply Kept.foldl_fst
    | intro _
    | (extract_lets +onlyGivenNames x; with_reducible refine Kept.cut (W := W) (s₀ := s₀) (s := x) ?_ (fun _ => ?_); (on_goal 1 => subst x); on_goal 2 => clear_value x)
    | (extract_lets +onlyGivenNames x; subst x)
    | split
    | with_reducible apply Kept.set_fab

theorem Kept.modTile (h : Kept W s₀ s) (_ : W .ctxs) (a1 a2 a3) : Kept W s₀ (State.modTile s a1 a2 a3) := by
  unfold State.modTile
  repeat' first
    | with_reducible assumption
    | with_reducible apply Kept.ite
    | with_reducible apply Kept.modCtx
    | with_reducible apply Kept.foldl
    | with_reducible apply Kept.foldl_fst
    | intro _
    | (extract_lets +onlyGivenNames x; with_reducible refine Kept.cut (W := W) (s₀ := s₀) (s := x) ?_ (fun _ => ?_); (on_goal 1 => subst x); on_goal 2 => clear_value x)
    | (extract_lets +onlyGivenNames x; subst x)
    | split

theorem Kept.setCtxValue (h : Kept W s₀ s) (_ : W .ctxCtr) (a1 a2 a3) : Kept W s₀ (State.setCtxValue s a1 a2 a3) := by
  unfold State.setCtxValue
  repeat' first
    | with_reducible assumption
    | with_reducible apply Kept.ite
    | with_reducible apply Kept.foldl
    | with_reducible apply Kept.foldl_fst
    | intro _
    | (extract_lets +onlyGivenNames x; with_reducible refine Kept.cut (W := W) (s₀ := s₀) (s := x) ?_ (fun _ => ?_); (on_goal 1 => subst x); on_goal 2 => clear_value x)
    | (extract_lets +onlyGivenNames x; subst x)
    | split
    | with_reducible apply Kept.set_ctxCtr
    | with_reducible apply mwf_mset
    | with_reducible apply mwf_merase
    | with_reducible apply mwf_mkeep
    | with_reducible apply mwf_mmap

theorem Kept.peakCtx (h : Kept W s₀ s) (_ : W .ctxCtr) (a1 a2 a3) : Kept W s₀ (State.peakCtx s a1 a2 a3) := by
  unfold State.peakCtx
  repeat' first
    | with_reducible assumption
    | with_reducible apply Kept.ite
    | with_reducible apply Kept.setCtxValue
    | with_reducible apply Kept.foldl
    | with_reducible apply Kept.foldl_fst
    | intro _
    | (extract_lets +onlyGivenNames x; with_reducible refine Kept.cut (W := W) (s₀ := s₀) (s := x) ?_ (fun _ => ?_); (on_goal 1 => subst x); on_goal 2 => clear_value x)
    | (extract_lets +onlyGivenNames x; subst x)
    | split

theorem Kept.serve (h : Kept W s₀ s) (_ : W .slices) (_ : W .slcCtr) (a1 a2 a3) : Kept W s₀ (State.serve s a1 a2 a3) := by
  unfold State.serve
  repeat' first
    | with_reducible assumption
    | with_reducible apply Kept.ite
    | with_reducible apply Kept.modSlice
    | with_reducible apply Kept.countSlice
    | with_reducible apply Kept.foldl
    | with_reducible apply Kept.foldl_fst
    | intro _
    | (extract_lets +onlyGivenNames x; with_reducible refine Kept.cut (W := W) (s₀ := s₀) (s := x) ?_ (fun _ => ?_); (on_goal 1 => subst x); on_goal 2 => clear_value x)
    | (extract_lets +onlyGivenNames x; subst x)
    | split

theorem Kept.serveTile (h : Kept W s₀ s) (_ : W .slices) (_ : W .slcCtr) (a1 a2 a3 a4) : Kept W s₀ (State.serveTile s a1 a2 a3 a4) := by
  unfold State.serveTile
  repeat' first
    | with_reducible assumption
    | with_reducible apply Kept.ite
    | with_reducible apply Kept.serve
    | with_reducible apply Kept.foldl
    | with_reducible apply Kept.foldl_fst
    | intro _
    | (extract_lets +onlyGivenNames x; with_reducible refine Kept.cut (W := W) (s₀ := s₀) (s := x) ?_ (fun _ => ?_); (on_goal 1 => subst x); on_goal 2 => clear_value x)
    | (extract_lets +onlyGivenNames x; subst x)
    | split

theorem Kept.writeBytes (h : Kept W s₀ s) (_ : W .slices) (_ : W .mem) (i b l) : Kept W s₀ (s.writeBytes i b l) := by
  unfold State.writeBytes
  dsimp only
  split
  · exact h.set_mem ‹_› fun g => memWf_writeMem g _ _
  · exact (h.modSlice ‹_› _ _).set_mem ‹_› fun g => memWf_writeMem (m := s.mem) g _ _

theorem Kept.writeTile (h : Kept W s₀ s) (_ : W .slices) (_ : W .mem) (a1 a2 a3) : Kept W s₀ (State.writeTile s a1 a2 a3) := by
  unfold State.writeTile
  repeat' first
    | with_reducible assumption
    | with_reducible apply Kept.ite
    | with_reducible apply Kept.writeBytes
    | with_reducible apply Kept.foldl
    | with_reducible apply Kept.foldl_fst
    | intro _
    | (extract_lets +onlyGivenNames x; with_reducible refine Kept.cut (W := W) (s₀ := s₀) (s := x) ?_ (fun _ => ?_); (on_goal 1 => subst x); on_goal 2 => clear_value x)
    | (extract_lets +onlyGivenNames x; subst x)
    | split

theorem Kept.setHome (h : Kept W s₀ s) (_ : W .slices) (_ : W .mem) (a1 a2 a3) : Kept W s₀ (State.setHome s a1 a2 a3) := by
  unfold State.setHome
  repeat' first
    | with_reducible assumption
    | with_reducible apply Kept.ite
    | with_reducible apply Kept.writeTile
    | with_reducible apply Kept.foldl
    | with_reducible apply Kept.foldl_fst
    | intro _
    | (extract_lets +onlyGivenNames x; with_reducible refine Kept.cut (W := W) (s₀ := s₀) (s := x) ?_ (fun _ => ?_); (on_goal 1 => subst x); on_goal 2 => clear_value x)
    | (extract_lets +onlyGivenNames x; subst x)
    | split

theorem Kept.setReturn (h : Kept W s₀ s) (_ : W .slices) (_ : W .ctxs) (a1 a2 a3) : Kept W s₀ (State.setReturn s a1 a2 a3) := by
  unfold State.setReturn
  repeat' first
    | with_reducible assumption
    | with_reducible apply Kept.ite
    | with_reducible apply Kept.modTile
    | with_reducible apply Kept.modSlice
    | with_reducible apply Kept.foldl
    | with_reducible apply Kept.foldl_fst
    | intro _
    | (extract_lets +onlyGivenNames x; with_reducible refine Kept.cut (W := W) (s₀ := s₀) (s := x) ?_ (fun _ => ?_); (on_goal 1 => subst x); on_goal 2 => clear_value x)
    | (extract_lets +onlyGivenNames x; subst x)
    | split

theorem Kept.trap (h : Kept W s₀ s) (_ : W .slices) (_ : W .ctxs) (a1 a2) : Kept W s₀ (State.trap s a1 a2) := by
  unfold State.trap
  repeat' first
    | with_reducible assumption
    | with_reducible apply Kept.ite
    | with_reducible apply Kept.setReturn
    | with_reducible apply Kept.foldl
    | with_reducible apply Kept.foldl_fst
    | intro _
    | (extract_lets +onlyGivenNames x; with_reducible refine Kept.cut (W := W) (s₀ := s₀) (s := x) ?_ (fun _ => ?_); (on_goal 1 => subst x); on_goal 2 => clear_value x)
    | (extract_lets +onlyGivenNames x; subst x)
    | split

theorem Kept.unhold (h : Kept W s₀ s) (_ : W .slices) (a1 a2 a3) : Kept W s₀ (State.unhold s a1 a2 a3) := by
  unfold State.unhold
  repeat' first
    | with_reducible assumption
    | with_reducible apply Kept.ite
    | with_reducible apply Kept.modSlice
    | with_reducible apply Kept.foldl
    | with_reducible apply Kept.foldl_fst
    | intro _
    | (extract_lets +onlyGivenNames x; with_reducible refine Kept.cut (W := W) (s₀ := s₀) (s := x) ?_ (fun _ => ?_); (on_goal 1 => subst x); on_goal 2 => clear_value x)
    | (extract_lets +onlyGivenNames x; subst x)
    | split

theorem Kept.unholdTile (h : Kept W s₀ s) (_ : W .slices) (a1 a2 a3) : Kept W s₀ (State.unholdTile s a1 a2 a3) := by
  unfold State.unholdTile
  repeat' first
    | with_reducible assumption
    | with_reducible apply Kept.ite
    | with_reducible apply Kept.unhold
    | with_reducible apply Kept.foldl
    | with_reducible apply Kept.foldl_fst
    | intro _
    | (extract_lets +onlyGivenNames x; with_reducible refine Kept.cut (W := W) (s₀ := s₀) (s := x) ?_ (fun _ => ?_); (on_goal 1 => subst x); on_goal 2 => clear_value x)
    | (extract_lets +onlyGivenNames x; subst x)
    | split

theorem Kept.untrap (h : Kept W s₀ s) (_ : W .slices) (_ : W .ctxs) (a1 a2) : Kept W s₀ (State.untrap s a1 a2) := by
  unfold State.untrap
  repeat' first
    | with_reducible assumption
    | with_reducible apply Kept.ite
    | with_reducible apply Kept.setReturn
    | with_reducible apply Kept.foldl
    | with_reducible apply Kept.foldl_fst
    | intro _
    | (extract_lets +onlyGivenNames x; with_reducible refine Kept.cut (W := W) (s₀ := s₀) (s := x) ?_ (fun _ => ?_); (on_goal 1 => subst x); on_goal 2 => clear_value x)
    | (extract_lets +onlyGivenNames x; subst x)
    | split

theorem Kept.wake (h : Kept W s₀ s) (_ : W .power) (_ : W .engCtr) : Kept W s₀ (State.wake s) := by
  unfold State.wake
  repeat' first
    | with_reducible assumption
    | with_reducible apply Kept.ite
    | with_reducible apply Kept.count
    | with_reducible apply Kept.foldl
    | with_reducible apply Kept.foldl_fst
    | intro _
    | (extract_lets +onlyGivenNames x; with_reducible refine Kept.cut (W := W) (s₀ := s₀) (s := x) ?_ (fun _ => ?_); (on_goal 1 => subst x); on_goal 2 => clear_value x)
    | (extract_lets +onlyGivenNames x; subst x)
    | split
    | with_reducible apply Kept.set_power

theorem Kept.writeDie (h : Kept W s₀ s) (_ : W .slices) (_ : W .mem) (a1 a2) : Kept W s₀ (State.writeDie s a1 a2) := by
  unfold State.writeDie
  repeat' first
    | with_reducible assumption
    | with_reducible apply Kept.ite
    | with_reducible apply Kept.writeBytes
    | with_reducible apply Kept.foldl
    | with_reducible apply Kept.foldl_fst
    | intro _
    | (extract_lets +onlyGivenNames x; with_reducible refine Kept.cut (W := W) (s₀ := s₀) (s := x) ?_ (fun _ => ?_); (on_goal 1 => subst x); on_goal 2 => clear_value x)
    | (extract_lets +onlyGivenNames x; subst x)
    | split

theorem Kept.setUnitWord (h : Kept W s₀ s) (_ : W .slices) (_ : W .pctr) (a1 a2 a3 a4) : Kept W s₀ (State.setUnitWord s a1 a2 a3 a4) := by
  unfold State.setUnitWord
  repeat' first
    | with_reducible assumption
    | with_reducible apply Kept.ite
    | with_reducible apply Kept.modSlice
    | with_reducible apply Kept.foldl
    | with_reducible apply Kept.foldl_fst
    | intro _
    | (extract_lets +onlyGivenNames x; with_reducible refine Kept.cut (W := W) (s₀ := s₀) (s := x) ?_ (fun _ => ?_); (on_goal 1 => subst x); on_goal 2 => clear_value x)
    | (extract_lets +onlyGivenNames x; subst x)
    | split
    | with_reducible apply Kept.set_pctr
    | with_reducible apply mwf_mset
    | with_reducible apply mwf_merase
    | with_reducible apply mwf_mkeep
    | with_reducible apply mwf_mmap

theorem Kept.setTrim (h : Kept W s₀ s) (_ : W .win) (_ : W .engCtr) (a1 a2) : Kept W s₀ (State.setTrim s a1 a2) := by
  unfold State.setTrim
  repeat' first
    | with_reducible assumption
    | with_reducible apply Kept.ite
    | with_reducible apply Kept.count
    | with_reducible apply Kept.foldl
    | with_reducible apply Kept.foldl_fst
    | intro _
    | (extract_lets +onlyGivenNames x; with_reducible refine Kept.cut (W := W) (s₀ := s₀) (s := x) ?_ (fun _ => ?_); (on_goal 1 => subst x); on_goal 2 => clear_value x)
    | (extract_lets +onlyGivenNames x; subst x)
    | split
    | with_reducible apply Kept.set_win

theorem Kept.doorbell (h : Kept W s₀ s) (_ : W .link) (_ : W .power) (_ : W .engCtr) : Kept W s₀ (State.doorbell s) := by
  unfold State.doorbell
  repeat' first
    | with_reducible assumption
    | with_reducible apply Kept.ite
    | with_reducible apply Kept.wake
    | with_reducible apply Kept.foldl
    | with_reducible apply Kept.foldl_fst
    | intro _
    | (extract_lets +onlyGivenNames x; with_reducible refine Kept.cut (W := W) (s₀ := s₀) (s := x) ?_ (fun _ => ?_); (on_goal 1 => subst x); on_goal 2 => clear_value x)
    | (extract_lets +onlyGivenNames x; subst x)
    | split
    | with_reducible apply Kept.set_link

theorem Kept.setFrameCfg (h : Kept W s₀ s) (_ : W .frames) (a1) : Kept W s₀ (State.setFrameCfg s a1) := by
  unfold State.setFrameCfg
  repeat' first
    | with_reducible assumption
    | with_reducible apply Kept.ite
    | with_reducible apply Kept.foldl
    | with_reducible apply Kept.foldl_fst
    | intro _
    | (extract_lets +onlyGivenNames x; with_reducible refine Kept.cut (W := W) (s₀ := s₀) (s := x) ?_ (fun _ => ?_); (on_goal 1 => subst x); on_goal 2 => clear_value x)
    | (extract_lets +onlyGivenNames x; subst x)
    | split
    | with_reducible apply Kept.set_frames

theorem Kept.writeBoot (h : Kept W s₀ s) (_ : W .boot) (_ : W .win) (v) : Kept W s₀ (s.writeBoot v) := by
  unfold State.writeBoot
  split
  · rename_i hp
    have h1 := h.set_win (W := W) ‹_› { s.win with boot := v &&& 0x1FF03 }
    dsimp only
    split
    · exact h1.set_boot ‹_› fun g => ⟨g.supply, fun e => absurd (g.cold e) (by simp [hp]), fun _ => g.frozen (by simp [hp]),
        fun e => absurd (g.fault e) (by simp [hp])⟩
    · exact h1
  · exact h

theorem Kept.writeRaw (h : Kept W s₀ s) (_ : W .boot) (_ : W .win) (_ : W .link) (_ : W .frames) (_ : W .power) (_ : W .engCtr) (a1 a2) : Kept W s₀ (State.writeRaw s a1 a2) := by
  unfold State.writeRaw
  repeat' first
    | with_reducible assumption
    | with_reducible apply Kept.ite
    | with_reducible apply Kept.writeBoot
    | with_reducible apply Kept.doorbell
    | with_reducible apply Kept.setFrameCfg
    | with_reducible apply Kept.setTrim
    | with_reducible apply Kept.foldl
    | with_reducible apply Kept.foldl_fst
    | intro _
    | (extract_lets +onlyGivenNames x; with_reducible refine Kept.cut (W := W) (s₀ := s₀) (s := x) ?_ (fun _ => ?_); (on_goal 1 => subst x); on_goal 2 => clear_value x)
    | (extract_lets +onlyGivenNames x; subst x)
    | split
    | with_reducible apply Kept.set_win
    | with_reducible apply Kept.set_link
    | with_reducible apply Kept.set_power

theorem Kept.writeReg (h : Kept W s₀ s) (_ : W .boot) (_ : W .win) (_ : W .link) (_ : W .frames) (_ : W .power) (_ : W .engCtr) (a1 a2) : Kept W s₀ (State.writeReg s a1 a2) := by
  unfold State.writeReg
  repeat' first
    | with_reducible assumption
    | with_reducible apply Kept.ite
    | with_reducible apply Kept.writeRaw
    | with_reducible apply Kept.foldl
    | with_reducible apply Kept.foldl_fst
    | intro _
    | (extract_lets +onlyGivenNames x; with_reducible refine Kept.cut (W := W) (s₀ := s₀) (s := x) ?_ (fun _ => ?_); (on_goal 1 => subst x); on_goal 2 => clear_value x)
    | (extract_lets +onlyGivenNames x; subst x)
    | split
    | with_reducible apply Kept.set_win

theorem Kept.on_execBootGo (h : Kept W s₀ s) (_ : W .boot) (_ : W .win) (_ : W .link) (_ : W .frames) (_ : W .power) (_ : W .engCtr) (a1) : KeptX W s₀ (execBootGo a1 s) := by
  unfold execBootGo
  repeat' first
    | with_reducible assumption
    | with_reducible apply KeptX.next
    | with_reducible apply KeptX.ite
    | with_reducible apply Kept.ite
    | with_reducible apply Kept.writeReg
    | with_reducible apply Kept.foldl
    | with_reducible apply Kept.foldl_fst
    | intro _
    | (extract_lets +onlyGivenNames x; with_reducible refine Kept.cut (W := W) (s₀ := s₀) (s := x) ?_ (fun _ => ?_); (on_goal 1 => subst x); on_goal 2 => clear_value x)
    | (extract_lets +onlyGivenNames x; subst x)
    | split

theorem Kept.on_execCmdDoorbell (h : Kept W s₀ s) (_ : W .boot) (_ : W .win) (_ : W .link) (_ : W .frames) (_ : W .power) (_ : W .engCtr) (a1) : KeptX W s₀ (execCmdDoorbell a1 s) := by
  unfold execCmdDoorbell
  repeat' first
    | with_reducible assumption
    | with_reducible apply KeptX.next
    | with_reducible apply KeptX.ite
    | with_reducible apply Kept.ite
    | with_reducible apply Kept.writeReg
    | with_reducible apply Kept.foldl
    | with_reducible apply Kept.foldl_fst
    | intro _
    | (extract_lets +onlyGivenNames x; with_reducible refine Kept.cut (W := W) (s₀ := s₀) (s := x) ?_ (fun _ => ?_); (on_goal 1 => subst x); on_goal 2 => clear_value x)
    | (extract_lets +onlyGivenNames x; subst x)
    | split

theorem Kept.on_execEventRingWrite (h : Kept W s₀ s) (_ : W .link) : KeptX W s₀ (execEventRingWrite s) := by
  unfold execEventRingWrite
  repeat' first
    | with_reducible assumption
    | with_reducible apply KeptX.next
    | with_reducible apply KeptX.ite
    | with_reducible apply Kept.ite
    | with_reducible apply Kept.foldl
    | with_reducible apply Kept.foldl_fst
    | intro _
    | (extract_lets +onlyGivenNames x; with_reducible refine Kept.cut (W := W) (s₀ := s₀) (s := x) ?_ (fun _ => ?_); (on_goal 1 => subst x); on_goal 2 => clear_value x)
    | (extract_lets +onlyGivenNames x; subst x)
    | split
    | with_reducible apply Kept.set_link

theorem Kept.on_execEvqHeadWrite (h : Kept W s₀ s) (_ : W .boot) (_ : W .win) (_ : W .link) (_ : W .frames) (_ : W .power) (_ : W .engCtr) (a1) : KeptX W s₀ (execEvqHeadWrite a1 s) := by
  unfold execEvqHeadWrite
  repeat' first
    | with_reducible assumption
    | with_reducible apply KeptX.next
    | with_reducible apply KeptX.ite
    | with_reducible apply Kept.ite
    | with_reducible apply Kept.writeReg
    | with_reducible apply Kept.foldl
    | with_reducible apply Kept.foldl_fst
    | intro _
    | (extract_lets +onlyGivenNames x; with_reducible refine Kept.cut (W := W) (s₀ := s₀) (s := x) ?_ (fun _ => ?_); (on_goal 1 => subst x); on_goal 2 => clear_value x)
    | (extract_lets +onlyGivenNames x; subst x)
    | split

theorem Kept.on_execRegisterWrite (h : Kept W s₀ s) (_ : W .boot) (_ : W .win) (_ : W .link) (_ : W .frames) (_ : W .power) (_ : W .engCtr) (a1 a2) : KeptX W s₀ (execRegisterWrite a1 a2 s) := by
  unfold execRegisterWrite
  repeat' first
    | with_reducible assumption
    | with_reducible apply KeptX.next
    | with_reducible apply KeptX.ite
    | with_reducible apply Kept.ite
    | with_reducible apply Kept.writeReg
    | with_reducible apply Kept.foldl
    | with_reducible apply Kept.foldl_fst
    | intro _
    | (extract_lets +onlyGivenNames x; with_reducible refine Kept.cut (W := W) (s₀ := s₀) (s := x) ?_ (fun _ => ?_); (on_goal 1 => subst x); on_goal 2 => clear_value x)
    | (extract_lets +onlyGivenNames x; subst x)
    | split

theorem Kept.authenticated (h : Kept W s₀ s) (_ : W .boot) (hp : s.boot.phase = .load) (a b) :
    Kept W s₀ (s.authenticated a b) :=
  h.set_boot ‹_› fun g => ⟨g.supply, fun e => absurd (g.cold e) (by simp [hp]), fun _ => g.frozen (by simp [hp]),
    fun e => absurd (g.fault e) (by simp [hp])⟩

theorem Kept.countGuard (h : Kept W s₀ s) (_ : W .boot) (i) : Kept W s₀ (s.countGuard i) :=
  h.set_boot ‹_› fun g => ⟨g.supply, g.cold, g.frozen, g.fault⟩

theorem Kept.beginWarm (h : Kept W s₀ s) (_ : W .boot) (_ : W .link) (hu : s.up = true) (a b) : Kept W s₀ (s.beginWarm a b) := by
  have hc : s.boot.coldN = true ∧ s.boot.supply = true := by simpa [State.up] using hu
  unfold State.beginWarm
  split
  · exact h.set_boot ‹_› fun g => ⟨g.supply, g.cold, g.frozen, g.fault⟩
  · refine (h.countGuard ‹_› (if a = true then 1 else 0)).upd rfl
      (fun g => ⟨⟨g.legal.supply, fun e => ?_, fun _ => rfl, fun _ => .inr rfl⟩, g.mem, g.slices, g.ctxs, g.branches, g.pctr, g.engCtr, g.slcCtr, g.ctxCtr, g.sram⟩)
      (fun p hp => by cases p <;> first | rfl | exact absurd ‹W .boot› hp | exact absurd ‹W .link› hp)
    exact absurd hc.1 (by simpa [State.countGuard] using e)

theorem Kept.failBoot (h : Kept W s₀ s) (_ : W .boot) (hp : s.boot.phase = .load ∨ s.boot.phase = .selftest) (a b) :
    Kept W s₀ (s.failBoot a b) := by
  refine Kept.countGuard (s := { s with boot := _ }) ?_ ‹_› 6
  exact h.set_boot ‹_› (fun g => ⟨g.supply, fun e => absurd (g.cold e) (by rcases hp with hp | hp <;> simp [hp]),
    fun _ => g.frozen (by rcases hp with hp | hp <;> simp [hp]),
    fun e => absurd (g.fault e) (by rcases hp with hp | hp <;> simp [hp])⟩)

theorem Kept.faultFreeze (h : Kept W s₀ s) (_ : W .boot) (_ : W .link) (a) : Kept W s₀ (s.faultFreeze a) := by
  unfold State.faultFreeze
  split
  · exact h
  · rename_i hl
    dsimp only
    have hr : s.boot.phase = .ready := by
      have : s.live = true := by
        cases e : s.live
        · exact absurd (Or.inr e) hl
        · rfl
      simp [State.live] at this
      exact this.1.1
    generalize hs : s.link.admitted.foldl (fun s x => s.finish x.c.ctx.toNat x.c.tag 0x0F01 a) s = s1
    have k1 : Kept W s₀ s1 := hs ▸ Kept.foldl h fun t x ht => ht.finish ‹_› _ _ _ _
    have k2 : Kept (· = .link) s s1 := hs ▸ Kept.foldl (Kept.refl _ _) fun t x ht => ht.finish rfl _ _ _ _
    have hb : s1.boot = s.boot := k2.same .boot (by decide)
    refine Kept.countGuard (s := { s1 with boot := _ }) ?_ ‹_› 4
    exact k1.set_boot ‹_› fun g => ⟨g.supply, g.cold, g.frozen, fun _ => .inl (hb ▸ hr)⟩

theorem Kept.makeReady (h : Kept W s₀ s) (_ : W .boot) (_ : W .link) (_ : W .frames) (_ : W .engCtr) (hp : s.boot.phase = .tickWait ∨ s.boot.phase = .ringWait) (a) :
    Kept W s₀ (s.makeReady a) := by
  unfold State.makeReady
  refine Kept.emit ?_ ‹_› ‹_› _ _ _ _
  exact h.upd rfl
    (fun g => ⟨⟨g.legal.supply, fun e => absurd (g.legal.cold e) (by rcases hp with hp | hp <;> simp [hp]),
      fun e => absurd rfl e, fun _ => .inl rfl⟩, g.mem, g.slices, g.ctxs, g.branches, g.pctr, g.engCtr, g.slcCtr, g.ctxCtr, g.sram⟩)
    (fun p hp => by cases p <;> first | rfl | exact absurd ‹W .boot› hp | exact absurd ‹W .link› hp | exact absurd ‹W .frames› hp)

theorem Kept.warmed (h : Kept W s₀ s) (hw : ∀ p, p ≠ .mem → p ≠ .freeIdx → W p) (hp : s.boot.phase = .teardown) :
    Kept W s₀ (s.warmed .bootWait) :=
  h.upd rfl
    (fun g => ⟨⟨g.legal.supply, fun e => absurd (g.legal.cold e) (by simp [hp]), fun _ => rfl, fun e => absurd rfl e⟩, g.mem, rfl, rfl,
      rfl, rfl, by unfold State.warmed; dsimp only; exact mwf_mkeep g.engCtr _, rfl, rfl, rfl⟩)
    (fun p hp => by cases p <;> first | rfl | exact absurd (hw _ (by decide) (by decide)) hp)

theorem Boot.Legal.cold_ {b : Bool} : Boot.Legal { supply := b } := ⟨fun _ => rfl, fun _ => rfl, fun _ => rfl, fun e => absurd rfl e⟩
/-- Whatever resets everything but the queue, the stacks' bytes and the counter of free values. -/
theorem Kept.coldWith (h : Kept W s₀ s) (_ : ∀ p, p ≠ .mem → p ≠ .freeIdx → W p) (hw : W .mem) {m : List Host.Cell} {b : Boot} (hb : b.Legal)
    (hm : Memory.wf s.mem = true → Memory.wf m = true) : Kept W s₀ { s.cold with boot := b, mem := m } :=
  h.upd rfl (fun g => ⟨hb, hm g.mem, rfl, rfl, rfl, rfl, rfl, rfl, rfl, rfl⟩)
    (fun p hp => by cases p <;> first | rfl | exact absurd hw hp | exact absurd (‹∀ p, p ≠ Part.mem → p ≠ Part.freeIdx → W p› _ (by decide) (by decide)) hp)
/-- The same where the bytes stand. -/
theorem Kept.coldMem (h : Kept W s₀ s) (_ : ∀ p, p ≠ .mem → p ≠ .freeIdx → W p) {b : Boot} (hb : b.Legal) :
    Kept W s₀ { s.cold with boot := b } :=
  h.upd rfl (fun g => ⟨hb, g.mem, rfl, rfl, rfl, rfl, rfl, rfl, rfl, rfl⟩)
    (fun p hp => by cases p <;> first | rfl | exact absurd (‹∀ p, p ≠ Part.mem → p ≠ Part.freeIdx → W p› _ (by decide) (by decide)) hp)
theorem Kept.on_execColdReset (h : Kept W s₀ s) (_ : ∀ p, p ≠ .mem → p ≠ .freeIdx → W p) : KeptX W s₀ (execColdReset s) := by
  unfold execColdReset
  split
  · exact .next h
  · exact .next (h.coldMem ‹_› ⟨fun e => (nomatch e), fun e => (nomatch e), fun _ => rfl, fun e => absurd rfl e⟩)

theorem Kept.on_execColdResetAssert (h : Kept W s₀ s) (_ : ∀ p, p ≠ .mem → p ≠ .freeIdx → W p) : KeptX W s₀ (execColdResetAssert s) :=
  .next (h.coldMem ‹_› Boot.Legal.cold_)

theorem Kept.on_execEngineReady (h : Kept W s₀ s) (_ : W .boot) (_ : W .link) (_ : W .frames) (_ : W .engCtr) (a) : KeptX W s₀ (execEngineReady a s) := by
  unfold execEngineReady
  split
  · rename_i hp
    split
    · exact .next (h.makeReady ‹_› ‹_› ‹_› ‹_› hp.1 _)
    · have hp := hp.1
      exact .next (h.set_boot ‹_› fun g => ⟨g.supply, fun e => absurd (g.cold e) (by rcases hp with hp | hp <;> simp [hp]),
        fun _ => g.frozen (by rcases hp with hp | hp <;> simp [hp]),
        fun e => absurd (g.fault e) (by rcases hp with hp | hp <;> simp [hp])⟩)
  · exact .next h

theorem Kept.on_execFirmwareDigestCheck (h : Kept W s₀ s) (_ : W .boot) (_ : W .link) (_ : W .frames) (a1) : KeptX W s₀ (execFirmwareDigestCheck a1 s) := by
  unfold execFirmwareDigestCheck
  repeat' first
    | with_reducible assumption
    | with_reducible apply KeptX.next
    | with_reducible apply KeptX.ite
    | with_reducible apply Kept.ite
    | with_reducible apply Kept.faultFreeze
    | with_reducible apply Kept.foldl
    | with_reducible apply Kept.foldl_fst
    | intro _
    | (extract_lets +onlyGivenNames x; with_reducible refine Kept.cut (W := W) (s₀ := s₀) (s := x) ?_ (fun _ => ?_); (on_goal 1 => subst x); on_goal 2 => clear_value x)
    | (extract_lets +onlyGivenNames x; subst x)
    | split
    | with_reducible apply Kept.set_frames

theorem Kept.on_execFrameWatchdog (h : Kept W s₀ s) (_ : W .boot) (_ : W .link) : KeptX W s₀ (execFrameWatchdog s) := by
  unfold execFrameWatchdog
  repeat' first
    | with_reducible assumption
    | with_reducible apply KeptX.next
    | with_reducible apply KeptX.ite
    | with_reducible apply Kept.ite
    | with_reducible apply Kept.faultFreeze
    | with_reducible apply Kept.foldl
    | with_reducible apply Kept.foldl_fst
    | intro _
    | (extract_lets +onlyGivenNames x; with_reducible refine Kept.cut (W := W) (s₀ := s₀) (s := x) ?_ (fun _ => ?_); (on_goal 1 => subst x); on_goal 2 => clear_value x)
    | (extract_lets +onlyGivenNames x; subst x)
    | split

theorem Kept.on_execFuseSenseDone (h : Kept W s₀ s) (_ : W .boot) (_ : W .engCtr) (pages) : KeptX W s₀ (execFuseSenseDone pages s) := by
  unfold execFuseSenseDone
  split
  · exact .next h
  · rename_i hu
    have hc : s.boot.coldN = true ∧ s.boot.supply = true := by
      have : s.up = true := by
        cases e : s.up
        · exact absurd (Or.inl e) hu
        · rfl
      simpa [State.up] using this
    dsimp only
    generalize State.calDefaulted _ = v
    have h1 : Kept W s₀ { s with boot := { s.boot with fuses := pages.take 16 ++ List.replicate (16 - pages.length) 0, defaulted := v } } :=
      h.set_boot ‹_› fun g => ⟨g.supply, g.cold, g.frozen, g.fault⟩
    generalize hb : ({ s.boot with fuses := pages.take 16 ++ List.replicate (16 - pages.length) 0, defaulted := v } : Boot) = b at h1 ⊢
    have hd : b.coldN = true := by subst hb; exact hc.1
    have h2 := h1.count ‹W .engCtr› 103 v
    have h3 : (({ s with boot := b } : State).count 103 v).boot = b :=
      (Kept.count (Kept.refl (· = .engCtr) _) rfl 103 v).same .boot (by decide)
    refine KeptX.next ?_
    split
    · rename_i hp
      refine h2.set_boot ‹_› fun g => ?_
      exact ⟨g.supply, fun e => absurd (h3 ▸ hd) (by simpa using e), fun _ => g.frozen (by rw [hp]; decide),
        fun e => absurd (g.fault e) (by rw [hp]; decide)⟩
    · exact h2

theorem Kept.on_execImageAuthenticated (h : Kept W s₀ s) (_ : W .boot) (a) : KeptX W s₀ (execImageAuthenticated a s) := by
  unfold execImageAuthenticated
  split
  · exact .next h
  · rename_i hp
    have hp : s.boot.phase = .load := by simpa using hp
    split
    · exact .next (h.failBoot ‹_› (.inl hp) _ _)
    · split
      · exact .next (h.failBoot ‹_› (.inl hp) _ _)
      · dsimp only
        split
        · exact .next (h.authenticated ‹_› hp _ _)
        · split
          · exact .next (h.authenticated ‹_› hp _ _)
          · exact .next (h.failBoot ‹_› (.inl hp) _ _)

theorem Kept.on_execMainSupplyFall (h : Kept W s₀ s) (_ : ∀ p, p ≠ .mem → p ≠ .freeIdx → W p) (_ : W .mem) :
    KeptX W s₀ (execMainSupplyFall s) :=
  .next (h.coldWith ‹_› ‹_› Boot.Legal.cold_ fun _ => rfl)

theorem Kept.on_execSelftestDone (h : Kept W s₀ s) (_ : W .boot) (a) : KeptX W s₀ (execSelftestDone a s) := by
  unfold execSelftestDone
  split
  · exact .next h
  · rename_i hp
    have hp : s.boot.phase = .selftest := by simpa using hp
    split
    · exact .next (h.set_boot ‹_› fun g => ⟨g.supply, fun e => absurd (g.cold e) (by simp [hp]), fun _ => g.frozen (by simp [hp]),
        fun e => absurd (g.fault e) (by simp [hp])⟩)
    · exact .next (h.failBoot ‹_› (.inr hp) _ _)

theorem Kept.on_execTeardownDone (h : Kept W s₀ s) (hw : ∀ p, p ≠ .mem → p ≠ .freeIdx → W p) : KeptX W s₀ (execTeardownDone s) := by
  unfold execTeardownDone
  split
  · exact .next h
  · rename_i hp
    have hp : s.boot.phase = .teardown := by simpa using hp
    exact .next (Kept.each (h.warmed hw hp) fun t x ht => ht.modSlice (hw _ (by decide) (by decide)) _ _)

theorem Kept.on_execWarmReset (h : Kept W s₀ s) (_ : W .boot) (_ : W .link) : KeptX W s₀ (execWarmReset s) := by
  unfold execWarmReset
  split
  · exact .next (h.beginWarm ‹_› ‹_› ‹_› _ _)
  · exact .next h

theorem Kept.bakeCopy (h : Kept W s₀ s) (_ : W .ctxs) (_ : W .ctxCtr) (a1 a2 a3) : Kept W s₀ (State.bakeCopy s a1 a2 a3) := by
  unfold State.bakeCopy
  repeat' first
    | with_reducible assumption
    | with_reducible apply Kept.ite
    | with_reducible apply Kept.modTile
    | with_reducible apply Kept.peakCtx
    | with_reducible apply Kept.countCtx
    | with_reducible apply Kept.foldl
    | with_reducible apply Kept.foldl_fst
    | intro _
    | (extract_lets +onlyGivenNames x; with_reducible refine Kept.cut (W := W) (s₀ := s₀) (s := x) ?_ (fun _ => ?_); (on_goal 1 => subst x); on_goal 2 => clear_value x)
    | (extract_lets +onlyGivenNames x; subst x)
    | split

theorem Kept.modBranch (h : Kept W s₀ s) (_ : W .branches) (a1 a2) : Kept W s₀ (State.modBranch s a1 a2) := by
  unfold State.modBranch
  repeat' first
    | with_reducible assumption
    | with_reducible apply Kept.ite
    | with_reducible apply Kept.foldl
    | with_reducible apply Kept.foldl_fst
    | intro _
    | (extract_lets +onlyGivenNames x; with_reducible refine Kept.cut (W := W) (s₀ := s₀) (s := x) ?_ (fun _ => ?_); (on_goal 1 => subst x); on_goal 2 => clear_value x)
    | (extract_lets +onlyGivenNames x; subst x)
    | split
    | with_reducible apply Kept.set_branches
    | with_reducible apply mwf_mset
    | with_reducible apply mwf_merase
    | with_reducible apply mwf_mkeep
    | with_reducible apply mwf_mmap

theorem Kept.makeCopies (h : Kept W s₀ s) (_ : W .slices) (_ : W .ctxs) (_ : W .branches) (_ : W .ctxCtr) (a1 a2) : Kept W s₀ (State.makeCopies s a1 a2) := by
  unfold State.makeCopies
  repeat' first
    | with_reducible assumption
    | with_reducible apply Kept.ite
    | with_reducible apply Kept.bakeCopy
    | with_reducible apply Kept.each
    | with_reducible apply Kept.countCtx
    | with_reducible apply Kept.modBranch
    | with_reducible apply Kept.untrap
    | with_reducible apply Kept.modTile
    | with_reducible apply Kept.foldl
    | with_reducible apply Kept.foldl_fst
    | intro _
    | (extract_lets +onlyGivenNames x; with_reducible refine Kept.cut (W := W) (s₀ := s₀) (s := x) ?_ (fun _ => ?_); (on_goal 1 => subst x); on_goal 2 => clear_value x)
    | (extract_lets +onlyGivenNames x; subst x)
    | split

theorem Kept.portBytes (h : Kept W s₀ s) (_ : W .slices) (_ : W .ctxs) (_ : W .branches) (_ : W .ctxCtr) (_ : W .mem) (a1 a2 a3 a4) : Kept W s₀ (State.portBytes s a1 a2 a3 a4) := by
  unfold State.portBytes
  repeat' first
    | with_reducible assumption
    | with_reducible apply Kept.ite
    | with_reducible apply Kept.writeBytes
    | with_reducible apply Kept.makeCopies
    | with_reducible apply Kept.foldl
    | with_reducible apply Kept.foldl_fst
    | intro _
    | (extract_lets +onlyGivenNames x; with_reducible refine Kept.cut (W := W) (s₀ := s₀) (s := x) ?_ (fun _ => ?_); (on_goal 1 => subst x); on_goal 2 => clear_value x)
    | (extract_lets +onlyGivenNames x; subst x)
    | split

theorem Kept.portDie (h : Kept W s₀ s) (_ : W .slices) (_ : W .ctxs) (_ : W .branches) (_ : W .ctxCtr) (_ : W .mem) (a1 a2) : Kept W s₀ (State.portDie s a1 a2) := by
  unfold State.portDie
  repeat' first
    | with_reducible assumption
    | with_reducible apply Kept.ite
    | with_reducible apply Kept.writeDie
    | with_reducible apply Kept.each
    | with_reducible apply Kept.makeCopies
    | with_reducible apply Kept.foldl
    | with_reducible apply Kept.foldl_fst
    | intro _
    | (extract_lets +onlyGivenNames x; with_reducible refine Kept.cut (W := W) (s₀ := s₀) (s := x) ?_ (fun _ => ?_); (on_goal 1 => subst x); on_goal 2 => clear_value x)
    | (extract_lets +onlyGivenNames x; subst x)
    | split

theorem Kept.portWrite (h : Kept W s₀ s) (_ : W .slices) (_ : W .ctxs) (_ : W .branches) (_ : W .ctxCtr) (_ : W .mem) (a1 a2 a3) : Kept W s₀ (State.portWrite s a1 a2 a3) := by
  unfold State.portWrite
  repeat' first
    | with_reducible assumption
    | with_reducible apply Kept.ite
    | with_reducible apply Kept.setHome
    | with_reducible apply Kept.makeCopies
    | with_reducible apply Kept.foldl
    | with_reducible apply Kept.foldl_fst
    | intro _
    | (extract_lets +onlyGivenNames x; with_reducible refine Kept.cut (W := W) (s₀ := s₀) (s := x) ?_ (fun _ => ?_); (on_goal 1 => subst x); on_goal 2 => clear_value x)
    | (extract_lets +onlyGivenNames x; subst x)
    | split

theorem Kept.ack (h : Kept W s₀ s) (_ : W .link) (a1 a2 a3 a4) : Kept W s₀ (State.ack s a1 a2 a3 a4) := by
  unfold State.ack
  repeat' first
    | with_reducible assumption
    | with_reducible apply Kept.ite
    | with_reducible apply Kept.reply
    | with_reducible apply Kept.foldl
    | with_reducible apply Kept.foldl_fst
    | intro _
    | (extract_lets +onlyGivenNames x; with_reducible refine Kept.cut (W := W) (s₀ := s₀) (s := x) ?_ (fun _ => ?_); (on_goal 1 => subst x); on_goal 2 => clear_value x)
    | (extract_lets +onlyGivenNames x; subst x)
    | split
    | with_reducible apply Kept.set_link

theorem Kept.defer (h : Kept W s₀ s) (_ : W .link) (a1 a2 a3) : Kept W s₀ (State.defer s a1 a2 a3) := by
  unfold State.defer
  repeat' first
    | with_reducible assumption
    | with_reducible apply Kept.ite
    | with_reducible apply Kept.modAdm
    | with_reducible apply Kept.reply
    | with_reducible apply Kept.foldl
    | with_reducible apply Kept.foldl_fst
    | intro _
    | (extract_lets +onlyGivenNames x; with_reducible refine Kept.cut (W := W) (s₀ := s₀) (s := x) ?_ (fun _ => ?_); (on_goal 1 => subst x); on_goal 2 => clear_value x)
    | (extract_lets +onlyGivenNames x; subst x)
    | split

theorem Kept.beginOrWait (h : Kept W s₀ s) (_ : W .link) (a) {eff : Cmd → State → State}
    (he : ∀ c t, Kept W s₀ t → Kept W s₀ (eff c t)) : Kept W s₀ (s.beginOrWait a eff) := by
  unfold State.beginOrWait
  split
  · exact he _ _ (h.modAdm ‹_› _ _ _)
  · exact h.defer ‹_› _ _ _
  · exact h.defer ‹_› _ _ _
  · exact h

theorem Kept.admitRun (h : Kept W s₀ s) (_ : W .link) (r c est) {take eff : Cmd → State → State}
    (ht : ∀ t, Kept W s₀ t → Kept W s₀ (take c t)) (he : ∀ c t, Kept W s₀ t → Kept W s₀ (eff c t)) :
    Kept W s₀ (s.admitRun r c est take eff) := by
  unfold State.admitRun
  exact Kept.ack (Kept.beginOrWait (ht _ (h.set_link ‹_› _)) ‹_› _ he) ‹_› _ _ _ _

theorem Kept.advanceHead (h : Kept W s₀ s) (_ : W .link) (a1) : Kept W s₀ (State.advanceHead s a1) := by
  unfold State.advanceHead
  repeat' first
    | with_reducible assumption
    | with_reducible apply Kept.ite
    | with_reducible apply Kept.foldl
    | with_reducible apply Kept.foldl_fst
    | intro _
    | (extract_lets +onlyGivenNames x; with_reducible refine Kept.cut (W := W) (s₀ := s₀) (s := x) ?_ (fun _ => ?_); (on_goal 1 => subst x); on_goal 2 => clear_value x)
    | (extract_lets +onlyGivenNames x; subst x)
    | split
    | with_reducible apply Kept.set_link

theorem Kept.done (h : Kept W s₀ s) (_ : W .link) (a1 a2) : Kept W s₀ (State.done s a1 a2) := by
  unfold State.done
  repeat' first
    | with_reducible assumption
    | with_reducible apply Kept.ite
    | with_reducible apply Kept.finish
    | with_reducible apply Kept.foldl
    | with_reducible apply Kept.foldl_fst
    | intro _
    | (extract_lets +onlyGivenNames x; with_reducible refine Kept.cut (W := W) (s₀ := s₀) (s := x) ?_ (fun _ => ?_); (on_goal 1 => subst x); on_goal 2 => clear_value x)
    | (extract_lets +onlyGivenNames x; subst x)
    | split

theorem Kept.refuse (h : Kept W s₀ s) (_ : W .link) (a1 a2 a3) : Kept W s₀ (State.refuse s a1 a2 a3) := by
  unfold State.refuse
  repeat' first
    | with_reducible assumption
    | with_reducible apply Kept.ite
    | with_reducible apply Kept.reply
    | with_reducible apply Kept.foldl
    | with_reducible apply Kept.foldl_fst
    | intro _
    | (extract_lets +onlyGivenNames x; with_reducible refine Kept.cut (W := W) (s₀ := s₀) (s := x) ?_ (fun _ => ?_); (on_goal 1 => subst x); on_goal 2 => clear_value x)
    | (extract_lets +onlyGivenNames x; subst x)
    | split

theorem Kept.runCmd (h : Kept W s₀ s) (_ : W .link) (_ : W .engCtr) (_ : W .power) (op fields chk bytes c)
    {take eff : Cmd → State → State} (ht : ∀ t, Kept W s₀ t → Kept W s₀ (take c t))
    (he : ∀ c t, Kept W s₀ t → Kept W s₀ (eff c t)) : Kept W s₀ (s.runCmd op fields chk bytes take eff c) := by
  unfold State.runCmd
  repeat' first
    | with_reducible assumption
    | with_reducible apply Kept.ite
    | with_reducible apply Kept.count
    | with_reducible apply Kept.reply
    | with_reducible apply Kept.refuse
    | with_reducible apply Kept.advanceHead
    | with_reducible apply Kept.wake
    | with_reducible refine Kept.admitRun ?_ ‹_› _ _ _ ht he
    | intro _
    | (extract_lets +onlyGivenNames x; with_reducible refine Kept.cut (W := W) (s₀ := s₀) (s := x) ?_ (fun _ => ?_); (on_goal 1 => subst x); on_goal 2 => clear_value x)
    | (extract_lets +onlyGivenNames x; subst x)
    | split

theorem Kept.on_effCalUserSet (h : Kept W s₀ s) (_ : W .win) (_ : W .link) (_ : W .engCtr) (a1) : Kept W s₀ (effCalUserSet a1 s) := by
  unfold effCalUserSet
  repeat' first
    | with_reducible assumption
    | with_reducible apply Kept.ite
    | with_reducible apply Kept.setTrim
    | with_reducible apply Kept.done
    | with_reducible apply Kept.foldl
    | with_reducible apply Kept.foldl_fst
    | intro _
    | (extract_lets +onlyGivenNames x; with_reducible refine Kept.cut (W := W) (s₀ := s₀) (s := x) ?_ (fun _ => ?_); (on_goal 1 => subst x); on_goal 2 => clear_value x)
    | (extract_lets +onlyGivenNames x; subst x)
    | split

theorem Kept.on_effHealthMode (h : Kept W s₀ s) (_ : W .link) (_ : W .fab) (_ : W .health) (a1) : Kept W s₀ (effHealthMode a1 s) := by
  unfold effHealthMode
  repeat' first
    | with_reducible assumption
    | with_reducible apply Kept.ite
    | with_reducible apply Kept.done
    | with_reducible apply Kept.foldl
    | with_reducible apply Kept.foldl_fst
    | intro _
    | (extract_lets +onlyGivenNames x; with_reducible refine Kept.cut (W := W) (s₀ := s₀) (s := x) ?_ (fun _ => ?_); (on_goal 1 => subst x); on_goal 2 => clear_value x)
    | (extract_lets +onlyGivenNames x; subst x)
    | split
    | with_reducible apply Kept.set_fab_health
    | with_reducible apply Kept.set_fab
    | with_reducible apply Kept.set_health

theorem Kept.on_effNop (h : Kept W s₀ s) (_ : W .link) (a1) : Kept W s₀ (effNop a1 s) := by
  unfold effNop
  repeat' first
    | with_reducible assumption
    | with_reducible apply Kept.ite
    | with_reducible apply Kept.done
    | with_reducible apply Kept.foldl
    | with_reducible apply Kept.foldl_fst
    | intro _
    | (extract_lets +onlyGivenNames x; with_reducible refine Kept.cut (W := W) (s₀ := s₀) (s := x) ?_ (fun _ => ?_); (on_goal 1 => subst x); on_goal 2 => clear_value x)
    | (extract_lets +onlyGivenNames x; subst x)
    | split

theorem Kept.on_effPing (h : Kept W s₀ s) (_ : W .link) (a1) : Kept W s₀ (effPing a1 s) := by
  unfold effPing
  repeat' first
    | with_reducible assumption
    | with_reducible apply Kept.ite
    | with_reducible apply Kept.done
    | with_reducible apply Kept.foldl
    | with_reducible apply Kept.foldl_fst
    | intro _
    | (extract_lets +onlyGivenNames x; with_reducible refine Kept.cut (W := W) (s₀ := s₀) (s := x) ?_ (fun _ => ?_); (on_goal 1 => subst x); on_goal 2 => clear_value x)
    | (extract_lets +onlyGivenNames x; subst x)
    | split

theorem Kept.on_effPowerEnvelope (h : Kept W s₀ s) (_ : W .link) (_ : W .power) (a1) : Kept W s₀ (effPowerEnvelope a1 s) := by
  unfold effPowerEnvelope
  repeat' first
    | with_reducible assumption
    | with_reducible apply Kept.ite
    | with_reducible apply Kept.done
    | with_reducible apply Kept.foldl
    | with_reducible apply Kept.foldl_fst
    | intro _
    | (extract_lets +onlyGivenNames x; with_reducible refine Kept.cut (W := W) (s₀ := s₀) (s := x) ?_ (fun _ => ?_); (on_goal 1 => subst x); on_goal 2 => clear_value x)
    | (extract_lets +onlyGivenNames x; subst x)
    | split
    | with_reducible apply Kept.set_power

theorem Kept.on_effQueryCaps (h : Kept W s₀ s) (_ : W .link) (_ : W .slices) (_ : W .ctxs) (_ : W .branches) (_ : W .ctxCtr) (_ : W .mem) (a1) : Kept W s₀ (effQueryCaps a1 s) := by
  unfold effQueryCaps
  repeat' first
    | with_reducible assumption
    | with_reducible apply Kept.ite
    | with_reducible apply Kept.done
    | with_reducible apply Kept.portDie
    | with_reducible apply Kept.foldl
    | with_reducible apply Kept.foldl_fst
    | intro _
    | (extract_lets +onlyGivenNames x; with_reducible refine Kept.cut (W := W) (s₀ := s₀) (s := x) ?_ (fun _ => ?_); (on_goal 1 => subst x); on_goal 2 => clear_value x)
    | (extract_lets +onlyGivenNames x; subst x)
    | split

theorem Kept.on_effReadCounters (h : Kept W s₀ s) (_ : W .link) (_ : W .slices) (_ : W .ctxs) (_ : W .branches) (_ : W .ctxCtr) (_ : W .mem) (a1) : Kept W s₀ (effReadCounters a1 s) := by
  unfold effReadCounters
  repeat' first
    | with_reducible assumption
    | with_reducible apply Kept.ite
    | with_reducible apply Kept.portDie
    | with_reducible apply Kept.done
    | with_reducible apply Kept.modAdm
    | with_reducible apply Kept.foldl
    | with_reducible apply Kept.foldl_fst
    | intro _
    | (extract_lets +onlyGivenNames x; with_reducible refine Kept.cut (W := W) (s₀ := s₀) (s := x) ?_ (fun _ => ?_); (on_goal 1 => subst x); on_goal 2 => clear_value x)
    | (extract_lets +onlyGivenNames x; subst x)
    | split

theorem Kept.on_effRiskWeights (h : Kept W s₀ s) (_ : W .link) (_ : W .health) (a1) : Kept W s₀ (effRiskWeights a1 s) := by
  unfold effRiskWeights
  repeat' first
    | with_reducible assumption
    | with_reducible apply Kept.ite
    | with_reducible apply Kept.done
    | with_reducible apply Kept.foldl
    | with_reducible apply Kept.foldl_fst
    | intro _
    | (extract_lets +onlyGivenNames x; with_reducible refine Kept.cut (W := W) (s₀ := s₀) (s := x) ?_ (fun _ => ?_); (on_goal 1 => subst x); on_goal 2 => clear_value x)
    | (extract_lets +onlyGivenNames x; subst x)
    | split
    | with_reducible apply Kept.set_health

theorem Kept.on_effSetEventMask (h : Kept W s₀ s) (_ : W .link) (_ : W .ctxs) (a1) : Kept W s₀ (effSetEventMask a1 s) := by
  unfold effSetEventMask
  repeat' first
    | with_reducible assumption
    | with_reducible apply Kept.ite
    | with_reducible apply Kept.done
    | with_reducible apply Kept.modCtx
    | with_reducible apply Kept.foldl
    | with_reducible apply Kept.foldl_fst
    | intro _
    | (extract_lets +onlyGivenNames x; with_reducible refine Kept.cut (W := W) (s₀ := s₀) (s := x) ?_ (fun _ => ?_); (on_goal 1 => subst x); on_goal 2 => clear_value x)
    | (extract_lets +onlyGivenNames x; subst x)
    | split
    | with_reducible apply Kept.set_link

theorem Kept.on_noTake (h : Kept W s₀ s) (a1) : Kept W s₀ (noTake a1 s) := by
  unfold noTake
  repeat' first
    | with_reducible assumption
    | with_reducible apply Kept.ite
    | with_reducible apply Kept.foldl
    | with_reducible apply Kept.foldl_fst
    | intro _
    | (extract_lets +onlyGivenNames x; with_reducible refine Kept.cut (W := W) (s₀ := s₀) (s := x) ?_ (fun _ => ?_); (on_goal 1 => subst x); on_goal 2 => clear_value x)
    | (extract_lets +onlyGivenNames x; subst x)
    | split

theorem Kept.on_execCalUserSet (h : Kept W s₀ s) (_ : W .win) (_ : W .link) (_ : W .power) (_ : W .engCtr) (a1) : KeptX W s₀ (execCalUserSet a1 s) := by
  unfold execCalUserSet
  repeat' first
    | with_reducible assumption
    | with_reducible apply KeptX.next
    | with_reducible apply KeptX.ite
    | with_reducible apply Kept.ite
    | with_reducible apply Kept.runCmd
    | with_reducible apply Kept.on_noTake
    | with_reducible apply Kept.on_effCalUserSet
    | with_reducible apply Kept.foldl
    | with_reducible apply Kept.foldl_fst
    | intro _
    | (extract_lets +onlyGivenNames x; with_reducible refine Kept.cut (W := W) (s₀ := s₀) (s := x) ?_ (fun _ => ?_); (on_goal 1 => subst x); on_goal 2 => clear_value x)
    | (extract_lets +onlyGivenNames x; subst x)
    | split

theorem Kept.on_execHealthMode (h : Kept W s₀ s) (_ : W .link) (_ : W .fab) (_ : W .power) (_ : W .health) (_ : W .engCtr) (a1) : KeptX W s₀ (execHealthMode a1 s) := by
  unfold execHealthMode
  repeat' first
    | with_reducible assumption
    | with_reducible apply KeptX.next
    | with_reducible apply KeptX.ite
    | with_reducible apply Kept.ite
    | with_reducible apply Kept.runCmd
    | with_reducible apply Kept.on_noTake
    | with_reducible apply Kept.on_effHealthMode
    | with_reducible apply Kept.foldl
    | with_reducible apply Kept.foldl_fst
    | intro _
    | (extract_lets +onlyGivenNames x; with_reducible refine Kept.cut (W := W) (s₀ := s₀) (s := x) ?_ (fun _ => ?_); (on_goal 1 => subst x); on_goal 2 => clear_value x)
    | (extract_lets +onlyGivenNames x; subst x)
    | split

theorem Kept.on_execMalformedCommand (h : Kept W s₀ s) (_ : W .link) (_ : W .power) (_ : W .engCtr) (a1 a2 a3 a4 a5) : KeptX W s₀ (execMalformedCommand a1 a2 a3 a4 a5 s) := by
  unfold execMalformedCommand
  repeat' first
    | with_reducible assumption
    | with_reducible apply KeptX.next
    | with_reducible apply KeptX.ite
    | with_reducible apply Kept.ite
    | with_reducible apply Kept.count
    | with_reducible apply Kept.advanceHead
    | with_reducible apply Kept.wake
    | with_reducible apply Kept.reply
    | with_reducible apply Kept.foldl
    | with_reducible apply Kept.foldl_fst
    | intro _
    | (extract_lets +onlyGivenNames x; with_reducible refine Kept.cut (W := W) (s₀ := s₀) (s := x) ?_ (fun _ => ?_); (on_goal 1 => subst x); on_goal 2 => clear_value x)
    | (extract_lets +onlyGivenNames x; subst x)
    | split

theorem Kept.on_execNop (h : Kept W s₀ s) (_ : W .link) (_ : W .power) (_ : W .engCtr) (a1) : KeptX W s₀ (execNop a1 s) := by
  unfold execNop
  repeat' first
    | with_reducible assumption
    | with_reducible apply KeptX.next
    | with_reducible apply KeptX.ite
    | with_reducible apply Kept.ite
    | with_reducible apply Kept.runCmd
    | with_reducible apply Kept.on_noTake
    | with_reducible apply Kept.on_effNop
    | with_reducible apply Kept.foldl
    | with_reducible apply Kept.foldl_fst
    | intro _
    | (extract_lets +onlyGivenNames x; with_reducible refine Kept.cut (W := W) (s₀ := s₀) (s := x) ?_ (fun _ => ?_); (on_goal 1 => subst x); on_goal 2 => clear_value x)
    | (extract_lets +onlyGivenNames x; subst x)
    | split

theorem Kept.on_execPing (h : Kept W s₀ s) (_ : W .link) (_ : W .power) (_ : W .engCtr) (a1) : KeptX W s₀ (execPing a1 s) := by
  unfold execPing
  repeat' first
    | with_reducible assumption
    | with_reducible apply KeptX.next
    | with_reducible apply KeptX.ite
    | with_reducible apply Kept.ite
    | with_reducible apply Kept.runCmd
    | with_reducible apply Kept.on_noTake
    | with_reducible apply Kept.on_effPing
    | with_reducible apply Kept.foldl
    | with_reducible apply Kept.foldl_fst
    | intro _
    | (extract_lets +onlyGivenNames x; with_reducible refine Kept.cut (W := W) (s₀ := s₀) (s := x) ?_ (fun _ => ?_); (on_goal 1 => subst x); on_goal 2 => clear_value x)
    | (extract_lets +onlyGivenNames x; subst x)
    | split

theorem Kept.on_execPowerEnvelope (h : Kept W s₀ s) (_ : W .link) (_ : W .power) (_ : W .engCtr) (a1) : KeptX W s₀ (execPowerEnvelope a1 s) := by
  unfold execPowerEnvelope
  repeat' first
    | with_reducible assumption
    | with_reducible apply KeptX.next
    | with_reducible apply KeptX.ite
    | with_reducible apply Kept.ite
    | with_reducible apply Kept.runCmd
    | with_reducible apply Kept.on_noTake
    | with_reducible apply Kept.on_effPowerEnvelope
    | with_reducible apply Kept.foldl
    | with_reducible apply Kept.foldl_fst
    | intro _
    | (extract_lets +onlyGivenNames x; with_reducible refine Kept.cut (W := W) (s₀ := s₀) (s := x) ?_ (fun _ => ?_); (on_goal 1 => subst x); on_goal 2 => clear_value x)
    | (extract_lets +onlyGivenNames x; subst x)
    | split

theorem Kept.on_execQueryCaps (h : Kept W s₀ s) (_ : W .link) (_ : W .power) (_ : W .slices) (_ : W .ctxs) (_ : W .branches) (_ : W .engCtr) (_ : W .ctxCtr) (_ : W .mem) (a1) : KeptX W s₀ (execQueryCaps a1 s) := by
  unfold execQueryCaps
  repeat' first
    | with_reducible assumption
    | with_reducible apply KeptX.next
    | with_reducible apply KeptX.ite
    | with_reducible apply Kept.ite
    | with_reducible apply Kept.runCmd
    | with_reducible apply Kept.on_noTake
    | with_reducible apply Kept.on_effQueryCaps
    | with_reducible apply Kept.foldl
    | with_reducible apply Kept.foldl_fst
    | intro _
    | (extract_lets +onlyGivenNames x; with_reducible refine Kept.cut (W := W) (s₀ := s₀) (s := x) ?_ (fun _ => ?_); (on_goal 1 => subst x); on_goal 2 => clear_value x)
    | (extract_lets +onlyGivenNames x; subst x)
    | split

theorem Kept.on_execReadCounters (h : Kept W s₀ s) (_ : W .link) (_ : W .power) (_ : W .slices) (_ : W .ctxs) (_ : W .branches) (_ : W .engCtr) (_ : W .ctxCtr) (_ : W .mem) (a1) : KeptX W s₀ (execReadCounters a1 s) := by
  unfold execReadCounters
  repeat' first
    | with_reducible assumption
    | with_reducible apply KeptX.next
    | with_reducible apply KeptX.ite
    | with_reducible apply Kept.ite
    | with_reducible apply Kept.runCmd
    | with_reducible apply Kept.on_noTake
    | with_reducible apply Kept.on_effReadCounters
    | with_reducible apply Kept.foldl
    | with_reducible apply Kept.foldl_fst
    | intro _
    | (extract_lets +onlyGivenNames x; with_reducible refine Kept.cut (W := W) (s₀ := s₀) (s := x) ?_ (fun _ => ?_); (on_goal 1 => subst x); on_goal 2 => clear_value x)
    | (extract_lets +onlyGivenNames x; subst x)
    | split

theorem Kept.on_execRiskWeights (h : Kept W s₀ s) (_ : W .link) (_ : W .power) (_ : W .health) (_ : W .engCtr) (a1) : KeptX W s₀ (execRiskWeights a1 s) := by
  unfold execRiskWeights
  repeat' first
    | with_reducible assumption
    | with_reducible apply KeptX.next
    | with_reducible apply KeptX.ite
    | with_reducible apply Kept.ite
    | with_reducible apply Kept.runCmd
    | with_reducible apply Kept.on_noTake
    | with_reducible apply Kept.on_effRiskWeights
    | with_reducible apply Kept.foldl
    | with_reducible apply Kept.foldl_fst
    | intro _
    | (extract_lets +onlyGivenNames x; with_reducible refine Kept.cut (W := W) (s₀ := s₀) (s := x) ?_ (fun _ => ?_); (on_goal 1 => subst x); on_goal 2 => clear_value x)
    | (extract_lets +onlyGivenNames x; subst x)
    | split

theorem Kept.on_execSetEventMask (h : Kept W s₀ s) (_ : W .link) (_ : W .power) (_ : W .ctxs) (_ : W .engCtr) (a1) : KeptX W s₀ (execSetEventMask a1 s) := by
  unfold execSetEventMask
  repeat' first
    | with_reducible assumption
    | with_reducible apply KeptX.next
    | with_reducible apply KeptX.ite
    | with_reducible apply Kept.ite
    | with_reducible apply Kept.runCmd
    | with_reducible apply Kept.on_noTake
    | with_reducible apply Kept.on_effSetEventMask
    | with_reducible apply Kept.foldl
    | with_reducible apply Kept.foldl_fst
    | intro _
    | (extract_lets +onlyGivenNames x; with_reducible refine Kept.cut (W := W) (s₀ := s₀) (s := x) ?_ (fun _ => ?_); (on_goal 1 => subst x); on_goal 2 => clear_value x)
    | (extract_lets +onlyGivenNames x; subst x)
    | split

end Sys2Proof.Machine
end

