-- ==== Sys2Proof/Laws/KeptTiles.lean ====
section
/-!
SUPPORT. Laws/KeptTiles.lean: what each operation of Pools, TileMap, Regions, Crumbs, Fabric, Records, Tiers may change (`Kept`).
-/
namespace Sys2Proof.Machine
set_option linter.unreachableTactic false
set_option linter.unusedTactic false
set_option linter.tactic.unusedName false

variable {W : Part → Prop} {s₀ s t : State}

theorem Kept.placePool (h : Kept W s₀ s) (_ : W .ctxs) (a1 a2 a3) : Kept W s₀ (State.placePool s a1 a2 a3) := by
  unfold State.placePool
  repeat' first
    | with_reducible assumption
    | with_reducible apply Kept.ite
    | with_reducible apply Kept.modCtx
    | with_reducible apply Kept.foldl
    | with_reducible apply Kept.foldl_fst
    | intro _
    | (extract_lets +onlyGivenNames x; with_reducible refine Kept.cut (W := W) (s₀ := s₀) (s := x) ?_ (fun _ => ?_); (on_goal 1 => subst x); on_goal 2 => clear_value x)
    | (extract_lets +onlyGivenNames x; subst x)
    | split

theorem Kept.applyDefault (h : Kept W s₀ s) (_ : W .ctxs) (a1 a2) : Kept W s₀ (State.applyDefault s a1 a2) := by
  unfold State.applyDefault
  repeat' first
    | with_reducible assumption
    | with_reducible apply Kept.ite
    | with_reducible apply Kept.placePool
    | with_reducible apply Kept.foldl
    | with_reducible apply Kept.foldl_fst
    | intro _
    | (extract_lets +onlyGivenNames x; with_reducible refine Kept.cut (W := W) (s₀ := s₀) (s := x) ?_ (fun _ => ?_); (on_goal 1 => subst x); on_goal 2 => clear_value x)
    | (extract_lets +onlyGivenNames x; subst x)
    | split

theorem Kept.regionPools (h : Kept W s₀ s) (_ : W .ctxs) (a1) : Kept W s₀ (State.regionPools s a1) := by
  unfold State.regionPools
  repeat' first
    | with_reducible assumption
    | with_reducible apply Kept.ite
    | with_reducible apply Kept.each
    | with_reducible apply Kept.applyDefault
    | with_reducible apply Kept.foldl
    | with_reducible apply Kept.foldl_fst
    | intro _
    | (extract_lets +onlyGivenNames x; with_reducible refine Kept.cut (W := W) (s₀ := s₀) (s := x) ?_ (fun _ => ?_); (on_goal 1 => subst x); on_goal 2 => clear_value x)
    | (extract_lets +onlyGivenNames x; subst x)
    | split

theorem Kept.relieve (h : Kept W s₀ s) (_ : W .slices) (a1 a2) : Kept W s₀ (State.relieve s a1 a2) := by
  unfold State.relieve
  repeat' first
    | with_reducible assumption
    | with_reducible apply Kept.ite
    | with_reducible apply Kept.modSlice
    | with_reducible apply Kept.foldl
    | with_reducible apply Kept.foldl_fst
    | intro _
    | (extract_lets +onlyGivenNames x; with_reducible refine Kept.cut (W := W) (s₀ := s₀) (s := x) ?_ (fun _ => ?_); (on_goal 1 => subst x); on_goal 2 => clear_value x)
    | (extract_lets +onlyGivenNames x; subst x)
    | split

theorem Kept.relieveAll (h : Kept W s₀ s) (_ : W .slices) (a1) : Kept W s₀ (State.relieveAll s a1) := by
  unfold State.relieveAll
  repeat' first
    | with_reducible assumption
    | with_reducible apply Kept.ite
    | with_reducible apply Kept.each
    | with_reducible apply Kept.relieve
    | with_reducible apply Kept.foldl
    | with_reducible apply Kept.foldl_fst
    | intro _
    | (extract_lets +onlyGivenNames x; with_reducible refine Kept.cut (W := W) (s₀ := s₀) (s := x) ?_ (fun _ => ?_); (on_goal 1 => subst x); on_goal 2 => clear_value x)
    | (extract_lets +onlyGivenNames x; subst x)
    | split

theorem Kept.freeStack (h : Kept W s₀ s) (_ : W .slices) (a1 a2) : Kept W s₀ (State.freeStack s a1 a2) := by
  unfold State.freeStack
  repeat' first
    | with_reducible assumption
    | with_reducible apply Kept.ite
    | with_reducible apply Kept.modSlice
    | with_reducible apply Kept.foldl
    | with_reducible apply Kept.foldl_fst
    | intro _
    | (extract_lets +onlyGivenNames x; with_reducible refine Kept.cut (W := W) (s₀ := s₀) (s := x) ?_ (fun _ => ?_); (on_goal 1 => subst x); on_goal 2 => clear_value x)
    | (extract_lets +onlyGivenNames x; subst x)
    | split

theorem Kept.freeHomes (h : Kept W s₀ s) (_ : W .slices) (a1) : Kept W s₀ (State.freeHomes s a1) := by
  unfold State.freeHomes
  repeat' first
    | with_reducible assumption
    | with_reducible apply Kept.ite
    | with_reducible apply Kept.each
    | with_reducible apply Kept.freeStack
    | with_reducible apply Kept.foldl
    | with_reducible apply Kept.foldl_fst
    | intro _
    | (extract_lets +onlyGivenNames x; with_reducible refine Kept.cut (W := W) (s₀ := s₀) (s := x) ?_ (fun _ => ?_); (on_goal 1 => subst x); on_goal 2 => clear_value x)
    | (extract_lets +onlyGivenNames x; subst x)
    | split

theorem Kept.loadMap (h : Kept W s₀ s) (_ : W .slices) (_ : W .ctxs) (a1 a2 a3 a4 a5 a6 a7) : Kept W s₀ (State.loadMap s a1 a2 a3 a4 a5 a6 a7) := by
  unfold State.loadMap
  repeat' first
    | with_reducible assumption
    | with_reducible apply Kept.ite
    | with_reducible apply Kept.freeHomes
    | with_reducible apply Kept.modCtx
    | with_reducible apply Kept.foldl
    | with_reducible apply Kept.foldl_fst
    | intro _
    | (extract_lets +onlyGivenNames x; with_reducible refine Kept.cut (W := W) (s₀ := s₀) (s := x) ?_ (fun _ => ?_); (on_goal 1 => subst x); on_goal 2 => clear_value x)
    | (extract_lets +onlyGivenNames x; subst x)
    | split

theorem Kept.setTilemap (h : Kept W s₀ s) (_ : W .slices) (_ : W .ctxs) (a1) : Kept W s₀ (State.setTilemap s a1) := by
  unfold State.setTilemap
  repeat' first
    | with_reducible assumption
    | with_reducible apply Kept.ite
    | with_reducible apply Kept.loadMap
    | with_reducible apply Kept.foldl
    | with_reducible apply Kept.foldl_fst
    | intro _
    | (extract_lets +onlyGivenNames x; with_reducible refine Kept.cut (W := W) (s₀ := s₀) (s := x) ?_ (fun _ => ?_); (on_goal 1 => subst x); on_goal 2 => clear_value x)
    | (extract_lets +onlyGivenNames x; subst x)
    | split

theorem Kept.withRegion (h : Kept W s₀ s) (_ : W .ctxs) (a1 a2 a3) : Kept W s₀ (State.withRegion s a1 a2 a3) := by
  unfold State.withRegion
  repeat' first
    | with_reducible assumption
    | with_reducible apply Kept.ite
    | with_reducible apply Kept.modCtx
    | with_reducible apply Kept.foldl
    | with_reducible apply Kept.foldl_fst
    | intro _
    | (extract_lets +onlyGivenNames x; with_reducible refine Kept.cut (W := W) (s₀ := s₀) (s := x) ?_ (fun _ => ?_); (on_goal 1 => subst x); on_goal 2 => clear_value x)
    | (extract_lets +onlyGivenNames x; subst x)
    | split

theorem Kept.exemptStack (h : Kept W s₀ s) (_ : W .slices) (_ : W .ctxs) (a1 a2) : Kept W s₀ (State.exemptStack s a1 a2) := by
  unfold State.exemptStack
  repeat' first
    | with_reducible assumption
    | with_reducible apply Kept.ite
    | with_reducible apply Kept.modTile
    | with_reducible apply Kept.modSlice
    | with_reducible apply Kept.foldl
    | with_reducible apply Kept.foldl_fst
    | intro _
    | (extract_lets +onlyGivenNames x; with_reducible refine Kept.cut (W := W) (s₀ := s₀) (s := x) ?_ (fun _ => ?_); (on_goal 1 => subst x); on_goal 2 => clear_value x)
    | (extract_lets +onlyGivenNames x; subst x)
    | split

theorem Kept.mergeOne (h : Kept W s₀ s) (_ : W .slices) (_ : W .ctxs) (a1) : Kept W s₀ (State.mergeOne s a1) := by
  unfold State.mergeOne
  repeat' first
    | with_reducible assumption
    | with_reducible apply Kept.ite
    | with_reducible apply Kept.each
    | with_reducible apply Kept.exemptStack
    | with_reducible apply Kept.modSlice
    | with_reducible apply Kept.foldl
    | with_reducible apply Kept.foldl_fst
    | intro _
    | (extract_lets +onlyGivenNames x; with_reducible refine Kept.cut (W := W) (s₀ := s₀) (s := x) ?_ (fun _ => ?_); (on_goal 1 => subst x); on_goal 2 => clear_value x)
    | (extract_lets +onlyGivenNames x; subst x)
    | split

theorem Kept.coarsen (h : Kept W s₀ s) (_ : W .slices) (_ : W .ctxs) (i need f) : Kept W s₀ (s.coarsen i need f) := by
  induction f generalizing s with
  | zero => exact h
  | succ f ih =>
    unfold State.coarsen
    split
    · exact h
    · repeat' first
        | with_reducible assumption
        | with_reducible apply ih
        | with_reducible apply Kept.mergeOne

theorem Kept.noteCoarse (h : Kept W s₀ s) (_ : W .slices) (_ : W .slcCtr) (a1) : Kept W s₀ (State.noteCoarse s a1) := by
  unfold State.noteCoarse
  repeat' first
    | with_reducible assumption
    | with_reducible apply Kept.ite
    | with_reducible apply Kept.modSlice
    | with_reducible apply Kept.countSlice
    | with_reducible apply Kept.foldl
    | with_reducible apply Kept.foldl_fst
    | intro _
    | (extract_lets +onlyGivenNames x; with_reducible refine Kept.cut (W := W) (s₀ := s₀) (s := x) ?_ (fun _ => ?_); (on_goal 1 => subst x); on_goal 2 => clear_value x)
    | (extract_lets +onlyGivenNames x; subst x)
    | split

theorem Kept.installRun (h : Kept W s₀ s) (_ : W .slices) (_ : W .ctxs) (a1 a2 a3) : Kept W s₀ (State.installRun s a1 a2 a3) := by
  unfold State.installRun
  repeat' first
    | with_reducible assumption
    | with_reducible apply Kept.ite
    | with_reducible apply Kept.mergeOne
    | with_reducible apply Kept.modSlice
    | with_reducible apply Kept.foldl
    | with_reducible apply Kept.foldl_fst
    | intro _
    | (extract_lets +onlyGivenNames x; with_reducible refine Kept.cut (W := W) (s₀ := s₀) (s := x) ?_ (fun _ => ?_); (on_goal 1 => subst x); on_goal 2 => clear_value x)
    | (extract_lets +onlyGivenNames x; subst x)
    | split

theorem Kept.normalTile (h : Kept W s₀ s) (_ : W .slices) (_ : W .ctxs) (a1 a2) : Kept W s₀ (State.normalTile s a1 a2) := by
  unfold State.normalTile
  repeat' first
    | with_reducible assumption
    | with_reducible apply Kept.ite
    | with_reducible apply Kept.modTile
    | with_reducible apply Kept.modSlice
    | with_reducible apply Kept.foldl
    | with_reducible apply Kept.foldl_fst
    | intro _
    | (extract_lets +onlyGivenNames x; with_reducible refine Kept.cut (W := W) (s₀ := s₀) (s := x) ?_ (fun _ => ?_); (on_goal 1 => subst x); on_goal 2 => clear_value x)
    | (extract_lets +onlyGivenNames x; subst x)
    | split

theorem Kept.protect (h : Kept W s₀ s) (_ : W .slices) (_ : W .ctxs) (_ : W .slcCtr) (a1 a2) : Kept W s₀ (State.protect s a1 a2).1 := by
  unfold State.protect
  repeat' first
    | with_reducible assumption
    | with_reducible apply Kept.ite
    | with_reducible apply Kept.coarsen
    | with_reducible apply Kept.noteCoarse
    | with_reducible apply Kept.each
    | with_reducible apply Kept.installRun
    | with_reducible apply Kept.normalTile
    | with_reducible apply Kept.foldl
    | with_reducible apply Kept.foldl_fst
    | intro _
    | (extract_lets +onlyGivenNames x; with_reducible refine Kept.cut (W := W) (s₀ := s₀) (s := x) ?_ (fun _ => ?_); (on_goal 1 => subst x); on_goal 2 => clear_value x)
    | (extract_lets +onlyGivenNames x; subst x)
    | split
    | (dsimp only)

theorem Kept.awaitSeal (h : Kept W s₀ s) (_ : W .link) (_ : W .slices) (_ : W .ctxs) (_ : W .slcCtr) (a1 a2 a3 a4 a5) : Kept W s₀ (State.awaitSeal s a1 a2 a3 a4 a5) := by
  unfold State.awaitSeal
  repeat' first
    | with_reducible assumption
    | with_reducible apply Kept.ite
    | with_reducible apply Kept.withRegion
    | with_reducible apply Kept.regionPools
    | with_reducible apply Kept.modCtx
    | with_reducible apply Kept.protect
    | with_reducible apply Kept.modAdm
    | with_reducible apply Kept.defer
    | with_reducible refine Kept.fst (by assumption) ?_
    | with_reducible apply Kept.foldl
    | with_reducible apply Kept.foldl_fst
    | intro _
    | (extract_lets +onlyGivenNames x; with_reducible refine Kept.cut (W := W) (s₀ := s₀) (s := x) ?_ (fun _ => ?_); (on_goal 1 => subst x); on_goal 2 => clear_value x)
    | (extract_lets +onlyGivenNames x; subst x)
    | split

theorem Kept.dropCrumbs (h : Kept W s₀ s) (_ : W .slices) (_ : W .ctxs) (a1 a2) : Kept W s₀ (State.dropCrumbs s a1 a2) := by
  unfold State.dropCrumbs
  repeat' first
    | with_reducible assumption
    | with_reducible apply Kept.ite
    | with_reducible apply Kept.relieveAll
    | with_reducible apply Kept.each
    | with_reducible apply Kept.modTile
    | with_reducible apply Kept.foldl
    | with_reducible apply Kept.foldl_fst
    | intro _
    | (extract_lets +onlyGivenNames x; with_reducible refine Kept.cut (W := W) (s₀ := s₀) (s := x) ?_ (fun _ => ?_); (on_goal 1 => subst x); on_goal 2 => clear_value x)
    | (extract_lets +onlyGivenNames x; subst x)
    | split

theorem Kept.unprotect (h : Kept W s₀ s) (_ : W .slices) (_ : W .ctxs) (a1 a2) : Kept W s₀ (State.unprotect s a1 a2) := by
  unfold State.unprotect
  repeat' first
    | with_reducible assumption
    | with_reducible apply Kept.ite
    | with_reducible apply Kept.each
    | with_reducible apply Kept.exemptStack
    | with_reducible apply Kept.modSlice
    | with_reducible apply Kept.foldl
    | with_reducible apply Kept.foldl_fst
    | intro _
    | (extract_lets +onlyGivenNames x; with_reducible refine Kept.cut (W := W) (s₀ := s₀) (s := x) ?_ (fun _ => ?_); (on_goal 1 => subst x); on_goal 2 => clear_value x)
    | (extract_lets +onlyGivenNames x; subst x)
    | split

theorem Kept.changeNow (h : Kept W s₀ s) (_ : W .slices) (_ : W .ctxs) (_ : W .slcCtr) (a1 a2 a3 a4) : Kept W s₀ (State.changeNow s a1 a2 a3 a4).1 := by
  unfold State.changeNow
  repeat' first
    | with_reducible assumption
    | with_reducible apply Kept.ite
    | with_reducible apply Kept.withRegion
    | with_reducible apply Kept.dropCrumbs
    | with_reducible apply Kept.unprotect
    | with_reducible apply Kept.protect
    | with_reducible apply Kept.regionPools
    | with_reducible refine Kept.fst (by assumption) ?_
    | with_reducible apply Kept.foldl
    | with_reducible apply Kept.foldl_fst
    | intro _
    | (extract_lets +onlyGivenNames x; with_reducible refine Kept.cut (W := W) (s₀ := s₀) (s := x) ?_ (fun _ => ?_); (on_goal 1 => subst x); on_goal 2 => clear_value x)
    | (extract_lets +onlyGivenNames x; subst x)
    | split
    | (dsimp only)

theorem Kept.changeSeal (h : Kept W s₀ s) (_ : W .link) (_ : W .slices) (_ : W .ctxs) (a1) : Kept W s₀ (State.changeSeal s a1) := by
  unfold State.changeSeal
  repeat' first
    | with_reducible assumption
    | with_reducible apply Kept.ite
    | with_reducible apply Kept.each
    | with_reducible apply Kept.withRegion
    | with_reducible apply Kept.modTile
    | with_reducible apply Kept.unprotect
    | with_reducible apply Kept.trap
    | with_reducible apply Kept.modCtx
    | with_reducible apply Kept.finish
    | with_reducible apply Kept.regionPools
    | with_reducible apply Kept.relieveAll
    | with_reducible apply Kept.foldl
    | with_reducible apply Kept.foldl_fst
    | intro _
    | (extract_lets +onlyGivenNames x; with_reducible refine Kept.cut (W := W) (s₀ := s₀) (s := x) ?_ (fun _ => ?_); (on_goal 1 => subst x); on_goal 2 => clear_value x)
    | (extract_lets +onlyGivenNames x; subst x)
    | split

theorem Kept.on_effRegionDefine (h : Kept W s₀ s) (_ : W .link) (_ : W .slices) (_ : W .ctxs) (_ : W .slcCtr) (a1) : Kept W s₀ (effRegionDefine a1 s) := by
  unfold effRegionDefine
  repeat' first
    | with_reducible assumption
    | with_reducible apply Kept.ite
    | with_reducible apply Kept.awaitSeal
    | with_reducible apply Kept.changeNow
    | with_reducible apply Kept.done
    | with_reducible refine Kept.fst (by assumption) ?_
    | with_reducible apply Kept.foldl
    | with_reducible apply Kept.foldl_fst
    | intro _
    | (extract_lets +onlyGivenNames x; with_reducible refine Kept.cut (W := W) (s₀ := s₀) (s := x) ?_ (fun _ => ?_); (on_goal 1 => subst x); on_goal 2 => clear_value x)
    | (extract_lets +onlyGivenNames x; subst x)
    | split

theorem Kept.on_effRegionRelease (h : Kept W s₀ s) (_ : W .link) (_ : W .slices) (_ : W .ctxs) (_ : W .slcCtr) (a1) : Kept W s₀ (effRegionRelease a1 s) := by
  unfold effRegionRelease
  repeat' first
    | with_reducible assumption
    | with_reducible apply Kept.ite
    | with_reducible apply Kept.awaitSeal
    | with_reducible apply Kept.done
    | with_reducible apply Kept.changeNow
    | with_reducible refine Kept.fst (by assumption) ?_
    | with_reducible apply Kept.foldl
    | with_reducible apply Kept.foldl_fst
    | intro _
    | (extract_lets +onlyGivenNames x; with_reducible refine Kept.cut (W := W) (s₀ := s₀) (s := x) ?_ (fun _ => ?_); (on_goal 1 => subst x); on_goal 2 => clear_value x)
    | (extract_lets +onlyGivenNames x; subst x)
    | split

theorem Kept.on_effRegionSetClass (h : Kept W s₀ s) (_ : W .link) (_ : W .slices) (_ : W .ctxs) (_ : W .slcCtr) (a1) : Kept W s₀ (effRegionSetClass a1 s) := by
  unfold effRegionSetClass
  repeat' first
    | with_reducible assumption
    | with_reducible apply Kept.ite
    | with_reducible apply Kept.awaitSeal
    | with_reducible apply Kept.done
    | with_reducible apply Kept.changeNow
    | with_reducible refine Kept.fst (by assumption) ?_
    | with_reducible apply Kept.foldl
    | with_reducible apply Kept.foldl_fst
    | intro _
    | (extract_lets +onlyGivenNames x; with_reducible refine Kept.cut (W := W) (s₀ := s₀) (s := x) ?_ (fun _ => ?_); (on_goal 1 => subst x); on_goal 2 => clear_value x)
    | (extract_lets +onlyGivenNames x; subst x)
    | split

theorem Kept.on_execRegionDefine (h : Kept W s₀ s) (_ : W .link) (_ : W .power) (_ : W .slices) (_ : W .ctxs) (_ : W .engCtr) (_ : W .slcCtr) (a1) : KeptX W s₀ (execRegionDefine a1 s) := by
  unfold execRegionDefine
  repeat' first
    | with_reducible assumption
    | with_reducible apply KeptX.next
    | with_reducible apply KeptX.ite
    | with_reducible apply Kept.ite
    | with_reducible apply Kept.runCmd
    | with_reducible apply Kept.on_noTake
    | with_reducible apply Kept.on_effRegionDefine
    | with_reducible apply Kept.foldl
    | with_reducible apply Kept.foldl_fst
    | intro _
    | (extract_lets +onlyGivenNames x; with_reducible refine Kept.cut (W := W) (s₀ := s₀) (s := x) ?_ (fun _ => ?_); (on_goal 1 => subst x); on_goal 2 => clear_value x)
    | (extract_lets +onlyGivenNames x; subst x)
    | split

theorem Kept.on_execRegionRelease (h : Kept W s₀ s) (_ : W .link) (_ : W .power) (_ : W .slices) (_ : W .ctxs) (_ : W .engCtr) (_ : W .slcCtr) (a1) : KeptX W s₀ (execRegionRelease a1 s) := by
  unfold execRegionRelease
  repeat' first
    | with_reducible assumption
    | with_reducible apply KeptX.next
    | with_reducible apply KeptX.ite
    | with_reducible apply Kept.ite
    | with_reducible apply Kept.runCmd
    | with_reducible apply Kept.on_noTake
    | with_reducible apply Kept.on_effRegionRelease
    | with_reducible apply Kept.foldl
    | with_reducible apply Kept.foldl_fst
    | intro _
    | (extract_lets +onlyGivenNames x; with_reducible refine Kept.cut (W := W) (s₀ := s₀) (s := x) ?_ (fun _ => ?_); (on_goal 1 => subst x); on_goal 2 => clear_value x)
    | (extract_lets +onlyGivenNames x; subst x)
    | split

theorem Kept.on_execRegionSetClass (h : Kept W s₀ s) (_ : W .link) (_ : W .power) (_ : W .slices) (_ : W .ctxs) (_ : W .engCtr) (_ : W .slcCtr) (a1) : KeptX W s₀ (execRegionSetClass a1 s) := by
  unfold execRegionSetClass
  repeat' first
    | with_reducible assumption
    | with_reducible apply KeptX.next
    | with_reducible apply KeptX.ite
    | with_reducible apply Kept.ite
    | with_reducible apply Kept.runCmd
    | with_reducible apply Kept.on_noTake
    | with_reducible apply Kept.on_effRegionSetClass
    | with_reducible apply Kept.foldl
    | with_reducible apply Kept.foldl_fst
    | intro _
    | (extract_lets +onlyGivenNames x; with_reducible refine Kept.cut (W := W) (s₀ := s₀) (s := x) ?_ (fun _ => ?_); (on_goal 1 => subst x); on_goal 2 => clear_value x)
    | (extract_lets +onlyGivenNames x; subst x)
    | split

theorem Kept.countCrumb (h : Kept W s₀ s) (_ : W .ctxCtr) (a1 a2 a3 a4) : Kept W s₀ (State.countCrumb s a1 a2 a3 a4) := by
  unfold State.countCrumb
  repeat' first
    | with_reducible assumption
    | with_reducible apply Kept.ite
    | with_reducible apply Kept.countCtx
    | with_reducible apply Kept.foldl
    | with_reducible apply Kept.foldl_fst
    | intro _
    | (extract_lets +onlyGivenNames x; with_reducible refine Kept.cut (W := W) (s₀ := s₀) (s := x) ?_ (fun _ => ?_); (on_goal 1 => subst x); on_goal 2 => clear_value x)
    | (extract_lets +onlyGivenNames x; subst x)
    | split

theorem Kept.pressureEvent (h : Kept W s₀ s) (_ : W .link) (_ : W .engCtr) (a1 a2 a3) : Kept W s₀ (State.pressureEvent s a1 a2 a3) := by
  unfold State.pressureEvent
  repeat' first
    | with_reducible assumption
    | with_reducible apply Kept.ite
    | with_reducible apply Kept.emit
    | with_reducible apply Kept.foldl
    | with_reducible apply Kept.foldl_fst
    | intro _
    | (extract_lets +onlyGivenNames x; with_reducible refine Kept.cut (W := W) (s₀ := s₀) (s := x) ?_ (fun _ => ?_); (on_goal 1 => subst x); on_goal 2 => clear_value x)
    | (extract_lets +onlyGivenNames x; subst x)
    | split

theorem Kept.press (h : Kept W s₀ s) (_ : W .link) (_ : W .slices) (_ : W .engCtr) (_ : W .ctxCtr) (a1 a2) : Kept W s₀ (State.press s a1 a2) := by
  unfold State.press
  repeat' first
    | with_reducible assumption
    | with_reducible apply Kept.ite
    | with_reducible apply Kept.modSlice
    | with_reducible apply Kept.pressureEvent
    | with_reducible apply Kept.countCtx
    | with_reducible apply Kept.foldl
    | with_reducible apply Kept.foldl_fst
    | intro _
    | (extract_lets +onlyGivenNames x; with_reducible refine Kept.cut (W := W) (s₀ := s₀) (s := x) ?_ (fun _ => ?_); (on_goal 1 => subst x); on_goal 2 => clear_value x)
    | (extract_lets +onlyGivenNames x; subst x)
    | split

theorem Kept.putRec (h : Kept W s₀ s) (_ : W .link) (_ : W .slices) (_ : W .ctxs) (_ : W .engCtr) (_ : W .ctxCtr) (a1 a2 a3) : Kept W s₀ (State.putRec s a1 a2 a3) := by
  unfold State.putRec
  repeat' first
    | with_reducible assumption
    | with_reducible apply Kept.ite
    | with_reducible apply Kept.modSlice
    | with_reducible apply Kept.modTile
    | with_reducible apply Kept.relieve
    | with_reducible apply Kept.press
    | with_reducible apply Kept.foldl
    | with_reducible apply Kept.foldl_fst
    | intro _
    | (extract_lets +onlyGivenNames x; with_reducible refine Kept.cut (W := W) (s₀ := s₀) (s := x) ?_ (fun _ => ?_); (on_goal 1 => subst x); on_goal 2 => clear_value x)
    | (extract_lets +onlyGivenNames x; subst x)
    | split

theorem Kept.fileCrumb (h : Kept W s₀ s) (_ : W .link) (_ : W .slices) (_ : W .ctxs) (_ : W .engCtr) (_ : W .ctxCtr) (a1 a2 a3 a4 a5) : Kept W s₀ (State.fileCrumb s a1 a2 a3 a4 a5) := by
  unfold State.fileCrumb
  repeat' first
    | with_reducible assumption
    | with_reducible apply Kept.ite
    | with_reducible apply Kept.countCrumb
    | with_reducible apply Kept.putRec
    | with_reducible apply Kept.foldl
    | with_reducible apply Kept.foldl_fst
    | intro _
    | (extract_lets +onlyGivenNames x; with_reducible refine Kept.cut (W := W) (s₀ := s₀) (s := x) ?_ (fun _ => ?_); (on_goal 1 => subst x); on_goal 2 => clear_value x)
    | (extract_lets +onlyGivenNames x; subst x)
    | split

theorem Kept.holdFrame (h : Kept W s₀ s) (_ : W .link) (_ : W .ctxs) (_ : W .engCtr) (_ : W .ctxCtr) (a1 a2) : Kept W s₀ (State.holdFrame s a1 a2) := by
  unfold State.holdFrame
  repeat' first
    | with_reducible assumption
    | with_reducible apply Kept.pressureEvent
    | with_reducible apply Kept.countCtx
    | with_reducible apply Kept.modCtx
    | with_reducible apply Kept.ite
    | with_reducible apply Kept.foldl
    | with_reducible apply Kept.foldl_fst
    | intro _
    | (extract_lets +onlyGivenNames x; with_reducible refine Kept.cut (W := W) (s₀ := s₀) (s := x) ?_ (fun _ => ?_); (on_goal 1 => subst x); on_goal 2 => clear_value x)
    | (extract_lets +onlyGivenNames x; subst x)
    | split

theorem Kept.holdStage (h : Kept W s₀ s) (_ : W .link) (_ : W .slices) (_ : W .ctxs) (_ : W .engCtr) (_ : W .ctxCtr) (a1 a2) : Kept W s₀ (State.holdStage s a1 a2) := by
  unfold State.holdStage
  repeat' first
    | with_reducible assumption
    | with_reducible apply Kept.holdFrame
    | with_reducible apply Kept.ite
    | with_reducible apply Kept.modSlice
    | with_reducible apply Kept.modCtx
    | with_reducible apply Kept.pressureEvent
    | with_reducible apply Kept.countCtx
    | with_reducible apply Kept.foldl
    | with_reducible apply Kept.foldl_fst
    | intro _
    | (extract_lets +onlyGivenNames x; with_reducible refine Kept.cut (W := W) (s₀ := s₀) (s := x) ?_ (fun _ => ?_); (on_goal 1 => subst x); on_goal 2 => clear_value x)
    | (extract_lets +onlyGivenNames x; subst x)
    | split

theorem Kept.spillTile (h : Kept W s₀ s) (_ : W .ctxs) (_ : W .ctxCtr) (a1 a2) : Kept W s₀ (State.spillTile s a1 a2) := by
  unfold State.spillTile
  repeat' first
    | with_reducible assumption
    | with_reducible apply Kept.ite
    | with_reducible apply Kept.countCtx
    | with_reducible apply Kept.modTile
    | with_reducible apply Kept.foldl
    | with_reducible apply Kept.foldl_fst
    | intro _
    | (extract_lets +onlyGivenNames x; with_reducible refine Kept.cut (W := W) (s₀ := s₀) (s := x) ?_ (fun _ => ?_); (on_goal 1 => subst x); on_goal 2 => clear_value x)
    | (extract_lets +onlyGivenNames x; subst x)
    | split

theorem Kept.spillFor (h : Kept W s₀ s) (_ : W .ctxs) (_ : W .ctxCtr) (c t upd l) : KeptO W s₀ (s.spillFor c t upd l) := by
  induction l generalizing s with
  | nil => exact KeptO.none
  | cons v vs ih =>
    unfold State.spillFor
    have h1 : Kept W s₀ (s.spillTile c v) := by with_reducible apply Kept.spillTile <;> with_reducible assumption
    dsimp only
    split
    · exact KeptO.some h1
    · exact ih h1

theorem Kept.makeRoom (h : Kept W s₀ s) (_ : W .link) (_ : W .ctxs) (_ : W .engCtr) (_ : W .ctxCtr) (a1 a2 a3) : KeptO W s₀ (State.makeRoom s a1 a2 a3) := by
  unfold State.makeRoom
  repeat' first
    | with_reducible assumption
    | with_reducible exact KeptO.none
    | with_reducible apply KeptO.some
    | with_reducible apply KeptO.ite
    | with_reducible apply Kept.ite
    | with_reducible apply Kept.spillFor
    | with_reducible apply Kept.countCtx
    | with_reducible apply Kept.modCtx
    | with_reducible apply Kept.pressureEvent
    | with_reducible refine KeptO.get ?_ (by assumption)
    | with_reducible apply Kept.foldl
    | with_reducible apply Kept.foldl_fst
    | with_reducible apply KeptO.foldlO
    | with_reducible refine KeptO.get (by assumption) rfl
    | intro _
    | (extract_lets +onlyGivenNames x; with_reducible refine Kept.cut (W := W) (s₀ := s₀) (s := x) ?_ (fun _ => ?_); (on_goal 1 => subst x); on_goal 2 => clear_value x)
    | (extract_lets +onlyGivenNames x; subst x)
    | split

theorem Kept.on_execBackgroundFold (h : Kept W s₀ s) (_ : W .link) (_ : W .slices) (_ : W .ctxs) (_ : W .engCtr) (_ : W .ctxCtr) (_ : W .freeIdx) (a1 a2) : KeptX W s₀ (execBackgroundFold a1 a2 s) := by
  unfold execBackgroundFold
  repeat' first
    | with_reducible assumption
    | with_reducible apply KeptX.next
    | with_reducible apply KeptX.ite
    | with_reducible apply Kept.ite
    | with_reducible apply Kept.free
    | with_reducible apply Kept.makeRoom
    | with_reducible apply Kept.countCtx
    | with_reducible apply Kept.putRec
    | with_reducible exact KeptO.none
    | with_reducible apply KeptO.some
    | with_reducible apply KeptO.ite
    | with_reducible refine KeptO.get ?_ (by assumption)
    | with_reducible refine Kept.snd (by assumption) ?_
    | with_reducible apply Kept.foldl
    | with_reducible apply Kept.foldl_fst
    | intro _
    | (extract_lets +onlyGivenNames x; with_reducible refine Kept.cut (W := W) (s₀ := s₀) (s := x) ?_ (fun _ => ?_); (on_goal 1 => subst x); on_goal 2 => clear_value x)
    | (extract_lets +onlyGivenNames x; subst x)
    | split

theorem Kept.risk (h : Kept W s₀ s) (_ : W .health) (a1 a2) : Kept W s₀ (State.risk s a1 a2) := by
  unfold State.risk
  repeat' first
    | with_reducible assumption
    | with_reducible apply Kept.ite
    | with_reducible apply Kept.foldl
    | with_reducible apply Kept.foldl_fst
    | intro _
    | (extract_lets +onlyGivenNames x; with_reducible refine Kept.cut (W := W) (s₀ := s₀) (s := x) ?_ (fun _ => ?_); (on_goal 1 => subst x); on_goal 2 => clear_value x)
    | (extract_lets +onlyGivenNames x; subst x)
    | split
    | with_reducible apply Kept.set_health

theorem Kept.drop (h : Kept W s₀ s) (_ : W .health) (_ : W .engCtr) (a1 a2) : Kept W s₀ (State.drop s a1 a2) := by
  unfold State.drop
  repeat' first
    | with_reducible assumption
    | with_reducible apply Kept.ite
    | with_reducible apply Kept.countPeel
    | with_reducible apply Kept.risk
    | with_reducible apply Kept.foldl
    | with_reducible apply Kept.foldl_fst
    | intro _
    | (extract_lets +onlyGivenNames x; with_reducible refine Kept.cut (W := W) (s₀ := s₀) (s := x) ?_ (fun _ => ?_); (on_goal 1 => subst x); on_goal 2 => clear_value x)
    | (extract_lets +onlyGivenNames x; subst x)
    | split

theorem Kept.modSign (h : Kept W s₀ s) (_ : W .fab) (a1 a2 a3) : Kept W s₀ (State.modSign s a1 a2 a3) := by
  unfold State.modSign
  repeat' first
    | with_reducible assumption
    | with_reducible apply Kept.ite
    | with_reducible apply Kept.foldl
    | with_reducible apply Kept.foldl_fst
    | intro _
    | (extract_lets +onlyGivenNames x; with_reducible refine Kept.cut (W := W) (s₀ := s₀) (s := x) ?_ (fun _ => ?_); (on_goal 1 => subst x); on_goal 2 => clear_value x)
    | (extract_lets +onlyGivenNames x; subst x)
    | split
    | with_reducible apply Kept.set_fab

theorem Kept.lostIn (h : Kept W s₀ s) (_ : W .link) (_ : W .fab) (_ : W .engCtr) (_ : W .ctxCtr) (a1 a2 a3) : Kept W s₀ (State.lostIn s a1 a2 a3) := by
  unfold State.lostIn
  repeat' first
    | with_reducible assumption
    | with_reducible apply Kept.ite
    | with_reducible apply Kept.countCtx
    | with_reducible apply Kept.modSign
    | with_reducible apply Kept.emit
    | with_reducible apply Kept.foldl
    | with_reducible apply Kept.foldl_fst
    | intro _
    | (extract_lets +onlyGivenNames x; with_reducible refine Kept.cut (W := W) (s₀ := s₀) (s := x) ?_ (fun _ => ?_); (on_goal 1 => subst x); on_goal 2 => clear_value x)
    | (extract_lets +onlyGivenNames x; subst x)
    | split

theorem Kept.lost (h : Kept W s₀ s) (_ : W .link) (_ : W .fab) (_ : W .engCtr) (_ : W .ctxCtr) (a1 a2) : Kept W s₀ (State.lost s a1 a2) := by
  unfold State.lost
  repeat' first
    | with_reducible assumption
    | with_reducible apply Kept.ite
    | with_reducible apply Kept.each
    | with_reducible apply Kept.lostIn
    | with_reducible apply Kept.foldl
    | with_reducible apply Kept.foldl_fst
    | intro _
    | (extract_lets +onlyGivenNames x; with_reducible refine Kept.cut (W := W) (s₀ := s₀) (s := x) ?_ (fun _ => ?_); (on_goal 1 => subst x); on_goal 2 => clear_value x)
    | (extract_lets +onlyGivenNames x; subst x)
    | split

theorem Kept.reject (h : Kept W s₀ s) (_ : W .link) (_ : W .fab) (_ : W .health) (_ : W .engCtr) (_ : W .ctxCtr) (a1 a2 a3 a4 a5 a6) : Kept W s₀ (State.reject s a1 a2 a3 a4 a5 a6) := by
  unfold State.reject
  repeat' first
    | with_reducible assumption
    | with_reducible apply Kept.lost
    | with_reducible apply Kept.ite
    | with_reducible apply Kept.countCtx
    | with_reducible apply Kept.drop
    | with_reducible apply Kept.modSign
    | with_reducible apply Kept.emit
    | with_reducible apply Kept.lostIn
    | with_reducible apply Kept.foldl
    | with_reducible apply Kept.foldl_fst
    | intro _
    | (extract_lets +onlyGivenNames x; with_reducible refine Kept.cut (W := W) (s₀ := s₀) (s := x) ?_ (fun _ => ?_); (on_goal 1 => subst x); on_goal 2 => clear_value x)
    | (extract_lets +onlyGivenNames x; subst x)
    | split

theorem Kept.admitXfer (h : Kept W s₀ s) (_ : W .link) (_ : W .fab) (_ : W .health) (_ : W .engCtr) (_ : W .ctxCtr) (a1 a2) : Kept W s₀ (State.admitXfer s a1 a2).1 := by
  unfold State.admitXfer
  repeat' first
    | with_reducible assumption
    | with_reducible apply Kept.ite
    | with_reducible apply Kept.countPeel
    | with_reducible apply Kept.drop
    | with_reducible apply Kept.count
    | with_reducible apply Kept.reject
    | with_reducible apply Kept.foldl
    | with_reducible apply Kept.foldl_fst
    | intro _
    | (extract_lets +onlyGivenNames x; with_reducible refine Kept.cut (W := W) (s₀ := s₀) (s := x) ?_ (fun _ => ?_); (on_goal 1 => subst x); on_goal 2 => clear_value x)
    | (extract_lets +onlyGivenNames x; subst x)
    | split
    | (dsimp only)

theorem Kept.chargeFabric (h : Kept W s₀ s) (_ : W .frames) (_ : W .engCtr) (a1 a2 a3 a4) : Kept W s₀ (State.chargeFabric s a1 a2 a3 a4) := by
  unfold State.chargeFabric
  repeat' first
    | with_reducible assumption
    | with_reducible apply Kept.ite
    | with_reducible apply Kept.count
    | with_reducible apply Kept.foldl
    | with_reducible apply Kept.foldl_fst
    | intro _
    | (extract_lets +onlyGivenNames x; with_reducible refine Kept.cut (W := W) (s₀ := s₀) (s := x) ?_ (fun _ => ?_); (on_goal 1 => subst x); on_goal 2 => clear_value x)
    | (extract_lets +onlyGivenNames x; subst x)
    | split
    | with_reducible apply Kept.set_frames

theorem Kept.poisonCtr (h : Kept W s₀ s) (_ : W .poison) (a1) : Kept W s₀ (State.poisonCtr s a1) := by
  unfold State.poisonCtr
  repeat' first
    | with_reducible assumption
    | with_reducible apply Kept.ite
    | with_reducible apply Kept.foldl
    | with_reducible apply Kept.foldl_fst
    | intro _
    | (extract_lets +onlyGivenNames x; with_reducible refine Kept.cut (W := W) (s₀ := s₀) (s := x) ?_ (fun _ => ?_); (on_goal 1 => subst x); on_goal 2 => clear_value x)
    | (extract_lets +onlyGivenNames x; subst x)
    | split
    | with_reducible apply Kept.set_poison

theorem Kept.countUnit (h : Kept W s₀ s) (_ : W .engCtr) (_ : W .slcCtr) (a1 a2 a3) : Kept W s₀ (State.countUnit s a1 a2 a3) := by
  unfold State.countUnit
  repeat' first
    | with_reducible assumption
    | with_reducible apply Kept.ite
    | with_reducible apply Kept.count
    | with_reducible apply Kept.countSlice
    | with_reducible apply Kept.foldl
    | with_reducible apply Kept.foldl_fst
    | intro _
    | (extract_lets +onlyGivenNames x; with_reducible refine Kept.cut (W := W) (s₀ := s₀) (s := x) ?_ (fun _ => ?_); (on_goal 1 => subst x); on_goal 2 => clear_value x)
    | (extract_lets +onlyGivenNames x; subst x)
    | split

theorem Kept.noteCorrected (h : Kept W s₀ s) (_ : W .link) (_ : W .health) (_ : W .slices) (_ : W .engCtr) (_ : W .slcCtr) (a1 a2) : Kept W s₀ (State.noteCorrected s a1 a2) := by
  unfold State.noteCorrected
  repeat' first
    | with_reducible assumption
    | with_reducible apply Kept.ite
    | with_reducible apply Kept.risk
    | with_reducible apply Kept.countUnit
    | with_reducible apply Kept.modSlice
    | with_reducible apply Kept.emit
    | with_reducible apply Kept.foldl
    | with_reducible apply Kept.foldl_fst
    | intro _
    | (extract_lets +onlyGivenNames x; with_reducible refine Kept.cut (W := W) (s₀ := s₀) (s := x) ?_ (fun _ => ?_); (on_goal 1 => subst x); on_goal 2 => clear_value x)
    | (extract_lets +onlyGivenNames x; subst x)
    | split
    | with_reducible apply Kept.set_health

theorem Kept.checkCtr (h : Kept W s₀ s) (_ : W .link) (_ : W .health) (_ : W .slices) (_ : W .pctr) (_ : W .poison) (_ : W .engCtr) (_ : W .slcCtr) (_ : W .sram) (a1) : Kept W s₀ (State.checkCtr s a1) := by
  unfold State.checkCtr
  repeat' first
    | with_reducible assumption
    | with_reducible apply Kept.ite
    | with_reducible apply Kept.poisonCtr
    | with_reducible apply Kept.emit
    | with_reducible apply Kept.countUnit
    | with_reducible apply Kept.setUnitWord
    | with_reducible apply Kept.noteCorrected
    | with_reducible apply Kept.foldl
    | with_reducible apply Kept.foldl_fst
    | intro _
    | (extract_lets +onlyGivenNames x; with_reducible refine Kept.cut (W := W) (s₀ := s₀) (s := x) ?_ (fun _ => ?_); (on_goal 1 => subst x); on_goal 2 => clear_value x)
    | (extract_lets +onlyGivenNames x; subst x)
    | split
    | with_reducible apply Kept.set_sram
    | with_reducible apply mwf_mset
    | with_reducible apply mwf_merase
    | with_reducible apply mwf_mkeep
    | with_reducible apply mwf_mmap

theorem Kept.raiseSuspect (h : Kept W s₀ s) (_ : W .link) (_ : W .fab) (_ : W .engCtr) (_ : W .ctxCtr) (a1 a2 a3 a4) : Kept W s₀ (State.raiseSuspect s a1 a2 a3 a4) := by
  unfold State.raiseSuspect
  repeat' first
    | with_reducible assumption
    | with_reducible apply Kept.ite
    | with_reducible apply Kept.modSign
    | with_reducible apply Kept.emit
    | with_reducible apply Kept.countCtx
    | with_reducible apply Kept.foldl
    | with_reducible apply Kept.foldl_fst
    | intro _
    | (extract_lets +onlyGivenNames x; with_reducible refine Kept.cut (W := W) (s₀ := s₀) (s := x) ?_ (fun _ => ?_); (on_goal 1 => subst x); on_goal 2 => clear_value x)
    | (extract_lets +onlyGivenNames x; subst x)
    | split

theorem Kept.noteBarrier (h : Kept W s₀ s) (_ : W .link) (_ : W .fab) (_ : W .health) (_ : W .engCtr) (_ : W .ctxCtr) (a1 a2 a3 a4) : Kept W s₀ (State.noteBarrier s a1 a2 a3 a4) := by
  unfold State.noteBarrier
  repeat' first
    | with_reducible assumption
    | with_reducible apply Kept.ite
    | with_reducible apply Kept.risk
    | with_reducible apply Kept.raiseSuspect
    | with_reducible apply Kept.foldl
    | with_reducible apply Kept.foldl_fst
    | intro _
    | (extract_lets +onlyGivenNames x; with_reducible refine Kept.cut (W := W) (s₀ := s₀) (s := x) ?_ (fun _ => ?_); (on_goal 1 => subst x); on_goal 2 => clear_value x)
    | (extract_lets +onlyGivenNames x; subst x)
    | split
    | with_reducible apply Kept.set_fab

theorem Kept.sealXfer (h : Kept W s₀ s) (_ : W .ctxs) (_ : W .ctxCtr) (c hd pl) {x : Xfer} (e : s.sealXfer c hd pl = some (t, x)) :
    Kept W s₀ t := by
  unfold State.sealXfer at e
  extract_lets k at e
  split at e
  · cases e
  · cases e
    repeat' first
      | with_reducible assumption
      | with_reducible apply Kept.countCtx
      | with_reducible apply Kept.modCtx
theorem Kept.sealOr {u : Prop} [Decidable u] (h : Kept W s₀ s) (_ : W .ctxs) (_ : W .ctxCtr) (c hd pl y) {x : Xfer}
    (e : (if u then some (s, y) else s.sealXfer c hd pl) = some (t, x)) : Kept W s₀ t := by
  split at e
  · cases e; exact h
  · exact h.sealXfer ‹_› ‹_› _ _ _ e

theorem Kept.leave (h : Kept W s₀ s) (_ : W .fab) (_ : W .engCtr) (a1 a2 a3 a4) : Kept W s₀ (State.leave s a1 a2 a3 a4) := by
  unfold State.leave
  repeat' first
    | with_reducible assumption
    | with_reducible apply Kept.ite
    | with_reducible apply Kept.count
    | with_reducible apply Kept.countPeel
    | with_reducible apply Kept.foldl
    | with_reducible apply Kept.foldl_fst
    | intro _
    | (extract_lets +onlyGivenNames x; with_reducible refine Kept.cut (W := W) (s₀ := s₀) (s := x) ?_ (fun _ => ?_); (on_goal 1 => subst x); on_goal 2 => clear_value x)
    | (extract_lets +onlyGivenNames x; subst x)
    | split
    | with_reducible apply Kept.set_fab

theorem Kept.send (h : Kept W s₀ s) (_ : W .fab) (_ : W .engCtr) (a1 a2 a3 a4) : Kept W s₀ (State.send s a1 a2 a3 a4) := by
  unfold State.send
  repeat' first
    | with_reducible assumption
    | with_reducible apply Kept.ite
    | with_reducible apply Kept.leave
    | with_reducible apply Kept.modPeel
    | with_reducible apply Kept.foldl
    | with_reducible apply Kept.foldl_fst
    | intro _
    | (extract_lets +onlyGivenNames x; with_reducible refine Kept.cut (W := W) (s₀ := s₀) (s := x) ?_ (fun _ => ?_); (on_goal 1 => subst x); on_goal 2 => clear_value x)
    | (extract_lets +onlyGivenNames x; subst x)
    | split

theorem Kept.respond (h : Kept W s₀ s) (_ : W .fab) (_ : W .ctxs) (_ : W .engCtr) (_ : W .ctxCtr) (a1 a2 a3 a4) : Kept W s₀ (State.respond s a1 a2 a3 a4) := by
  unfold State.respond
  repeat' first
    | with_reducible assumption
    | with_reducible apply Kept.ite
    | with_reducible apply Kept.countPeel
    | with_reducible apply Kept.send
    | with_reducible apply Kept.foldl
    | with_reducible apply Kept.foldl_fst
    | with_reducible refine Kept.sealXfer ?_ (by assumption) (by assumption) _ _ _ (by assumption)
    | intro _
    | (extract_lets +onlyGivenNames x; with_reducible refine Kept.cut (W := W) (s₀ := s₀) (s := x) ?_ (fun _ => ?_); (on_goal 1 => subst x); on_goal 2 => clear_value x)
    | (extract_lets +onlyGivenNames x; subst x)
    | split

theorem Kept.wakeWaiters (h : Kept W s₀ s) (_ : W .link) (_ : W .fab) (_ : W .ctxs) (_ : W .engCtr) (_ : W .ctxCtr) (a1) : Kept W s₀ (State.wakeWaiters s a1) := by
  unfold State.wakeWaiters
  repeat' first
    | with_reducible assumption
    | with_reducible apply Kept.ite
    | with_reducible apply Kept.each
    | with_reducible apply Kept.respond
    | with_reducible apply Kept.finish
    | with_reducible apply Kept.foldl
    | with_reducible apply Kept.foldl_fst
    | intro _
    | (extract_lets +onlyGivenNames x; with_reducible refine Kept.cut (W := W) (s₀ := s₀) (s := x) ?_ (fun _ => ?_); (on_goal 1 => subst x); on_goal 2 => clear_value x)
    | (extract_lets +onlyGivenNames x; subst x)
    | split
    | with_reducible apply Kept.set_fab

theorem Kept.setPc (h : Kept W s₀ s) (_ : W .pctr) (a1 a2) : Kept W s₀ (State.setPc s a1 a2) := by
  unfold State.setPc
  repeat' first
    | with_reducible assumption
    | with_reducible apply Kept.ite
    | with_reducible apply Kept.foldl
    | with_reducible apply Kept.foldl_fst
    | intro _
    | (extract_lets +onlyGivenNames x; with_reducible refine Kept.cut (W := W) (s₀ := s₀) (s := x) ?_ (fun _ => ?_); (on_goal 1 => subst x); on_goal 2 => clear_value x)
    | (extract_lets +onlyGivenNames x; subst x)
    | split
    | with_reducible apply Kept.set_pctr
    | with_reducible apply mwf_mset
    | with_reducible apply mwf_merase
    | with_reducible apply mwf_mkeep
    | with_reducible apply mwf_mmap

theorem Kept.ctrOp (h : Kept W s₀ s) (_ : W .link) (_ : W .fab) (_ : W .health) (_ : W .slices) (_ : W .ctxs) (_ : W .pctr) (_ : W .poison) (_ : W .engCtr) (_ : W .slcCtr) (_ : W .ctxCtr) (_ : W .sram) (a1 a2 a3) : Kept W s₀ (State.ctrOp s a1 a2 a3) := by
  unfold State.ctrOp
  repeat' first
    | with_reducible assumption
    | with_reducible apply Kept.ite
    | with_reducible apply Kept.checkCtr
    | with_reducible apply Kept.wakeWaiters
    | with_reducible apply Kept.setPc
    | with_reducible apply Kept.foldl
    | with_reducible apply Kept.foldl_fst
    | intro _
    | (extract_lets +onlyGivenNames x; with_reducible refine Kept.cut (W := W) (s₀ := s₀) (s := x) ?_ (fun _ => ?_); (on_goal 1 => subst x); on_goal 2 => clear_value x)
    | (extract_lets +onlyGivenNames x; subst x)
    | split
    | with_reducible apply Kept.set_poison
    | with_reducible apply Kept.set_sram
    | with_reducible apply mwf_mset
    | with_reducible apply mwf_merase
    | with_reducible apply mwf_mkeep
    | with_reducible apply mwf_mmap

theorem Kept.issueWith (h : Kept W s₀ s) (_ : W .fab) (_ : W .ctxs) (_ : W .engCtr) (_ : W .ctxCtr) (a1 a2) : Kept W s₀ (State.issueWith s a1 a2) := by
  unfold State.issueWith
  repeat' first
    | with_reducible assumption
    | with_reducible apply Kept.ite
    | with_reducible apply Kept.send
    | with_reducible apply Kept.foldl
    | with_reducible apply Kept.foldl_fst
    | with_reducible refine Kept.sealXfer ?_ (by assumption) (by assumption) _ _ _ (by assumption)
    | with_reducible refine Kept.sealOr ?_ (by assumption) (by assumption) _ _ _ _ (by assumption)
    | intro _
    | (extract_lets +onlyGivenNames x; with_reducible refine Kept.cut (W := W) (s₀ := s₀) (s := x) ?_ (fun _ => ?_); (on_goal 1 => subst x); on_goal 2 => clear_value x)
    | (extract_lets +onlyGivenNames x; subst x)
    | split
    | with_reducible apply Kept.set_fab

theorem Kept.issue (h : Kept W s₀ s) (_ : W .fab) (_ : W .ctxs) (_ : W .engCtr) (_ : W .ctxCtr) (a1 a2 a3 a4 a5 a6 a7 a8 a9) : Kept W s₀ (State.issue s a1 a2 a3 a4 a5 a6 a7 a8 a9) := by
  unfold State.issue
  repeat' first
    | with_reducible assumption
    | with_reducible apply Kept.ite
    | with_reducible apply Kept.issueWith
    | with_reducible apply Kept.foldl
    | with_reducible apply Kept.foldl_fst
    | intro _
    | (extract_lets +onlyGivenNames x; with_reducible refine Kept.cut (W := W) (s₀ := s₀) (s := x) ?_ (fun _ => ?_); (on_goal 1 => subst x); on_goal 2 => clear_value x)
    | (extract_lets +onlyGivenNames x; subst x)
    | split

theorem Kept.counterAt (h : Kept W s₀ s) (_ : W .link) (_ : W .fab) (_ : W .health) (_ : W .slices) (_ : W .ctxs) (_ : W .pctr) (_ : W .poison) (_ : W .engCtr) (_ : W .slcCtr) (_ : W .ctxCtr) (_ : W .sram) (a1 a2 a3 a4 a5 a6 a7 a8 a9) : Kept W s₀ (State.counterAt s a1 a2 a3 a4 a5 a6 a7 a8 a9) := by
  unfold State.counterAt
  repeat' first
    | with_reducible assumption
    | with_reducible apply Kept.ite
    | with_reducible apply Kept.noteBarrier
    | with_reducible apply Kept.ctrOp
    | with_reducible apply Kept.issue
    | with_reducible apply Kept.foldl
    | with_reducible apply Kept.foldl_fst
    | intro _
    | (extract_lets +onlyGivenNames x; with_reducible refine Kept.cut (W := W) (s₀ := s₀) (s := x) ?_ (fun _ => ?_); (on_goal 1 => subst x); on_goal 2 => clear_value x)
    | (extract_lets +onlyGivenNames x; subst x)
    | split

theorem Kept.holdWake (h : Kept W s₀ s) (_ : W .fab) (_ : W .power) (_ : W .health) (_ : W .ctxs) (_ : W .engCtr) (_ : W .ctxCtr) (a1 a2) : Kept W s₀ (State.holdWake s a1 a2) := by
  unfold State.holdWake
  repeat' first
    | with_reducible assumption
    | with_reducible apply Kept.ite
    | with_reducible apply Kept.wake
    | with_reducible apply Kept.modPeel
    | with_reducible apply Kept.drop
    | with_reducible apply Kept.respond
    | with_reducible apply Kept.foldl
    | with_reducible apply Kept.foldl_fst
    | intro _
    | (extract_lets +onlyGivenNames x; with_reducible refine Kept.cut (W := W) (s₀ := s₀) (s := x) ?_ (fun _ => ?_); (on_goal 1 => subst x); on_goal 2 => clear_value x)
    | (extract_lets +onlyGivenNames x; subst x)
    | split

theorem Kept.inRequest (h : Kept W s₀ s) (_ : W .link) (_ : W .fab) (_ : W .power) (_ : W .health) (_ : W .ctxs) (_ : W .engCtr) (_ : W .ctxCtr) (typ peel x) {serve : State → State}
    (hs : ∀ t, Kept W s₀ t → Kept W s₀ (serve t)) : Kept W s₀ (s.inRequest typ peel x serve) := by
  unfold State.inRequest
  split
  · exact h
  · dsimp only
    have h1 : Kept W s₀ (s.admitXfer peel x).1 := by
      with_reducible apply Kept.admitXfer <;> with_reducible assumption
    split
    · exact h1
    · split
      · with_reducible apply Kept.respond <;> with_reducible assumption
      · split
        · with_reducible apply Kept.holdWake <;> with_reducible assumption
        · exact hs _ (h1.set_fab ‹_› _)

theorem Kept.resendAll (h : Kept W s₀ s) (_ : W .fab) (_ : W .ctxs) (_ : W .engCtr) (_ : W .ctxCtr) : Kept W s₀ (State.resendAll s) := by
  unfold State.resendAll
  repeat' first
    | with_reducible assumption
    | with_reducible apply Kept.ite
    | with_reducible apply Kept.each
    | with_reducible apply Kept.issueWith
    | with_reducible apply Kept.foldl
    | with_reducible apply Kept.foldl_fst
    | intro _
    | (extract_lets +onlyGivenNames x; with_reducible refine Kept.cut (W := W) (s₀ := s₀) (s := x) ?_ (fun _ => ?_); (on_goal 1 => subst x); on_goal 2 => clear_value x)
    | (extract_lets +onlyGivenNames x; subst x)
    | split
    | with_reducible apply Kept.set_fab

theorem Kept.serveCounter (h : Kept W s₀ s) (_ : W .link) (_ : W .fab) (_ : W .health) (_ : W .slices) (_ : W .ctxs) (_ : W .pctr) (_ : W .poison) (_ : W .engCtr) (_ : W .slcCtr) (_ : W .ctxCtr) (_ : W .sram) (a1 a2) : Kept W s₀ (State.serveCounter s a1 a2) := by
  unfold State.serveCounter
  repeat' first
    | with_reducible assumption
    | with_reducible apply Kept.ite
    | with_reducible apply Kept.checkCtr
    | with_reducible apply Kept.respond
    | with_reducible apply Kept.countPeel
    | with_reducible apply Kept.ctrOp
    | with_reducible apply Kept.noteBarrier
    | with_reducible apply Kept.foldl
    | with_reducible apply Kept.foldl_fst
    | intro _
    | (extract_lets +onlyGivenNames x; with_reducible refine Kept.cut (W := W) (s₀ := s₀) (s := x) ?_ (fun _ => ?_); (on_goal 1 => subst x); on_goal 2 => clear_value x)
    | (extract_lets +onlyGivenNames x; subst x)
    | split
    | with_reducible apply Kept.set_fab

theorem Kept.setCtr (h : Kept W s₀ s) (_ : W .link) (_ : W .fab) (_ : W .health) (_ : W .slices) (_ : W .ctxs) (_ : W .pctr) (_ : W .poison) (_ : W .engCtr) (_ : W .slcCtr) (_ : W .ctxCtr) (_ : W .sram) (a1 a2) : Kept W s₀ (State.setCtr s a1 a2) := by
  unfold State.setCtr
  repeat' first
    | with_reducible assumption
    | with_reducible apply Kept.ite
    | with_reducible apply Kept.ctrOp
    | with_reducible apply Kept.foldl
    | with_reducible apply Kept.foldl_fst
    | intro _
    | (extract_lets +onlyGivenNames x; with_reducible refine Kept.cut (W := W) (s₀ := s₀) (s := x) ?_ (fun _ => ?_); (on_goal 1 => subst x); on_goal 2 => clear_value x)
    | (extract_lets +onlyGivenNames x; subst x)
    | split

theorem Kept.suspectIn (h : Kept W s₀ s) (_ : W .link) (_ : W .fab) (_ : W .engCtr) (_ : W .ctxCtr) (a1 a2 a3) : Kept W s₀ (State.suspectIn s a1 a2 a3) := by
  unfold State.suspectIn
  repeat' first
    | with_reducible assumption
    | with_reducible apply Kept.ite
    | with_reducible apply Kept.raiseSuspect
    | with_reducible apply Kept.foldl
    | with_reducible apply Kept.foldl_fst
    | intro _
    | (extract_lets +onlyGivenNames x; with_reducible refine Kept.cut (W := W) (s₀ := s₀) (s := x) ?_ (fun _ => ?_); (on_goal 1 => subst x); on_goal 2 => clear_value x)
    | (extract_lets +onlyGivenNames x; subst x)
    | split

theorem Kept.suspect (h : Kept W s₀ s) (_ : W .link) (_ : W .fab) (_ : W .engCtr) (_ : W .ctxCtr) (a1 a2) : Kept W s₀ (State.suspect s a1 a2) := by
  unfold State.suspect
  repeat' first
    | with_reducible assumption
    | with_reducible apply Kept.ite
    | with_reducible apply Kept.each
    | with_reducible apply Kept.suspectIn
    | with_reducible apply Kept.foldl
    | with_reducible apply Kept.foldl_fst
    | intro _
    | (extract_lets +onlyGivenNames x; with_reducible refine Kept.cut (W := W) (s₀ := s₀) (s := x) ?_ (fun _ => ?_); (on_goal 1 => subst x); on_goal 2 => clear_value x)
    | (extract_lets +onlyGivenNames x; subst x)
    | split

theorem Kept.on_execCompareWaitLimit (h : Kept W s₀ s) (_ : W .fab) (a1 a2 a3) : KeptX W s₀ (execCompareWaitLimit a1 a2 a3 s) := by
  unfold execCompareWaitLimit
  repeat' first
    | with_reducible assumption
    | with_reducible apply KeptX.next
    | with_reducible apply KeptX.ite
    | with_reducible apply Kept.ite
    | with_reducible apply Kept.foldl
    | with_reducible apply Kept.foldl_fst
    | intro _
    | (extract_lets +onlyGivenNames x; with_reducible refine Kept.cut (W := W) (s₀ := s₀) (s := x) ?_ (fun _ => ?_); (on_goal 1 => subst x); on_goal 2 => clear_value x)
    | (extract_lets +onlyGivenNames x; subst x)
    | split
    | with_reducible apply Kept.set_fab

theorem Kept.on_execCounter (h : Kept W s₀ s) (_ : W .link) (_ : W .fab) (_ : W .power) (_ : W .health) (_ : W .slices) (_ : W .ctxs) (_ : W .pctr) (_ : W .poison) (_ : W .engCtr) (_ : W .slcCtr) (_ : W .ctxCtr) (_ : W .sram) (a1 a2) : KeptX W s₀ (execCounter a1 a2 s) := by
  unfold execCounter
  repeat' first
    | with_reducible assumption
    | with_reducible apply KeptX.next
    | with_reducible apply KeptX.ite
    | with_reducible apply Kept.ite
    | with_reducible apply Kept.inRequest
    | with_reducible apply Kept.serveCounter
    | with_reducible apply Kept.foldl
    | with_reducible apply Kept.foldl_fst
    | intro _
    | (extract_lets +onlyGivenNames x; with_reducible refine Kept.cut (W := W) (s₀ := s₀) (s := x) ?_ (fun _ => ?_); (on_goal 1 => subst x); on_goal 2 => clear_value x)
    | (extract_lets +onlyGivenNames x; subst x)
    | split

theorem Kept.on_execKeyGraceEnd (h : Kept W s₀ s) (_ : W .ctxs) (a1) : KeptX W s₀ (execKeyGraceEnd a1 s) := by
  unfold execKeyGraceEnd
  repeat' first
    | with_reducible assumption
    | with_reducible apply KeptX.next
    | with_reducible apply KeptX.ite
    | with_reducible apply Kept.ite
    | with_reducible apply Kept.modCtx
    | with_reducible apply Kept.foldl
    | with_reducible apply Kept.foldl_fst
    | intro _
    | (extract_lets +onlyGivenNames x; with_reducible refine Kept.cut (W := W) (s₀ := s₀) (s := x) ?_ (fun _ => ?_); (on_goal 1 => subst x); on_goal 2 => clear_value x)
    | (extract_lets +onlyGivenNames x; subst x)
    | split

theorem Kept.on_execMalformedTransfer (h : Kept W s₀ s) (_ : W .health) (_ : W .engCtr) (a1 a2) : KeptX W s₀ (execMalformedTransfer a1 a2 s) := by
  unfold execMalformedTransfer
  repeat' first
    | with_reducible assumption
    | with_reducible apply KeptX.next
    | with_reducible apply KeptX.ite
    | with_reducible apply Kept.ite
    | with_reducible apply Kept.drop
    | with_reducible apply Kept.countPeel
    | with_reducible apply Kept.foldl
    | with_reducible apply Kept.foldl_fst
    | intro _
    | (extract_lets +onlyGivenNames x; with_reducible refine Kept.cut (W := W) (s₀ := s₀) (s := x) ?_ (fun _ => ?_); (on_goal 1 => subst x); on_goal 2 => clear_value x)
    | (extract_lets +onlyGivenNames x; subst x)
    | split

theorem Kept.on_execPeelLinkUpChange (h : Kept W s₀ s) (_ : W .fab) (_ : W .engCtr) (a1 a2) : KeptX W s₀ (execPeelLinkUpChange a1 a2 s) := by
  unfold execPeelLinkUpChange
  repeat' first
    | with_reducible assumption
    | with_reducible apply KeptX.next
    | with_reducible apply KeptX.ite
    | with_reducible apply Kept.ite
    | with_reducible apply Kept.modPeel
    | with_reducible apply Kept.each
    | with_reducible apply Kept.leave
    | with_reducible apply Kept.foldl
    | with_reducible apply Kept.foldl_fst
    | intro _
    | (extract_lets +onlyGivenNames x; with_reducible refine Kept.cut (W := W) (s₀ := s₀) (s := x) ?_ (fun _ => ?_); (on_goal 1 => subst x); on_goal 2 => clear_value x)
    | (extract_lets +onlyGivenNames x; subst x)
    | split

theorem Kept.on_execProbe (h : Kept W s₀ s) (_ : W .link) (_ : W .fab) (_ : W .power) (_ : W .health) (_ : W .ctxs) (_ : W .engCtr) (_ : W .ctxCtr) (a1 a2) : KeptX W s₀ (execProbe a1 a2 s) := by
  unfold execProbe
  repeat' first
    | with_reducible assumption
    | with_reducible apply KeptX.next
    | with_reducible apply KeptX.ite
    | with_reducible apply Kept.ite
    | with_reducible apply Kept.inRequest
    | with_reducible apply Kept.respond
    | with_reducible apply Kept.foldl
    | with_reducible apply Kept.foldl_fst
    | intro _
    | (extract_lets +onlyGivenNames x; with_reducible refine Kept.cut (W := W) (s₀ := s₀) (s := x) ?_ (fun _ => ?_); (on_goal 1 => subst x); on_goal 2 => clear_value x)
    | (extract_lets +onlyGivenNames x; subst x)
    | split

theorem Kept.on_execTagQuarantineEnd (h : Kept W s₀ s) (_ : W .fab) (a1 a2) : KeptX W s₀ (execTagQuarantineEnd a1 a2 s) := by
  unfold execTagQuarantineEnd
  repeat' first
    | with_reducible assumption
    | with_reducible apply KeptX.next
    | with_reducible apply KeptX.ite
    | with_reducible apply Kept.ite
    | with_reducible apply Kept.foldl
    | with_reducible apply Kept.foldl_fst
    | intro _
    | (extract_lets +onlyGivenNames x; with_reducible refine Kept.cut (W := W) (s₀ := s₀) (s := x) ?_ (fun _ => ?_); (on_goal 1 => subst x); on_goal 2 => clear_value x)
    | (extract_lets +onlyGivenNames x; subst x)
    | split
    | with_reducible apply Kept.set_fab

theorem Kept.keepPiece (h : Kept W s₀ s) (_ : W .fab) (a1 a2 a3 a4 a5) : Kept W s₀ (State.keepPiece s a1 a2 a3 a4 a5) := by
  unfold State.keepPiece
  repeat' first
    | with_reducible assumption
    | with_reducible apply Kept.ite
    | with_reducible apply Kept.foldl
    | with_reducible apply Kept.foldl_fst
    | intro _
    | (extract_lets +onlyGivenNames x; with_reducible refine Kept.cut (W := W) (s₀ := s₀) (s := x) ?_ (fun _ => ?_); (on_goal 1 => subst x); on_goal 2 => clear_value x)
    | (extract_lets +onlyGivenNames x; subst x)
    | split
    | with_reducible apply Kept.set_fab

theorem Kept.sendPart (h : Kept W s₀ s) (_ : W .fab) (_ : W .ctxs) (_ : W .engCtr) (_ : W .ctxCtr) (a1 a2 a3 a4 a5 a6 a7) : Kept W s₀ (State.sendPart s a1 a2 a3 a4 a5 a6 a7) := by
  unfold State.sendPart
  repeat' first
    | with_reducible assumption
    | with_reducible apply Kept.ite
    | with_reducible apply Kept.each
    | with_reducible apply Kept.issue
    | with_reducible apply Kept.foldl
    | with_reducible apply Kept.foldl_fst
    | intro _
    | (extract_lets +onlyGivenNames x; with_reducible refine Kept.cut (W := W) (s₀ := s₀) (s := x) ?_ (fun _ => ?_); (on_goal 1 => subst x); on_goal 2 => clear_value x)
    | (extract_lets +onlyGivenNames x; subst x)
    | split

theorem Kept.sendHeld (h : Kept W s₀ s) (_ : W .fab) (_ : W .ctxs) (_ : W .engCtr) (_ : W .ctxCtr) (a1 a2 a3) : Kept W s₀ (State.sendHeld s a1 a2 a3) := by
  unfold State.sendHeld
  repeat' first
    | with_reducible assumption
    | with_reducible apply Kept.ite
    | with_reducible apply Kept.sendPart
    | with_reducible apply Kept.foldl
    | with_reducible apply Kept.foldl_fst
    | intro _
    | (extract_lets +onlyGivenNames x; with_reducible refine Kept.cut (W := W) (s₀ := s₀) (s := x) ?_ (fun _ => ?_); (on_goal 1 => subst x); on_goal 2 => clear_value x)
    | (extract_lets +onlyGivenNames x; subst x)
    | split

theorem Kept.shareRecord (h : Kept W s₀ s) (_ : W .fab) (_ : W .ctxs) (_ : W .engCtr) (_ : W .ctxCtr) (a1 a2 a3 a4) : Kept W s₀ (State.shareRecord s a1 a2 a3 a4) := by
  unfold State.shareRecord
  repeat' first
    | with_reducible assumption
    | with_reducible apply Kept.ite
    | with_reducible apply Kept.each
    | with_reducible apply Kept.sendPart
    | with_reducible apply Kept.foldl
    | with_reducible apply Kept.foldl_fst
    | intro _
    | (extract_lets +onlyGivenNames x; with_reducible refine Kept.cut (W := W) (s₀ := s₀) (s := x) ?_ (fun _ => ?_); (on_goal 1 => subst x); on_goal 2 => clear_value x)
    | (extract_lets +onlyGivenNames x; subst x)
    | split

theorem Kept.shareLedger (h : Kept W s₀ s) (_ : W .fab) (_ : W .ctxs) (_ : W .engCtr) (_ : W .ctxCtr) (a1) : Kept W s₀ (State.shareLedger s a1) := by
  unfold State.shareLedger
  repeat' first
    | with_reducible assumption
    | with_reducible apply Kept.ite
    | with_reducible apply Kept.shareRecord
    | with_reducible apply Kept.foldl
    | with_reducible apply Kept.foldl_fst
    | intro _
    | (extract_lets +onlyGivenNames x; with_reducible refine Kept.cut (W := W) (s₀ := s₀) (s := x) ?_ (fun _ => ?_); (on_goal 1 => subst x); on_goal 2 => clear_value x)
    | (extract_lets +onlyGivenNames x; subst x)
    | split

theorem Kept.shareBake (h : Kept W s₀ s) (_ : W .fab) (_ : W .ctxs) (_ : W .engCtr) (_ : W .ctxCtr) (a1 a2) : Kept W s₀ (State.shareBake s a1 a2) := by
  unfold State.shareBake
  repeat' first
    | with_reducible assumption
    | with_reducible apply Kept.ite
    | with_reducible apply Kept.shareRecord
    | with_reducible apply Kept.foldl
    | with_reducible apply Kept.foldl_fst
    | intro _
    | (extract_lets +onlyGivenNames x; with_reducible refine Kept.cut (W := W) (s₀ := s₀) (s := x) ?_ (fun _ => ?_); (on_goal 1 => subst x); on_goal 2 => clear_value x)
    | (extract_lets +onlyGivenNames x; subst x)
    | split

theorem Kept.sharePools (h : Kept W s₀ s) (_ : W .fab) (_ : W .ctxs) (_ : W .engCtr) (_ : W .ctxCtr) (a1) : Kept W s₀ (State.sharePools s a1) := by
  unfold State.sharePools
  repeat' first
    | with_reducible assumption
    | with_reducible apply Kept.ite
    | with_reducible apply Kept.shareRecord
    | with_reducible apply Kept.foldl
    | with_reducible apply Kept.foldl_fst
    | intro _
    | (extract_lets +onlyGivenNames x; with_reducible refine Kept.cut (W := W) (s₀ := s₀) (s := x) ?_ (fun _ => ?_); (on_goal 1 => subst x); on_goal 2 => clear_value x)
    | (extract_lets +onlyGivenNames x; subst x)
    | split

theorem Kept.shareRegions (h : Kept W s₀ s) (_ : W .fab) (_ : W .ctxs) (_ : W .engCtr) (_ : W .ctxCtr) (a1) : Kept W s₀ (State.shareRegions s a1) := by
  unfold State.shareRegions
  repeat' first
    | with_reducible assumption
    | with_reducible apply Kept.ite
    | with_reducible apply Kept.shareRecord
    | with_reducible apply Kept.foldl
    | with_reducible apply Kept.foldl_fst
    | intro _
    | (extract_lets +onlyGivenNames x; with_reducible refine Kept.cut (W := W) (s₀ := s₀) (s := x) ?_ (fun _ => ?_); (on_goal 1 => subst x); on_goal 2 => clear_value x)
    | (extract_lets +onlyGivenNames x; subst x)
    | split

theorem Kept.shareAll (h : Kept W s₀ s) (_ : W .fab) (_ : W .ctxs) (_ : W .engCtr) (_ : W .ctxCtr) (a1) : Kept W s₀ (State.shareAll s a1) := by
  unfold State.shareAll
  repeat' first
    | with_reducible assumption
    | with_reducible apply Kept.ite
    | with_reducible apply Kept.shareLedger
    | with_reducible apply Kept.shareBake
    | with_reducible apply Kept.sharePools
    | with_reducible apply Kept.shareRegions
    | with_reducible apply Kept.shareRecord
    | with_reducible apply Kept.foldl
    | with_reducible apply Kept.foldl_fst
    | intro _
    | (extract_lets +onlyGivenNames x; with_reducible refine Kept.cut (W := W) (s₀ := s₀) (s := x) ?_ (fun _ => ?_); (on_goal 1 => subst x); on_goal 2 => clear_value x)
    | (extract_lets +onlyGivenNames x; subst x)
    | split

theorem Kept.on_effPoolSize (h : Kept W s₀ s) (_ : W .link) (_ : W .fab) (_ : W .slices) (_ : W .ctxs) (_ : W .engCtr) (_ : W .ctxCtr) (a1) : Kept W s₀ (effPoolSize a1 s) := by
  unfold effPoolSize
  repeat' first
    | with_reducible assumption
    | with_reducible apply Kept.ite
    | with_reducible apply Kept.placePool
    | with_reducible apply Kept.modCtx
    | with_reducible apply Kept.done
    | with_reducible apply Kept.sharePools
    | with_reducible apply Kept.relieveAll
    | with_reducible apply Kept.foldl
    | with_reducible apply Kept.foldl_fst
    | intro _
    | (extract_lets +onlyGivenNames x; with_reducible refine Kept.cut (W := W) (s₀ := s₀) (s := x) ?_ (fun _ => ?_); (on_goal 1 => subst x); on_goal 2 => clear_value x)
    | (extract_lets +onlyGivenNames x; subst x)
    | split

theorem Kept.on_execPoolSize (h : Kept W s₀ s) (_ : W .link) (_ : W .fab) (_ : W .power) (_ : W .slices) (_ : W .ctxs) (_ : W .engCtr) (_ : W .ctxCtr) (a1) : KeptX W s₀ (execPoolSize a1 s) := by
  unfold execPoolSize
  repeat' first
    | with_reducible assumption
    | with_reducible apply KeptX.next
    | with_reducible apply KeptX.ite
    | with_reducible apply Kept.ite
    | with_reducible apply Kept.runCmd
    | with_reducible apply Kept.on_noTake
    | with_reducible apply Kept.on_effPoolSize
    | with_reducible apply Kept.foldl
    | with_reducible apply Kept.foldl_fst
    | intro _
    | (extract_lets +onlyGivenNames x; with_reducible refine Kept.cut (W := W) (s₀ := s₀) (s := x) ?_ (fun _ => ?_); (on_goal 1 => subst x); on_goal 2 => clear_value x)
    | (extract_lets +onlyGivenNames x; subst x)
    | split

theorem Kept.setJob (h : Kept W s₀ s) (_ : W .ctxs) (a1 a2 a3) : Kept W s₀ (State.setJob s a1 a2 a3) := by
  unfold State.setJob
  repeat' first
    | with_reducible assumption
    | with_reducible apply Kept.ite
    | with_reducible apply Kept.modCtx
    | with_reducible apply Kept.foldl
    | with_reducible apply Kept.foldl_fst
    | intro _
    | (extract_lets +onlyGivenNames x; with_reducible refine Kept.cut (W := W) (s₀ := s₀) (s := x) ?_ (fun _ => ?_); (on_goal 1 => subst x); on_goal 2 => clear_value x)
    | (extract_lets +onlyGivenNames x; subst x)
    | split

theorem Kept.abandonDemotion (h : Kept W s₀ s) (_ : W .slices) (_ : W .ctxs) (_ : W .ctxCtr) (a1 a2) : Kept W s₀ (State.abandonDemotion s a1 a2) := by
  unfold State.abandonDemotion
  repeat' first
    | with_reducible assumption
    | with_reducible apply Kept.ite
    | with_reducible apply Kept.setJob
    | with_reducible apply Kept.modTile
    | with_reducible apply Kept.unholdTile
    | with_reducible apply Kept.countCtx
    | with_reducible apply Kept.foldl
    | with_reducible apply Kept.foldl_fst
    | intro _
    | (extract_lets +onlyGivenNames x; with_reducible refine Kept.cut (W := W) (s₀ := s₀) (s := x) ?_ (fun _ => ?_); (on_goal 1 => subst x); on_goal 2 => clear_value x)
    | (extract_lets +onlyGivenNames x; subst x)
    | split

theorem Kept.askPromotion (h : Kept W s₀ s) (_ : W .slices) (_ : W .ctxs) (_ : W .ctxCtr) (a1 a2 a3 a4 a5) : Kept W s₀ (State.askPromotion s a1 a2 a3 a4 a5) := by
  unfold State.askPromotion
  repeat' first
    | with_reducible assumption
    | with_reducible apply Kept.ite
    | with_reducible apply Kept.abandonDemotion
    | with_reducible apply Kept.setJob
    | with_reducible apply Kept.foldl
    | with_reducible apply Kept.foldl_fst
    | intro _
    | (extract_lets +onlyGivenNames x; with_reducible refine Kept.cut (W := W) (s₀ := s₀) (s := x) ?_ (fun _ => ?_); (on_goal 1 => subst x); on_goal 2 => clear_value x)
    | (extract_lets +onlyGivenNames x; subst x)
    | split

theorem Kept.loadExtent (h : Kept W s₀ s) (_ : W .fab) (_ : W .ctxs) (_ : W .engCtr) (_ : W .ctxCtr) (a1 a2 a3) : Kept W s₀ (State.loadExtent s a1 a2 a3) := by
  unfold State.loadExtent
  repeat' first
    | with_reducible assumption
    | with_reducible apply Kept.ite
    | with_reducible apply Kept.each
    | with_reducible apply Kept.issue
    | with_reducible apply Kept.foldl
    | with_reducible apply Kept.foldl_fst
    | intro _
    | (extract_lets +onlyGivenNames x; with_reducible refine Kept.cut (W := W) (s₀ := s₀) (s := x) ?_ (fun _ => ?_); (on_goal 1 => subst x); on_goal 2 => clear_value x)
    | (extract_lets +onlyGivenNames x; subst x)
    | split

theorem Kept.askRead (h : Kept W s₀ s) (_ : W .fab) (_ : W .slices) (_ : W .ctxs) (_ : W .engCtr) (_ : W .ctxCtr) (a1 a2 a3 a4) : Kept W s₀ (State.askRead s a1 a2 a3 a4) := by
  unfold State.askRead
  repeat' first
    | with_reducible assumption
    | with_reducible apply Kept.ite
    | with_reducible apply Kept.askPromotion
    | with_reducible apply Kept.countCtx
    | with_reducible apply Kept.setJob
    | with_reducible apply Kept.loadExtent
    | with_reducible apply Kept.modCtx
    | with_reducible apply Kept.foldl
    | with_reducible apply Kept.foldl_fst
    | intro _
    | (extract_lets +onlyGivenNames x; with_reducible refine Kept.cut (W := W) (s₀ := s₀) (s := x) ?_ (fun _ => ?_); (on_goal 1 => subst x); on_goal 2 => clear_value x)
    | (extract_lets +onlyGivenNames x; subst x)
    | split

theorem Kept.askAll (h : Kept W s₀ s) (_ : W .fab) (_ : W .slices) (_ : W .ctxs) (_ : W .engCtr) (_ : W .ctxCtr) (a1 a2 a3 a4) : Kept W s₀ (State.askAll s a1 a2 a3 a4) := by
  unfold State.askAll
  repeat' first
    | with_reducible assumption
    | with_reducible apply Kept.ite
    | with_reducible apply Kept.each
    | with_reducible apply Kept.askRead
    | with_reducible apply Kept.foldl
    | with_reducible apply Kept.foldl_fst
    | intro _
    | (extract_lets +onlyGivenNames x; with_reducible refine Kept.cut (W := W) (s₀ := s₀) (s := x) ?_ (fun _ => ?_); (on_goal 1 => subst x); on_goal 2 => clear_value x)
    | (extract_lets +onlyGivenNames x; subst x)
    | split

theorem Kept.endRead (h : Kept W s₀ s) (_ : W .ctxs) (a1 a2) : Kept W s₀ (State.endRead s a1 a2) := by
  unfold State.endRead
  repeat' first
    | with_reducible assumption
    | with_reducible apply Kept.ite
    | with_reducible apply Kept.setJob
    | with_reducible apply Kept.foldl
    | with_reducible apply Kept.foldl_fst
    | intro _
    | (extract_lets +onlyGivenNames x; with_reducible refine Kept.cut (W := W) (s₀ := s₀) (s := x) ?_ (fun _ => ?_); (on_goal 1 => subst x); on_goal 2 => clear_value x)
    | (extract_lets +onlyGivenNames x; subst x)
    | split

theorem Kept.modJob (h : Kept W s₀ s) (_ : W .ctxs) (a1 a2 a3) : Kept W s₀ (State.modJob s a1 a2 a3) := by
  unfold State.modJob
  repeat' first
    | with_reducible assumption
    | with_reducible apply Kept.ite
    | with_reducible apply Kept.setJob
    | with_reducible apply Kept.foldl
    | with_reducible apply Kept.foldl_fst
    | intro _
    | (extract_lets +onlyGivenNames x; with_reducible refine Kept.cut (W := W) (s₀ := s₀) (s := x) ?_ (fun _ => ?_); (on_goal 1 => subst x); on_goal 2 => clear_value x)
    | (extract_lets +onlyGivenNames x; subst x)
    | split

theorem Kept.touch (h : Kept W s₀ s) (_ : W .ctxs) (a1 a2) : Kept W s₀ (State.touch s a1 a2) := by
  unfold State.touch
  repeat' first
    | with_reducible assumption
    | with_reducible apply Kept.ite
    | with_reducible apply Kept.modTile
    | with_reducible apply Kept.foldl
    | with_reducible apply Kept.foldl_fst
    | intro _
    | (extract_lets +onlyGivenNames x; with_reducible refine Kept.cut (W := W) (s₀ := s₀) (s := x) ?_ (fun _ => ?_); (on_goal 1 => subst x); on_goal 2 => clear_value x)
    | (extract_lets +onlyGivenNames x; subst x)
    | split

theorem Kept.waitRead (h : Kept W s₀ s) (_ : W .link) (_ : W .fab) (_ : W .slices) (_ : W .ctxs) (_ : W .engCtr) (_ : W .ctxCtr) (cmd ts cls) {go : State → State} (hg : Kept W s₀ (go s)) :
    Kept W s₀ (s.waitRead cmd ts cls go) := by
  unfold State.waitRead
  split
  · exact hg
  · repeat' first
      | with_reducible assumption
      | with_reducible apply Kept.modAdm
      | with_reducible apply Kept.askAll

end Sys2Proof.Machine
end

