-- ==== Sys2Proof/Laws/KeptUpdate.lean ====
section
/-!
SUPPORT. Laws/KeptUpdate.lean: what each operation of Update, Accum, Coding, Crust may change (`Kept`).
-/
namespace Sys2Proof.Machine
set_option linter.unreachableTactic false
set_option linter.unusedTactic false
set_option linter.tactic.unusedName false

variable {W : Part → Prop} {s₀ s t : State}

theorem Kept.noteStep (h : Kept W s₀ s) (_ : W .ctxs) (a1 a2) : Kept W s₀ (State.noteStep s a1 a2) := by
  unfold State.noteStep
  repeat' first
    | with_reducible assumption
    | with_reducible apply Kept.ite
    | with_reducible apply Kept.modCtx
    | with_reducible apply Kept.foldl
    | with_reducible apply Kept.foldl_fst
    | intro _
    | (extract_lets +onlyGivenNames x; with_reducible refine Kept.cut (W := W) (s₀ := s₀) (s := x) ?_ (fun _ => ?_); (on_goal 1 => subst x); on_goal 2 => clear_value x)
    | (extract_lets +onlyGivenNames x; subst x)
    | split

theorem Kept.noteU (h : Kept W s₀ s) (_ : W .ctxs) (a1) : Kept W s₀ (State.noteU s a1) := by
  unfold State.noteU
  repeat' first
    | with_reducible assumption
    | with_reducible apply Kept.ite
    | with_reducible apply Kept.noteStep
    | with_reducible apply Kept.foldl
    | with_reducible apply Kept.foldl_fst
    | intro _
    | (extract_lets +onlyGivenNames x; with_reducible refine Kept.cut (W := W) (s₀ := s₀) (s := x) ?_ (fun _ => ?_); (on_goal 1 => subst x); on_goal 2 => clear_value x)
    | (extract_lets +onlyGivenNames x; subst x)
    | split

theorem Kept.commitTiles (h : Kept W s₀ s) (_ : W .link) (_ : W .slices) (_ : W .ctxs) (_ : W .branches) (_ : W .engCtr) (_ : W .ctxCtr) (_ : W .mem) (_ : W .freeIdx) (a1 a2) : KeptO W s₀ (State.commitTiles s a1 a2) := by
  unfold State.commitTiles
  repeat' first
    | with_reducible assumption
    | with_reducible exact KeptO.none
    | with_reducible apply KeptO.some
    | with_reducible apply KeptO.ite
    | with_reducible apply Kept.ite
    | with_reducible apply Kept.free
    | with_reducible apply Kept.makeRoom
    | with_reducible apply Kept.noteU
    | with_reducible apply Kept.touch
    | with_reducible apply Kept.portWrite
    | with_reducible apply Kept.fileCrumb
    | with_reducible refine KeptO.get ?_ (by assumption)
    | with_reducible refine Kept.snd (by assumption) ?_
    | with_reducible apply Kept.foldl
    | with_reducible apply Kept.foldl_fst
    | with_reducible apply KeptO.foldlO
    | with_reducible refine KeptO.get (by assumption) rfl
    | intro _
    | (extract_lets +onlyGivenNames x; with_reducible refine Kept.cut (W := W) (s₀ := s₀) (s := x) ?_ (fun _ => ?_); (on_goal 1 => subst x); on_goal 2 => clear_value x)
    | (extract_lets +onlyGivenNames x; subst x)
    | split

theorem Kept.countSlot (h : Kept W s₀ s) (_ : W .slcCtr) (a1 a2 a3 a4) : Kept W s₀ (State.countSlot s a1 a2 a3 a4) := by
  unfold State.countSlot
  repeat' first
    | with_reducible assumption
    | with_reducible apply Kept.ite
    | with_reducible apply Kept.countSlice
    | with_reducible apply Kept.foldl
    | with_reducible apply Kept.foldl_fst
    | intro _
    | (extract_lets +onlyGivenNames x; with_reducible refine Kept.cut (W := W) (s₀ := s₀) (s := x) ?_ (fun _ => ?_); (on_goal 1 => subst x); on_goal 2 => clear_value x)
    | (extract_lets +onlyGivenNames x; subst x)
    | split

theorem Kept.layPieces (h : Kept W s₀ s) (_ : W .slices) (_ : W .ctxs) (_ : W .branches) (_ : W .ctxCtr) (_ : W .mem) (c ps l) : Kept W s₀ (s.layPieces c ps l) := by
  induction ps generalizing s l with
  | nil => exact h
  | cons p ps ih =>
    unfold State.layPieces
    repeat' first
      | with_reducible assumption
      | with_reducible apply ih
      | with_reducible apply Kept.touch
      | with_reducible apply Kept.portBytes

theorem Kept.markDone (h : Kept W s₀ s) (_ : W .link) (a1 a2 a3) : Kept W s₀ (State.markDone s a1 a2 a3) := by
  unfold State.markDone
  repeat' first
    | with_reducible assumption
    | with_reducible apply Kept.ite
    | with_reducible apply Kept.modAdm
    | with_reducible apply Kept.foldl
    | with_reducible apply Kept.foldl_fst
    | intro _
    | (extract_lets +onlyGivenNames x; with_reducible refine Kept.cut (W := W) (s₀ := s₀) (s := x) ?_ (fun _ => ?_); (on_goal 1 => subst x); on_goal 2 => clear_value x)
    | (extract_lets +onlyGivenNames x; subst x)
    | split

theorem Kept.modStep (h : Kept W s₀ s) (_ : W .ctxs) (a1 a2) : Kept W s₀ (State.modStep s a1 a2) := by
  unfold State.modStep
  repeat' first
    | with_reducible assumption
    | with_reducible apply Kept.ite
    | with_reducible apply Kept.modCtx
    | with_reducible apply Kept.foldl
    | with_reducible apply Kept.foldl_fst
    | intro _
    | (extract_lets +onlyGivenNames x; with_reducible refine Kept.cut (W := W) (s₀ := s₀) (s := x) ?_ (fun _ => ?_); (on_goal 1 => subst x); on_goal 2 => clear_value x)
    | (extract_lets +onlyGivenNames x; subst x)
    | split

theorem Kept.raiseSparse (h : Kept W s₀ s) (_ : W .link) (_ : W .ctxs) (_ : W .engCtr) (a1 a2) : Kept W s₀ (State.raiseSparse s a1 a2) := by
  unfold State.raiseSparse
  repeat' first
    | with_reducible assumption
    | with_reducible apply Kept.ite
    | with_reducible apply Kept.emit
    | with_reducible apply Kept.modCtx
    | with_reducible apply Kept.foldl
    | with_reducible apply Kept.foldl_fst
    | intro _
    | (extract_lets +onlyGivenNames x; with_reducible refine Kept.cut (W := W) (s₀ := s₀) (s := x) ?_ (fun _ => ?_); (on_goal 1 => subst x); on_goal 2 => clear_value x)
    | (extract_lets +onlyGivenNames x; subst x)
    | split

theorem Kept.noRoom (h : Kept W s₀ s) (_ : W .link) (_ : W .slices) (_ : W .ctxs) (_ : W .engCtr) (_ : W .ctxCtr) (a1 a2 a3) : Kept W s₀ (State.noRoom s a1 a2 a3) := by
  unfold State.noRoom
  repeat' first
    | with_reducible assumption
    | with_reducible apply Kept.ite
    | with_reducible apply Kept.holdStage
    | with_reducible apply Kept.finish
    | with_reducible apply Kept.countCtx
    | with_reducible apply Kept.raiseSparse
    | with_reducible apply Kept.foldl
    | with_reducible apply Kept.foldl_fst
    | intro _
    | (extract_lets +onlyGivenNames x; with_reducible refine Kept.cut (W := W) (s₀ := s₀) (s := x) ?_ (fun _ => ?_); (on_goal 1 => subst x); on_goal 2 => clear_value x)
    | (extract_lets +onlyGivenNames x; subst x)
    | split

theorem Kept.noteMaster (h : Kept W s₀ s) (_ : W .slices) (a1 a2 a3) : Kept W s₀ (State.noteMaster s a1 a2 a3) := by
  unfold State.noteMaster
  repeat' first
    | with_reducible assumption
    | with_reducible apply Kept.ite
    | with_reducible apply Kept.modSlice
    | with_reducible apply Kept.foldl
    | with_reducible apply Kept.foldl_fst
    | intro _
    | (extract_lets +onlyGivenNames x; with_reducible refine Kept.cut (W := W) (s₀ := s₀) (s := x) ?_ (fun _ => ?_); (on_goal 1 => subst x); on_goal 2 => clear_value x)
    | (extract_lets +onlyGivenNames x; subst x)
    | split

theorem Kept.overflowIf (h : Kept W s₀ s) (_ : W .ctxs) (a1 a2) : Kept W s₀ (State.overflowIf s a1 a2) := by
  unfold State.overflowIf
  repeat' first
    | with_reducible assumption
    | with_reducible apply Kept.ite
    | with_reducible apply Kept.modStep
    | with_reducible apply Kept.foldl
    | with_reducible apply Kept.foldl_fst
    | intro _
    | (extract_lets +onlyGivenNames x; with_reducible refine Kept.cut (W := W) (s₀ := s₀) (s := x) ?_ (fun _ => ?_); (on_goal 1 => subst x); on_goal 2 => clear_value x)
    | (extract_lets +onlyGivenNames x; subst x)
    | split

theorem Kept.promoteFor (h : Kept W s₀ s) (_ : W .slices) (_ : W .ctxs) (_ : W .ctxCtr) (_ : W .engCtr) (_ : W .fab) (a1 a2 a3 a4) : Kept W s₀ (State.promoteFor s a1 a2 a3 a4) := by
  unfold State.promoteFor
  repeat' first
    | with_reducible assumption
    | with_reducible apply Kept.askAll
    | with_reducible apply Kept.ite
    | with_reducible apply Kept.each
    | with_reducible apply Kept.askPromotion
    | with_reducible apply Kept.foldl
    | with_reducible apply Kept.foldl_fst
    | intro _
    | (extract_lets +onlyGivenNames x; with_reducible refine Kept.cut (W := W) (s₀ := s₀) (s := x) ?_ (fun _ => ?_); (on_goal 1 => subst x); on_goal 2 => clear_value x)
    | (extract_lets +onlyGivenNames x; subst x)
    | split

theorem Kept.endSlot (h : Kept W s₀ s) (_ : W .ctxs) (a1 a2 a3 a4) : Kept W s₀ (State.endSlot s a1 a2 a3 a4) := by
  unfold State.endSlot
  repeat' first
    | with_reducible assumption
    | with_reducible apply Kept.endRead
    | with_reducible apply Kept.each
    | with_reducible apply Kept.ite
    | with_reducible apply Kept.foldl
    | with_reducible apply Kept.foldl_fst
    | intro _
    | (extract_lets +onlyGivenNames x; with_reducible refine Kept.cut (W := W) (s₀ := s₀) (s := x) ?_ (fun _ => ?_); (on_goal 1 => subst x); on_goal 2 => clear_value x)
    | (extract_lets +onlyGivenNames x; subst x)
    | split

theorem Kept.rawWrite (h : Kept W s₀ s) (_ : W .link) (_ : W .slices) (_ : W .ctxs) (_ : W .branches) (_ : W .engCtr) (_ : W .ctxCtr) (_ : W .mem) (_ : W .freeIdx) (a1 a2 a3) : KeptO W s₀ (State.rawWrite s a1 a2 a3) := by
  unfold State.rawWrite
  repeat' first
    | with_reducible assumption
    | with_reducible exact KeptO.none
    | with_reducible apply KeptO.some
    | with_reducible apply KeptO.ite
    | with_reducible apply Kept.ite
    | with_reducible apply Kept.commitTiles
    | with_reducible refine KeptO.get ?_ (by assumption)
    | with_reducible apply Kept.foldl
    | with_reducible apply Kept.foldl_fst
    | with_reducible apply KeptO.foldlO
    | with_reducible refine KeptO.get (by assumption) rfl
    | intro _
    | (extract_lets +onlyGivenNames x; with_reducible refine Kept.cut (W := W) (s₀ := s₀) (s := x) ?_ (fun _ => ?_); (on_goal 1 => subst x); on_goal 2 => clear_value x)
    | (extract_lets +onlyGivenNames x; subst x)
    | split

theorem Kept.sparseFaults (h : Kept W s₀ s) (_ : W .ctxs) (a1 a2 a3 a4 a5) : Kept W s₀ (State.sparseFaults s a1 a2 a3 a4 a5) := by
  unfold State.sparseFaults
  repeat' first
    | with_reducible assumption
    | with_reducible apply Kept.ite
    | with_reducible apply Kept.modCtx
    | with_reducible apply Kept.foldl
    | with_reducible apply Kept.foldl_fst
    | intro _
    | (extract_lets +onlyGivenNames x; with_reducible refine Kept.cut (W := W) (s₀ := s₀) (s := x) ?_ (fun _ => ?_); (on_goal 1 => subst x); on_goal 2 => clear_value x)
    | (extract_lets +onlyGivenNames x; subst x)
    | split

theorem Kept.tallyStep (h : Kept W s₀ s) (_ : W .ctxs) (a1 a2 a3 a4 a5) : Kept W s₀ (State.tallyStep s a1 a2 a3 a4 a5) := by
  unfold State.tallyStep
  repeat' first
    | with_reducible assumption
    | with_reducible apply Kept.ite
    | with_reducible apply Kept.modStep
    | with_reducible apply Kept.foldl
    | with_reducible apply Kept.foldl_fst
    | intro _
    | (extract_lets +onlyGivenNames x; with_reducible refine Kept.cut (W := W) (s₀ := s₀) (s := x) ?_ (fun _ => ?_); (on_goal 1 => subst x); on_goal 2 => clear_value x)
    | (extract_lets +onlyGivenNames x; subst x)
    | split

theorem Kept.tileDone (h : Kept W s₀ s) (_ : W .link) (_ : W .slices) (_ : W .ctxs) (_ : W .engCtr) (_ : W .slcCtr) (_ : W .ctxCtr) (c cmd t) {r : Option State} (hr : KeptO W s₀ r) :
    Kept W s₀ (s.tileDone c cmd t r) := by
  unfold State.tileDone
  split
  · repeat' first
      | with_reducible assumption
      | with_reducible apply Kept.noRoom
      | split
  · have := hr.get_ _ rfl
    repeat' first
      | with_reducible assumption
      | with_reducible apply Kept.ite
      | with_reducible apply Kept.finish
      | with_reducible apply Kept.endSlot
      | with_reducible apply Kept.raiseSparse
      | with_reducible apply Kept.markDone
      | with_reducible apply Kept.noteMaster
      | with_reducible apply Kept.serveTile
      | intro _
      | (extract_lets +onlyGivenNames x; with_reducible refine Kept.cut (W := W) (s₀ := s₀) (s := x) ?_ (fun _ => ?_); (on_goal 1 => subst x); on_goal 2 => clear_value x)
      | (extract_lets +onlyGivenNames x; subst x)
      | split

theorem Kept.updateTile (h : Kept W s₀ s) (_ : W .link) (_ : W .slices) (_ : W .ctxs) (_ : W .branches) (_ : W .engCtr) (_ : W .slcCtr) (_ : W .ctxCtr) (_ : W .mem) (_ : W .freeIdx) (a1 a2 a3 a4 a5) : KeptO W s₀ (State.updateTile s a1 a2 a3 a4 a5) := by
  unfold State.updateTile
  repeat' first
    | with_reducible assumption
    | with_reducible exact KeptO.none
    | with_reducible apply KeptO.some
    | with_reducible apply KeptO.ite
    | with_reducible apply Kept.ite
    | with_reducible apply Kept.commitTiles
    | with_reducible apply Kept.layPieces
    | with_reducible apply Kept.countSlot
    | with_reducible apply Kept.countSlice
    | with_reducible apply Kept.sparseFaults
    | with_reducible apply Kept.tallyStep
    | with_reducible apply Kept.overflowIf
    | with_reducible apply Kept.modStep
    | with_reducible apply Kept.countCtx
    | with_reducible refine KeptO.get ?_ (by assumption)
    | with_reducible apply Kept.foldl
    | with_reducible apply Kept.foldl_fst
    | with_reducible apply KeptO.foldlO
    | with_reducible refine KeptO.get (by assumption) rfl
    | intro _
    | (extract_lets +onlyGivenNames x; with_reducible refine Kept.cut (W := W) (s₀ := s₀) (s := x) ?_ (fun _ => ?_); (on_goal 1 => subst x); on_goal 2 => clear_value x)
    | (extract_lets +onlyGivenNames x; subst x)
    | split

theorem Kept.on_effGradReady (h : Kept W s₀ s) (_ : W .link) (a1) : Kept W s₀ (effGradReady a1 s) := by
  unfold effGradReady
  repeat' first
    | with_reducible assumption
    | with_reducible apply Kept.ite
    | with_reducible apply Kept.modAdm
    | with_reducible apply Kept.foldl
    | with_reducible apply Kept.foldl_fst
    | intro _
    | (extract_lets +onlyGivenNames x; with_reducible refine Kept.cut (W := W) (s₀ := s₀) (s := x) ?_ (fun _ => ?_); (on_goal 1 => subst x); on_goal 2 => clear_value x)
    | (extract_lets +onlyGivenNames x; subst x)
    | split

theorem Kept.on_execMasterTileUpdate (h : Kept W s₀ s) (_ : W .link) (_ : W .slices) (_ : W .ctxs) (_ : W .branches) (_ : W .engCtr) (_ : W .slcCtr) (_ : W .ctxCtr) (_ : W .mem) (_ : W .freeIdx) (_ : W .fab) (a1 a2 a3) : KeptX W s₀ (execMasterTileUpdate a1 a2 a3 s) := by
  unfold execMasterTileUpdate
  repeat' first
    | with_reducible assumption
    | with_reducible apply KeptX.next
    | with_reducible apply KeptX.ite
    | with_reducible apply Kept.ite
    | with_reducible apply Kept.tileDone
    | with_reducible apply Kept.rawWrite
    | with_reducible apply Kept.updateTile
    | with_reducible apply Kept.promoteFor
    | with_reducible exact KeptO.none
    | with_reducible apply KeptO.some
    | with_reducible apply KeptO.ite
    | with_reducible refine KeptO.get ?_ (by assumption)
    | with_reducible apply Kept.foldl
    | with_reducible apply Kept.foldl_fst
    | intro _
    | (extract_lets +onlyGivenNames x; with_reducible refine Kept.cut (W := W) (s₀ := s₀) (s := x) ?_ (fun _ => ?_); (on_goal 1 => subst x); on_goal 2 => clear_value x)
    | (extract_lets +onlyGivenNames x; subst x)
    | split

theorem Kept.on_takeGradReady (h : Kept W s₀ s) (_ : W .link) (_ : W .ctxs) (a1) : Kept W s₀ (takeGradReady a1 s) := by
  unfold takeGradReady
  repeat' first
    | with_reducible assumption
    | with_reducible apply Kept.ite
    | with_reducible apply Kept.modAdm
    | with_reducible apply Kept.modStep
    | with_reducible apply Kept.foldl
    | with_reducible apply Kept.foldl_fst
    | intro _
    | (extract_lets +onlyGivenNames x; with_reducible refine Kept.cut (W := W) (s₀ := s₀) (s := x) ?_ (fun _ => ?_); (on_goal 1 => subst x); on_goal 2 => clear_value x)
    | (extract_lets +onlyGivenNames x; subst x)
    | split

theorem Kept.on_execStepGradReady (h : Kept W s₀ s) (_ : W .link) (_ : W .power) (_ : W .ctxs) (_ : W .engCtr) (a1) : KeptX W s₀ (execStepGradReady a1 s) := by
  unfold execStepGradReady
  repeat' first
    | with_reducible assumption
    | with_reducible apply KeptX.next
    | with_reducible apply KeptX.ite
    | with_reducible apply Kept.ite
    | with_reducible apply Kept.runCmd
    | with_reducible apply Kept.on_takeGradReady
    | with_reducible apply Kept.on_effGradReady
    | with_reducible apply Kept.foldl
    | with_reducible apply Kept.foldl_fst
    | intro _
    | (extract_lets +onlyGivenNames x; with_reducible refine Kept.cut (W := W) (s₀ := s₀) (s := x) ?_ (fun _ => ?_); (on_goal 1 => subst x); on_goal 2 => clear_value x)
    | (extract_lets +onlyGivenNames x; subst x)
    | split

theorem Kept.accumulateTile (h : Kept W s₀ s) (_ : W .link) (_ : W .slices) (_ : W .ctxs) (_ : W .branches) (_ : W .engCtr) (_ : W .slcCtr) (_ : W .ctxCtr) (_ : W .mem) (_ : W .freeIdx) (a1 a2) : KeptO W s₀ (State.accumulateTile s a1 a2) := by
  unfold State.accumulateTile
  repeat' first
    | with_reducible assumption
    | with_reducible exact KeptO.none
    | with_reducible apply KeptO.some
    | with_reducible apply KeptO.ite
    | with_reducible apply Kept.ite
    | with_reducible apply Kept.commitTiles
    | with_reducible apply Kept.modTile
    | with_reducible apply Kept.countSlot
    | with_reducible apply Kept.sparseFaults
    | with_reducible apply Kept.overflowIf
    | with_reducible apply Kept.tallyStep
    | with_reducible apply Kept.modAdm
    | with_reducible refine KeptO.get ?_ (by assumption)
    | with_reducible apply Kept.foldl
    | with_reducible apply Kept.foldl_fst
    | with_reducible apply KeptO.foldlO
    | with_reducible refine KeptO.get (by assumption) rfl
    | intro _
    | (extract_lets +onlyGivenNames x; with_reducible refine Kept.cut (W := W) (s₀ := s₀) (s := x) ?_ (fun _ => ?_); (on_goal 1 => subst x); on_goal 2 => clear_value x)
    | (extract_lets +onlyGivenNames x; subst x)
    | split

theorem Kept.raiseSat (h : Kept W s₀ s) (_ : W .link) (_ : W .engCtr) (_ : W .ctxCtr) (a1 a2 a3) : Kept W s₀ (State.raiseSat s a1 a2 a3) := by
  unfold State.raiseSat
  repeat' first
    | with_reducible assumption
    | with_reducible apply Kept.ite
    | with_reducible apply Kept.each
    | with_reducible apply Kept.countCtx
    | with_reducible apply Kept.emit
    | with_reducible apply Kept.foldl
    | with_reducible apply Kept.foldl_fst
    | intro _
    | (extract_lets +onlyGivenNames x; with_reducible refine Kept.cut (W := W) (s₀ := s₀) (s := x) ?_ (fun _ => ?_); (on_goal 1 => subst x); on_goal 2 => clear_value x)
    | (extract_lets +onlyGivenNames x; subst x)
    | split

theorem Kept.raiseAdmSat (h : Kept W s₀ s) (_ : W .link) (_ : W .engCtr) (_ : W .ctxCtr) (a1 a2) : Kept W s₀ (State.raiseAdmSat s a1 a2) := by
  unfold State.raiseAdmSat
  repeat' first
    | with_reducible assumption
    | with_reducible apply Kept.ite
    | with_reducible apply Kept.raiseSat
    | with_reducible apply Kept.foldl
    | with_reducible apply Kept.foldl_fst
    | intro _
    | (extract_lets +onlyGivenNames x; with_reducible refine Kept.cut (W := W) (s₀ := s₀) (s := x) ?_ (fun _ => ?_); (on_goal 1 => subst x); on_goal 2 => clear_value x)
    | (extract_lets +onlyGivenNames x; subst x)
    | split

theorem Kept.runAccumulate (h : Kept W s₀ s) (_ : W .link) (_ : W .slices) (_ : W .ctxs) (_ : W .branches) (_ : W .engCtr) (_ : W .slcCtr) (_ : W .ctxCtr) (_ : W .mem) (_ : W .freeIdx) (_ : W .fab) (a1 a2) : Kept W s₀ (State.runAccumulate s a1 a2) := by
  unfold State.runAccumulate
  repeat' first
    | with_reducible assumption
    | with_reducible apply Kept.endSlot
    | with_reducible apply Kept.ite
    | with_reducible apply Kept.promoteFor
    | with_reducible apply Kept.accumulateTile
    | with_reducible apply Kept.noRoom
    | with_reducible apply Kept.markDone
    | with_reducible apply Kept.serveTile
    | with_reducible apply Kept.finish
    | with_reducible apply Kept.raiseAdmSat
    | with_reducible apply Kept.raiseSparse
    | with_reducible exact KeptO.none
    | with_reducible apply KeptO.some
    | with_reducible apply KeptO.ite
    | with_reducible refine KeptO.get ?_ (by assumption)
    | with_reducible apply Kept.foldl
    | with_reducible apply Kept.foldl_fst
    | intro _
    | (extract_lets +onlyGivenNames x; with_reducible refine Kept.cut (W := W) (s₀ := s₀) (s := x) ?_ (fun _ => ?_); (on_goal 1 => subst x); on_goal 2 => clear_value x)
    | (extract_lets +onlyGivenNames x; subst x)
    | split

theorem Kept.on_effAccumulate (h : Kept W s₀ s) (_ : W .link) (_ : W .slices) (_ : W .ctxs) (_ : W .branches) (_ : W .engCtr) (_ : W .slcCtr) (_ : W .ctxCtr) (_ : W .mem) (_ : W .freeIdx) (_ : W .fab) (a1) : Kept W s₀ (effAccumulate a1 s) := by
  unfold effAccumulate
  repeat' first
    | with_reducible assumption
    | with_reducible apply Kept.ite
    | with_reducible apply Kept.runAccumulate
    | with_reducible apply Kept.modAdm
    | with_reducible apply Kept.foldl
    | with_reducible apply Kept.foldl_fst
    | intro _
    | (extract_lets +onlyGivenNames x; with_reducible refine Kept.cut (W := W) (s₀ := s₀) (s := x) ?_ (fun _ => ?_); (on_goal 1 => subst x); on_goal 2 => clear_value x)
    | (extract_lets +onlyGivenNames x; subst x)
    | split

theorem Kept.on_takeAccumulate (h : Kept W s₀ s) (_ : W .link) (a1) : Kept W s₀ (takeAccumulate a1 s) := by
  unfold takeAccumulate
  repeat' first
    | with_reducible assumption
    | with_reducible apply Kept.ite
    | with_reducible apply Kept.modAdm
    | with_reducible apply Kept.foldl
    | with_reducible apply Kept.foldl_fst
    | intro _
    | (extract_lets +onlyGivenNames x; with_reducible refine Kept.cut (W := W) (s₀ := s₀) (s := x) ?_ (fun _ => ?_); (on_goal 1 => subst x); on_goal 2 => clear_value x)
    | (extract_lets +onlyGivenNames x; subst x)
    | split

theorem Kept.on_execStepAccumulate (h : Kept W s₀ s) (_ : W .link) (_ : W .power) (_ : W .slices) (_ : W .ctxs) (_ : W .branches) (_ : W .engCtr) (_ : W .slcCtr) (_ : W .ctxCtr) (_ : W .mem) (_ : W .freeIdx) (_ : W .fab) (a1) : KeptX W s₀ (execStepAccumulate a1 s) := by
  unfold execStepAccumulate
  repeat' first
    | with_reducible assumption
    | with_reducible apply KeptX.next
    | with_reducible apply KeptX.ite
    | with_reducible apply Kept.ite
    | with_reducible apply Kept.runCmd
    | with_reducible apply Kept.on_takeAccumulate
    | with_reducible apply Kept.on_effAccumulate
    | with_reducible apply Kept.foldl
    | with_reducible apply Kept.foldl_fst
    | intro _
    | (extract_lets +onlyGivenNames x; with_reducible refine Kept.cut (W := W) (s₀ := s₀) (s := x) ?_ (fun _ => ?_); (on_goal 1 => subst x); on_goal 2 => clear_value x)
    | (extract_lets +onlyGivenNames x; subst x)
    | split

theorem Kept.askDecode (h : Kept W s₀ s) (_ : W .fab) (a1 a2 a3 a4 a5 a6 a7 a8 a9) : Kept W s₀ (State.askDecode s a1 a2 a3 a4 a5 a6 a7 a8 a9) := by
  unfold State.askDecode
  repeat' first
    | with_reducible assumption
    | with_reducible apply Kept.ite
    | with_reducible apply Kept.foldl
    | with_reducible apply Kept.foldl_fst
    | intro _
    | (extract_lets +onlyGivenNames x; with_reducible refine Kept.cut (W := W) (s₀ := s₀) (s := x) ?_ (fun _ => ?_); (on_goal 1 => subst x); on_goal 2 => clear_value x)
    | (extract_lets +onlyGivenNames x; subst x)
    | split
    | with_reducible apply Kept.set_fab

theorem Kept.askCrust (h : Kept W s₀ s) (_ : W .fab) (a1 a2 a3 a4 a5) : Kept W s₀ (State.askCrust s a1 a2 a3 a4 a5) := by
  unfold State.askCrust
  repeat' first
    | with_reducible assumption
    | with_reducible apply Kept.ite
    | with_reducible apply Kept.each
    | with_reducible apply Kept.askDecode
    | with_reducible apply Kept.foldl
    | with_reducible apply Kept.foldl_fst
    | intro _
    | (extract_lets +onlyGivenNames x; with_reducible refine Kept.cut (W := W) (s₀ := s₀) (s := x) ?_ (fun _ => ?_); (on_goal 1 => subst x); on_goal 2 => clear_value x)
    | (extract_lets +onlyGivenNames x; subst x)
    | split

theorem Kept.askOwn (h : Kept W s₀ s) (_ : W .fab) (a1 a2 a3 a4 a5) : Kept W s₀ (State.askOwn s a1 a2 a3 a4 a5) := by
  unfold State.askOwn
  repeat' first
    | with_reducible assumption
    | with_reducible apply Kept.ite
    | with_reducible apply Kept.askDecode
    | with_reducible apply Kept.foldl
    | with_reducible apply Kept.foldl_fst
    | intro _
    | (extract_lets +onlyGivenNames x; with_reducible refine Kept.cut (W := W) (s₀ := s₀) (s := x) ?_ (fun _ => ?_); (on_goal 1 => subst x); on_goal 2 => clear_value x)
    | (extract_lets +onlyGivenNames x; subst x)
    | split

theorem Kept.dropJobs (h : Kept W s₀ s) (_ : W .fab) (a1) : Kept W s₀ (State.dropJobs s a1) := by
  unfold State.dropJobs
  repeat' first
    | with_reducible assumption
    | with_reducible apply Kept.ite
    | with_reducible apply Kept.foldl
    | with_reducible apply Kept.foldl_fst
    | intro _
    | (extract_lets +onlyGivenNames x; with_reducible refine Kept.cut (W := W) (s₀ := s₀) (s := x) ?_ (fun _ => ?_); (on_goal 1 => subst x); on_goal 2 => clear_value x)
    | (extract_lets +onlyGivenNames x; subst x)
    | split
    | with_reducible apply Kept.set_fab

theorem Kept.dropSum (h : Kept W s₀ s) (_ : W .fab) (a1) : Kept W s₀ (State.dropSum s a1) := by
  unfold State.dropSum
  repeat' first
    | with_reducible assumption
    | with_reducible apply Kept.ite
    | with_reducible apply Kept.foldl
    | with_reducible apply Kept.foldl_fst
    | intro _
    | (extract_lets +onlyGivenNames x; with_reducible refine Kept.cut (W := W) (s₀ := s₀) (s := x) ?_ (fun _ => ?_); (on_goal 1 => subst x); on_goal 2 => clear_value x)
    | (extract_lets +onlyGivenNames x; subst x)
    | split
    | with_reducible apply Kept.set_fab

theorem Kept.modCrust (h : Kept W s₀ s) (_ : W .ctxs) (a1 a2 a3 a4) : Kept W s₀ (State.modCrust s a1 a2 a3 a4) := by
  unfold State.modCrust
  repeat' first
    | with_reducible assumption
    | with_reducible apply Kept.ite
    | with_reducible apply Kept.modCtx
    | with_reducible apply Kept.foldl
    | with_reducible apply Kept.foldl_fst
    | intro _
    | (extract_lets +onlyGivenNames x; with_reducible refine Kept.cut (W := W) (s₀ := s₀) (s := x) ?_ (fun _ => ?_); (on_goal 1 => subst x); on_goal 2 => clear_value x)
    | (extract_lets +onlyGivenNames x; subst x)
    | split

theorem Kept.modDecode (h : Kept W s₀ s) (_ : W .fab) (a1 a2) : Kept W s₀ (State.modDecode s a1 a2) := by
  unfold State.modDecode
  repeat' first
    | with_reducible assumption
    | with_reducible apply Kept.ite
    | with_reducible apply Kept.foldl
    | with_reducible apply Kept.foldl_fst
    | intro _
    | (extract_lets +onlyGivenNames x; with_reducible refine Kept.cut (W := W) (s₀ := s₀) (s := x) ?_ (fun _ => ?_); (on_goal 1 => subst x); on_goal 2 => clear_value x)
    | (extract_lets +onlyGivenNames x; subst x)
    | split
    | with_reducible apply Kept.set_fab

theorem Kept.modSum (h : Kept W s₀ s) (_ : W .fab) (a1 a2) : Kept W s₀ (State.modSum s a1 a2) := by
  unfold State.modSum
  repeat' first
    | with_reducible assumption
    | with_reducible apply Kept.ite
    | with_reducible apply Kept.foldl
    | with_reducible apply Kept.foldl_fst
    | intro _
    | (extract_lets +onlyGivenNames x; with_reducible refine Kept.cut (W := W) (s₀ := s₀) (s := x) ?_ (fun _ => ?_); (on_goal 1 => subst x); on_goal 2 => clear_value x)
    | (extract_lets +onlyGivenNames x; subst x)
    | split
    | with_reducible apply Kept.set_fab

theorem Kept.sendSum (h : Kept W s₀ s) (_ : W .fab) (_ : W .ctxs) (_ : W .engCtr) (_ : W .ctxCtr) (a1 a2) : Kept W s₀ (State.sendSum s a1 a2) := by
  unfold State.sendSum
  repeat' first
    | with_reducible assumption
    | with_reducible apply Kept.ite
    | with_reducible apply Kept.each
    | with_reducible apply Kept.issue
    | with_reducible apply Kept.foldl
    | with_reducible apply Kept.foldl_fst
    | intro _
    | (extract_lets +onlyGivenNames x; with_reducible refine Kept.cut (W := W) (s₀ := s₀) (s := x) ?_ (fun _ => ?_); (on_goal 1 => subst x); on_goal 2 => clear_value x)
    | (extract_lets +onlyGivenNames x; subst x)
    | split

theorem Kept.pushSum (h : Kept W s₀ s) (_ : W .fab) (_ : W .slices) (_ : W .ctxs) (_ : W .engCtr) (_ : W .ctxCtr) (a1) : Kept W s₀ (State.pushSum s a1) := by
  unfold State.pushSum
  repeat' first
    | with_reducible assumption
    | with_reducible apply Kept.ite
    | with_reducible apply Kept.dropSum
    | with_reducible apply Kept.askRead
    | with_reducible apply Kept.sendSum
    | with_reducible apply Kept.modSum
    | with_reducible apply Kept.foldl
    | with_reducible apply Kept.foldl_fst
    | intro _
    | (extract_lets +onlyGivenNames x; with_reducible refine Kept.cut (W := W) (s₀ := s₀) (s := x) ?_ (fun _ => ?_); (on_goal 1 => subst x); on_goal 2 => clear_value x)
    | (extract_lets +onlyGivenNames x; subst x)
    | split

theorem Kept.pushSums (h : Kept W s₀ s) (_ : W .fab) (_ : W .slices) (_ : W .ctxs) (_ : W .engCtr) (_ : W .ctxCtr) : Kept W s₀ (State.pushSums s) := by
  unfold State.pushSums
  repeat' first
    | with_reducible assumption
    | with_reducible apply Kept.ite
    | with_reducible apply Kept.each
    | with_reducible apply Kept.pushSum
    | with_reducible apply Kept.foldl
    | with_reducible apply Kept.foldl_fst
    | intro _
    | (extract_lets +onlyGivenNames x; with_reducible refine Kept.cut (W := W) (s₀ := s₀) (s := x) ?_ (fun _ => ?_); (on_goal 1 => subst x); on_goal 2 => clear_value x)
    | (extract_lets +onlyGivenNames x; subst x)
    | split

theorem Kept.sumAt (h : Kept W s₀ s) (_ : W .fab) (a1 a2 a3 a4 a5) : Kept W s₀ (State.sumAt s a1 a2 a3 a4 a5).1 := by
  unfold State.sumAt
  repeat' first
    | with_reducible assumption
    | with_reducible apply Kept.ite
    | with_reducible apply Kept.foldl
    | with_reducible apply Kept.foldl_fst
    | intro _
    | (extract_lets +onlyGivenNames x; with_reducible refine Kept.cut (W := W) (s₀ := s₀) (s := x) ?_ (fun _ => ?_); (on_goal 1 => subst x); on_goal 2 => clear_value x)
    | (extract_lets +onlyGivenNames x; subst x)
    | split
    | (dsimp only)
    | with_reducible apply Kept.set_fab

theorem Kept.serveDecodeReq (h : Kept W s₀ s) (_ : W .fab) (_ : W .slices) (_ : W .ctxs) (_ : W .engCtr) (_ : W .ctxCtr) (a1 a2) : Kept W s₀ (State.serveDecodeReq s a1 a2) := by
  unfold State.serveDecodeReq
  repeat' first
    | with_reducible assumption
    | with_reducible apply Kept.ite
    | with_reducible apply Kept.respond
    | with_reducible apply Kept.countCtx
    | with_reducible apply Kept.each
    | with_reducible apply Kept.sumAt
    | with_reducible apply Kept.pushSum
    | with_reducible apply Kept.modSum
    | with_reducible refine Kept.fst (by assumption) ?_
    | with_reducible apply Kept.foldl
    | with_reducible apply Kept.foldl_fst
    | intro _
    | (extract_lets +onlyGivenNames x; with_reducible refine Kept.cut (W := W) (s₀ := s₀) (s := x) ?_ (fun _ => ?_); (on_goal 1 => subst x); on_goal 2 => clear_value x)
    | (extract_lets +onlyGivenNames x; subst x)
    | split

theorem Kept.takePart (h : Kept W s₀ s) (_ : W .fab) (_ : W .slices) (_ : W .ctxs) (_ : W .engCtr) (_ : W .ctxCtr) (a1 a2 a3 a4 a5 a6 a7 a8) : Kept W s₀ (State.takePart s a1 a2 a3 a4 a5 a6 a7 a8) := by
  unfold State.takePart
  repeat' first
    | with_reducible assumption
    | with_reducible apply Kept.ite
    | with_reducible apply Kept.sumAt
    | with_reducible apply Kept.pushSum
    | with_reducible apply Kept.modSum
    | with_reducible refine Kept.fst (by assumption) ?_
    | with_reducible apply Kept.foldl
    | with_reducible apply Kept.foldl_fst
    | intro _
    | (extract_lets +onlyGivenNames x; with_reducible refine Kept.cut (W := W) (s₀ := s₀) (s := x) ?_ (fun _ => ?_); (on_goal 1 => subst x); on_goal 2 => clear_value x)
    | (extract_lets +onlyGivenNames x; subst x)
    | split

theorem Kept.on_execDecodeReq (h : Kept W s₀ s) (_ : W .link) (_ : W .fab) (_ : W .power) (_ : W .health) (_ : W .slices) (_ : W .ctxs) (_ : W .engCtr) (_ : W .ctxCtr) (a1 a2) : KeptX W s₀ (execDecodeReq a1 a2 s) := by
  unfold execDecodeReq
  repeat' first
    | with_reducible assumption
    | with_reducible apply KeptX.next
    | with_reducible apply KeptX.ite
    | with_reducible apply Kept.ite
    | with_reducible apply Kept.inRequest
    | with_reducible apply Kept.serveDecodeReq
    | with_reducible apply Kept.foldl
    | with_reducible apply Kept.foldl_fst
    | intro _
    | (extract_lets +onlyGivenNames x; with_reducible refine Kept.cut (W := W) (s₀ := s₀) (s := x) ?_ (fun _ => ?_); (on_goal 1 => subst x); on_goal 2 => clear_value x)
    | (extract_lets +onlyGivenNames x; subst x)
    | split

theorem Kept.marginEvent (h : Kept W s₀ s) (_ : W .link) (_ : W .engCtr) (a1 a2 a3 a4 a5) : Kept W s₀ (State.marginEvent s a1 a2 a3 a4 a5) := by
  unfold State.marginEvent
  repeat' first
    | with_reducible assumption
    | with_reducible apply Kept.ite
    | with_reducible apply Kept.emit
    | with_reducible apply Kept.foldl
    | with_reducible apply Kept.foldl_fst
    | intro _
    | (extract_lets +onlyGivenNames x; with_reducible refine Kept.cut (W := W) (s₀ := s₀) (s := x) ?_ (fun _ => ?_); (on_goal 1 => subst x); on_goal 2 => clear_value x)
    | (extract_lets +onlyGivenNames x; subst x)
    | split

theorem Kept.commitReady (h : Kept W s₀ s) (_ : W .link) (_ : W .ctxs) (_ : W .engCtr) (_ : W .ctxCtr) (a1) : Kept W s₀ (State.commitReady s a1) := by
  unfold State.commitReady
  repeat' first
    | with_reducible assumption
    | with_reducible apply Kept.ite
    | with_reducible apply Kept.each
    | with_reducible apply Kept.countCtx
    | with_reducible apply Kept.modCrust
    | with_reducible apply Kept.modCtx
    | with_reducible apply Kept.marginEvent
    | with_reducible apply Kept.foldl
    | with_reducible apply Kept.foldl_fst
    | intro _
    | (extract_lets +onlyGivenNames x; with_reducible refine Kept.cut (W := W) (s₀ := s₀) (s := x) ?_ (fun _ => ?_); (on_goal 1 => subst x); on_goal 2 => clear_value x)
    | (extract_lets +onlyGivenNames x; subst x)
    | split

theorem Kept.applyCrumb (h : Kept W s₀ s) (_ : W .link) (_ : W .slices) (_ : W .ctxs) (_ : W .engCtr) (_ : W .slcCtr) (_ : W .ctxCtr) (a1) : Kept W s₀ (State.applyCrumb s a1) := by
  unfold State.applyCrumb
  repeat' first
    | with_reducible assumption
    | with_reducible apply Kept.ite
    | with_reducible apply Kept.modCrust
    | with_reducible apply Kept.serve
    | with_reducible apply Kept.countCtx
    | with_reducible apply Kept.modCtx
    | with_reducible apply Kept.commitReady
    | with_reducible apply Kept.foldl
    | with_reducible apply Kept.foldl_fst
    | intro _
    | (extract_lets +onlyGivenNames x; with_reducible refine Kept.cut (W := W) (s₀ := s₀) (s := x) ?_ (fun _ => ?_); (on_goal 1 => subst x); on_goal 2 => clear_value x)
    | (extract_lets +onlyGivenNames x; subst x)
    | split

theorem Kept.landPiece (h : Kept W s₀ s) (_ : W .link) (_ : W .slices) (_ : W .ctxs) (_ : W .engCtr) (_ : W .slcCtr) (_ : W .ctxCtr) (a1 a2 a3 a4) : Kept W s₀ (State.landPiece s a1 a2 a3 a4) := by
  unfold State.landPiece
  repeat' first
    | with_reducible assumption
    | with_reducible apply Kept.ite
    | with_reducible apply Kept.applyCrumb
    | with_reducible apply Kept.modSlice
    | with_reducible apply Kept.foldl
    | with_reducible apply Kept.foldl_fst
    | intro _
    | (extract_lets +onlyGivenNames x; with_reducible refine Kept.cut (W := W) (s₀ := s₀) (s := x) ?_ (fun _ => ?_); (on_goal 1 => subst x); on_goal 2 => clear_value x)
    | (extract_lets +onlyGivenNames x; subst x)
    | split

theorem Kept.applyLanded (h : Kept W s₀ s) (_ : W .link) (_ : W .slices) (_ : W .ctxs) (_ : W .engCtr) (_ : W .slcCtr) (_ : W .ctxCtr) (a1) : Kept W s₀ (State.applyLanded s a1) := by
  unfold State.applyLanded
  repeat' first
    | with_reducible assumption
    | with_reducible apply Kept.ite
    | with_reducible apply Kept.each
    | with_reducible apply Kept.applyCrumb
    | with_reducible apply Kept.modSlice
    | intro _
    | split

theorem Kept.revertCrust (h : Kept W s₀ s) (_ : W .ctxs) (_ : W .ctxCtr) (a1) : Kept W s₀ (State.revertCrust s a1) := by
  unfold State.revertCrust
  repeat' first
    | with_reducible assumption
    | with_reducible apply Kept.ite
    | with_reducible apply Kept.modCtx
    | with_reducible apply Kept.countCtx
    | with_reducible apply Kept.foldl
    | with_reducible apply Kept.foldl_fst
    | intro _
    | (extract_lets +onlyGivenNames x; with_reducible refine Kept.cut (W := W) (s₀ := s₀) (s := x) ?_ (fun _ => ?_); (on_goal 1 => subst x); on_goal 2 => clear_value x)
    | (extract_lets +onlyGivenNames x; subst x)
    | split

theorem Kept.serveCrumb (h : Kept W s₀ s) (_ : W .link) (_ : W .fab) (_ : W .slices) (_ : W .ctxs) (_ : W .engCtr) (_ : W .slcCtr) (_ : W .ctxCtr) (a1 a2) : Kept W s₀ (State.serveCrumb s a1 a2) := by
  unfold State.serveCrumb
  repeat' first
    | with_reducible assumption
    | with_reducible apply Kept.ite
    | with_reducible apply Kept.countCtx
    | with_reducible apply Kept.respond
    | with_reducible apply Kept.askCrust
    | with_reducible apply Kept.landPiece
    | with_reducible apply Kept.modSlice
    | with_reducible apply Kept.foldl
    | with_reducible apply Kept.foldl_fst
    | intro _
    | (extract_lets +onlyGivenNames x; with_reducible refine Kept.cut (W := W) (s₀ := s₀) (s := x) ?_ (fun _ => ?_); (on_goal 1 => subst x); on_goal 2 => clear_value x)
    | (extract_lets +onlyGivenNames x; subst x)
    | split

theorem Kept.serveNotice (h : Kept W s₀ s) (_ : W .link) (_ : W .fab) (_ : W .ctxs) (_ : W .engCtr) (_ : W .ctxCtr) (a1 a2) : Kept W s₀ (State.serveNotice s a1 a2) := by
  unfold State.serveNotice
  repeat' first
    | with_reducible assumption
    | with_reducible apply Kept.ite
    | with_reducible apply Kept.respond
    | with_reducible apply Kept.countCtx
    | with_reducible apply Kept.modCtx
    | with_reducible apply Kept.commitReady
    | with_reducible apply Kept.foldl
    | with_reducible apply Kept.foldl_fst
    | intro _
    | (extract_lets +onlyGivenNames x; with_reducible refine Kept.cut (W := W) (s₀ := s₀) (s := x) ?_ (fun _ => ?_); (on_goal 1 => subst x); on_goal 2 => clear_value x)
    | (extract_lets +onlyGivenNames x; subst x)
    | split

theorem Kept.on_execCrumb (h : Kept W s₀ s) (_ : W .link) (_ : W .fab) (_ : W .power) (_ : W .health) (_ : W .slices) (_ : W .ctxs) (_ : W .engCtr) (_ : W .slcCtr) (_ : W .ctxCtr) (a1 a2) : KeptX W s₀ (execCrumb a1 a2 s) := by
  unfold execCrumb
  repeat' first
    | with_reducible assumption
    | with_reducible apply KeptX.next
    | with_reducible apply KeptX.ite
    | with_reducible apply Kept.ite
    | with_reducible apply Kept.inRequest
    | with_reducible apply Kept.serveCrumb
    | with_reducible apply Kept.foldl
    | with_reducible apply Kept.foldl_fst
    | intro _
    | (extract_lets +onlyGivenNames x; with_reducible refine Kept.cut (W := W) (s₀ := s₀) (s := x) ?_ (fun _ => ?_); (on_goal 1 => subst x); on_goal 2 => clear_value x)
    | (extract_lets +onlyGivenNames x; subst x)
    | split

theorem Kept.on_execCrumbLandingTimeout (h : Kept W s₀ s) (_ : W .slices) (a1 a2 a3 a4 a5) : KeptX W s₀ (execCrumbLandingTimeout a1 a2 a3 a4 a5 s) := by
  unfold execCrumbLandingTimeout
  repeat' first
    | with_reducible assumption
    | with_reducible apply KeptX.next
    | with_reducible apply KeptX.ite
    | with_reducible apply Kept.ite
    | with_reducible apply Kept.foldl
    | with_reducible apply Kept.foldl_fst
    | intro _
    | (extract_lets +onlyGivenNames x; with_reducible refine Kept.cut (W := W) (s₀ := s₀) (s := x) ?_ (fun _ => ?_); (on_goal 1 => subst x); on_goal 2 => clear_value x)
    | (extract_lets +onlyGivenNames x; subst x)
    | split
    | with_reducible apply Kept.set_slices
    | with_reducible apply mwf_mset
    | with_reducible apply mwf_merase
    | with_reducible apply mwf_mkeep
    | with_reducible apply mwf_mmap

theorem Kept.on_execSealNotice (h : Kept W s₀ s) (_ : W .link) (_ : W .fab) (_ : W .power) (_ : W .health) (_ : W .ctxs) (_ : W .engCtr) (_ : W .ctxCtr) (a1 a2) : KeptX W s₀ (execSealNotice a1 a2 s) := by
  unfold execSealNotice
  repeat' first
    | with_reducible assumption
    | with_reducible apply KeptX.next
    | with_reducible apply KeptX.ite
    | with_reducible apply Kept.ite
    | with_reducible apply Kept.inRequest
    | with_reducible apply Kept.serveNotice
    | with_reducible apply Kept.foldl
    | with_reducible apply Kept.foldl_fst
    | intro _
    | (extract_lets +onlyGivenNames x; with_reducible refine Kept.cut (W := W) (s₀ := s₀) (s := x) ?_ (fun _ => ?_); (on_goal 1 => subst x); on_goal 2 => clear_value x)
    | (extract_lets +onlyGivenNames x; subst x)
    | split

theorem Kept.on_execSealWaitExpiry (h : Kept W s₀ s) (_ : W .link) (_ : W .fab) (_ : W .ctxs) (_ : W .engCtr) (_ : W .ctxCtr) (a1 a2) : KeptX W s₀ (execSealWaitExpiry a1 a2 s) := by
  unfold execSealWaitExpiry
  repeat' first
    | with_reducible assumption
    | with_reducible apply Kept.lost
    | with_reducible apply Kept.suspect
    | with_reducible apply KeptX.next
    | with_reducible apply KeptX.ite
    | with_reducible apply Kept.ite
    | with_reducible apply Kept.modCtx
    | with_reducible apply Kept.suspectIn
    | with_reducible apply Kept.lostIn
    | with_reducible apply Kept.foldl
    | with_reducible apply Kept.foldl_fst
    | intro _
    | (extract_lets +onlyGivenNames x; with_reducible refine Kept.cut (W := W) (s₀ := s₀) (s := x) ?_ (fun _ => ?_); (on_goal 1 => subst x); on_goal 2 => clear_value x)
    | (extract_lets +onlyGivenNames x; subst x)
    | split

end Sys2Proof.Machine
end

