-- ==== Sys2Proof/Laws/KeptSteps.lean ====
section
/-!
SUPPORT. Laws/KeptSteps.lean: what each operation of Steps, Publish, Bakes, Group, Cancel may change (`Kept`).
-/
namespace Sys2Proof.Machine
set_option linter.unreachableTactic false
set_option linter.unusedTactic false
set_option linter.tactic.unusedName false

variable {W : Part → Prop} {s₀ s t : State}

theorem Kept.readLevel (h : Kept W s₀ s) (_ : W .link) (_ : W .fab) (_ : W .health) (_ : W .slices) (_ : W .ctxs) (_ : W .pctr) (_ : W .poison) (_ : W .engCtr) (_ : W .slcCtr) (_ : W .ctxCtr) (_ : W .sram) (a1 a2) : Kept W s₀ (State.readLevel s a1 a2) := by
  unfold State.readLevel
  repeat' first
    | with_reducible assumption
    | with_reducible apply Kept.ite
    | with_reducible apply Kept.setCtr
    | with_reducible apply Kept.modCtx
    | with_reducible apply Kept.counterAt
    | with_reducible apply Kept.foldl
    | with_reducible apply Kept.foldl_fst
    | intro _
    | (extract_lets +onlyGivenNames x; with_reducible refine Kept.cut (W := W) (s₀ := s₀) (s := x) ?_ (fun _ => ?_); (on_goal 1 => subst x); on_goal 2 => clear_value x)
    | (extract_lets +onlyGivenNames x; subst x)
    | split

theorem Kept.afterFinal (h : Kept W s₀ s) (_ : W .link) (_ : W .fab) (_ : W .health) (_ : W .slices) (_ : W .ctxs) (_ : W .pctr) (_ : W .poison) (_ : W .engCtr) (_ : W .slcCtr) (_ : W .ctxCtr) (_ : W .sram) (a1 a2) : Kept W s₀ (State.afterFinal s a1 a2) := by
  unfold State.afterFinal
  repeat' first
    | with_reducible assumption
    | with_reducible apply Kept.ite
    | with_reducible apply Kept.readLevel
    | with_reducible apply Kept.foldl
    | with_reducible apply Kept.foldl_fst
    | intro _
    | (extract_lets +onlyGivenNames x; with_reducible refine Kept.cut (W := W) (s₀ := s₀) (s := x) ?_ (fun _ => ?_); (on_goal 1 => subst x); on_goal 2 => clear_value x)
    | (extract_lets +onlyGivenNames x; subst x)
    | split

theorem Kept.cancelMissed (h : Kept W s₀ s) (_ : W .link) (a1 a2) : Kept W s₀ (State.cancelMissed s a1 a2) := by
  unfold State.cancelMissed
  repeat' first
    | with_reducible assumption
    | with_reducible apply Kept.ite
    | with_reducible apply Kept.foldl
    | with_reducible apply Kept.foldl_fst
    | intro _
    | (extract_lets +onlyGivenNames x; with_reducible refine Kept.cut (W := W) (s₀ := s₀) (s := x) ?_ (fun _ => ?_); (on_goal 1 => subst x); on_goal 2 => clear_value x)
    | (extract_lets +onlyGivenNames x; subst x)
    | split
    | with_reducible apply Kept.set_link

theorem Kept.countLate (h : Kept W s₀ s) (_ : W .ctxCtr) (a1 a2) : Kept W s₀ (State.countLate s a1 a2) := by
  unfold State.countLate
  repeat' first
    | with_reducible assumption
    | with_reducible apply Kept.ite
    | with_reducible apply Kept.countCtx
    | with_reducible apply Kept.foldl
    | with_reducible apply Kept.foldl_fst
    | intro _
    | (extract_lets +onlyGivenNames x; with_reducible refine Kept.cut (W := W) (s₀ := s₀) (s := x) ?_ (fun _ => ?_); (on_goal 1 => subst x); on_goal 2 => clear_value x)
    | (extract_lets +onlyGivenNames x; subst x)
    | split

theorem Kept.decideSeal (h : Kept W s₀ s) (_ : W .link) (_ : W .ctxs) (_ : W .engCtr) (_ : W .ctxCtr) (a1 a2) : Kept W s₀ (State.decideSeal s a1 a2) := by
  unfold State.decideSeal
  repeat' first
    | with_reducible assumption
    | with_reducible apply Kept.ite
    | with_reducible apply Kept.modCtx
    | with_reducible apply Kept.emit
    | with_reducible apply Kept.countCtx
    | with_reducible apply Kept.each
    | with_reducible apply Kept.defer
    | with_reducible apply Kept.foldl
    | with_reducible apply Kept.foldl_fst
    | intro _
    | (extract_lets +onlyGivenNames x; with_reducible refine Kept.cut (W := W) (s₀ := s₀) (s := x) ?_ (fun _ => ?_); (on_goal 1 => subst x); on_goal 2 => clear_value x)
    | (extract_lets +onlyGivenNames x; subst x)
    | split

theorem Kept.endPublishes (h : Kept W s₀ s) (_ : W .link) (a1 a2 a3 a4) : Kept W s₀ (State.endPublishes s a1 a2 a3 a4) := by
  unfold State.endPublishes
  repeat' first
    | with_reducible assumption
    | with_reducible apply Kept.ite
    | with_reducible apply Kept.each
    | with_reducible apply Kept.finish
    | with_reducible apply Kept.foldl
    | with_reducible apply Kept.foldl_fst
    | intro _
    | (extract_lets +onlyGivenNames x; with_reducible refine Kept.cut (W := W) (s₀ := s₀) (s := x) ?_ (fun _ => ?_); (on_goal 1 => subst x); on_goal 2 => clear_value x)
    | (extract_lets +onlyGivenNames x; subst x)
    | split

theorem Kept.endStep (h : Kept W s₀ s) (_ : W .ctxs) (a1 a2) : Kept W s₀ (State.endStep s a1 a2) := by
  unfold State.endStep
  repeat' first
    | with_reducible assumption
    | with_reducible apply Kept.ite
    | with_reducible apply Kept.modCtx
    | with_reducible apply Kept.foldl
    | with_reducible apply Kept.foldl_fst
    | intro _
    | (extract_lets +onlyGivenNames x; with_reducible refine Kept.cut (W := W) (s₀ := s₀) (s := x) ?_ (fun _ => ?_); (on_goal 1 => subst x); on_goal 2 => clear_value x)
    | (extract_lets +onlyGivenNames x; subst x)
    | split

theorem Kept.findingBack (h : Kept W s₀ s) (_ : W .link) (_ : W .ctxs) (a1 a2 a3) : Kept W s₀ (State.findingBack s a1 a2 a3) := by
  unfold State.findingBack
  repeat' first
    | with_reducible assumption
    | with_reducible apply Kept.ite
    | with_reducible apply Kept.modStep
    | with_reducible apply Kept.finish
    | with_reducible apply Kept.foldl
    | with_reducible apply Kept.foldl_fst
    | intro _
    | (extract_lets +onlyGivenNames x; with_reducible refine Kept.cut (W := W) (s₀ := s₀) (s := x) ?_ (fun _ => ?_); (on_goal 1 => subst x); on_goal 2 => clear_value x)
    | (extract_lets +onlyGivenNames x; subst x)
    | split

theorem Kept.recast (h : Kept W s₀ s) (_ : W .slices) (_ : W .ctxs) (_ : W .branches) (_ : W .slcCtr) (_ : W .ctxCtr) (_ : W .mem) (a1 a2 a3 a4) : Kept W s₀ (State.recast s a1 a2 a3 a4).1 := by
  unfold State.recast
  repeat' first
    | with_reducible assumption
    | with_reducible apply Kept.ite
    | with_reducible apply Kept.serveTile
    | with_reducible apply Kept.noteU
    | with_reducible apply Kept.layPieces
    | with_reducible apply Kept.foldl
    | with_reducible apply Kept.foldl_fst
    | intro _
    | (extract_lets +onlyGivenNames x; with_reducible refine Kept.cut (W := W) (s₀ := s₀) (s := x) ?_ (fun _ => ?_); (on_goal 1 => subst x); on_goal 2 => clear_value x)
    | (extract_lets +onlyGivenNames x; subst x)
    | split
    | (dsimp only)

theorem Kept.recastAll (h : Kept W s₀ s) (_ : W .slices) (_ : W .ctxs) (_ : W .branches) (_ : W .slcCtr) (_ : W .ctxCtr) (_ : W .mem) (a1 a2) : Kept W s₀ (State.recastAll s a1 a2) := by
  unfold State.recastAll
  repeat' first
    | with_reducible assumption
    | with_reducible apply Kept.ite
    | with_reducible apply Kept.each
    | with_reducible apply Kept.recast
    | with_reducible apply Kept.tallyStep
    | with_reducible refine Kept.fst (by assumption) ?_
    | with_reducible apply Kept.foldl
    | with_reducible apply Kept.foldl_fst
    | intro _
    | (extract_lets +onlyGivenNames x; with_reducible refine Kept.cut (W := W) (s₀ := s₀) (s := x) ?_ (fun _ => ?_); (on_goal 1 => subst x); on_goal 2 => clear_value x)
    | (extract_lets +onlyGivenNames x; subst x)
    | split

theorem Kept.flipAndRelabel (h : Kept W s₀ s) (_ : W .slices) (_ : W .ctxs) (_ : W .branches) (_ : W .slcCtr) (_ : W .ctxCtr) (_ : W .mem) (a1 a2) : Kept W s₀ (State.flipAndRelabel s a1 a2) := by
  unfold State.flipAndRelabel
  repeat' first
    | with_reducible assumption
    | with_reducible apply Kept.ite
    | with_reducible apply Kept.recastAll
    | with_reducible apply Kept.each
    | with_reducible apply Kept.modTile
    | with_reducible apply Kept.modCtx
    | with_reducible apply Kept.relieveAll
    | with_reducible apply Kept.foldl
    | with_reducible apply Kept.foldl_fst
    | intro _
    | (extract_lets +onlyGivenNames x; with_reducible refine Kept.cut (W := W) (s₀ := s₀) (s := x) ?_ (fun _ => ?_); (on_goal 1 => subst x); on_goal 2 => clear_value x)
    | (extract_lets +onlyGivenNames x; subst x)
    | split

theorem Kept.scaleEvent (h : Kept W s₀ s) (_ : W .link) (_ : W .engCtr) (a1 a2 a3 a4 a5) : Kept W s₀ (State.scaleEvent s a1 a2 a3 a4 a5) := by
  unfold State.scaleEvent
  repeat' first
    | with_reducible assumption
    | with_reducible apply Kept.ite
    | with_reducible apply Kept.emit
    | with_reducible apply Kept.foldl
    | with_reducible apply Kept.foldl_fst
    | intro _
    | (extract_lets +onlyGivenNames x; with_reducible refine Kept.cut (W := W) (s₀ := s₀) (s := x) ?_ (fun _ => ?_); (on_goal 1 => subst x); on_goal 2 => clear_value x)
    | (extract_lets +onlyGivenNames x; subst x)
    | split

theorem Kept.halveScale (h : Kept W s₀ s) (_ : W .link) (_ : W .ctxs) (_ : W .engCtr) (_ : W .ctxCtr) (a1 a2) : Kept W s₀ (State.halveScale s a1 a2) := by
  unfold State.halveScale
  repeat' first
    | with_reducible assumption
    | with_reducible apply Kept.ite
    | with_reducible apply Kept.modCtx
    | with_reducible apply Kept.countCtx
    | with_reducible apply Kept.scaleEvent
    | with_reducible apply Kept.foldl
    | with_reducible apply Kept.foldl_fst
    | intro _
    | (extract_lets +onlyGivenNames x; with_reducible refine Kept.cut (W := W) (s₀ := s₀) (s := x) ?_ (fun _ => ?_); (on_goal 1 => subst x); on_goal 2 => clear_value x)
    | (extract_lets +onlyGivenNames x; subst x)
    | split

theorem Kept.ledgerEntry (h : Kept W s₀ s) (_ : W .ctxs) (_ : W .ctxCtr) (a1 a2) : Kept W s₀ (State.ledgerEntry s a1 a2) := by
  unfold State.ledgerEntry
  repeat' first
    | with_reducible assumption
    | with_reducible apply Kept.ite
    | with_reducible apply Kept.modCtx
    | with_reducible apply Kept.countCtx
    | with_reducible apply Kept.foldl
    | with_reducible apply Kept.foldl_fst
    | intro _
    | (extract_lets +onlyGivenNames x; with_reducible refine Kept.cut (W := W) (s₀ := s₀) (s := x) ?_ (fun _ => ?_); (on_goal 1 => subst x); on_goal 2 => clear_value x)
    | (extract_lets +onlyGivenNames x; subst x)
    | split

theorem Kept.verdictEvent (h : Kept W s₀ s) (_ : W .link) (_ : W .engCtr) (a1 a2 a3 a4) : Kept W s₀ (State.verdictEvent s a1 a2 a3 a4) := by
  unfold State.verdictEvent
  repeat' first
    | with_reducible assumption
    | with_reducible apply Kept.ite
    | with_reducible apply Kept.emit
    | with_reducible apply Kept.foldl
    | with_reducible apply Kept.foldl_fst
    | intro _
    | (extract_lets +onlyGivenNames x; with_reducible refine Kept.cut (W := W) (s₀ := s₀) (s := x) ?_ (fun _ => ?_); (on_goal 1 => subst x); on_goal 2 => clear_value x)
    | (extract_lets +onlyGivenNames x; subst x)
    | split

theorem Kept.undoRecords (h : Kept W s₀ s) (_ : W .ctxs) (a1) : Kept W s₀ (State.undoRecords s a1) := by
  unfold State.undoRecords
  repeat' first
    | with_reducible assumption
    | with_reducible apply Kept.ite
    | with_reducible apply Kept.modCtx
    | with_reducible apply Kept.foldl
    | with_reducible apply Kept.foldl_fst
    | intro _
    | (extract_lets +onlyGivenNames x; with_reducible refine Kept.cut (W := W) (s₀ := s₀) (s := x) ?_ (fun _ => ?_); (on_goal 1 => subst x); on_goal 2 => clear_value x)
    | (extract_lets +onlyGivenNames x; subst x)
    | split

theorem Kept.overflowPath (h : Kept W s₀ s) (_ : W .link) (_ : W .ctxs) (_ : W .engCtr) (_ : W .ctxCtr) (a1 a2 a3 a4) : Kept W s₀ (State.overflowPath s a1 a2 a3 a4) := by
  unfold State.overflowPath
  repeat' first
    | with_reducible assumption
    | with_reducible apply Kept.ite
    | with_reducible apply Kept.verdictEvent
    | with_reducible apply Kept.halveScale
    | with_reducible apply Kept.modStep
    | with_reducible apply Kept.undoRecords
    | with_reducible apply Kept.foldl
    | with_reducible apply Kept.foldl_fst
    | intro _
    | (extract_lets +onlyGivenNames x; with_reducible refine Kept.cut (W := W) (s₀ := s₀) (s := x) ?_ (fun _ => ?_); (on_goal 1 => subst x); on_goal 2 => clear_value x)
    | (extract_lets +onlyGivenNames x; subst x)
    | split

theorem Kept.raiseShadow (h : Kept W s₀ s) (_ : W .link) (_ : W .engCtr) (_ : W .ctxCtr) (a1 a2) : Kept W s₀ (State.raiseShadow s a1 a2) := by
  unfold State.raiseShadow
  repeat' first
    | with_reducible assumption
    | with_reducible apply Kept.ite
    | with_reducible apply Kept.countCtx
    | with_reducible apply Kept.each
    | with_reducible apply Kept.emit
    | with_reducible apply Kept.foldl
    | with_reducible apply Kept.foldl_fst
    | intro _
    | (extract_lets +onlyGivenNames x; with_reducible refine Kept.cut (W := W) (s₀ := s₀) (s := x) ?_ (fun _ => ?_); (on_goal 1 => subst x); on_goal 2 => clear_value x)
    | (extract_lets +onlyGivenNames x; subst x)
    | split

theorem Kept.undoDamaged (h : Kept W s₀ s) (_ : W .fab) (_ : W .slices) (_ : W .ctxs) (a1 a2) : Kept W s₀ (State.undoDamaged s a1 a2) := by
  unfold State.undoDamaged
  repeat' first
    | with_reducible assumption
    | with_reducible apply Kept.ite
    | with_reducible apply Kept.askOwn
    | with_reducible apply Kept.holdTile
    | with_reducible apply Kept.modTile
    | with_reducible apply Kept.foldl
    | with_reducible apply Kept.foldl_fst
    | intro _
    | (extract_lets +onlyGivenNames x; with_reducible refine Kept.cut (W := W) (s₀ := s₀) (s := x) ?_ (fun _ => ?_); (on_goal 1 => subst x); on_goal 2 => clear_value x)
    | (extract_lets +onlyGivenNames x; subst x)
    | split

theorem Kept.unrise (h : Kept W s₀ s) (_ : W .fab) (_ : W .slices) (_ : W .ctxs) (_ : W .branches) (_ : W .slcCtr) (_ : W .ctxCtr) (_ : W .mem) (a1) : Kept W s₀ (State.unrise s a1) := by
  unfold State.unrise
  repeat' first
    | with_reducible assumption
    | with_reducible apply Kept.ite
    | with_reducible apply Kept.each
    | with_reducible apply Kept.undoDamaged
    | with_reducible apply Kept.noteU
    | with_reducible apply Kept.portWrite
    | with_reducible apply Kept.serveTile
    | with_reducible apply Kept.countCtx
    | with_reducible apply Kept.modTile
    | with_reducible apply Kept.modCtx
    | with_reducible apply Kept.relieveAll
    | with_reducible apply Kept.foldl
    | with_reducible apply Kept.foldl_fst
    | intro _
    | (extract_lets +onlyGivenNames x; with_reducible refine Kept.cut (W := W) (s₀ := s₀) (s := x) ?_ (fun _ => ?_); (on_goal 1 => subst x); on_goal 2 => clear_value x)
    | (extract_lets +onlyGivenNames x; subst x)
    | split

theorem Kept.waitFinal (h : Kept W s₀ s) (_ : W .link) (_ : W .fab) (_ : W .health) (_ : W .slices) (_ : W .ctxs) (_ : W .pctr) (_ : W .poison) (_ : W .engCtr) (_ : W .slcCtr) (_ : W .ctxCtr) (_ : W .sram) (a1) : Kept W s₀ (State.waitFinal s a1) := by
  unfold State.waitFinal
  repeat' first
    | with_reducible assumption
    | with_reducible apply Kept.ite
    | with_reducible apply Kept.counterAt
    | with_reducible apply Kept.foldl
    | with_reducible apply Kept.foldl_fst
    | intro _
    | (extract_lets +onlyGivenNames x; with_reducible refine Kept.cut (W := W) (s₀ := s₀) (s := x) ?_ (fun _ => ?_); (on_goal 1 => subst x); on_goal 2 => clear_value x)
    | (extract_lets +onlyGivenNames x; subst x)
    | split

theorem Kept.on_effDone0 (h : Kept W s₀ s) (_ : W .link) (a1) : Kept W s₀ (effDone0 a1 s) := by
  unfold effDone0
  repeat' first
    | with_reducible assumption
    | with_reducible apply Kept.ite
    | with_reducible apply Kept.done
    | with_reducible apply Kept.foldl
    | with_reducible apply Kept.foldl_fst
    | intro _
    | (extract_lets +onlyGivenNames x; with_reducible refine Kept.cut (W := W) (s₀ := s₀) (s := x) ?_ (fun _ => ?_); (on_goal 1 => subst x); on_goal 2 => clear_value x)
    | (extract_lets +onlyGivenNames x; subst x)
    | split

theorem Kept.on_effLossScale (h : Kept W s₀ s) (_ : W .link) (a1) : Kept W s₀ (effLossScale a1 s) := by
  unfold effLossScale
  repeat' first
    | with_reducible assumption
    | with_reducible apply Kept.ite
    | with_reducible apply Kept.done
    | with_reducible apply Kept.foldl
    | with_reducible apply Kept.foldl_fst
    | intro _
    | (extract_lets +onlyGivenNames x; with_reducible refine Kept.cut (W := W) (s₀ := s₀) (s := x) ?_ (fun _ => ?_); (on_goal 1 => subst x); on_goal 2 => clear_value x)
    | (extract_lets +onlyGivenNames x; subst x)
    | split

theorem Kept.on_effNone (h : Kept W s₀ s) (a1) : Kept W s₀ (effNone a1 s) := by
  unfold effNone
  repeat' first
    | with_reducible assumption
    | with_reducible apply Kept.ite
    | with_reducible apply Kept.foldl
    | with_reducible apply Kept.foldl_fst
    | intro _
    | (extract_lets +onlyGivenNames x; with_reducible refine Kept.cut (W := W) (s₀ := s₀) (s := x) ?_ (fun _ => ?_); (on_goal 1 => subst x); on_goal 2 => clear_value x)
    | (extract_lets +onlyGivenNames x; subst x)
    | split

theorem Kept.on_takeCtxSetSeed (h : Kept W s₀ s) (_ : W .ctxs) (a1) : Kept W s₀ (takeCtxSetSeed a1 s) := by
  unfold takeCtxSetSeed
  repeat' first
    | with_reducible assumption
    | with_reducible apply Kept.ite
    | with_reducible apply Kept.modCtx
    | with_reducible apply Kept.foldl
    | with_reducible apply Kept.foldl_fst
    | intro _
    | (extract_lets +onlyGivenNames x; with_reducible refine Kept.cut (W := W) (s₀ := s₀) (s := x) ?_ (fun _ => ?_); (on_goal 1 => subst x); on_goal 2 => clear_value x)
    | (extract_lets +onlyGivenNames x; subst x)
    | split

theorem Kept.on_execCtxSetSeed (h : Kept W s₀ s) (_ : W .link) (_ : W .power) (_ : W .ctxs) (_ : W .engCtr) (a1) : KeptX W s₀ (execCtxSetSeed a1 s) := by
  unfold execCtxSetSeed
  repeat' first
    | with_reducible assumption
    | with_reducible apply KeptX.next
    | with_reducible apply KeptX.ite
    | with_reducible apply Kept.ite
    | with_reducible apply Kept.runCmd
    | with_reducible apply Kept.on_takeCtxSetSeed
    | with_reducible apply Kept.on_effDone0
    | with_reducible apply Kept.foldl
    | with_reducible apply Kept.foldl_fst
    | intro _
    | (extract_lets +onlyGivenNames x; with_reducible refine Kept.cut (W := W) (s₀ := s₀) (s := x) ?_ (fun _ => ?_); (on_goal 1 => subst x); on_goal 2 => clear_value x)
    | (extract_lets +onlyGivenNames x; subst x)
    | split

theorem Kept.on_takeLossScale (h : Kept W s₀ s) (_ : W .link) (_ : W .ctxs) (_ : W .engCtr) (a1) : Kept W s₀ (takeLossScale a1 s) := by
  unfold takeLossScale
  repeat' first
    | with_reducible assumption
    | with_reducible apply Kept.ite
    | with_reducible apply Kept.modCtx
    | with_reducible apply Kept.modAdm
    | with_reducible apply Kept.scaleEvent
    | with_reducible apply Kept.foldl
    | with_reducible apply Kept.foldl_fst
    | intro _
    | (extract_lets +onlyGivenNames x; with_reducible refine Kept.cut (W := W) (s₀ := s₀) (s := x) ?_ (fun _ => ?_); (on_goal 1 => subst x); on_goal 2 => clear_value x)
    | (extract_lets +onlyGivenNames x; subst x)
    | split

theorem Kept.on_execLossScaleSet (h : Kept W s₀ s) (_ : W .link) (_ : W .power) (_ : W .ctxs) (_ : W .engCtr) (a1) : KeptX W s₀ (execLossScaleSet a1 s) := by
  unfold execLossScaleSet
  repeat' first
    | with_reducible assumption
    | with_reducible apply KeptX.next
    | with_reducible apply KeptX.ite
    | with_reducible apply Kept.ite
    | with_reducible apply Kept.runCmd
    | with_reducible apply Kept.on_takeLossScale
    | with_reducible apply Kept.on_effLossScale
    | with_reducible apply Kept.foldl
    | with_reducible apply Kept.foldl_fst
    | intro _
    | (extract_lets +onlyGivenNames x; with_reducible refine Kept.cut (W := W) (s₀ := s₀) (s := x) ?_ (fun _ => ?_); (on_goal 1 => subst x); on_goal 2 => clear_value x)
    | (extract_lets +onlyGivenNames x; subst x)
    | split

theorem Kept.on_takePgroupSet (h : Kept W s₀ s) (_ : W .ctxs) (a1) : Kept W s₀ (takePgroupSet a1 s) := by
  unfold takePgroupSet
  repeat' first
    | with_reducible assumption
    | with_reducible apply Kept.ite
    | with_reducible apply Kept.modCtx
    | with_reducible apply Kept.foldl
    | with_reducible apply Kept.foldl_fst
    | intro _
    | (extract_lets +onlyGivenNames x; with_reducible refine Kept.cut (W := W) (s₀ := s₀) (s := x) ?_ (fun _ => ?_); (on_goal 1 => subst x); on_goal 2 => clear_value x)
    | (extract_lets +onlyGivenNames x; subst x)
    | split

theorem Kept.on_execPgroupSet (h : Kept W s₀ s) (_ : W .link) (_ : W .power) (_ : W .ctxs) (_ : W .engCtr) (a1) : KeptX W s₀ (execPgroupSet a1 s) := by
  unfold execPgroupSet
  repeat' first
    | with_reducible assumption
    | with_reducible apply KeptX.next
    | with_reducible apply KeptX.ite
    | with_reducible apply Kept.ite
    | with_reducible apply Kept.runCmd
    | with_reducible apply Kept.on_takePgroupSet
    | with_reducible apply Kept.on_effDone0
    | with_reducible apply Kept.foldl
    | with_reducible apply Kept.foldl_fst
    | intro _
    | (extract_lets +onlyGivenNames x; with_reducible refine Kept.cut (W := W) (s₀ := s₀) (s := x) ?_ (fun _ => ?_); (on_goal 1 => subst x); on_goal 2 => clear_value x)
    | (extract_lets +onlyGivenNames x; subst x)
    | split

theorem Kept.on_takeProgLoad (h : Kept W s₀ s) (_ : W .ctxs) (a1) : Kept W s₀ (takeProgLoad a1 s) := by
  unfold takeProgLoad
  repeat' first
    | with_reducible assumption
    | with_reducible apply Kept.ite
    | with_reducible apply Kept.modCtx
    | with_reducible apply Kept.foldl
    | with_reducible apply Kept.foldl_fst
    | intro _
    | (extract_lets +onlyGivenNames x; with_reducible refine Kept.cut (W := W) (s₀ := s₀) (s := x) ?_ (fun _ => ?_); (on_goal 1 => subst x); on_goal 2 => clear_value x)
    | (extract_lets +onlyGivenNames x; subst x)
    | split

theorem Kept.on_execProgLoad (h : Kept W s₀ s) (_ : W .link) (_ : W .power) (_ : W .ctxs) (_ : W .engCtr) (a1) : KeptX W s₀ (execProgLoad a1 s) := by
  unfold execProgLoad
  repeat' first
    | with_reducible assumption
    | with_reducible apply KeptX.next
    | with_reducible apply KeptX.ite
    | with_reducible apply Kept.ite
    | with_reducible apply Kept.runCmd
    | with_reducible apply Kept.on_takeProgLoad
    | with_reducible apply Kept.on_effDone0
    | with_reducible apply Kept.foldl
    | with_reducible apply Kept.foldl_fst
    | intro _
    | (extract_lets +onlyGivenNames x; with_reducible refine Kept.cut (W := W) (s₀ := s₀) (s := x) ?_ (fun _ => ?_); (on_goal 1 => subst x); on_goal 2 => clear_value x)
    | (extract_lets +onlyGivenNames x; subst x)
    | split

theorem Kept.on_execRiskLevelPublish (h : Kept W s₀ s) (_ : W .link) (_ : W .fab) (_ : W .health) (_ : W .slices) (_ : W .ctxs) (_ : W .pctr) (_ : W .poison) (_ : W .engCtr) (_ : W .slcCtr) (_ : W .ctxCtr) (_ : W .sram) (a1) : KeptX W s₀ (execRiskLevelPublish a1 s) := by
  unfold execRiskLevelPublish
  repeat' first
    | with_reducible assumption
    | with_reducible apply KeptX.next
    | with_reducible apply KeptX.ite
    | with_reducible apply Kept.ite
    | with_reducible apply Kept.modStep
    | with_reducible apply Kept.counterAt
    | with_reducible apply Kept.foldl
    | with_reducible apply Kept.foldl_fst
    | intro _
    | (extract_lets +onlyGivenNames x; with_reducible refine Kept.cut (W := W) (s₀ := s₀) (s := x) ?_ (fun _ => ?_); (on_goal 1 => subst x); on_goal 2 => clear_value x)
    | (extract_lets +onlyGivenNames x; subst x)
    | split

theorem Kept.on_takeStepBegin (h : Kept W s₀ s) (_ : W .ctxs) (a1) : Kept W s₀ (takeStepBegin a1 s) := by
  unfold takeStepBegin
  repeat' first
    | with_reducible assumption
    | with_reducible apply Kept.ite
    | with_reducible apply Kept.applyDefault
    | with_reducible apply Kept.modCtx
    | with_reducible apply Kept.foldl
    | with_reducible apply Kept.foldl_fst
    | intro _
    | (extract_lets +onlyGivenNames x; with_reducible refine Kept.cut (W := W) (s₀ := s₀) (s := x) ?_ (fun _ => ?_); (on_goal 1 => subst x); on_goal 2 => clear_value x)
    | (extract_lets +onlyGivenNames x; subst x)
    | split

theorem Kept.on_execStepBegin (h : Kept W s₀ s) (_ : W .link) (_ : W .power) (_ : W .ctxs) (_ : W .engCtr) (a1) : KeptX W s₀ (execStepBegin a1 s) := by
  unfold execStepBegin
  repeat' first
    | with_reducible assumption
    | with_reducible apply KeptX.next
    | with_reducible apply KeptX.ite
    | with_reducible apply Kept.ite
    | with_reducible apply Kept.runCmd
    | with_reducible apply Kept.on_takeStepBegin
    | with_reducible apply Kept.on_effNone
    | with_reducible apply Kept.foldl
    | with_reducible apply Kept.foldl_fst
    | intro _
    | (extract_lets +onlyGivenNames x; with_reducible refine Kept.cut (W := W) (s₀ := s₀) (s := x) ?_ (fun _ => ?_); (on_goal 1 => subst x); on_goal 2 => clear_value x)
    | (extract_lets +onlyGivenNames x; subst x)
    | split

theorem Kept.on_execStepFindingAdd (h : Kept W s₀ s) (_ : W .link) (_ : W .fab) (_ : W .health) (_ : W .slices) (_ : W .ctxs) (_ : W .pctr) (_ : W .poison) (_ : W .engCtr) (_ : W .slcCtr) (_ : W .ctxCtr) (_ : W .sram) (a1) : KeptX W s₀ (execStepFindingAdd a1 s) := by
  unfold execStepFindingAdd
  repeat' first
    | with_reducible assumption
    | with_reducible apply KeptX.next
    | with_reducible apply KeptX.ite
    | with_reducible apply Kept.ite
    | with_reducible apply Kept.modStep
    | with_reducible apply Kept.counterAt
    | with_reducible apply Kept.findingBack
    | with_reducible apply Kept.waitFinal
    | with_reducible apply Kept.foldl
    | with_reducible apply Kept.foldl_fst
    | intro _
    | (extract_lets +onlyGivenNames x; with_reducible refine Kept.cut (W := W) (s₀ := s₀) (s := x) ?_ (fun _ => ?_); (on_goal 1 => subst x); on_goal 2 => clear_value x)
    | (extract_lets +onlyGivenNames x; subst x)
    | split

theorem Kept.on_takeStepLoss (h : Kept W s₀ s) (_ : W .ctxs) (a1) : Kept W s₀ (takeStepLoss a1 s) := by
  unfold takeStepLoss
  repeat' first
    | with_reducible assumption
    | with_reducible apply Kept.ite
    | with_reducible apply Kept.modStep
    | with_reducible apply Kept.foldl
    | with_reducible apply Kept.foldl_fst
    | intro _
    | (extract_lets +onlyGivenNames x; with_reducible refine Kept.cut (W := W) (s₀ := s₀) (s := x) ?_ (fun _ => ?_); (on_goal 1 => subst x); on_goal 2 => clear_value x)
    | (extract_lets +onlyGivenNames x; subst x)
    | split

theorem Kept.on_execStepLoss (h : Kept W s₀ s) (_ : W .link) (_ : W .power) (_ : W .ctxs) (_ : W .engCtr) (a1) : KeptX W s₀ (execStepLoss a1 s) := by
  unfold execStepLoss
  repeat' first
    | with_reducible assumption
    | with_reducible apply KeptX.next
    | with_reducible apply KeptX.ite
    | with_reducible apply Kept.ite
    | with_reducible apply Kept.runCmd
    | with_reducible apply Kept.on_takeStepLoss
    | with_reducible apply Kept.on_effNone
    | with_reducible apply Kept.foldl
    | with_reducible apply Kept.foldl_fst
    | intro _
    | (extract_lets +onlyGivenNames x; with_reducible refine Kept.cut (W := W) (s₀ := s₀) (s := x) ?_ (fun _ => ?_); (on_goal 1 => subst x); on_goal 2 => clear_value x)
    | (extract_lets +onlyGivenNames x; subst x)
    | split

theorem Kept.on_execUnriseDone (h : Kept W s₀ s) (_ : W .link) (_ : W .fab) (_ : W .slices) (_ : W .ctxs) (_ : W .branches) (_ : W .slcCtr) (_ : W .ctxCtr) (_ : W .mem) (a1) : KeptX W s₀ (execUnriseDone a1 s) := by
  unfold execUnriseDone
  repeat' first
    | with_reducible assumption
    | with_reducible apply KeptX.next
    | with_reducible apply KeptX.ite
    | with_reducible apply Kept.ite
    | with_reducible apply Kept.unrise
    | with_reducible apply Kept.endStep
    | with_reducible apply Kept.modStep
    | with_reducible apply Kept.finish
    | with_reducible apply Kept.endPublishes
    | with_reducible apply Kept.foldl
    | with_reducible apply Kept.foldl_fst
    | intro _
    | (extract_lets +onlyGivenNames x; with_reducible refine Kept.cut (W := W) (s₀ := s₀) (s := x) ?_ (fun _ => ?_); (on_goal 1 => subst x); on_goal 2 => clear_value x)
    | (extract_lets +onlyGivenNames x; subst x)
    | split

theorem Kept.on_execVerdictClean (h : Kept W s₀ s) (_ : W .link) (_ : W .fab) (_ : W .health) (_ : W .slices) (_ : W .ctxs) (_ : W .branches) (_ : W .pctr) (_ : W .poison) (_ : W .engCtr) (_ : W .slcCtr) (_ : W .ctxCtr) (_ : W .sram) (_ : W .mem) (a1) : KeptX W s₀ (execVerdictClean a1 s) := by
  unfold execVerdictClean
  repeat' first
    | with_reducible assumption
    | with_reducible apply KeptX.next
    | with_reducible apply KeptX.ite
    | with_reducible apply Kept.ite
    | with_reducible apply Kept.afterFinal
    | with_reducible apply Kept.endStep
    | with_reducible apply Kept.each
    | with_reducible apply Kept.askPromotion
    | with_reducible apply Kept.flipAndRelabel
    | with_reducible apply Kept.shareLedger
    | with_reducible apply Kept.ledgerEntry
    | with_reducible apply Kept.modCtx
    | with_reducible apply Kept.countCtx
    | with_reducible apply Kept.countLate
    | with_reducible apply Kept.verdictEvent
    | with_reducible apply Kept.scaleEvent
    | with_reducible apply Kept.raiseShadow
    | with_reducible apply Kept.raiseSat
    | with_reducible apply Kept.cancelMissed
    | with_reducible apply Kept.finish
    | with_reducible apply Kept.decideSeal
    | with_reducible apply Kept.foldl
    | with_reducible apply Kept.foldl_fst
    | intro _
    | (extract_lets +onlyGivenNames x; with_reducible refine Kept.cut (W := W) (s₀ := s₀) (s := x) ?_ (fun _ => ?_); (on_goal 1 => subst x); on_goal 2 => clear_value x)
    | (extract_lets +onlyGivenNames x; subst x)
    | split

theorem Kept.on_execVerdictDecide (h : Kept W s₀ s) (_ : W .link) (_ : W .fab) (_ : W .health) (_ : W .slices) (_ : W .ctxs) (_ : W .pctr) (_ : W .poison) (_ : W .engCtr) (_ : W .slcCtr) (_ : W .ctxCtr) (_ : W .sram) (a1) : KeptX W s₀ (execVerdictDecide a1 s) := by
  unfold execVerdictDecide
  repeat' first
    | with_reducible assumption
    | with_reducible apply KeptX.next
    | with_reducible apply KeptX.ite
    | with_reducible apply Kept.ite
    | with_reducible apply Kept.modStep
    | with_reducible apply Kept.ctrOp
    | with_reducible apply Kept.setCtr
    | with_reducible apply Kept.foldl
    | with_reducible apply Kept.foldl_fst
    | intro _
    | (extract_lets +onlyGivenNames x; with_reducible refine Kept.cut (W := W) (s₀ := s₀) (s := x) ?_ (fun _ => ?_); (on_goal 1 => subst x); on_goal 2 => clear_value x)
    | (extract_lets +onlyGivenNames x; subst x)
    | split

theorem Kept.on_execVerdictOverflow (h : Kept W s₀ s) (_ : W .link) (_ : W .fab) (_ : W .health) (_ : W .slices) (_ : W .ctxs) (_ : W .branches) (_ : W .pctr) (_ : W .poison) (_ : W .engCtr) (_ : W .slcCtr) (_ : W .ctxCtr) (_ : W .sram) (_ : W .mem) (a1) : KeptX W s₀ (execVerdictOverflow a1 s) := by
  unfold execVerdictOverflow
  repeat' first
    | with_reducible assumption
    | with_reducible apply KeptX.next
    | with_reducible apply KeptX.ite
    | with_reducible apply Kept.ite
    | with_reducible apply Kept.afterFinal
    | with_reducible apply Kept.endStep
    | with_reducible apply Kept.countCtx
    | with_reducible apply Kept.countLate
    | with_reducible apply Kept.overflowPath
    | with_reducible apply Kept.unrise
    | with_reducible apply Kept.foldl
    | with_reducible apply Kept.foldl_fst
    | intro _
    | (extract_lets +onlyGivenNames x; with_reducible refine Kept.cut (W := W) (s₀ := s₀) (s := x) ?_ (fun _ => ?_); (on_goal 1 => subst x); on_goal 2 => clear_value x)
    | (extract_lets +onlyGivenNames x; subst x)
    | split

theorem Kept.layVersion (h : Kept W s₀ s) (_ : W .slices) (_ : W .mem) (a1 a2 a3) : Kept W s₀ (State.layVersion s a1 a2 a3) := by
  unfold State.layVersion
  repeat' first
    | with_reducible assumption
    | with_reducible apply Kept.ite
    | with_reducible apply Kept.each
    | with_reducible apply Kept.writeBytes
    | with_reducible apply Kept.foldl
    | with_reducible apply Kept.foldl_fst
    | intro _
    | (extract_lets +onlyGivenNames x; with_reducible refine Kept.cut (W := W) (s₀ := s₀) (s := x) ?_ (fun _ => ?_); (on_goal 1 => subst x); on_goal 2 => clear_value x)
    | (extract_lets +onlyGivenNames x; subst x)
    | split

theorem Kept.skipNow (h : Kept W s₀ s) (_ : W .link) (_ : W .engCtr) (a1 a2) : Kept W s₀ (State.skipNow s a1 a2) := by
  unfold State.skipNow
  repeat' first
    | with_reducible assumption
    | with_reducible apply Kept.emit
    | with_reducible apply Kept.finish
    | with_reducible apply Kept.ite
    | with_reducible apply Kept.foldl
    | with_reducible apply Kept.foldl_fst
    | intro _
    | (extract_lets +onlyGivenNames x; with_reducible refine Kept.cut (W := W) (s₀ := s₀) (s := x) ?_ (fun _ => ?_); (on_goal 1 => subst x); on_goal 2 => clear_value x)
    | (extract_lets +onlyGivenNames x; subst x)
    | split

theorem Kept.skipPublish (h : Kept W s₀ s) (_ : W .link) (_ : W .engCtr) (a1 a2) : Kept W s₀ (State.skipPublish s a1 a2) := by
  unfold State.skipPublish
  repeat' first
    | with_reducible assumption
    | with_reducible apply Kept.skipNow
    | with_reducible apply Kept.ite
    | with_reducible apply Kept.emit
    | with_reducible apply Kept.finish
    | with_reducible apply Kept.foldl
    | with_reducible apply Kept.foldl_fst
    | intro _
    | (extract_lets +onlyGivenNames x; with_reducible refine Kept.cut (W := W) (s₀ := s₀) (s := x) ?_ (fun _ => ?_); (on_goal 1 => subst x); on_goal 2 => clear_value x)
    | (extract_lets +onlyGivenNames x; subst x)
    | split

theorem Kept.skipLate (h : Kept W s₀ s) (_ : W .link) (_ : W .engCtr) (a1 a2) : Kept W s₀ (State.skipLate s a1 a2) := by
  unfold State.skipLate
  repeat' first
    | with_reducible assumption
    | with_reducible apply Kept.skipNow
    | with_reducible apply Kept.ite
    | with_reducible apply Kept.foldl
    | with_reducible apply Kept.foldl_fst
    | intro _
    | (extract_lets +onlyGivenNames x; with_reducible refine Kept.cut (W := W) (s₀ := s₀) (s := x) ?_ (fun _ => ?_); (on_goal 1 => subst x); on_goal 2 => clear_value x)
    | (extract_lets +onlyGivenNames x; subst x)
    | split

theorem Kept.storeVersion (h : Kept W s₀ s) (_ : W .fab) (_ : W .ctxs) (_ : W .engCtr) (_ : W .ctxCtr) (a1 a2 a3 a4 a5) : Kept W s₀ (State.storeVersion s a1 a2 a3 a4 a5) := by
  unfold State.storeVersion
  repeat' first
    | with_reducible assumption
    | with_reducible apply Kept.ite
    | with_reducible apply Kept.each
    | with_reducible apply Kept.issue
    | with_reducible apply Kept.foldl
    | with_reducible apply Kept.foldl_fst
    | intro _
    | (extract_lets +onlyGivenNames x; with_reducible refine Kept.cut (W := W) (s₀ := s₀) (s := x) ?_ (fun _ => ?_); (on_goal 1 => subst x); on_goal 2 => clear_value x)
    | (extract_lets +onlyGivenNames x; subst x)
    | split

theorem Kept.versionOut (h : Kept W s₀ s) (_ : W .link) (_ : W .ctxs) (_ : W .engCtr) (_ : W .ctxCtr) (a1 a2 a3) : Kept W s₀ (State.versionOut s a1 a2 a3) := by
  unfold State.versionOut
  repeat' first
    | with_reducible assumption
    | with_reducible apply Kept.ite
    | with_reducible apply Kept.modCtx
    | with_reducible apply Kept.finish
    | with_reducible apply Kept.raiseAdmSat
    | with_reducible apply Kept.foldl
    | with_reducible apply Kept.foldl_fst
    | intro _
    | (extract_lets +onlyGivenNames x; with_reducible refine Kept.cut (W := W) (s₀ := s₀) (s := x) ?_ (fun _ => ?_); (on_goal 1 => subst x); on_goal 2 => clear_value x)
    | (extract_lets +onlyGivenNames x; subst x)
    | split

theorem Kept.on_effPublishTargets (h : Kept W s₀ s) (_ : W .link) (_ : W .fab) (_ : W .health) (_ : W .slices) (_ : W .ctxs) (_ : W .branches) (_ : W .pctr) (_ : W .poison) (_ : W .engCtr) (_ : W .slcCtr) (_ : W .ctxCtr) (_ : W .sram) (_ : W .mem) (a1) : Kept W s₀ (effPublishTargets a1 s) := by
  unfold effPublishTargets
  repeat' first
    | with_reducible assumption
    | with_reducible apply Kept.ite
    | with_reducible apply Kept.finish
    | with_reducible apply Kept.modCtx
    | with_reducible apply Kept.portDie
    | with_reducible apply Kept.setCtr
    | with_reducible apply Kept.counterAt
    | with_reducible apply Kept.done
    | with_reducible apply Kept.foldl
    | with_reducible apply Kept.foldl_fst
    | intro _
    | (extract_lets +onlyGivenNames x; with_reducible refine Kept.cut (W := W) (s₀ := s₀) (s := x) ?_ (fun _ => ?_); (on_goal 1 => subst x); on_goal 2 => clear_value x)
    | (extract_lets +onlyGivenNames x; subst x)
    | split

theorem Kept.on_effStepPublish (h : Kept W s₀ s) (_ : W .link) (a1) : Kept W s₀ (effStepPublish a1 s) := by
  unfold effStepPublish
  repeat' first
    | with_reducible assumption
    | with_reducible apply Kept.ite
    | with_reducible apply Kept.finish
    | with_reducible apply Kept.foldl
    | with_reducible apply Kept.foldl_fst
    | intro _
    | (extract_lets +onlyGivenNames x; with_reducible refine Kept.cut (W := W) (s₀ := s₀) (s := x) ?_ (fun _ => ?_); (on_goal 1 => subst x); on_goal 2 => clear_value x)
    | (extract_lets +onlyGivenNames x; subst x)
    | split

theorem Kept.on_execPublishTargets (h : Kept W s₀ s) (_ : W .link) (_ : W .fab) (_ : W .power) (_ : W .health) (_ : W .slices) (_ : W .ctxs) (_ : W .branches) (_ : W .pctr) (_ : W .poison) (_ : W .engCtr) (_ : W .slcCtr) (_ : W .ctxCtr) (_ : W .sram) (_ : W .mem) (a1) : KeptX W s₀ (execPublishTargets a1 s) := by
  unfold execPublishTargets
  repeat' first
    | with_reducible assumption
    | with_reducible apply KeptX.next
    | with_reducible apply KeptX.ite
    | with_reducible apply Kept.ite
    | with_reducible apply Kept.runCmd
    | with_reducible apply Kept.on_noTake
    | with_reducible apply Kept.on_effPublishTargets
    | with_reducible apply Kept.foldl
    | with_reducible apply Kept.foldl_fst
    | intro _
    | (extract_lets +onlyGivenNames x; with_reducible refine Kept.cut (W := W) (s₀ := s₀) (s := x) ?_ (fun _ => ?_); (on_goal 1 => subst x); on_goal 2 => clear_value x)
    | (extract_lets +onlyGivenNames x; subst x)
    | split

theorem Kept.on_execPublishWrite (h : Kept W s₀ s) (_ : W .link) (_ : W .fab) (_ : W .health) (_ : W .slices) (_ : W .ctxs) (_ : W .pctr) (_ : W .poison) (_ : W .engCtr) (_ : W .slcCtr) (_ : W .ctxCtr) (_ : W .sram) (_ : W .mem) (a1 a2) : KeptX W s₀ (execPublishWrite a1 a2 s) := by
  unfold execPublishWrite
  repeat' first
    | with_reducible assumption
    | with_reducible apply Kept.skipLate
    | with_reducible apply Kept.skipNow
    | with_reducible apply KeptX.next
    | with_reducible apply KeptX.ite
    | with_reducible apply Kept.ite
    | with_reducible apply Kept.finish
    | with_reducible apply Kept.askAll
    | with_reducible apply Kept.each
    | with_reducible apply Kept.serve
    | with_reducible apply Kept.noteStep
    | with_reducible apply Kept.endRead
    | with_reducible apply Kept.countCtx
    | with_reducible apply Kept.modAdm
    | with_reducible apply Kept.storeVersion
    | with_reducible apply Kept.counterAt
    | with_reducible apply Kept.layVersion
    | with_reducible apply Kept.versionOut
    | with_reducible apply Kept.ctrOp
    | with_reducible apply Kept.foldl
    | with_reducible apply Kept.foldl_fst
    | intro _
    | (extract_lets +onlyGivenNames x; with_reducible refine Kept.cut (W := W) (s₀ := s₀) (s := x) ?_ (fun _ => ?_); (on_goal 1 => subst x); on_goal 2 => clear_value x)
    | (extract_lets +onlyGivenNames x; subst x)
    | split

theorem Kept.on_execStepPublish (h : Kept W s₀ s) (_ : W .link) (_ : W .power) (_ : W .engCtr) (a1) : KeptX W s₀ (execStepPublish a1 s) := by
  unfold execStepPublish
  repeat' first
    | with_reducible assumption
    | with_reducible apply KeptX.next
    | with_reducible apply KeptX.ite
    | with_reducible apply Kept.ite
    | with_reducible apply Kept.runCmd
    | with_reducible apply Kept.on_noTake
    | with_reducible apply Kept.on_effStepPublish
    | with_reducible apply Kept.foldl
    | with_reducible apply Kept.foldl_fst
    | intro _
    | (extract_lets +onlyGivenNames x; with_reducible refine Kept.cut (W := W) (s₀ := s₀) (s := x) ?_ (fun _ => ?_); (on_goal 1 => subst x); on_goal 2 => clear_value x)
    | (extract_lets +onlyGivenNames x; subst x)
    | split

theorem Kept.demandLoaf (h : Kept W s₀ s) (_ : W .fab) (_ : W .ctxs) (_ : W .ctxCtr) (a1 a2) : Kept W s₀ (State.demandLoaf s a1 a2) := by
  unfold State.demandLoaf
  repeat' first
    | with_reducible assumption
    | with_reducible apply Kept.ite
    | with_reducible apply Kept.modCtx
    | with_reducible apply Kept.countCtx
    | with_reducible apply Kept.each
    | with_reducible apply Kept.askOwn
    | with_reducible apply Kept.foldl
    | with_reducible apply Kept.foldl_fst
    | intro _
    | (extract_lets +onlyGivenNames x; with_reducible refine Kept.cut (W := W) (s₀ := s₀) (s := x) ?_ (fun _ => ?_); (on_goal 1 => subst x); on_goal 2 => clear_value x)
    | (extract_lets +onlyGivenNames x; subst x)
    | split

theorem Kept.shipDone (h : Kept W s₀ s) (_ : W .ctxs) (a1 a2) : Kept W s₀ (State.shipDone s a1 a2) := by
  unfold State.shipDone
  repeat' first
    | with_reducible assumption
    | with_reducible apply Kept.ite
    | with_reducible apply Kept.modCtx
    | with_reducible apply Kept.foldl
    | with_reducible apply Kept.foldl_fst
    | intro _
    | (extract_lets +onlyGivenNames x; with_reducible refine Kept.cut (W := W) (s₀ := s₀) (s := x) ?_ (fun _ => ?_); (on_goal 1 => subst x); on_goal 2 => clear_value x)
    | (extract_lets +onlyGivenNames x; subst x)
    | split

theorem Kept.shipOne (h : Kept W s₀ s) (_ : W .fab) (_ : W .slices) (_ : W .ctxs) (_ : W .engCtr) (_ : W .slcCtr) (_ : W .ctxCtr) (a1 a2 a3 a4 a5 a6 a7 a8 a9) : Kept W s₀ (State.shipOne s a1 a2 a3 a4 a5 a6 a7 a8 a9) := by
  unfold State.shipOne
  repeat' first
    | with_reducible assumption
    | with_reducible apply Kept.ite
    | with_reducible apply Kept.each
    | with_reducible apply Kept.issue
    | with_reducible apply Kept.countCtx
    | with_reducible apply Kept.modCtx
    | with_reducible apply Kept.serveTile
    | with_reducible apply Kept.foldl
    | with_reducible apply Kept.foldl_fst
    | intro _
    | (extract_lets +onlyGivenNames x; with_reducible refine Kept.cut (W := W) (s₀ := s₀) (s := x) ?_ (fun _ => ?_); (on_goal 1 => subst x); on_goal 2 => clear_value x)
    | (extract_lets +onlyGivenNames x; subst x)
    | split

theorem Kept.shipTo (h : Kept W s₀ s) (_ : W .frames) (_ : W .fab) (_ : W .slices) (_ : W .ctxs) (_ : W .engCtr) (_ : W .slcCtr) (_ : W .ctxCtr) (a1 a2 a3 a4 a5) : Kept W s₀ (State.shipTo s a1 a2 a3 a4 a5) := by
  unfold State.shipTo
  repeat' first
    | with_reducible assumption
    | with_reducible apply Kept.ite
    | with_reducible apply Kept.shipDone
    | with_reducible apply Kept.each
    | with_reducible apply Kept.modCtx
    | with_reducible apply Kept.shipOne
    | with_reducible apply Kept.chargeFabric
    | with_reducible apply Kept.foldl
    | with_reducible apply Kept.foldl_fst
    | intro _
    | (extract_lets +onlyGivenNames x; with_reducible refine Kept.cut (W := W) (s₀ := s₀) (s := x) ?_ (fun _ => ?_); (on_goal 1 => subst x); on_goal 2 => clear_value x)
    | (extract_lets +onlyGivenNames x; subst x)
    | split

theorem Kept.ship (h : Kept W s₀ s) (_ : W .frames) (_ : W .fab) (_ : W .slices) (_ : W .ctxs) (_ : W .engCtr) (_ : W .slcCtr) (_ : W .ctxCtr) (a1 a2 a3 a4 a5) : Kept W s₀ (State.ship s a1 a2 a3 a4 a5) := by
  unfold State.ship
  repeat' first
    | with_reducible assumption
    | with_reducible apply Kept.ite
    | with_reducible apply Kept.shipDone
    | with_reducible apply Kept.shipTo
    | with_reducible apply Kept.foldl
    | with_reducible apply Kept.foldl_fst
    | intro _
    | (extract_lets +onlyGivenNames x; with_reducible refine Kept.cut (W := W) (s₀ := s₀) (s := x) ?_ (fun _ => ?_); (on_goal 1 => subst x); on_goal 2 => clear_value x)
    | (extract_lets +onlyGivenNames x; subst x)
    | split

theorem Kept.drainDecoded (h : Kept W s₀ s) (_ : W .link) (_ : W .frames) (_ : W .fab) (_ : W .slices) (_ : W .ctxs) (_ : W .engCtr) (_ : W .slcCtr) (_ : W .ctxCtr) (a1 a2 a3) : Kept W s₀ (State.drainDecoded s a1 a2 a3) := by
  unfold State.drainDecoded
  repeat' first
    | with_reducible assumption
    | with_reducible apply Kept.ite
    | with_reducible apply Kept.ship
    | with_reducible apply Kept.shipDone
    | with_reducible apply Kept.modCtx
    | with_reducible apply Kept.emit
    | with_reducible apply Kept.foldl
    | with_reducible apply Kept.foldl_fst
    | intro _
    | (extract_lets +onlyGivenNames x; with_reducible refine Kept.cut (W := W) (s₀ := s₀) (s := x) ?_ (fun _ => ?_); (on_goal 1 => subst x); on_goal 2 => clear_value x)
    | (extract_lets +onlyGivenNames x; subst x)
    | split

theorem Kept.judgeExport (h : Kept W s₀ s) (_ : W .ctxs) (_ : W .ctxCtr) (a1) : Kept W s₀ (State.judgeExport s a1) := by
  unfold State.judgeExport
  repeat' first
    | with_reducible assumption
    | with_reducible apply Kept.ite
    | with_reducible apply Kept.countCtx
    | with_reducible apply Kept.modCtx
    | with_reducible apply Kept.foldl
    | with_reducible apply Kept.foldl_fst
    | intro _
    | (extract_lets +onlyGivenNames x; with_reducible refine Kept.cut (W := W) (s₀ := s₀) (s := x) ?_ (fun _ => ?_); (on_goal 1 => subst x); on_goal 2 => clear_value x)
    | (extract_lets +onlyGivenNames x; subst x)
    | split

theorem Kept.sealBake (h : Kept W s₀ s) (_ : W .link) (_ : W .fab) (_ : W .slices) (_ : W .ctxs) (_ : W .engCtr) (_ : W .ctxCtr) (a1 a2 a3 a4) : Kept W s₀ (State.sealBake s a1 a2 a3 a4) := by
  unfold State.sealBake
  repeat' first
    | with_reducible assumption
    | with_reducible apply Kept.ite
    | with_reducible apply Kept.changeSeal
    | with_reducible apply Kept.shareRegions
    | with_reducible apply Kept.modCtx
    | with_reducible apply Kept.each
    | with_reducible apply Kept.trap
    | with_reducible apply Kept.emit
    | with_reducible apply Kept.countCtx
    | with_reducible apply Kept.shareBake
    | with_reducible apply Kept.foldl
    | with_reducible apply Kept.foldl_fst
    | intro _
    | (extract_lets +onlyGivenNames x; with_reducible refine Kept.cut (W := W) (s₀ := s₀) (s := x) ?_ (fun _ => ?_); (on_goal 1 => subst x); on_goal 2 => clear_value x)
    | (extract_lets +onlyGivenNames x; subst x)
    | split

theorem Kept.sendCommits (h : Kept W s₀ s) (_ : W .link) (_ : W .fab) (_ : W .health) (_ : W .slices) (_ : W .ctxs) (_ : W .pctr) (_ : W .poison) (_ : W .engCtr) (_ : W .slcCtr) (_ : W .ctxCtr) (_ : W .sram) (a1) : Kept W s₀ (State.sendCommits s a1) := by
  unfold State.sendCommits
  repeat' first
    | with_reducible assumption
    | with_reducible apply Kept.ite
    | with_reducible apply Kept.modCtx
    | with_reducible apply Kept.countCtx
    | with_reducible apply Kept.counterAt
    | with_reducible apply Kept.foldl
    | with_reducible apply Kept.foldl_fst
    | intro _
    | (extract_lets +onlyGivenNames x; with_reducible refine Kept.cut (W := W) (s₀ := s₀) (s := x) ?_ (fun _ => ?_); (on_goal 1 => subst x); on_goal 2 => clear_value x)
    | (extract_lets +onlyGivenNames x; subst x)
    | split

theorem Kept.on_effBakeStatus (h : Kept W s₀ s) (_ : W .link) (_ : W .slices) (_ : W .ctxs) (_ : W .branches) (_ : W .ctxCtr) (_ : W .mem) (a1) : Kept W s₀ (effBakeStatus a1 s) := by
  unfold effBakeStatus
  repeat' first
    | with_reducible assumption
    | with_reducible apply Kept.ite
    | with_reducible apply Kept.done
    | with_reducible apply Kept.portDie
    | with_reducible apply Kept.foldl
    | with_reducible apply Kept.foldl_fst
    | intro _
    | (extract_lets +onlyGivenNames x; with_reducible refine Kept.cut (W := W) (s₀ := s₀) (s := x) ?_ (fun _ => ?_); (on_goal 1 => subst x); on_goal 2 => clear_value x)
    | (extract_lets +onlyGivenNames x; subst x)
    | split

theorem Kept.on_takeJobwide (h : Kept W s₀ s) (_ : W .link) (_ : W .slices) (_ : W .ctxs) (_ : W .engCtr) (_ : W .ctxCtr) (a1) : Kept W s₀ (takeJobwide a1 s) := by
  unfold takeJobwide
  repeat' first
    | with_reducible assumption
    | with_reducible apply Kept.ite
    | with_reducible apply Kept.countCtx
    | with_reducible apply Kept.modCtx
    | with_reducible apply Kept.relieveAll
    | with_reducible apply Kept.judgeExport
    | with_reducible apply Kept.regionPools
    | with_reducible apply Kept.emit
    | with_reducible apply Kept.foldl
    | with_reducible apply Kept.foldl_fst
    | intro _
    | (extract_lets +onlyGivenNames x; with_reducible refine Kept.cut (W := W) (s₀ := s₀) (s := x) ?_ (fun _ => ?_); (on_goal 1 => subst x); on_goal 2 => clear_value x)
    | (extract_lets +onlyGivenNames x; subst x)
    | split

theorem Kept.on_execBakeJobwide (h : Kept W s₀ s) (_ : W .link) (_ : W .power) (_ : W .slices) (_ : W .ctxs) (_ : W .engCtr) (_ : W .ctxCtr) (a1) : KeptX W s₀ (execBakeJobwide a1 s) := by
  unfold execBakeJobwide
  repeat' first
    | with_reducible assumption
    | with_reducible apply KeptX.next
    | with_reducible apply KeptX.ite
    | with_reducible apply Kept.ite
    | with_reducible apply Kept.runCmd
    | with_reducible apply Kept.on_takeJobwide
    | with_reducible apply Kept.on_effDone0
    | with_reducible apply Kept.foldl
    | with_reducible apply Kept.foldl_fst
    | intro _
    | (extract_lets +onlyGivenNames x; with_reducible refine Kept.cut (W := W) (s₀ := s₀) (s := x) ?_ (fun _ => ?_); (on_goal 1 => subst x); on_goal 2 => clear_value x)
    | (extract_lets +onlyGivenNames x; subst x)
    | split

theorem Kept.on_execBakeSeal (h : Kept W s₀ s) (_ : W .link) (_ : W .fab) (_ : W .slices) (_ : W .ctxs) (_ : W .engCtr) (_ : W .ctxCtr) (a1) : KeptX W s₀ (execBakeSeal a1 s) := by
  unfold execBakeSeal
  repeat' first
    | with_reducible assumption
    | with_reducible apply KeptX.next
    | with_reducible apply KeptX.ite
    | with_reducible apply Kept.ite
    | with_reducible apply Kept.sealBake
    | with_reducible apply Kept.modCtx
    | with_reducible apply Kept.each
    | with_reducible apply Kept.countCtx
    | with_reducible apply Kept.finish
    | with_reducible apply Kept.foldl
    | with_reducible apply Kept.foldl_fst
    | intro _
    | (extract_lets +onlyGivenNames x; with_reducible refine Kept.cut (W := W) (s₀ := s₀) (s := x) ?_ (fun _ => ?_); (on_goal 1 => subst x); on_goal 2 => clear_value x)
    | (extract_lets +onlyGivenNames x; subst x)
    | split

theorem Kept.on_takeSealNow (h : Kept W s₀ s) (_ : W .ctxs) (a1) : Kept W s₀ (takeSealNow a1 s) := by
  unfold takeSealNow
  repeat' first
    | with_reducible assumption
    | with_reducible apply Kept.ite
    | with_reducible apply Kept.modCtx
    | with_reducible apply Kept.foldl
    | with_reducible apply Kept.foldl_fst
    | intro _
    | (extract_lets +onlyGivenNames x; with_reducible refine Kept.cut (W := W) (s₀ := s₀) (s := x) ?_ (fun _ => ?_); (on_goal 1 => subst x); on_goal 2 => clear_value x)
    | (extract_lets +onlyGivenNames x; subst x)
    | split

theorem Kept.on_execBakeSealNow (h : Kept W s₀ s) (_ : W .link) (_ : W .power) (_ : W .ctxs) (_ : W .engCtr) (a1) : KeptX W s₀ (execBakeSealNow a1 s) := by
  unfold execBakeSealNow
  repeat' first
    | with_reducible assumption
    | with_reducible apply KeptX.next
    | with_reducible apply KeptX.ite
    | with_reducible apply Kept.ite
    | with_reducible apply Kept.runCmd
    | with_reducible apply Kept.on_takeSealNow
    | with_reducible apply Kept.on_effNone
    | with_reducible apply Kept.foldl
    | with_reducible apply Kept.foldl_fst
    | intro _
    | (extract_lets +onlyGivenNames x; with_reducible refine Kept.cut (W := W) (s₀ := s₀) (s := x) ?_ (fun _ => ?_); (on_goal 1 => subst x); on_goal 2 => clear_value x)
    | (extract_lets +onlyGivenNames x; subst x)
    | split

theorem Kept.on_execBakeStatus (h : Kept W s₀ s) (_ : W .link) (_ : W .power) (_ : W .slices) (_ : W .ctxs) (_ : W .branches) (_ : W .engCtr) (_ : W .ctxCtr) (_ : W .mem) (a1) : KeptX W s₀ (execBakeStatus a1 s) := by
  unfold execBakeStatus
  repeat' first
    | with_reducible assumption
    | with_reducible apply KeptX.next
    | with_reducible apply KeptX.ite
    | with_reducible apply Kept.ite
    | with_reducible apply Kept.runCmd
    | with_reducible apply Kept.on_noTake
    | with_reducible apply Kept.on_effBakeStatus
    | with_reducible apply Kept.foldl
    | with_reducible apply Kept.foldl_fst
    | intro _
    | (extract_lets +onlyGivenNames x; with_reducible refine Kept.cut (W := W) (s₀ := s₀) (s := x) ?_ (fun _ => ?_); (on_goal 1 => subst x); on_goal 2 => clear_value x)
    | (extract_lets +onlyGivenNames x; subst x)
    | split

theorem Kept.on_takeCadence (h : Kept W s₀ s) (_ : W .ctxs) (a1) : Kept W s₀ (takeCadence a1 s) := by
  unfold takeCadence
  repeat' first
    | with_reducible assumption
    | with_reducible apply Kept.ite
    | with_reducible apply Kept.modCtx
    | with_reducible apply Kept.foldl
    | with_reducible apply Kept.foldl_fst
    | intro _
    | (extract_lets +onlyGivenNames x; with_reducible refine Kept.cut (W := W) (s₀ := s₀) (s := x) ?_ (fun _ => ?_); (on_goal 1 => subst x); on_goal 2 => clear_value x)
    | (extract_lets +onlyGivenNames x; subst x)
    | split

theorem Kept.on_execCadenceSet (h : Kept W s₀ s) (_ : W .link) (_ : W .power) (_ : W .ctxs) (_ : W .engCtr) (a1) : KeptX W s₀ (execCadenceSet a1 s) := by
  unfold execCadenceSet
  repeat' first
    | with_reducible assumption
    | with_reducible apply KeptX.next
    | with_reducible apply KeptX.ite
    | with_reducible apply Kept.ite
    | with_reducible apply Kept.runCmd
    | with_reducible apply Kept.on_takeCadence
    | with_reducible apply Kept.on_effDone0
    | with_reducible apply Kept.foldl
    | with_reducible apply Kept.foldl_fst
    | intro _
    | (extract_lets +onlyGivenNames x; with_reducible refine Kept.cut (W := W) (s₀ := s₀) (s := x) ?_ (fun _ => ?_); (on_goal 1 => subst x); on_goal 2 => clear_value x)
    | (extract_lets +onlyGivenNames x; subst x)
    | split

theorem Kept.on_execCrumbDrain (h : Kept W s₀ s) (_ : W .link) (_ : W .frames) (_ : W .fab) (_ : W .slices) (_ : W .ctxs) (_ : W .engCtr) (_ : W .slcCtr) (_ : W .ctxCtr) (_ : W .freeIdx) (a1 a2) : KeptX W s₀ (execCrumbDrain a1 a2 s) := by
  unfold execCrumbDrain
  repeat' first
    | with_reducible assumption
    | with_reducible apply KeptX.next
    | with_reducible apply KeptX.ite
    | with_reducible apply Kept.ite
    | with_reducible apply Kept.demandLoaf
    | with_reducible apply Kept.ship
    | with_reducible apply Kept.endRead
    | with_reducible apply Kept.askRead
    | with_reducible apply Kept.countCtx
    | with_reducible apply Kept.askOwn
    | with_reducible apply Kept.free
    | with_reducible apply Kept.makeRoom
    | with_reducible apply Kept.putRec
    | with_reducible apply Kept.shipDone
    | with_reducible apply Kept.shipTo
    | with_reducible exact KeptO.none
    | with_reducible apply KeptO.some
    | with_reducible apply KeptO.ite
    | with_reducible refine KeptO.get ?_ (by assumption)
    | with_reducible refine Kept.snd (by assumption) ?_
    | with_reducible apply Kept.foldl
    | with_reducible apply Kept.foldl_fst
    | intro _
    | (extract_lets +onlyGivenNames x; with_reducible refine Kept.cut (W := W) (s₀ := s₀) (s := x) ?_ (fun _ => ?_); (on_goal 1 => subst x); on_goal 2 => clear_value x)
    | (extract_lets +onlyGivenNames x; subst x)
    | split

theorem Kept.on_execRackCommit (h : Kept W s₀ s) (_ : W .link) (_ : W .fab) (_ : W .health) (_ : W .slices) (_ : W .ctxs) (_ : W .pctr) (_ : W .poison) (_ : W .engCtr) (_ : W .slcCtr) (_ : W .ctxCtr) (_ : W .sram) (a1) : KeptX W s₀ (execRackCommit a1 s) := by
  unfold execRackCommit
  repeat' first
    | with_reducible assumption
    | with_reducible apply KeptX.next
    | with_reducible apply KeptX.ite
    | with_reducible apply Kept.ite
    | with_reducible apply Kept.modCtx
    | with_reducible apply Kept.setCtr
    | with_reducible apply Kept.emit
    | with_reducible apply Kept.countCtx
    | with_reducible apply Kept.foldl
    | with_reducible apply Kept.foldl_fst
    | intro _
    | (extract_lets +onlyGivenNames x; with_reducible refine Kept.cut (W := W) (s₀ := s₀) (s := x) ?_ (fun _ => ?_); (on_goal 1 => subst x); on_goal 2 => clear_value x)
    | (extract_lets +onlyGivenNames x; subst x)
    | split

theorem Kept.on_execSealNoticeSend (h : Kept W s₀ s) (_ : W .fab) (_ : W .ctxs) (_ : W .engCtr) (_ : W .ctxCtr) (a1 a2) : KeptX W s₀ (execSealNoticeSend a1 a2 s) := by
  unfold execSealNoticeSend
  repeat' first
    | with_reducible assumption
    | with_reducible apply KeptX.next
    | with_reducible apply KeptX.ite
    | with_reducible apply Kept.ite
    | with_reducible apply Kept.modCtx
    | with_reducible apply Kept.issue
    | with_reducible apply Kept.foldl
    | with_reducible apply Kept.foldl_fst
    | intro _
    | (extract_lets +onlyGivenNames x; with_reducible refine Kept.cut (W := W) (s₀ := s₀) (s := x) ?_ (fun _ => ?_); (on_goal 1 => subst x); on_goal 2 => clear_value x)
    | (extract_lets +onlyGivenNames x; subst x)
    | split

theorem Kept.modBcast (h : Kept W s₀ s) (_ : W .ctxs) (a1 a2 a3 a4) : Kept W s₀ (State.modBcast s a1 a2 a3 a4) := by
  unfold State.modBcast
  repeat' first
    | with_reducible assumption
    | with_reducible apply Kept.ite
    | with_reducible apply Kept.modCtx
    | with_reducible apply Kept.foldl
    | with_reducible apply Kept.foldl_fst
    | intro _
    | (extract_lets +onlyGivenNames x; with_reducible refine Kept.cut (W := W) (s₀ := s₀) (s := x) ?_ (fun _ => ?_); (on_goal 1 => subst x); on_goal 2 => clear_value x)
    | (extract_lets +onlyGivenNames x; subst x)
    | split

theorem Kept.sendUp (h : Kept W s₀ s) (_ : W .fab) (_ : W .ctxs) (_ : W .engCtr) (_ : W .ctxCtr) (a1 a2 a3 a4 a5 a6) : Kept W s₀ (State.sendUp s a1 a2 a3 a4 a5 a6) := by
  unfold State.sendUp
  repeat' first
    | with_reducible assumption
    | with_reducible apply Kept.ite
    | with_reducible apply Kept.issue
    | with_reducible apply Kept.foldl
    | with_reducible apply Kept.foldl_fst
    | intro _
    | (extract_lets +onlyGivenNames x; with_reducible refine Kept.cut (W := W) (s₀ := s₀) (s := x) ?_ (fun _ => ?_); (on_goal 1 => subst x); on_goal 2 => clear_value x)
    | (extract_lets +onlyGivenNames x; subst x)
    | split

theorem Kept.sendBcast (h : Kept W s₀ s) (_ : W .fab) (_ : W .ctxs) (_ : W .engCtr) (_ : W .ctxCtr) (a1 a2 a3 a4 a5) : Kept W s₀ (State.sendBcast s a1 a2 a3 a4 a5) := by
  unfold State.sendBcast
  repeat' first
    | with_reducible assumption
    | with_reducible apply Kept.ite
    | with_reducible apply Kept.issue
    | with_reducible apply Kept.foldl
    | with_reducible apply Kept.foldl_fst
    | intro _
    | (extract_lets +onlyGivenNames x; with_reducible refine Kept.cut (W := W) (s₀ := s₀) (s := x) ?_ (fun _ => ?_); (on_goal 1 => subst x); on_goal 2 => clear_value x)
    | (extract_lets +onlyGivenNames x; subst x)
    | split

theorem Kept.joinNow (h : Kept W s₀ s) (_ : W .link) (_ : W .fab) (_ : W .slices) (_ : W .ctxs) (_ : W .engCtr) (_ : W .ctxCtr) (a1 a2 a3) : Kept W s₀ (State.joinNow s a1 a2 a3) := by
  unfold State.joinNow
  repeat' first
    | with_reducible assumption
    | with_reducible apply Kept.ite
    | with_reducible apply Kept.modCtx
    | with_reducible apply Kept.finish
    | with_reducible apply Kept.applyDefault
    | with_reducible apply Kept.sealBake
    | with_reducible apply Kept.shareAll
    | with_reducible apply Kept.foldl
    | with_reducible apply Kept.foldl_fst
    | intro _
    | (extract_lets +onlyGivenNames x; with_reducible refine Kept.cut (W := W) (s₀ := s₀) (s := x) ?_ (fun _ => ?_); (on_goal 1 => subst x); on_goal 2 => clear_value x)
    | (extract_lets +onlyGivenNames x; subst x)
    | split

theorem Kept.joinFailed (h : Kept W s₀ s) (_ : W .link) (_ : W .ctxs) (a1 a2 a3) : Kept W s₀ (State.joinFailed s a1 a2 a3) := by
  unfold State.joinFailed
  repeat' first
    | with_reducible assumption
    | with_reducible apply Kept.ite
    | with_reducible apply Kept.finish
    | with_reducible apply Kept.modCtx
    | with_reducible apply Kept.foldl
    | with_reducible apply Kept.foldl_fst
    | intro _
    | (extract_lets +onlyGivenNames x; with_reducible refine Kept.cut (W := W) (s₀ := s₀) (s := x) ?_ (fun _ => ?_); (on_goal 1 => subst x); on_goal 2 => clear_value x)
    | (extract_lets +onlyGivenNames x; subst x)
    | split

theorem Kept.rootDone (h : Kept W s₀ s) (_ : W .link) (_ : W .fab) (_ : W .slices) (_ : W .ctxs) (_ : W .engCtr) (_ : W .ctxCtr) (a1 a2) : Kept W s₀ (State.rootDone s a1 a2) := by
  unfold State.rootDone
  repeat' first
    | with_reducible assumption
    | with_reducible apply Kept.ite
    | with_reducible apply Kept.each
    | with_reducible apply Kept.sendBcast
    | with_reducible apply Kept.modBcast
    | with_reducible apply Kept.joinNow
    | with_reducible apply Kept.joinFailed
    | with_reducible apply Kept.foldl
    | with_reducible apply Kept.foldl_fst
    | intro _
    | (extract_lets +onlyGivenNames x; with_reducible refine Kept.cut (W := W) (s₀ := s₀) (s := x) ?_ (fun _ => ?_); (on_goal 1 => subst x); on_goal 2 => clear_value x)
    | (extract_lets +onlyGivenNames x; subst x)
    | split

theorem Kept.bcastReady (h : Kept W s₀ s) (_ : W .link) (_ : W .fab) (_ : W .slices) (_ : W .ctxs) (_ : W .engCtr) (_ : W .ctxCtr) (a1 a2 a3) : Kept W s₀ (State.bcastReady s a1 a2 a3) := by
  unfold State.bcastReady
  repeat' first
    | with_reducible assumption
    | with_reducible apply Kept.ite
    | with_reducible apply Kept.modBcast
    | with_reducible apply Kept.each
    | with_reducible apply Kept.sendUp
    | with_reducible apply Kept.rootDone
    | with_reducible apply Kept.modCtx
    | with_reducible apply Kept.foldl
    | with_reducible apply Kept.foldl_fst
    | intro _
    | (extract_lets +onlyGivenNames x; with_reducible refine Kept.cut (W := W) (s₀ := s₀) (s := x) ?_ (fun _ => ?_); (on_goal 1 => subst x); on_goal 2 => clear_value x)
    | (extract_lets +onlyGivenNames x; subst x)
    | split

theorem Kept.changesNow (h : Kept W s₀ s) (_ : W .link) (_ : W .slices) (_ : W .ctxs) (_ : W .slcCtr) (a1) : Kept W s₀ (State.changesNow s a1) := by
  unfold State.changesNow
  repeat' first
    | with_reducible assumption
    | with_reducible apply Kept.ite
    | with_reducible apply Kept.each
    | with_reducible apply Kept.changeNow
    | with_reducible apply Kept.finish
    | with_reducible refine Kept.fst (by assumption) ?_
    | with_reducible apply Kept.foldl
    | with_reducible apply Kept.foldl_fst
    | intro _
    | (extract_lets +onlyGivenNames x; with_reducible refine Kept.cut (W := W) (s₀ := s₀) (s := x) ?_ (fun _ => ?_); (on_goal 1 => subst x); on_goal 2 => clear_value x)
    | (extract_lets +onlyGivenNames x; subst x)
    | split

theorem Kept.leaveGroup (h : Kept W s₀ s) (_ : W .link) (_ : W .fab) (_ : W .slices) (_ : W .ctxs) (_ : W .slcCtr) (a1) : Kept W s₀ (State.leaveGroup s a1) := by
  unfold State.leaveGroup
  repeat' first
    | with_reducible assumption
    | with_reducible apply Kept.ite
    | with_reducible apply Kept.modCtx
    | with_reducible apply Kept.each
    | with_reducible apply Kept.untrap
    | with_reducible apply Kept.dropJobs
    | with_reducible apply Kept.modSign
    | with_reducible apply Kept.relieveAll
    | with_reducible apply Kept.changesNow
    | with_reducible apply Kept.finish
    | with_reducible apply Kept.foldl
    | with_reducible apply Kept.foldl_fst
    | intro _
    | (extract_lets +onlyGivenNames x; with_reducible refine Kept.cut (W := W) (s₀ := s₀) (s := x) ?_ (fun _ => ?_); (on_goal 1 => subst x); on_goal 2 => clear_value x)
    | (extract_lets +onlyGivenNames x; subst x)
    | split
    | with_reducible apply Kept.set_fab

theorem Kept.liftFence (h : Kept W s₀ s) (_ : W .fab) (_ : W .ctxs) (a1 a2 a3) : Kept W s₀ (State.liftFence s a1 a2 a3) := by
  unfold State.liftFence
  repeat' first
    | with_reducible assumption
    | with_reducible apply Kept.ite
    | with_reducible apply Kept.modSign
    | with_reducible apply Kept.modCtx
    | with_reducible apply Kept.foldl
    | with_reducible apply Kept.foldl_fst
    | intro _
    | (extract_lets +onlyGivenNames x; with_reducible refine Kept.cut (W := W) (s₀ := s₀) (s := x) ?_ (fun _ => ?_); (on_goal 1 => subst x); on_goal 2 => clear_value x)
    | (extract_lets +onlyGivenNames x; subst x)
    | split

theorem Kept.putBcast (h : Kept W s₀ s) (_ : W .ctxs) (a1 a2) : Kept W s₀ (State.putBcast s a1 a2) := by
  unfold State.putBcast
  repeat' first
    | with_reducible assumption
    | with_reducible apply Kept.ite
    | with_reducible apply Kept.modCtx
    | with_reducible apply Kept.foldl
    | with_reducible apply Kept.foldl_fst
    | intro _
    | (extract_lets +onlyGivenNames x; with_reducible refine Kept.cut (W := W) (s₀ := s₀) (s := x) ?_ (fun _ => ?_); (on_goal 1 => subst x); on_goal 2 => clear_value x)
    | (extract_lets +onlyGivenNames x; subst x)
    | split

theorem Kept.spread (h : Kept W s₀ s) (_ : W .fab) (_ : W .ctxs) (_ : W .engCtr) (_ : W .ctxCtr) (a1 a2 a3) : Kept W s₀ (State.spread s a1 a2 a3) := by
  unfold State.spread
  repeat' first
    | with_reducible assumption
    | with_reducible apply Kept.ite
    | with_reducible apply Kept.each
    | with_reducible apply Kept.putBcast
    | with_reducible apply Kept.sendBcast
    | with_reducible apply Kept.foldl
    | with_reducible apply Kept.foldl_fst
    | intro _
    | (extract_lets +onlyGivenNames x; with_reducible refine Kept.cut (W := W) (s₀ := s₀) (s := x) ?_ (fun _ => ?_); (on_goal 1 => subst x); on_goal 2 => clear_value x)
    | (extract_lets +onlyGivenNames x; subst x)
    | split

theorem Kept.newBcast (h : Kept W s₀ s) (_ : W .link) (_ : W .fab) (_ : W .slices) (_ : W .ctxs) (_ : W .engCtr) (_ : W .ctxCtr) (a1 a2 a3 a4 a5 a6 a7 a8 a9) : Kept W s₀ (State.newBcast s a1 a2 a3 a4 a5 a6 a7 a8 a9) := by
  unfold State.newBcast
  repeat' first
    | with_reducible assumption
    | with_reducible apply Kept.ite
    | with_reducible apply Kept.respond
    | with_reducible apply Kept.liftFence
    | with_reducible apply Kept.bcastReady
    | with_reducible apply Kept.spread
    | with_reducible apply Kept.foldl
    | with_reducible apply Kept.foldl_fst
    | intro _
    | (extract_lets +onlyGivenNames x; with_reducible refine Kept.cut (W := W) (s₀ := s₀) (s := x) ?_ (fun _ => ?_); (on_goal 1 => subst x); on_goal 2 => clear_value x)
    | (extract_lets +onlyGivenNames x; subst x)
    | split

theorem Kept.nextKey (h : Kept W s₀ s) (_ : W .ctxs) (_ : W .ctxCtr) (a1) : Kept W s₀ (State.nextKey s a1) := by
  unfold State.nextKey
  repeat' first
    | with_reducible assumption
    | with_reducible apply Kept.ite
    | with_reducible apply Kept.setCtxValue
    | with_reducible apply Kept.modCtx
    | with_reducible apply Kept.foldl
    | with_reducible apply Kept.foldl_fst
    | intro _
    | (extract_lets +onlyGivenNames x; with_reducible refine Kept.cut (W := W) (s₀ := s₀) (s := x) ?_ (fun _ => ?_); (on_goal 1 => subst x); on_goal 2 => clear_value x)
    | (extract_lets +onlyGivenNames x; subst x)
    | split

theorem Kept.originate (h : Kept W s₀ s) (_ : W .link) (_ : W .fab) (_ : W .slices) (_ : W .ctxs) (_ : W .engCtr) (_ : W .ctxCtr) (a1 a2 a3) : Kept W s₀ (State.originate s a1 a2 a3) := by
  unfold State.originate
  repeat' first
    | with_reducible assumption
    | with_reducible apply Kept.ite
    | with_reducible apply Kept.spread
    | with_reducible apply Kept.countCtx
    | with_reducible apply Kept.bcastReady
    | with_reducible apply Kept.foldl
    | with_reducible apply Kept.foldl_fst
    | intro _
    | (extract_lets +onlyGivenNames x; with_reducible refine Kept.cut (W := W) (s₀ := s₀) (s := x) ?_ (fun _ => ?_); (on_goal 1 => subst x); on_goal 2 => clear_value x)
    | (extract_lets +onlyGivenNames x; subst x)
    | split

theorem Kept.takePhase2 (h : Kept W s₀ s) (_ : W .link) (_ : W .fab) (_ : W .slices) (_ : W .ctxs) (_ : W .engCtr) (_ : W .ctxCtr) (a1 a2 a3) : Kept W s₀ (State.takePhase2 s a1 a2 a3) := by
  unfold State.takePhase2
  repeat' first
    | with_reducible assumption
    | with_reducible apply Kept.ite
    | with_reducible apply Kept.modBcast
    | with_reducible apply Kept.each
    | with_reducible apply Kept.sendBcast
    | with_reducible apply Kept.joinNow
    | with_reducible apply Kept.joinFailed
    | with_reducible apply Kept.foldl
    | with_reducible apply Kept.foldl_fst
    | intro _
    | (extract_lets +onlyGivenNames x; with_reducible refine Kept.cut (W := W) (s₀ := s₀) (s := x) ?_ (fun _ => ?_); (on_goal 1 => subst x); on_goal 2 => clear_value x)
    | (extract_lets +onlyGivenNames x; subst x)
    | split

theorem Kept.serveBcast (h : Kept W s₀ s) (_ : W .link) (_ : W .fab) (_ : W .health) (_ : W .slices) (_ : W .ctxs) (_ : W .engCtr) (_ : W .ctxCtr) (a1 a2) : Kept W s₀ (State.serveBcast s a1 a2) := by
  unfold State.serveBcast
  repeat' first
    | with_reducible assumption
    | with_reducible apply Kept.reject
    | with_reducible apply Kept.ite
    | with_reducible apply Kept.drop
    | with_reducible apply Kept.count
    | with_reducible apply Kept.countCtx
    | with_reducible apply Kept.respond
    | with_reducible apply Kept.takePhase2
    | with_reducible apply Kept.sendUp
    | with_reducible apply Kept.newBcast
    | with_reducible apply Kept.foldl
    | with_reducible apply Kept.foldl_fst
    | intro _
    | (extract_lets +onlyGivenNames x; with_reducible refine Kept.cut (W := W) (s₀ := s₀) (s := x) ?_ (fun _ => ?_); (on_goal 1 => subst x); on_goal 2 => clear_value x)
    | (extract_lets +onlyGivenNames x; subst x)
    | split

theorem Kept.serveUp (h : Kept W s₀ s) (_ : W .link) (_ : W .fab) (_ : W .slices) (_ : W .ctxs) (_ : W .engCtr) (_ : W .ctxCtr) (a1 a2) : Kept W s₀ (State.serveUp s a1 a2) := by
  unfold State.serveUp
  repeat' first
    | with_reducible assumption
    | with_reducible apply Kept.ite
    | with_reducible apply Kept.respond
    | with_reducible apply Kept.modBcast
    | with_reducible apply Kept.bcastReady
    | with_reducible apply Kept.foldl
    | with_reducible apply Kept.foldl_fst
    | intro _
    | (extract_lets +onlyGivenNames x; with_reducible refine Kept.cut (W := W) (s₀ := s₀) (s := x) ?_ (fun _ => ?_); (on_goal 1 => subst x); on_goal 2 => clear_value x)
    | (extract_lets +onlyGivenNames x; subst x)
    | split

theorem Kept.skipChild (h : Kept W s₀ s) (_ : W .link) (_ : W .fab) (_ : W .slices) (_ : W .ctxs) (_ : W .engCtr) (_ : W .ctxCtr) (a1 a2 a3 a4 a5) : Kept W s₀ (State.skipChild s a1 a2 a3 a4 a5) := by
  unfold State.skipChild
  repeat' first
    | with_reducible assumption
    | with_reducible apply Kept.ite
    | with_reducible apply Kept.modBcast
    | with_reducible apply Kept.each
    | with_reducible apply Kept.sendBcast
    | with_reducible apply Kept.countCtx
    | with_reducible apply Kept.suspectIn
    | with_reducible apply Kept.emit
    | with_reducible apply Kept.bcastReady
    | with_reducible apply Kept.foldl
    | with_reducible apply Kept.foldl_fst
    | intro _
    | (extract_lets +onlyGivenNames x; with_reducible refine Kept.cut (W := W) (s₀ := s₀) (s := x) ?_ (fun _ => ?_); (on_goal 1 => subst x); on_goal 2 => clear_value x)
    | (extract_lets +onlyGivenNames x; subst x)
    | split

theorem Kept.skipIn (h : Kept W s₀ s) (_ : W .link) (_ : W .fab) (_ : W .slices) (_ : W .ctxs) (_ : W .engCtr) (_ : W .ctxCtr) (a1 a2 a3 a4) : Kept W s₀ (State.skipIn s a1 a2 a3 a4) := by
  unfold State.skipIn
  repeat' first
    | with_reducible assumption
    | with_reducible apply Kept.ite
    | with_reducible apply Kept.each
    | with_reducible apply Kept.skipChild
    | with_reducible apply Kept.foldl
    | with_reducible apply Kept.foldl_fst
    | intro _
    | (extract_lets +onlyGivenNames x; with_reducible refine Kept.cut (W := W) (s₀ := s₀) (s := x) ?_ (fun _ => ?_); (on_goal 1 => subst x); on_goal 2 => clear_value x)
    | (extract_lets +onlyGivenNames x; subst x)
    | split

theorem Kept.on_effGroupJoin (h : Kept W s₀ s) (_ : W .link) (_ : W .fab) (_ : W .slices) (_ : W .ctxs) (_ : W .engCtr) (_ : W .ctxCtr) (a1) : Kept W s₀ (effGroupJoin a1 s) := by
  unfold effGroupJoin
  repeat' first
    | with_reducible assumption
    | with_reducible apply Kept.ite
    | with_reducible apply Kept.originate
    | with_reducible apply Kept.foldl
    | with_reducible apply Kept.foldl_fst
    | intro _
    | (extract_lets +onlyGivenNames x; with_reducible refine Kept.cut (W := W) (s₀ := s₀) (s := x) ?_ (fun _ => ?_); (on_goal 1 => subst x); on_goal 2 => clear_value x)
    | (extract_lets +onlyGivenNames x; subst x)
    | split

theorem Kept.on_execBcast (h : Kept W s₀ s) (_ : W .link) (_ : W .fab) (_ : W .power) (_ : W .health) (_ : W .slices) (_ : W .ctxs) (_ : W .engCtr) (_ : W .ctxCtr) (a1 a2) : KeptX W s₀ (execBcast a1 a2 s) := by
  unfold execBcast
  repeat' first
    | with_reducible assumption
    | with_reducible apply KeptX.next
    | with_reducible apply KeptX.ite
    | with_reducible apply Kept.ite
    | with_reducible apply Kept.inRequest
    | with_reducible apply Kept.serveBcast
    | with_reducible apply Kept.foldl
    | with_reducible apply Kept.foldl_fst
    | intro _
    | (extract_lets +onlyGivenNames x; with_reducible refine Kept.cut (W := W) (s₀ := s₀) (s := x) ?_ (fun _ => ?_); (on_goal 1 => subst x); on_goal 2 => clear_value x)
    | (extract_lets +onlyGivenNames x; subst x)
    | split

theorem Kept.on_takeGroupConfig (h : Kept W s₀ s) (_ : W .ctxs) (a1) : Kept W s₀ (takeGroupConfig a1 s) := by
  unfold takeGroupConfig
  repeat' first
    | with_reducible assumption
    | with_reducible apply Kept.ite
    | with_reducible apply Kept.modCtx
    | with_reducible apply Kept.foldl
    | with_reducible apply Kept.foldl_fst
    | intro _
    | (extract_lets +onlyGivenNames x; with_reducible refine Kept.cut (W := W) (s₀ := s₀) (s := x) ?_ (fun _ => ?_); (on_goal 1 => subst x); on_goal 2 => clear_value x)
    | (extract_lets +onlyGivenNames x; subst x)
    | split

theorem Kept.on_execGroupConfig (h : Kept W s₀ s) (_ : W .link) (_ : W .power) (_ : W .ctxs) (_ : W .engCtr) (a1) : KeptX W s₀ (execGroupConfig a1 s) := by
  unfold execGroupConfig
  repeat' first
    | with_reducible assumption
    | with_reducible apply KeptX.next
    | with_reducible apply KeptX.ite
    | with_reducible apply Kept.ite
    | with_reducible apply Kept.runCmd
    | with_reducible apply Kept.on_takeGroupConfig
    | with_reducible apply Kept.on_effDone0
    | with_reducible apply Kept.foldl
    | with_reducible apply Kept.foldl_fst
    | intro _
    | (extract_lets +onlyGivenNames x; with_reducible refine Kept.cut (W := W) (s₀ := s₀) (s := x) ?_ (fun _ => ?_); (on_goal 1 => subst x); on_goal 2 => clear_value x)
    | (extract_lets +onlyGivenNames x; subst x)
    | split

theorem Kept.on_takeGroupJoin (h : Kept W s₀ s) (_ : W .ctxs) (a1) : Kept W s₀ (takeGroupJoin a1 s) := by
  unfold takeGroupJoin
  repeat' first
    | with_reducible assumption
    | with_reducible apply Kept.ite
    | with_reducible apply Kept.modCtx
    | with_reducible apply Kept.foldl
    | with_reducible apply Kept.foldl_fst
    | intro _
    | (extract_lets +onlyGivenNames x; with_reducible refine Kept.cut (W := W) (s₀ := s₀) (s := x) ?_ (fun _ => ?_); (on_goal 1 => subst x); on_goal 2 => clear_value x)
    | (extract_lets +onlyGivenNames x; subst x)
    | split

theorem Kept.on_execGroupJoin (h : Kept W s₀ s) (_ : W .link) (_ : W .fab) (_ : W .power) (_ : W .slices) (_ : W .ctxs) (_ : W .engCtr) (_ : W .ctxCtr) (a1) : KeptX W s₀ (execGroupJoin a1 s) := by
  unfold execGroupJoin
  repeat' first
    | with_reducible assumption
    | with_reducible apply KeptX.next
    | with_reducible apply KeptX.ite
    | with_reducible apply Kept.ite
    | with_reducible apply Kept.runCmd
    | with_reducible apply Kept.on_takeGroupJoin
    | with_reducible apply Kept.on_effGroupJoin
    | with_reducible apply Kept.foldl
    | with_reducible apply Kept.foldl_fst
    | intro _
    | (extract_lets +onlyGivenNames x; with_reducible refine Kept.cut (W := W) (s₀ := s₀) (s := x) ?_ (fun _ => ?_); (on_goal 1 => subst x); on_goal 2 => clear_value x)
    | (extract_lets +onlyGivenNames x; subst x)
    | split

theorem Kept.on_takeGroupKey (h : Kept W s₀ s) (_ : W .ctxs) (_ : W .ctxCtr) (a1) : Kept W s₀ (takeGroupKey a1 s) := by
  unfold takeGroupKey
  repeat' first
    | with_reducible assumption
    | with_reducible apply Kept.ite
    | with_reducible apply Kept.nextKey
    | with_reducible apply Kept.modCtx
    | with_reducible apply Kept.foldl
    | with_reducible apply Kept.foldl_fst
    | intro _
    | (extract_lets +onlyGivenNames x; with_reducible refine Kept.cut (W := W) (s₀ := s₀) (s := x) ?_ (fun _ => ?_); (on_goal 1 => subst x); on_goal 2 => clear_value x)
    | (extract_lets +onlyGivenNames x; subst x)
    | split

theorem Kept.on_execGroupKey (h : Kept W s₀ s) (_ : W .link) (_ : W .power) (_ : W .ctxs) (_ : W .engCtr) (_ : W .ctxCtr) (a1) : KeptX W s₀ (execGroupKey a1 s) := by
  unfold execGroupKey
  repeat' first
    | with_reducible assumption
    | with_reducible apply KeptX.next
    | with_reducible apply KeptX.ite
    | with_reducible apply Kept.ite
    | with_reducible apply Kept.runCmd
    | with_reducible apply Kept.on_takeGroupKey
    | with_reducible apply Kept.on_effDone0
    | with_reducible apply Kept.foldl
    | with_reducible apply Kept.foldl_fst
    | intro _
    | (extract_lets +onlyGivenNames x; with_reducible refine Kept.cut (W := W) (s₀ := s₀) (s := x) ?_ (fun _ => ?_); (on_goal 1 => subst x); on_goal 2 => clear_value x)
    | (extract_lets +onlyGivenNames x; subst x)
    | split

theorem Kept.on_takeGroupLeave (h : Kept W s₀ s) (_ : W .link) (_ : W .fab) (_ : W .slices) (_ : W .ctxs) (_ : W .slcCtr) (a1) : Kept W s₀ (takeGroupLeave a1 s) := by
  unfold takeGroupLeave
  repeat' first
    | with_reducible assumption
    | with_reducible apply Kept.ite
    | with_reducible apply Kept.leaveGroup
    | with_reducible apply Kept.foldl
    | with_reducible apply Kept.foldl_fst
    | intro _
    | (extract_lets +onlyGivenNames x; with_reducible refine Kept.cut (W := W) (s₀ := s₀) (s := x) ?_ (fun _ => ?_); (on_goal 1 => subst x); on_goal 2 => clear_value x)
    | (extract_lets +onlyGivenNames x; subst x)
    | split

theorem Kept.on_execGroupLeave (h : Kept W s₀ s) (_ : W .link) (_ : W .fab) (_ : W .power) (_ : W .slices) (_ : W .ctxs) (_ : W .engCtr) (_ : W .slcCtr) (a1) : KeptX W s₀ (execGroupLeave a1 s) := by
  unfold execGroupLeave
  repeat' first
    | with_reducible assumption
    | with_reducible apply KeptX.next
    | with_reducible apply KeptX.ite
    | with_reducible apply Kept.ite
    | with_reducible apply Kept.runCmd
    | with_reducible apply Kept.on_takeGroupLeave
    | with_reducible apply Kept.on_effDone0
    | with_reducible apply Kept.foldl
    | with_reducible apply Kept.foldl_fst
    | intro _
    | (extract_lets +onlyGivenNames x; with_reducible refine Kept.cut (W := W) (s₀ := s₀) (s := x) ?_ (fun _ => ?_); (on_goal 1 => subst x); on_goal 2 => clear_value x)
    | (extract_lets +onlyGivenNames x; subst x)
    | split

theorem Kept.cancelStep (h : Kept W s₀ s) (_ : W .link) (_ : W .fab) (_ : W .health) (_ : W .slices) (_ : W .ctxs) (_ : W .branches) (_ : W .pctr) (_ : W .poison) (_ : W .engCtr) (_ : W .slcCtr) (_ : W .ctxCtr) (_ : W .sram) (_ : W .mem) (a1 a2) : Kept W s₀ (State.cancelStep s a1 a2).1 := by
  unfold State.cancelStep
  repeat' first
    | with_reducible assumption
    | with_reducible apply Kept.ite
    | with_reducible apply Kept.modStep
    | with_reducible apply Kept.counterAt
    | with_reducible apply Kept.countCtx
    | with_reducible apply Kept.waitFinal
    | with_reducible apply Kept.overflowPath
    | with_reducible apply Kept.each
    | with_reducible apply Kept.finish
    | with_reducible apply Kept.unrise
    | with_reducible apply Kept.foldl
    | with_reducible apply Kept.foldl_fst
    | intro _
    | (extract_lets +onlyGivenNames x; with_reducible refine Kept.cut (W := W) (s₀ := s₀) (s := x) ?_ (fun _ => ?_); (on_goal 1 => subst x); on_goal 2 => clear_value x)
    | (extract_lets +onlyGivenNames x; subst x)
    | split
    | (dsimp only)

theorem Kept.withdrawChange (h : Kept W s₀ s) (_ : W .slices) (_ : W .ctxs) (a1 a2) : Kept W s₀ (State.withdrawChange s a1 a2) := by
  unfold State.withdrawChange
  repeat' first
    | with_reducible assumption
    | with_reducible apply Kept.ite
    | with_reducible apply Kept.withRegion
    | with_reducible apply Kept.regionPools
    | with_reducible apply Kept.unprotect
    | with_reducible apply Kept.foldl
    | with_reducible apply Kept.foldl_fst
    | intro _
    | (extract_lets +onlyGivenNames x; with_reducible refine Kept.cut (W := W) (s₀ := s₀) (s := x) ?_ (fun _ => ?_); (on_goal 1 => subst x); on_goal 2 => clear_value x)
    | (extract_lets +onlyGivenNames x; subst x)
    | split

theorem Kept.quarantine (h : Kept W s₀ s) (_ : W .fab) (a1) : Kept W s₀ (State.quarantine s a1) := by
  unfold State.quarantine
  repeat' first
    | with_reducible assumption
    | with_reducible apply Kept.ite
    | with_reducible apply Kept.modPeel
    | with_reducible apply Kept.foldl
    | with_reducible apply Kept.foldl_fst
    | intro _
    | (extract_lets +onlyGivenNames x; with_reducible refine Kept.cut (W := W) (s₀ := s₀) (s := x) ?_ (fun _ => ?_); (on_goal 1 => subst x); on_goal 2 => clear_value x)
    | (extract_lets +onlyGivenNames x; subst x)
    | split
    | with_reducible apply Kept.set_fab

theorem Kept.dropWait (h : Kept W s₀ s) (_ : W .fab) (a1 a2) : Kept W s₀ (State.dropWait s a1 a2) := by
  unfold State.dropWait
  repeat' first
    | with_reducible assumption
    | with_reducible apply Kept.ite
    | with_reducible apply Kept.each
    | with_reducible apply Kept.quarantine
    | with_reducible apply Kept.foldl
    | with_reducible apply Kept.foldl_fst
    | intro _
    | (extract_lets +onlyGivenNames x; with_reducible refine Kept.cut (W := W) (s₀ := s₀) (s := x) ?_ (fun _ => ?_); (on_goal 1 => subst x); on_goal 2 => clear_value x)
    | (extract_lets +onlyGivenNames x; subst x)
    | split
    | with_reducible apply Kept.set_fab

theorem Kept.withdraw (h : Kept W s₀ s) (_ : W .frames) (_ : W .fab) (_ : W .slices) (_ : W .ctxs) (_ : W .ctxCtr) (a1 a2) : Kept W s₀ (State.withdraw s a1 a2) := by
  unfold State.withdraw
  repeat' first
    | with_reducible assumption
    | with_reducible apply Kept.ite
    | with_reducible apply Kept.withdrawChange
    | with_reducible apply Kept.modCtx
    | with_reducible apply Kept.dropJobs
    | with_reducible apply Kept.countCtx
    | with_reducible apply Kept.dropWait
    | with_reducible apply Kept.foldl
    | with_reducible apply Kept.foldl_fst
    | intro _
    | (extract_lets +onlyGivenNames x; with_reducible refine Kept.cut (W := W) (s₀ := s₀) (s := x) ?_ (fun _ => ?_); (on_goal 1 => subst x); on_goal 2 => clear_value x)
    | (extract_lets +onlyGivenNames x; subst x)
    | split
    | with_reducible apply Kept.set_frames

theorem Kept.cancelOne (h : Kept W s₀ s) (_ : W .link) (_ : W .frames) (_ : W .fab) (_ : W .health) (_ : W .slices) (_ : W .ctxs) (_ : W .branches) (_ : W .pctr) (_ : W .poison) (_ : W .engCtr) (_ : W .slcCtr) (_ : W .ctxCtr) (_ : W .sram) (_ : W .mem) (a1 a2 a3) : Kept W s₀ (State.cancelOne s a1 a2 a3).1 := by
  unfold State.cancelOne
  repeat' first
    | with_reducible assumption
    | with_reducible apply Kept.ite
    | with_reducible apply Kept.cancelStep
    | with_reducible apply Kept.finish
    | with_reducible apply Kept.withdraw
    | with_reducible refine Kept.fst (by assumption) ?_
    | with_reducible apply Kept.foldl
    | with_reducible apply Kept.foldl_fst
    | intro _
    | (extract_lets +onlyGivenNames x; with_reducible refine Kept.cut (W := W) (s₀ := s₀) (s := x) ?_ (fun _ => ?_); (on_goal 1 => subst x); on_goal 2 => clear_value x)
    | (extract_lets +onlyGivenNames x; subst x)
    | split
    | (dsimp only)

theorem Kept.cancelList (h : Kept W s₀ s) (_ : W .link) (_ : W .frames) (_ : W .fab) (_ : W .health) (_ : W .slices) (_ : W .ctxs) (_ : W .branches) (_ : W .pctr) (_ : W .poison) (_ : W .engCtr) (_ : W .slcCtr) (_ : W .ctxCtr) (_ : W .sram) (_ : W .mem) (a1 a2) : Kept W s₀ (State.cancelList s a1 a2).1 := by
  unfold State.cancelList
  repeat' first
    | with_reducible assumption
    | with_reducible apply Kept.ite
    | with_reducible apply Kept.cancelOne
    | with_reducible refine Kept.fst (by assumption) ?_
    | with_reducible apply Kept.foldl
    | with_reducible apply Kept.foldl_fst
    | intro _
    | (extract_lets +onlyGivenNames x; with_reducible refine Kept.cut (W := W) (s₀ := s₀) (s := x) ?_ (fun _ => ?_); (on_goal 1 => subst x); on_goal 2 => clear_value x)
    | (extract_lets +onlyGivenNames x; subst x)
    | split
    | (dsimp only)

theorem Kept.cancelReply (h : Kept W s₀ s) (_ : W .link) (a1 a2 a3) : Kept W s₀ (State.cancelReply s a1 a2 a3) := by
  unfold State.cancelReply
  repeat' first
    | with_reducible assumption
    | with_reducible apply Kept.ite
    | with_reducible apply Kept.done
    | with_reducible apply Kept.modAdm
    | with_reducible apply Kept.foldl
    | with_reducible apply Kept.foldl_fst
    | intro _
    | (extract_lets +onlyGivenNames x; with_reducible refine Kept.cut (W := W) (s₀ := s₀) (s := x) ?_ (fun _ => ?_); (on_goal 1 => subst x); on_goal 2 => clear_value x)
    | (extract_lets +onlyGivenNames x; subst x)
    | split

theorem Kept.on_effCancelContext (h : Kept W s₀ s) (_ : W .link) (_ : W .frames) (_ : W .fab) (_ : W .health) (_ : W .slices) (_ : W .ctxs) (_ : W .branches) (_ : W .pctr) (_ : W .poison) (_ : W .engCtr) (_ : W .slcCtr) (_ : W .ctxCtr) (_ : W .sram) (_ : W .mem) (a1) : Kept W s₀ (effCancelContext a1 s) := by
  unfold effCancelContext
  repeat' first
    | with_reducible assumption
    | with_reducible apply Kept.ite
    | with_reducible apply Kept.cancelList
    | with_reducible apply Kept.cancelReply
    | with_reducible refine Kept.fst (by assumption) ?_
    | with_reducible apply Kept.foldl
    | with_reducible apply Kept.foldl_fst
    | intro _
    | (extract_lets +onlyGivenNames x; with_reducible refine Kept.cut (W := W) (s₀ := s₀) (s := x) ?_ (fun _ => ?_); (on_goal 1 => subst x); on_goal 2 => clear_value x)
    | (extract_lets +onlyGivenNames x; subst x)
    | split

theorem Kept.on_effCancelTag (h : Kept W s₀ s) (_ : W .link) (_ : W .frames) (_ : W .fab) (_ : W .health) (_ : W .slices) (_ : W .ctxs) (_ : W .branches) (_ : W .pctr) (_ : W .poison) (_ : W .engCtr) (_ : W .slcCtr) (_ : W .ctxCtr) (_ : W .sram) (_ : W .mem) (a1) : Kept W s₀ (effCancelTag a1 s) := by
  unfold effCancelTag
  repeat' first
    | with_reducible assumption
    | with_reducible apply Kept.ite
    | with_reducible apply Kept.done
    | with_reducible apply Kept.cancelOne
    | with_reducible apply Kept.cancelReply
    | with_reducible refine Kept.fst (by assumption) ?_
    | with_reducible apply Kept.foldl
    | with_reducible apply Kept.foldl_fst
    | intro _
    | (extract_lets +onlyGivenNames x; with_reducible refine Kept.cut (W := W) (s₀ := s₀) (s := x) ?_ (fun _ => ?_); (on_goal 1 => subst x); on_goal 2 => clear_value x)
    | (extract_lets +onlyGivenNames x; subst x)
    | split

theorem Kept.on_execCancelContext (h : Kept W s₀ s) (_ : W .link) (_ : W .frames) (_ : W .fab) (_ : W .power) (_ : W .health) (_ : W .slices) (_ : W .ctxs) (_ : W .branches) (_ : W .pctr) (_ : W .poison) (_ : W .engCtr) (_ : W .slcCtr) (_ : W .ctxCtr) (_ : W .sram) (_ : W .mem) (a1) : KeptX W s₀ (execCancelContext a1 s) := by
  unfold execCancelContext
  repeat' first
    | with_reducible assumption
    | with_reducible apply KeptX.next
    | with_reducible apply KeptX.ite
    | with_reducible apply Kept.ite
    | with_reducible apply Kept.runCmd
    | with_reducible apply Kept.on_noTake
    | with_reducible apply Kept.on_effCancelContext
    | with_reducible apply Kept.foldl
    | with_reducible apply Kept.foldl_fst
    | intro _
    | (extract_lets +onlyGivenNames x; with_reducible refine Kept.cut (W := W) (s₀ := s₀) (s := x) ?_ (fun _ => ?_); (on_goal 1 => subst x); on_goal 2 => clear_value x)
    | (extract_lets +onlyGivenNames x; subst x)
    | split

theorem Kept.on_execCancelTag (h : Kept W s₀ s) (_ : W .link) (_ : W .frames) (_ : W .fab) (_ : W .power) (_ : W .health) (_ : W .slices) (_ : W .ctxs) (_ : W .branches) (_ : W .pctr) (_ : W .poison) (_ : W .engCtr) (_ : W .slcCtr) (_ : W .ctxCtr) (_ : W .sram) (_ : W .mem) (a1) : KeptX W s₀ (execCancelTag a1 s) := by
  unfold execCancelTag
  repeat' first
    | with_reducible assumption
    | with_reducible apply KeptX.next
    | with_reducible apply KeptX.ite
    | with_reducible apply Kept.ite
    | with_reducible apply Kept.runCmd
    | with_reducible apply Kept.on_noTake
    | with_reducible apply Kept.on_effCancelTag
    | with_reducible apply Kept.foldl
    | with_reducible apply Kept.foldl_fst
    | intro _
    | (extract_lets +onlyGivenNames x; with_reducible refine Kept.cut (W := W) (s₀ := s₀) (s := x) ?_ (fun _ => ?_); (on_goal 1 => subst x); on_goal 2 => clear_value x)
    | (extract_lets +onlyGivenNames x; subst x)
    | split

end Sys2Proof.Machine
end

