-- ==== Sys2Proof/Laws/KeptRecovery.lean ====
section
/-!
SUPPORT. Laws/KeptRecovery.lean: what each operation of Recovery, Knead, Export, Branch, Decoded, Responses may change (`Kept`).
-/
namespace Sys2Proof.Machine
set_option linter.unreachableTactic false
set_option linter.unusedTactic false
set_option linter.tactic.unusedName false

variable {W : Part → Prop} {s₀ s t : State}

theorem Kept.endAdopt (h : Kept W s₀ s) (_ : W .link) (_ : W .ctxs) (a1 a2 a3) : Kept W s₀ (State.endAdopt s a1 a2 a3) := by
  unfold State.endAdopt
  repeat' first
    | with_reducible assumption
    | with_reducible apply Kept.ite
    | with_reducible apply Kept.finish
    | with_reducible apply Kept.modCtx
    | with_reducible apply Kept.foldl
    | with_reducible apply Kept.foldl_fst
    | intro _
    | (extract_lets +onlyGivenNames x; with_reducible refine Kept.cut (W := W) (s₀ := s₀) (s := x) ?_ (fun _ => ?_); (on_goal 1 => subst x); on_goal 2 => clear_value x)
    | (extract_lets +onlyGivenNames x; subst x)
    | split

theorem Kept.adoptOwed (h : Kept W s₀ s) (_ : W .slices) (_ : W .ctxs) (a1 a2) : Kept W s₀ (State.adoptOwed s a1 a2) := by
  unfold State.adoptOwed
  repeat' first
    | with_reducible assumption
    | with_reducible apply Kept.ite
    | with_reducible apply Kept.each
    | with_reducible apply Kept.holdTile
    | with_reducible apply Kept.modTile
    | with_reducible apply Kept.trap
    | with_reducible apply Kept.foldl
    | with_reducible apply Kept.foldl_fst
    | intro _
    | (extract_lets +onlyGivenNames x; with_reducible refine Kept.cut (W := W) (s₀ := s₀) (s := x) ?_ (fun _ => ?_); (on_goal 1 => subst x); on_goal 2 => clear_value x)
    | (extract_lets +onlyGivenNames x; subst x)
    | split

theorem Kept.adoptRest (h : Kept W s₀ s) (_ : W .link) (_ : W .slices) (_ : W .ctxs) (_ : W .slcCtr) (a1 a2 a3 a4 a5 a6) : Kept W s₀ (State.adoptRest s a1 a2 a3 a4 a5 a6) := by
  unfold State.adoptRest
  repeat' first
    | with_reducible assumption
    | with_reducible apply Kept.ite
    | with_reducible apply Kept.applyDefault
    | with_reducible apply Kept.modCtx
    | with_reducible apply Kept.protect
    | with_reducible apply Kept.adoptOwed
    | with_reducible apply Kept.endAdopt
    | with_reducible refine Kept.fst (by assumption) ?_
    | with_reducible apply Kept.foldl
    | with_reducible apply Kept.foldl_fst
    | intro _
    | (extract_lets +onlyGivenNames x; with_reducible refine Kept.cut (W := W) (s₀ := s₀) (s := x) ?_ (fun _ => ?_); (on_goal 1 => subst x); on_goal 2 => clear_value x)
    | (extract_lets +onlyGivenNames x; subst x)
    | split

theorem Kept.adoptEnd (h : Kept W s₀ s) (g : Kept W s₀ t) (_ : W .link) (_ : W .slices) (_ : W .ctxs) (_ : W .slcCtr) (bad c p dir n bake ledger) :
    Kept W s₀ (t.adoptEnd s bad c p dir n bake ledger) := by
  unfold State.adoptEnd
  split
  · exact h.endAdopt ‹_› ‹_› _ _ _
  · with_reducible apply Kept.adoptRest <;> with_reducible assumption

theorem Kept.adoptMap (h : Kept W s₀ s) (_ : W .slices) (_ : W .ctxs) (a1 a2 a3 a4 a5 a6 a7) : Kept W s₀ (State.adoptMap s a1 a2 a3 a4 a5 a6 a7) := by
  unfold State.adoptMap
  repeat' first
    | with_reducible assumption
    | with_reducible apply Kept.ite
    | with_reducible apply Kept.loadMap
    | with_reducible apply Kept.modCtx
    | with_reducible apply Kept.foldl
    | with_reducible apply Kept.foldl_fst
    | intro _
    | (extract_lets +onlyGivenNames x; with_reducible refine Kept.cut (W := W) (s₀ := s₀) (s := x) ?_ (fun _ => ?_); (on_goal 1 => subst x); on_goal 2 => clear_value x)
    | (extract_lets +onlyGivenNames x; subst x)
    | split

theorem Kept.adoptPools (h : Kept W s₀ s) (_ : W .ctxs) (a1 a2) : Kept W s₀ (State.adoptPools s a1 a2) := by
  unfold State.adoptPools
  repeat' first
    | with_reducible assumption
    | with_reducible apply Kept.ite
    | with_reducible apply Kept.modCtx
    | with_reducible apply Kept.placePool
    | with_reducible apply Kept.foldl
    | with_reducible apply Kept.foldl_fst
    | intro _
    | (extract_lets +onlyGivenNames x; with_reducible refine Kept.cut (W := W) (s₀ := s₀) (s := x) ?_ (fun _ => ?_); (on_goal 1 => subst x); on_goal 2 => clear_value x)
    | (extract_lets +onlyGivenNames x; subst x)
    | split

theorem Kept.adoptWith (h : Kept W s₀ s) (_ : W .link) (_ : W .slices) (_ : W .ctxs) (_ : W .slcCtr) (c foreign w p dir regs pools bake ledger) :
    Kept W s₀ (s.adoptWith c foreign w p dir regs pools bake ledger) := by
  unfold State.adoptWith
  have h1 : Kept W s₀ (s.adoptMap c foreign w.1 w.2.1 w.2.2 regs pools) := by
    with_reducible apply Kept.adoptMap <;> with_reducible assumption
  have h2 : Kept W s₀ ((s.adoptMap c foreign w.1 w.2.1 w.2.2 regs pools).adoptPools c pools) := by
    with_reducible apply Kept.adoptPools <;> with_reducible assumption
  with_reducible apply Kept.adoptEnd h h2 <;> with_reducible assumption

theorem Kept.adoptInstall (h : Kept W s₀ s) (_ : W .link) (_ : W .slices) (_ : W .ctxs) (_ : W .slcCtr) (c map regs pools bake ledger) :
    Kept W s₀ (s.adoptInstall c map regs pools bake ledger) := by
  unfold State.adoptInstall
  extract_lets x f
  split
  · exact h.endAdopt ‹_› ‹_› _ _ _
  · generalize HeldRec.part _ _ _ = y
    split
    · exact Kept.adoptWith h ‹_› ‹_› ‹_› ‹_› _ _ _ _ _ _ _ _ _
    · exact h

theorem Kept.adoptNext (h : Kept W s₀ s) (_ : W .link) (_ : W .fab) (_ : W .ctxs) (_ : W .engCtr) (_ : W .ctxCtr) (a1) : Kept W s₀ (State.adoptNext s a1) := by
  unfold State.adoptNext
  repeat' first
    | with_reducible assumption
    | with_reducible apply Kept.ite
    | with_reducible apply Kept.issue
    | with_reducible apply Kept.endAdopt
    | with_reducible apply Kept.foldl
    | with_reducible apply Kept.foldl_fst
    | intro _
    | (extract_lets +onlyGivenNames x; with_reducible refine Kept.cut (W := W) (s₀ := s₀) (s := x) ?_ (fun _ => ?_); (on_goal 1 => subst x); on_goal 2 => clear_value x)
    | (extract_lets +onlyGivenNames x; subst x)
    | split

theorem Kept.adoptStep (h : Kept W s₀ s) (_ : W .link) (_ : W .fab) (_ : W .slices) (_ : W .ctxs) (_ : W .engCtr) (_ : W .slcCtr) (_ : W .ctxCtr) (a1) : Kept W s₀ (State.adoptStep s a1) := by
  unfold State.adoptStep
  repeat' first
    | with_reducible assumption
    | with_reducible apply Kept.ite
    | with_reducible apply Kept.adoptInstall
    | with_reducible apply Kept.each
    | with_reducible apply Kept.issue
    | with_reducible apply Kept.foldl
    | with_reducible apply Kept.foldl_fst
    | intro _
    | (extract_lets +onlyGivenNames x; with_reducible refine Kept.cut (W := W) (s₀ := s₀) (s := x) ?_ (fun _ => ?_); (on_goal 1 => subst x); on_goal 2 => clear_value x)
    | (extract_lets +onlyGivenNames x; subst x)
    | split

theorem Kept.mendCommands (h : Kept W s₀ s) (_ : W .link) (a1 a2 a3) : Kept W s₀ (State.mendCommands s a1 a2 a3) := by
  unfold State.mendCommands
  repeat' first
    | with_reducible assumption
    | with_reducible apply Kept.ite
    | with_reducible apply Kept.each
    | with_reducible apply Kept.modAdm
    | with_reducible apply Kept.finish
    | with_reducible apply Kept.foldl
    | with_reducible apply Kept.foldl_fst
    | intro _
    | (extract_lets +onlyGivenNames x; with_reducible refine Kept.cut (W := W) (s₀ := s₀) (s := x) ?_ (fun _ => ?_); (on_goal 1 => subst x); on_goal 2 => clear_value x)
    | (extract_lets +onlyGivenNames x; subst x)
    | split

theorem Kept.mendDone (h : Kept W s₀ s) (_ : W .link) (_ : W .slices) (_ : W .ctxs) (_ : W .engCtr) (_ : W .slcCtr) (_ : W .ctxCtr) (_ : W .mem) (a1 a2 a3) : Kept W s₀ (State.mendDone s a1 a2 a3) := by
  unfold State.mendDone
  repeat' first
    | with_reducible assumption
    | with_reducible apply Kept.ite
    | with_reducible apply Kept.modTile
    | with_reducible apply Kept.serveTile
    | with_reducible apply Kept.unholdTile
    | with_reducible apply Kept.setHome
    | with_reducible apply Kept.mendCommands
    | with_reducible apply Kept.emit
    | with_reducible apply Kept.countCtx
    | with_reducible apply Kept.holdTile
    | with_reducible apply Kept.foldl
    | with_reducible apply Kept.foldl_fst
    | intro _
    | (extract_lets +onlyGivenNames x; with_reducible refine Kept.cut (W := W) (s₀ := s₀) (s := x) ?_ (fun _ => ?_); (on_goal 1 => subst x); on_goal 2 => clear_value x)
    | (extract_lets +onlyGivenNames x; subst x)
    | split

theorem Kept.beginMend (h : Kept W s₀ s) (_ : W .link) (_ : W .fab) (_ : W .slices) (_ : W .ctxs) (_ : W .engCtr) (_ : W .slcCtr) (_ : W .ctxCtr) (_ : W .mem) (_ : W .freeIdx) (a1 a2) : Kept W s₀ (State.beginMend s a1 a2) := by
  unfold State.beginMend
  repeat' first
    | with_reducible assumption
    | with_reducible apply Kept.ite
    | with_reducible apply Kept.holdTile
    | with_reducible apply Kept.freeTile
    | with_reducible apply Kept.mendDone
    | with_reducible apply Kept.askOwn
    | with_reducible refine Kept.snd (by assumption) ?_
    | with_reducible apply Kept.foldl
    | with_reducible apply Kept.foldl_fst
    | intro _
    | (extract_lets +onlyGivenNames x; with_reducible refine Kept.cut (W := W) (s₀ := s₀) (s := x) ?_ (fun _ => ?_); (on_goal 1 => subst x); on_goal 2 => clear_value x)
    | (extract_lets +onlyGivenNames x; subst x)
    | split

theorem Kept.withdrawStep (h : Kept W s₀ s) (_ : W .link) (_ : W .fab) (_ : W .ctxs) (_ : W .engCtr) (a1) : Kept W s₀ (State.withdrawStep s a1) := by
  unfold State.withdrawStep
  repeat' first
    | with_reducible assumption
    | with_reducible apply Kept.endPublishes
    | with_reducible apply Kept.ite
    | with_reducible apply Kept.verdictEvent
    | with_reducible apply Kept.each
    | with_reducible apply Kept.finish
    | with_reducible apply Kept.quarantine
    | with_reducible apply Kept.modCtx
    | with_reducible apply Kept.foldl
    | with_reducible apply Kept.foldl_fst
    | intro _
    | (extract_lets +onlyGivenNames x; with_reducible refine Kept.cut (W := W) (s₀ := s₀) (s := x) ?_ (fun _ => ?_); (on_goal 1 => subst x); on_goal 2 => clear_value x)
    | (extract_lets +onlyGivenNames x; subst x)
    | split
    | with_reducible apply Kept.set_fab

theorem Kept.clearFor (h : Kept W s₀ s) (_ : W .link) (_ : W .frames) (_ : W .fab) (_ : W .health) (_ : W .slices) (_ : W .ctxs) (_ : W .branches) (_ : W .pctr) (_ : W .poison) (_ : W .engCtr) (_ : W .slcCtr) (_ : W .ctxCtr) (_ : W .sram) (_ : W .mem) (a1) : Kept W s₀ (State.clearFor s a1) := by
  unfold State.clearFor
  repeat' first
    | with_reducible assumption
    | with_reducible apply Kept.ite
    | with_reducible apply Kept.withdrawStep
    | with_reducible apply Kept.each
    | with_reducible apply Kept.cancelOne
    | with_reducible refine Kept.fst (by assumption) ?_
    | with_reducible apply Kept.foldl
    | with_reducible apply Kept.foldl_fst
    | intro _
    | (extract_lets +onlyGivenNames x; with_reducible refine Kept.cut (W := W) (s₀ := s₀) (s := x) ?_ (fun _ => ?_); (on_goal 1 => subst x); on_goal 2 => clear_value x)
    | (extract_lets +onlyGivenNames x; subst x)
    | split

theorem Kept.rebuildCheck (h : Kept W s₀ s) (_ : W .link) (_ : W .ctxs) (a1) : Kept W s₀ (State.rebuildCheck s a1) := by
  unfold State.rebuildCheck
  repeat' first
    | with_reducible assumption
    | with_reducible apply Kept.ite
    | with_reducible apply Kept.finish
    | with_reducible apply Kept.modCtx
    | with_reducible apply Kept.foldl
    | with_reducible apply Kept.foldl_fst
    | intro _
    | (extract_lets +onlyGivenNames x; with_reducible refine Kept.cut (W := W) (s₀ := s₀) (s := x) ?_ (fun _ => ?_); (on_goal 1 => subst x); on_goal 2 => clear_value x)
    | (extract_lets +onlyGivenNames x; subst x)
    | split

theorem Kept.crustDecoded (h : Kept W s₀ s) (_ : W .link) (_ : W .slices) (_ : W .ctxs) (_ : W .engCtr) (_ : W .slcCtr) (_ : W .ctxCtr) (a1 a2 a3 a4 a5) : Kept W s₀ (State.crustDecoded s a1 a2 a3 a4 a5) := by
  unfold State.crustDecoded
  repeat' first
    | with_reducible assumption
    | with_reducible apply Kept.ite
    | with_reducible apply Kept.rebuildCheck
    | with_reducible apply Kept.modCtx
    | with_reducible apply Kept.modCrust
    | with_reducible apply Kept.serve
    | with_reducible apply Kept.countCtx
    | with_reducible apply Kept.commitReady
    | with_reducible apply Kept.foldl
    | with_reducible apply Kept.foldl_fst
    | intro _
    | (extract_lets +onlyGivenNames x; with_reducible refine Kept.cut (W := W) (s₀ := s₀) (s := x) ?_ (fun _ => ?_); (on_goal 1 => subst x); on_goal 2 => clear_value x)
    | (extract_lets +onlyGivenNames x; subst x)
    | split

theorem Kept.zeroCounters (h : Kept W s₀ s) (_ : W .link) (_ : W .fab) (_ : W .health) (_ : W .slices) (_ : W .ctxs) (_ : W .pctr) (_ : W .poison) (_ : W .engCtr) (_ : W .slcCtr) (_ : W .ctxCtr) (_ : W .sram) (a1) : Kept W s₀ (State.zeroCounters s a1) := by
  unfold State.zeroCounters
  repeat' first
    | with_reducible assumption
    | with_reducible apply Kept.ite
    | with_reducible apply Kept.setCtr
    | with_reducible apply Kept.foldl
    | with_reducible apply Kept.foldl_fst
    | intro _
    | (extract_lets +onlyGivenNames x; with_reducible refine Kept.cut (W := W) (s₀ := s₀) (s := x) ?_ (fun _ => ?_); (on_goal 1 => subst x); on_goal 2 => clear_value x)
    | (extract_lets +onlyGivenNames x; subst x)
    | split

theorem Kept.endRollback (h : Kept W s₀ s) (_ : W .link) (_ : W .fab) (_ : W .health) (_ : W .slices) (_ : W .ctxs) (_ : W .branches) (_ : W .pctr) (_ : W .poison) (_ : W .engCtr) (_ : W .slcCtr) (_ : W .ctxCtr) (_ : W .sram) (_ : W .mem) (a1 a2) : Kept W s₀ (State.endRollback s a1 a2) := by
  unfold State.endRollback
  repeat' first
    | with_reducible assumption
    | with_reducible apply Kept.ite
    | with_reducible apply Kept.modCtx
    | with_reducible apply Kept.each
    | with_reducible apply Kept.recast
    | with_reducible apply Kept.trap
    | with_reducible apply Kept.untrap
    | with_reducible apply Kept.relieveAll
    | with_reducible apply Kept.zeroCounters
    | with_reducible apply Kept.countCtx
    | with_reducible apply Kept.finish
    | with_reducible refine Kept.fst (by assumption) ?_
    | with_reducible apply Kept.foldl
    | with_reducible apply Kept.foldl_fst
    | intro _
    | (extract_lets +onlyGivenNames x; with_reducible refine Kept.cut (W := W) (s₀ := s₀) (s := x) ?_ (fun _ => ?_); (on_goal 1 => subst x); on_goal 2 => clear_value x)
    | (extract_lets +onlyGivenNames x; subst x)
    | split

theorem Kept.sendNotice (h : Kept W s₀ s) (_ : W .link) (_ : W .fab) (_ : W .slices) (_ : W .ctxs) (_ : W .engCtr) (_ : W .ctxCtr) (a1) : Kept W s₀ (State.sendNotice s a1) := by
  unfold State.sendNotice
  repeat' first
    | with_reducible assumption
    | with_reducible apply Kept.ite
    | with_reducible apply Kept.modCtx
    | with_reducible apply Kept.originate
    | with_reducible apply Kept.foldl
    | with_reducible apply Kept.foldl_fst
    | intro _
    | (extract_lets +onlyGivenNames x; with_reducible refine Kept.cut (W := W) (s₀ := s₀) (s := x) ?_ (fun _ => ?_); (on_goal 1 => subst x); on_goal 2 => clear_value x)
    | (extract_lets +onlyGivenNames x; subst x)
    | split

theorem Kept.noticeAgain (h : Kept W s₀ s) (_ : W .link) (_ : W .fab) (_ : W .slices) (_ : W .ctxs) (_ : W .engCtr) (_ : W .ctxCtr) (a1) : Kept W s₀ (State.noticeAgain s a1) := by
  unfold State.noticeAgain
  repeat' first
    | with_reducible assumption
    | with_reducible apply Kept.ite
    | with_reducible apply Kept.adoptNext
    | with_reducible apply Kept.sendNotice
    | with_reducible apply Kept.foldl
    | with_reducible apply Kept.foldl_fst
    | intro _
    | (extract_lets +onlyGivenNames x; with_reducible refine Kept.cut (W := W) (s₀ := s₀) (s := x) ?_ (fun _ => ?_); (on_goal 1 => subst x); on_goal 2 => clear_value x)
    | (extract_lets +onlyGivenNames x; subst x)
    | split

theorem Kept.putRebuilt (h : Kept W s₀ s) (_ : W .link) (_ : W .slices) (_ : W .ctxs) (_ : W .slcCtr) (_ : W .ctxCtr) (_ : W .mem) (_ : W .branches) (a1 a2 a3) : Kept W s₀ (State.putRebuilt s a1 a2 a3) := by
  unfold State.putRebuilt
  repeat' first
    | with_reducible assumption
    | with_reducible apply Kept.portWrite
    | with_reducible apply Kept.ite
    | with_reducible apply Kept.modTile
    | with_reducible apply Kept.serveTile
    | with_reducible apply Kept.setHome
    | with_reducible apply Kept.unholdTile
    | with_reducible apply Kept.trap
    | with_reducible apply Kept.modCtx
    | with_reducible apply Kept.countCtx
    | with_reducible apply Kept.mendCommands
    | with_reducible apply Kept.foldl
    | with_reducible apply Kept.foldl_fst
    | intro _
    | (extract_lets +onlyGivenNames x; with_reducible refine Kept.cut (W := W) (s₀ := s₀) (s := x) ?_ (fun _ => ?_); (on_goal 1 => subst x); on_goal 2 => clear_value x)
    | (extract_lets +onlyGivenNames x; subst x)
    | split

theorem Kept.rebuildDecoded (h : Kept W s₀ s) (_ : W .link) (_ : W .slices) (_ : W .ctxs) (_ : W .slcCtr) (_ : W .ctxCtr) (_ : W .mem) (_ : W .branches) (a1 a2 a3) : Kept W s₀ (State.rebuildDecoded s a1 a2 a3) := by
  unfold State.rebuildDecoded
  repeat' first
    | with_reducible assumption
    | with_reducible apply Kept.ite
    | with_reducible apply Kept.rebuildCheck
    | with_reducible apply Kept.putRebuilt
    | with_reducible apply Kept.modCtx
    | with_reducible apply Kept.mendCommands
    | with_reducible apply Kept.foldl
    | with_reducible apply Kept.foldl_fst
    | intro _
    | (extract_lets +onlyGivenNames x; with_reducible refine Kept.cut (W := W) (s₀ := s₀) (s := x) ?_ (fun _ => ?_); (on_goal 1 => subst x); on_goal 2 => clear_value x)
    | (extract_lets +onlyGivenNames x; subst x)
    | split

theorem Kept.rebuildTile (h : Kept W s₀ s) (_ : W .link) (_ : W .fab) (_ : W .slices) (_ : W .ctxs) (_ : W .slcCtr) (_ : W .ctxCtr) (_ : W .mem) (_ : W .freeIdx) (_ : W .branches) (a1 a2 a3) : Kept W s₀ (State.rebuildTile s a1 a2 a3) := by
  unfold State.rebuildTile
  repeat' first
    | with_reducible assumption
    | with_reducible apply Kept.ite
    | with_reducible apply Kept.freeTile
    | with_reducible apply Kept.putRebuilt
    | with_reducible apply Kept.askOwn
    | with_reducible refine Kept.snd (by assumption) ?_
    | with_reducible apply Kept.foldl
    | with_reducible apply Kept.foldl_fst
    | intro _
    | (extract_lets +onlyGivenNames x; with_reducible refine Kept.cut (W := W) (s₀ := s₀) (s := x) ?_ (fun _ => ?_); (on_goal 1 => subst x); on_goal 2 => clear_value x)
    | (extract_lets +onlyGivenNames x; subst x)
    | split

theorem Kept.rewrite (h : Kept W s₀ s) (_ : W .link) (_ : W .slices) (_ : W .ctxs) (_ : W .branches) (_ : W .slcCtr) (_ : W .ctxCtr) (_ : W .mem) (a1 a2 a3 a4 a5) : Kept W s₀ (State.rewrite s a1 a2 a3 a4 a5) := by
  unfold State.rewrite
  repeat' first
    | with_reducible assumption
    | with_reducible apply Kept.ite
    | with_reducible apply Kept.serveTile
    | with_reducible apply Kept.portWrite
    | with_reducible apply Kept.setHome
    | with_reducible apply Kept.modAdm
    | with_reducible apply Kept.foldl
    | with_reducible apply Kept.foldl_fst
    | intro _
    | (extract_lets +onlyGivenNames x; with_reducible refine Kept.cut (W := W) (s₀ := s₀) (s := x) ?_ (fun _ => ?_); (on_goal 1 => subst x); on_goal 2 => clear_value x)
    | (extract_lets +onlyGivenNames x; subst x)
    | split

theorem Kept.rollbackDecoded (h : Kept W s₀ s) (_ : W .link) (_ : W .slices) (_ : W .ctxs) (_ : W .branches) (_ : W .slcCtr) (_ : W .ctxCtr) (_ : W .mem) (a1 a2 a3 a4) : Kept W s₀ (State.rollbackDecoded s a1 a2 a3 a4) := by
  unfold State.rollbackDecoded
  repeat' first
    | with_reducible assumption
    | with_reducible apply Kept.ite
    | with_reducible apply Kept.unholdTile
    | with_reducible apply Kept.modTile
    | with_reducible apply Kept.rewrite
    | with_reducible apply Kept.modAdm
    | with_reducible apply Kept.holdTile
    | with_reducible apply Kept.foldl
    | with_reducible apply Kept.foldl_fst
    | intro _
    | (extract_lets +onlyGivenNames x; with_reducible refine Kept.cut (W := W) (s₀ := s₀) (s := x) ?_ (fun _ => ?_); (on_goal 1 => subst x); on_goal 2 => clear_value x)
    | (extract_lets +onlyGivenNames x; subst x)
    | split

theorem Kept.restoreUnknown (h : Kept W s₀ s) (_ : W .link) (_ : W .fab) (_ : W .slices) (_ : W .ctxs) (_ : W .branches) (_ : W .slcCtr) (_ : W .ctxCtr) (_ : W .mem) (_ : W .freeIdx) (a1 a2 a3) : Kept W s₀ (State.restoreUnknown s a1 a2 a3) := by
  unfold State.restoreUnknown
  repeat' first
    | with_reducible assumption
    | with_reducible apply Kept.ite
    | with_reducible apply Kept.freeTile
    | with_reducible apply Kept.rollbackDecoded
    | with_reducible apply Kept.askDecode
    | with_reducible refine Kept.snd (by assumption) ?_
    | with_reducible apply Kept.foldl
    | with_reducible apply Kept.foldl_fst
    | intro _
    | (extract_lets +onlyGivenNames x; with_reducible refine Kept.cut (W := W) (s₀ := s₀) (s := x) ?_ (fun _ => ?_); (on_goal 1 => subst x); on_goal 2 => clear_value x)
    | (extract_lets +onlyGivenNames x; subst x)
    | split

theorem Kept.restoreTiles (h : Kept W s₀ s) (_ : W .link) (_ : W .fab) (_ : W .slices) (_ : W .ctxs) (_ : W .branches) (_ : W .slcCtr) (_ : W .ctxCtr) (_ : W .mem) (_ : W .freeIdx) (a1 a2) : Kept W s₀ (State.restoreTiles s a1 a2) := by
  unfold State.restoreTiles
  repeat' first
    | with_reducible assumption
    | with_reducible apply Kept.ite
    | with_reducible apply Kept.each
    | with_reducible apply Kept.restoreUnknown
    | with_reducible apply Kept.modTile
    | with_reducible apply Kept.rewrite
    | with_reducible apply Kept.relieveAll
    | with_reducible apply Kept.modCtx
    | with_reducible apply Kept.foldl
    | with_reducible apply Kept.foldl_fst
    | intro _
    | (extract_lets +onlyGivenNames x; with_reducible refine Kept.cut (W := W) (s₀ := s₀) (s := x) ?_ (fun _ => ?_); (on_goal 1 => subst x); on_goal 2 => clear_value x)
    | (extract_lets +onlyGivenNames x; subst x)
    | split

theorem Kept.runMends (h : Kept W s₀ s) (_ : W .link) (_ : W .fab) (_ : W .slices) (_ : W .ctxs) (_ : W .engCtr) (_ : W .slcCtr) (_ : W .ctxCtr) (_ : W .mem) (_ : W .freeIdx) (_ : W .branches) (a1 a2) : Kept W s₀ (State.runMends s a1 a2) := by
  unfold State.runMends
  repeat' first
    | with_reducible assumption
    | with_reducible apply Kept.ite
    | with_reducible apply Kept.each
    | with_reducible apply Kept.rebuildTile
    | with_reducible apply Kept.askPromotion
    | with_reducible apply Kept.beginMend
    | with_reducible apply Kept.foldl
    | with_reducible apply Kept.foldl_fst
    | intro _
    | (extract_lets +onlyGivenNames x; with_reducible refine Kept.cut (W := W) (s₀ := s₀) (s := x) ?_ (fun _ => ?_); (on_goal 1 => subst x); on_goal 2 => clear_value x)
    | (extract_lets +onlyGivenNames x; subst x)
    | split

theorem Kept.runRollback (h : Kept W s₀ s) (_ : W .link) (_ : W .fab) (_ : W .health) (_ : W .slices) (_ : W .ctxs) (_ : W .branches) (_ : W .pctr) (_ : W .poison) (_ : W .engCtr) (_ : W .slcCtr) (_ : W .ctxCtr) (_ : W .sram) (_ : W .mem) (_ : W .freeIdx) (a1 a2) : Kept W s₀ (State.runRollback s a1 a2) := by
  unfold State.runRollback
  repeat' first
    | with_reducible assumption
    | with_reducible apply Kept.ite
    | with_reducible apply Kept.each
    | with_reducible apply Kept.askPromotion
    | with_reducible apply Kept.modAdm
    | with_reducible apply Kept.restoreTiles
    | with_reducible apply Kept.revertCrust
    | with_reducible apply Kept.endRollback
    | with_reducible apply Kept.foldl
    | with_reducible apply Kept.foldl_fst
    | intro _
    | (extract_lets +onlyGivenNames x; with_reducible refine Kept.cut (W := W) (s₀ := s₀) (s := x) ?_ (fun _ => ?_); (on_goal 1 => subst x); on_goal 2 => clear_value x)
    | (extract_lets +onlyGivenNames x; subst x)
    | split

theorem Kept.serveRecord (h : Kept W s₀ s) (_ : W .link) (_ : W .fab) (_ : W .slices) (_ : W .ctxs) (_ : W .engCtr) (_ : W .slcCtr) (_ : W .ctxCtr) (a1 a2) : Kept W s₀ (State.serveRecord s a1 a2) := by
  unfold State.serveRecord
  repeat' first
    | with_reducible assumption
    | with_reducible apply Kept.ite
    | with_reducible apply Kept.sendHeld
    | with_reducible apply Kept.respond
    | with_reducible apply Kept.shareAll
    | with_reducible apply Kept.adoptStep
    | with_reducible apply Kept.modCtx
    | with_reducible apply Kept.keepPiece
    | with_reducible apply Kept.foldl
    | with_reducible apply Kept.foldl_fst
    | intro _
    | (extract_lets +onlyGivenNames x; with_reducible refine Kept.cut (W := W) (s₀ := s₀) (s := x) ?_ (fun _ => ?_); (on_goal 1 => subst x); on_goal 2 => clear_value x)
    | (extract_lets +onlyGivenNames x; subst x)
    | split

theorem Kept.startRebuild (h : Kept W s₀ s) (_ : W .link) (_ : W .fab) (_ : W .slices) (_ : W .ctxs) (_ : W .slcCtr) (_ : W .ctxCtr) (_ : W .mem) (_ : W .freeIdx) (_ : W .branches) (a1 a2 a3) : Kept W s₀ (State.startRebuild s a1 a2 a3) := by
  unfold State.startRebuild
  repeat' first
    | with_reducible assumption
    | with_reducible apply Kept.ite
    | with_reducible apply Kept.each
    | with_reducible apply Kept.rebuildTile
    | with_reducible apply Kept.askCrust
    | with_reducible apply Kept.foldl
    | with_reducible apply Kept.foldl_fst
    | intro _
    | (extract_lets +onlyGivenNames x; with_reducible refine Kept.cut (W := W) (s₀ := s₀) (s := x) ?_ (fun _ => ?_); (on_goal 1 => subst x); on_goal 2 => clear_value x)
    | (extract_lets +onlyGivenNames x; subst x)
    | split

theorem Kept.stopDrain (h : Kept W s₀ s) (_ : W .link) (_ : W .fab) (_ : W .slices) (_ : W .ctxs) (_ : W .ctxCtr) (a1) : Kept W s₀ (State.stopDrain s a1) := by
  unfold State.stopDrain
  repeat' first
    | with_reducible assumption
    | with_reducible apply Kept.ite
    | with_reducible apply Kept.countCtx
    | with_reducible apply Kept.modCtx
    | with_reducible apply Kept.dropJobs
    | with_reducible apply Kept.each
    | with_reducible apply Kept.finish
    | with_reducible apply Kept.foldl
    | with_reducible apply Kept.foldl_fst
    | intro _
    | (extract_lets +onlyGivenNames x; with_reducible refine Kept.cut (W := W) (s₀ := s₀) (s := x) ?_ (fun _ => ?_); (on_goal 1 => subst x); on_goal 2 => clear_value x)
    | (extract_lets +onlyGivenNames x; subst x)
    | split
    | with_reducible apply Kept.set_fab_slices
    | with_reducible apply Kept.set_fab
    | with_reducible apply Kept.set_slices
    | with_reducible apply mwf_mset
    | with_reducible apply mwf_merase
    | with_reducible apply mwf_mkeep
    | with_reducible apply mwf_mmap

theorem Kept.on_effAdopt (h : Kept W s₀ s) (_ : W .link) (_ : W .fab) (_ : W .slices) (_ : W .ctxs) (_ : W .engCtr) (_ : W .ctxCtr) (a1) : Kept W s₀ (effAdopt a1 s) := by
  unfold effAdopt
  repeat' first
    | with_reducible assumption
    | with_reducible apply Kept.ite
    | with_reducible apply Kept.modCtx
    | with_reducible apply Kept.adoptNext
    | with_reducible apply Kept.sendNotice
    | with_reducible apply Kept.foldl
    | with_reducible apply Kept.foldl_fst
    | intro _
    | (extract_lets +onlyGivenNames x; with_reducible refine Kept.cut (W := W) (s₀ := s₀) (s := x) ?_ (fun _ => ?_); (on_goal 1 => subst x); on_goal 2 => clear_value x)
    | (extract_lets +onlyGivenNames x; subst x)
    | split

theorem Kept.on_effMendTile (h : Kept W s₀ s) (_ : W .link) (_ : W .fab) (_ : W .slices) (_ : W .ctxs) (_ : W .engCtr) (_ : W .slcCtr) (_ : W .ctxCtr) (_ : W .mem) (_ : W .freeIdx) (_ : W .branches) (a1) : Kept W s₀ (effMendTile a1 s) := by
  unfold effMendTile
  repeat' first
    | with_reducible assumption
    | with_reducible apply Kept.ite
    | with_reducible apply Kept.runMends
    | with_reducible apply Kept.modAdm
    | with_reducible apply Kept.foldl
    | with_reducible apply Kept.foldl_fst
    | intro _
    | (extract_lets +onlyGivenNames x; with_reducible refine Kept.cut (W := W) (s₀ := s₀) (s := x) ?_ (fun _ => ?_); (on_goal 1 => subst x); on_goal 2 => clear_value x)
    | (extract_lets +onlyGivenNames x; subst x)
    | split

theorem Kept.on_effRebuildStart (h : Kept W s₀ s) (_ : W .link) (_ : W .fab) (_ : W .slices) (_ : W .ctxs) (_ : W .slcCtr) (_ : W .ctxCtr) (_ : W .mem) (_ : W .freeIdx) (_ : W .branches) (a1) : Kept W s₀ (effRebuildStart a1 s) := by
  unfold effRebuildStart
  repeat' first
    | with_reducible assumption
    | with_reducible apply Kept.ite
    | with_reducible apply Kept.startRebuild
    | with_reducible apply Kept.foldl
    | with_reducible apply Kept.foldl_fst
    | intro _
    | (extract_lets +onlyGivenNames x; with_reducible refine Kept.cut (W := W) (s₀ := s₀) (s := x) ?_ (fun _ => ?_); (on_goal 1 => subst x); on_goal 2 => clear_value x)
    | (extract_lets +onlyGivenNames x; subst x)
    | split

theorem Kept.on_effReplay (h : Kept W s₀ s) (_ : W .link) (_ : W .ctxs) (_ : W .engCtr) (_ : W .ctxCtr) (a1) : Kept W s₀ (effReplay a1 s) := by
  unfold effReplay
  repeat' first
    | with_reducible assumption
    | with_reducible apply Kept.ite
    | with_reducible apply Kept.finish
    | with_reducible apply Kept.done
    | with_reducible apply Kept.emit
    | with_reducible apply Kept.countCtx
    | with_reducible apply Kept.modCtx
    | with_reducible apply Kept.foldl
    | with_reducible apply Kept.foldl_fst
    | intro _
    | (extract_lets +onlyGivenNames x; with_reducible refine Kept.cut (W := W) (s₀ := s₀) (s := x) ?_ (fun _ => ?_); (on_goal 1 => subst x); on_goal 2 => clear_value x)
    | (extract_lets +onlyGivenNames x; subst x)
    | split

theorem Kept.on_effRollback (h : Kept W s₀ s) (_ : W .link) (_ : W .frames) (_ : W .fab) (_ : W .health) (_ : W .slices) (_ : W .ctxs) (_ : W .branches) (_ : W .pctr) (_ : W .poison) (_ : W .engCtr) (_ : W .slcCtr) (_ : W .ctxCtr) (_ : W .sram) (_ : W .mem) (_ : W .freeIdx) (a1) : Kept W s₀ (effRollback a1 s) := by
  unfold effRollback
  repeat' first
    | with_reducible assumption
    | with_reducible apply Kept.ite
    | with_reducible apply Kept.clearFor
    | with_reducible apply Kept.finish
    | with_reducible apply Kept.runRollback
    | with_reducible apply Kept.modAdm
    | with_reducible apply Kept.stopDrain
    | with_reducible apply Kept.foldl
    | with_reducible apply Kept.foldl_fst
    | intro _
    | (extract_lets +onlyGivenNames x; with_reducible refine Kept.cut (W := W) (s₀ := s₀) (s := x) ?_ (fun _ => ?_); (on_goal 1 => subst x); on_goal 2 => clear_value x)
    | (extract_lets +onlyGivenNames x; subst x)
    | split

theorem Kept.on_execAdoptPosition (h : Kept W s₀ s) (_ : W .link) (_ : W .fab) (_ : W .power) (_ : W .slices) (_ : W .ctxs) (_ : W .engCtr) (_ : W .ctxCtr) (a1) : KeptX W s₀ (execAdoptPosition a1 s) := by
  unfold execAdoptPosition
  repeat' first
    | with_reducible assumption
    | with_reducible apply KeptX.next
    | with_reducible apply KeptX.ite
    | with_reducible apply Kept.ite
    | with_reducible apply Kept.runCmd
    | with_reducible apply Kept.on_noTake
    | with_reducible apply Kept.on_effAdopt
    | with_reducible apply Kept.foldl
    | with_reducible apply Kept.foldl_fst
    | intro _
    | (extract_lets +onlyGivenNames x; with_reducible refine Kept.cut (W := W) (s₀ := s₀) (s := x) ?_ (fun _ => ?_); (on_goal 1 => subst x); on_goal 2 => clear_value x)
    | (extract_lets +onlyGivenNames x; subst x)
    | split

theorem Kept.on_execBcastChildTimeout (h : Kept W s₀ s) (_ : W .link) (_ : W .fab) (_ : W .slices) (_ : W .ctxs) (_ : W .engCtr) (_ : W .ctxCtr) (a1 a2) : KeptX W s₀ (execBcastChildTimeout a1 a2 s) := by
  unfold execBcastChildTimeout
  repeat' first
    | with_reducible assumption
    | with_reducible apply KeptX.next
    | with_reducible apply KeptX.ite
    | with_reducible apply Kept.ite
    | with_reducible apply Kept.adoptNext
    | with_reducible apply Kept.skipIn
    | with_reducible apply Kept.foldl
    | with_reducible apply Kept.foldl_fst
    | intro _
    | (extract_lets +onlyGivenNames x; with_reducible refine Kept.cut (W := W) (s₀ := s₀) (s := x) ?_ (fun _ => ?_); (on_goal 1 => subst x); on_goal 2 => clear_value x)
    | (extract_lets +onlyGivenNames x; subst x)
    | split

theorem Kept.on_execBcastUp (h : Kept W s₀ s) (_ : W .link) (_ : W .fab) (_ : W .power) (_ : W .health) (_ : W .slices) (_ : W .ctxs) (_ : W .engCtr) (_ : W .ctxCtr) (a1 a2) : KeptX W s₀ (execBcastUp a1 a2 s) := by
  unfold execBcastUp
  repeat' first
    | with_reducible assumption
    | with_reducible apply KeptX.next
    | with_reducible apply KeptX.ite
    | with_reducible apply Kept.ite
    | with_reducible apply Kept.inRequest
    | with_reducible apply Kept.adoptNext
    | with_reducible apply Kept.serveUp
    | with_reducible apply Kept.foldl
    | with_reducible apply Kept.foldl_fst
    | intro _
    | (extract_lets +onlyGivenNames x; with_reducible refine Kept.cut (W := W) (s₀ := s₀) (s := x) ?_ (fun _ => ?_); (on_goal 1 => subst x); on_goal 2 => clear_value x)
    | (extract_lets +onlyGivenNames x; subst x)
    | split

theorem Kept.on_execDemandRebuild (h : Kept W s₀ s) (_ : W .link) (_ : W .fab) (_ : W .slices) (_ : W .ctxs) (_ : W .slcCtr) (_ : W .ctxCtr) (_ : W .mem) (_ : W .freeIdx) (_ : W .branches) (a1 a2) : KeptX W s₀ (execDemandRebuild a1 a2 s) := by
  unfold execDemandRebuild
  repeat' first
    | with_reducible assumption
    | with_reducible apply KeptX.next
    | with_reducible apply KeptX.ite
    | with_reducible apply Kept.ite
    | with_reducible apply Kept.modCtx
    | with_reducible apply Kept.countCtx
    | with_reducible apply Kept.each
    | with_reducible apply Kept.rebuildTile
    | with_reducible apply Kept.demandLoaf
    | with_reducible apply Kept.foldl
    | with_reducible apply Kept.foldl_fst
    | intro _
    | (extract_lets +onlyGivenNames x; with_reducible refine Kept.cut (W := W) (s₀ := s₀) (s := x) ?_ (fun _ => ?_); (on_goal 1 => subst x); on_goal 2 => clear_value x)
    | (extract_lets +onlyGivenNames x; subst x)
    | split

theorem Kept.on_execMend (h : Kept W s₀ s) (_ : W .link) (_ : W .fab) (_ : W .slices) (_ : W .ctxs) (_ : W .engCtr) (_ : W .slcCtr) (_ : W .ctxCtr) (_ : W .mem) (_ : W .freeIdx) (a1 a2) : KeptX W s₀ (execMend a1 a2 s) := by
  unfold execMend
  repeat' first
    | with_reducible assumption
    | with_reducible apply KeptX.next
    | with_reducible apply KeptX.ite
    | with_reducible apply Kept.ite
    | with_reducible apply Kept.beginMend
    | with_reducible apply Kept.foldl
    | with_reducible apply Kept.foldl_fst
    | intro _
    | (extract_lets +onlyGivenNames x; with_reducible refine Kept.cut (W := W) (s₀ := s₀) (s := x) ?_ (fun _ => ?_); (on_goal 1 => subst x); on_goal 2 => clear_value x)
    | (extract_lets +onlyGivenNames x; subst x)
    | split

theorem Kept.on_execMendTile (h : Kept W s₀ s) (_ : W .link) (_ : W .fab) (_ : W .power) (_ : W .slices) (_ : W .ctxs) (_ : W .engCtr) (_ : W .slcCtr) (_ : W .ctxCtr) (_ : W .mem) (_ : W .freeIdx) (_ : W .branches) (a1) : KeptX W s₀ (execMendTile a1 s) := by
  unfold execMendTile
  repeat' first
    | with_reducible assumption
    | with_reducible apply KeptX.next
    | with_reducible apply KeptX.ite
    | with_reducible apply Kept.ite
    | with_reducible apply Kept.runCmd
    | with_reducible apply Kept.on_noTake
    | with_reducible apply Kept.on_effMendTile
    | with_reducible apply Kept.foldl
    | with_reducible apply Kept.foldl_fst
    | intro _
    | (extract_lets +onlyGivenNames x; with_reducible refine Kept.cut (W := W) (s₀ := s₀) (s := x) ?_ (fun _ => ?_); (on_goal 1 => subst x); on_goal 2 => clear_value x)
    | (extract_lets +onlyGivenNames x; subst x)
    | split

theorem Kept.on_execRebuildDone (h : Kept W s₀ s) (_ : W .link) (_ : W .ctxs) (_ : W .engCtr) (a1 a2) : KeptX W s₀ (execRebuildDone a1 a2 s) := by
  unfold execRebuildDone
  repeat' first
    | with_reducible assumption
    | with_reducible apply KeptX.next
    | with_reducible apply KeptX.ite
    | with_reducible apply Kept.ite
    | with_reducible apply Kept.modCtx
    | with_reducible apply Kept.emit
    | with_reducible apply Kept.finish
    | with_reducible apply Kept.foldl
    | with_reducible apply Kept.foldl_fst
    | intro _
    | (extract_lets +onlyGivenNames x; with_reducible refine Kept.cut (W := W) (s₀ := s₀) (s := x) ?_ (fun _ => ?_); (on_goal 1 => subst x); on_goal 2 => clear_value x)
    | (extract_lets +onlyGivenNames x; subst x)
    | split

theorem Kept.on_execRebuildProgress (h : Kept W s₀ s) (_ : W .link) (_ : W .engCtr) (a1) : KeptX W s₀ (execRebuildProgress a1 s) := by
  unfold execRebuildProgress
  repeat' first
    | with_reducible assumption
    | with_reducible apply KeptX.next
    | with_reducible apply KeptX.ite
    | with_reducible apply Kept.ite
    | with_reducible apply Kept.emit
    | with_reducible apply Kept.foldl
    | with_reducible apply Kept.foldl_fst
    | intro _
    | (extract_lets +onlyGivenNames x; with_reducible refine Kept.cut (W := W) (s₀ := s₀) (s := x) ?_ (fun _ => ?_); (on_goal 1 => subst x); on_goal 2 => clear_value x)
    | (extract_lets +onlyGivenNames x; subst x)
    | split

theorem Kept.on_takeRebuildStart (h : Kept W s₀ s) (_ : W .ctxs) (a1) : Kept W s₀ (takeRebuildStart a1 s) := by
  unfold takeRebuildStart
  repeat' first
    | with_reducible assumption
    | with_reducible apply Kept.ite
    | with_reducible apply Kept.modCtx
    | with_reducible apply Kept.foldl
    | with_reducible apply Kept.foldl_fst
    | intro _
    | (extract_lets +onlyGivenNames x; with_reducible refine Kept.cut (W := W) (s₀ := s₀) (s := x) ?_ (fun _ => ?_); (on_goal 1 => subst x); on_goal 2 => clear_value x)
    | (extract_lets +onlyGivenNames x; subst x)
    | split

theorem Kept.on_execRebuildStart (h : Kept W s₀ s) (_ : W .link) (_ : W .fab) (_ : W .power) (_ : W .slices) (_ : W .ctxs) (_ : W .engCtr) (_ : W .slcCtr) (_ : W .ctxCtr) (_ : W .mem) (_ : W .freeIdx) (_ : W .branches) (a1) : KeptX W s₀ (execRebuildStart a1 s) := by
  unfold execRebuildStart
  repeat' first
    | with_reducible assumption
    | with_reducible apply KeptX.next
    | with_reducible apply KeptX.ite
    | with_reducible apply Kept.ite
    | with_reducible apply Kept.runCmd
    | with_reducible apply Kept.on_takeRebuildStart
    | with_reducible apply Kept.on_effRebuildStart
    | with_reducible apply Kept.foldl
    | with_reducible apply Kept.foldl_fst
    | intro _
    | (extract_lets +onlyGivenNames x; with_reducible refine Kept.cut (W := W) (s₀ := s₀) (s := x) ?_ (fun _ => ?_); (on_goal 1 => subst x); on_goal 2 => clear_value x)
    | (extract_lets +onlyGivenNames x; subst x)
    | split

theorem Kept.on_execRecord (h : Kept W s₀ s) (_ : W .link) (_ : W .fab) (_ : W .power) (_ : W .health) (_ : W .slices) (_ : W .ctxs) (_ : W .engCtr) (_ : W .slcCtr) (_ : W .ctxCtr) (a1 a2) : KeptX W s₀ (execRecord a1 a2 s) := by
  unfold execRecord
  repeat' first
    | with_reducible assumption
    | with_reducible apply KeptX.next
    | with_reducible apply KeptX.ite
    | with_reducible apply Kept.ite
    | with_reducible apply Kept.inRequest
    | with_reducible apply Kept.serveRecord
    | with_reducible apply Kept.foldl
    | with_reducible apply Kept.foldl_fst
    | intro _
    | (extract_lets +onlyGivenNames x; with_reducible refine Kept.cut (W := W) (s₀ := s₀) (s := x) ?_ (fun _ => ?_); (on_goal 1 => subst x); on_goal 2 => clear_value x)
    | (extract_lets +onlyGivenNames x; subst x)
    | split

theorem Kept.on_execReplayCheck (h : Kept W s₀ s) (_ : W .link) (_ : W .power) (_ : W .ctxs) (_ : W .engCtr) (_ : W .ctxCtr) (a1) : KeptX W s₀ (execReplayCheck a1 s) := by
  unfold execReplayCheck
  repeat' first
    | with_reducible assumption
    | with_reducible apply KeptX.next
    | with_reducible apply KeptX.ite
    | with_reducible apply Kept.ite
    | with_reducible apply Kept.runCmd
    | with_reducible apply Kept.on_noTake
    | with_reducible apply Kept.on_effReplay
    | with_reducible apply Kept.foldl
    | with_reducible apply Kept.foldl_fst
    | intro _
    | (extract_lets +onlyGivenNames x; with_reducible refine Kept.cut (W := W) (s₀ := s₀) (s := x) ?_ (fun _ => ?_); (on_goal 1 => subst x); on_goal 2 => clear_value x)
    | (extract_lets +onlyGivenNames x; subst x)
    | split

theorem Kept.on_execRollback (h : Kept W s₀ s) (_ : W .link) (_ : W .frames) (_ : W .fab) (_ : W .power) (_ : W .health) (_ : W .slices) (_ : W .ctxs) (_ : W .branches) (_ : W .pctr) (_ : W .poison) (_ : W .engCtr) (_ : W .slcCtr) (_ : W .ctxCtr) (_ : W .sram) (_ : W .mem) (_ : W .freeIdx) (a1) : KeptX W s₀ (execRollback a1 s) := by
  unfold execRollback
  repeat' first
    | with_reducible assumption
    | with_reducible apply KeptX.next
    | with_reducible apply KeptX.ite
    | with_reducible apply Kept.ite
    | with_reducible apply Kept.runCmd
    | with_reducible apply Kept.clearFor
    | with_reducible apply Kept.on_effRollback
    | with_reducible apply Kept.foldl
    | with_reducible apply Kept.foldl_fst
    | intro _
    | (extract_lets +onlyGivenNames x; with_reducible refine Kept.cut (W := W) (s₀ := s₀) (s := x) ?_ (fun _ => ?_); (on_goal 1 => subst x); on_goal 2 => clear_value x)
    | (extract_lets +onlyGivenNames x; subst x)
    | split

theorem Kept.clearDirectory (h : Kept W s₀ s) (_ : W .fab) (_ : W .ctxs) (_ : W .engCtr) (_ : W .ctxCtr) (a1 a2) : Kept W s₀ (State.clearDirectory s a1 a2) := by
  unfold State.clearDirectory
  repeat' first
    | with_reducible assumption
    | with_reducible apply Kept.ite
    | with_reducible apply Kept.each
    | with_reducible apply Kept.issue
    | with_reducible apply Kept.foldl
    | with_reducible apply Kept.foldl_fst
    | intro _
    | (extract_lets +onlyGivenNames x; with_reducible refine Kept.cut (W := W) (s₀ := s₀) (s := x) ?_ (fun _ => ?_); (on_goal 1 => subst x); on_goal 2 => clear_value x)
    | (extract_lets +onlyGivenNames x; subst x)
    | split

theorem Kept.countGranules (h : Kept W s₀ s) (_ : W .ctxCtr) (a1) : Kept W s₀ (State.countGranules s a1) := by
  unfold State.countGranules
  repeat' first
    | with_reducible assumption
    | with_reducible apply Kept.ite
    | with_reducible apply Kept.peakCtx
    | with_reducible apply Kept.setCtxValue
    | with_reducible apply Kept.foldl
    | with_reducible apply Kept.foldl_fst
    | intro _
    | (extract_lets +onlyGivenNames x; with_reducible refine Kept.cut (W := W) (s₀ := s₀) (s := x) ?_ (fun _ => ?_); (on_goal 1 => subst x); on_goal 2 => clear_value x)
    | (extract_lets +onlyGivenNames x; subst x)
    | split

theorem Kept.hintDone (h : Kept W s₀ s) (_ : W .link) (a1 a2) : Kept W s₀ (State.hintDone s a1 a2) := by
  unfold State.hintDone
  repeat' first
    | with_reducible assumption
    | with_reducible apply Kept.ite
    | with_reducible apply Kept.finish
    | with_reducible apply Kept.foldl
    | with_reducible apply Kept.foldl_fst
    | intro _
    | (extract_lets +onlyGivenNames x; with_reducible refine Kept.cut (W := W) (s₀ := s₀) (s := x) ?_ (fun _ => ?_); (on_goal 1 => subst x); on_goal 2 => clear_value x)
    | (extract_lets +onlyGivenNames x; subst x)
    | split

theorem Kept.giveUp (h : Kept W s₀ s) (_ : W .link) (_ : W .slices) (_ : W .ctxs) (_ : W .ctxCtr) (a1 a2 a3) : Kept W s₀ (State.giveUp s a1 a2 a3) := by
  unfold State.giveUp
  repeat' first
    | with_reducible assumption
    | with_reducible apply Kept.ite
    | with_reducible apply Kept.abandonDemotion
    | with_reducible apply Kept.hintDone
    | with_reducible apply Kept.foldl
    | with_reducible apply Kept.foldl_fst
    | intro _
    | (extract_lets +onlyGivenNames x; with_reducible refine Kept.cut (W := W) (s₀ := s₀) (s := x) ?_ (fun _ => ?_); (on_goal 1 => subst x); on_goal 2 => clear_value x)
    | (extract_lets +onlyGivenNames x; subst x)
    | split

theorem Kept.storeDir (h : Kept W s₀ s) (_ : W .fab) (_ : W .ctxs) (_ : W .engCtr) (_ : W .ctxCtr) (a1 a2 a3 a4 a5 a6) : Kept W s₀ (State.storeDir s a1 a2 a3 a4 a5 a6) := by
  unfold State.storeDir
  repeat' first
    | with_reducible assumption
    | with_reducible apply Kept.ite
    | with_reducible apply Kept.issue
    | with_reducible apply Kept.foldl
    | with_reducible apply Kept.foldl_fst
    | intro _
    | (extract_lets +onlyGivenNames x; with_reducible refine Kept.cut (W := W) (s₀ := s₀) (s := x) ?_ (fun _ => ?_); (on_goal 1 => subst x); on_goal 2 => clear_value x)
    | (extract_lets +onlyGivenNames x; subst x)
    | split

theorem Kept.demoteStored (h : Kept W s₀ s) (_ : W .link) (_ : W .fab) (_ : W .slices) (_ : W .ctxs) (_ : W .engCtr) (_ : W .ctxCtr) (a1 a2 a3) : Kept W s₀ (State.demoteStored s a1 a2 a3) := by
  unfold State.demoteStored
  repeat' first
    | with_reducible assumption
    | with_reducible apply Kept.ite
    | with_reducible apply Kept.setJob
    | with_reducible apply Kept.giveUp
    | with_reducible apply Kept.storeDir
    | with_reducible apply Kept.foldl
    | with_reducible apply Kept.foldl_fst
    | intro _
    | (extract_lets +onlyGivenNames x; with_reducible refine Kept.cut (W := W) (s₀ := s₀) (s := x) ?_ (fun _ => ?_); (on_goal 1 => subst x); on_goal 2 => clear_value x)
    | (extract_lets +onlyGivenNames x; subst x)
    | split

theorem Kept.moved (h : Kept W s₀ s) (_ : W .link) (a1 a2) : Kept W s₀ (State.moved s a1 a2) := by
  unfold State.moved
  repeat' first
    | with_reducible assumption
    | with_reducible apply Kept.ite
    | with_reducible apply Kept.hintDone
    | with_reducible apply Kept.modAdm
    | with_reducible apply Kept.foldl
    | with_reducible apply Kept.foldl_fst
    | intro _
    | (extract_lets +onlyGivenNames x; with_reducible refine Kept.cut (W := W) (s₀ := s₀) (s := x) ?_ (fun _ => ?_); (on_goal 1 => subst x); on_goal 2 => clear_value x)
    | (extract_lets +onlyGivenNames x; subst x)
    | split

theorem Kept.directoryDone (h : Kept W s₀ s) (_ : W .link) (_ : W .fab) (_ : W .slices) (_ : W .ctxs) (_ : W .engCtr) (_ : W .ctxCtr) (a1 a2 a3) : Kept W s₀ (State.directoryDone s a1 a2 a3) := by
  unfold State.directoryDone
  repeat' first
    | with_reducible assumption
    | with_reducible apply Kept.ite
    | with_reducible apply Kept.giveUp
    | with_reducible apply Kept.modTile
    | with_reducible apply Kept.setJob
    | with_reducible apply Kept.unholdTile
    | with_reducible apply Kept.holdTile
    | with_reducible apply Kept.askPromotion
    | with_reducible apply Kept.moved
    | with_reducible apply Kept.countGranules
    | with_reducible apply Kept.countCtx
    | with_reducible apply Kept.storeDir
    | with_reducible apply Kept.foldl
    | with_reducible apply Kept.foldl_fst
    | intro _
    | (extract_lets +onlyGivenNames x; with_reducible refine Kept.cut (W := W) (s₀ := s₀) (s := x) ?_ (fun _ => ?_); (on_goal 1 => subst x); on_goal 2 => clear_value x)
    | (extract_lets +onlyGivenNames x; subst x)
    | split

theorem Kept.writeHome (h : Kept W s₀ s) (_ : W .fab) (_ : W .slices) (_ : W .ctxs) (_ : W .engCtr) (_ : W .slcCtr) (_ : W .ctxCtr) (_ : W .mem) (a1 a2 a3 a4) : Kept W s₀ (State.writeHome s a1 a2 a3 a4) := by
  unfold State.writeHome
  repeat' first
    | with_reducible assumption
    | with_reducible apply Kept.ite
    | with_reducible apply Kept.setJob
    | with_reducible apply Kept.serveTile
    | with_reducible apply Kept.setHome
    | with_reducible apply Kept.storeDir
    | with_reducible apply Kept.foldl
    | with_reducible apply Kept.foldl_fst
    | intro _
    | (extract_lets +onlyGivenNames x; with_reducible refine Kept.cut (W := W) (s₀ := s₀) (s := x) ?_ (fun _ => ?_); (on_goal 1 => subst x); on_goal 2 => clear_value x)
    | (extract_lets +onlyGivenNames x; subst x)
    | split

theorem Kept.loadFailed (h : Kept W s₀ s) (_ : W .link) (_ : W .fab) (_ : W .slices) (_ : W .ctxs) (_ : W .engCtr) (_ : W .slcCtr) (_ : W .ctxCtr) (_ : W .mem) (_ : W .freeIdx) (a1 a2 a3) : Kept W s₀ (State.loadFailed s a1 a2 a3) := by
  unfold State.loadFailed
  repeat' first
    | with_reducible assumption
    | with_reducible apply Kept.ite
    | with_reducible apply Kept.emit
    | with_reducible apply Kept.askOwn
    | with_reducible apply Kept.setJob
    | with_reducible apply Kept.countCtx
    | with_reducible apply Kept.freeTile
    | with_reducible apply Kept.writeHome
    | with_reducible refine Kept.snd (by assumption) ?_
    | with_reducible apply Kept.foldl
    | with_reducible apply Kept.foldl_fst
    | intro _
    | (extract_lets +onlyGivenNames x; with_reducible refine Kept.cut (W := W) (s₀ := s₀) (s := x) ?_ (fun _ => ?_); (on_goal 1 => subst x); on_goal 2 => clear_value x)
    | (extract_lets +onlyGivenNames x; subst x)
    | split

theorem Kept.extentLoaded (h : Kept W s₀ s) (_ : W .link) (_ : W .fab) (_ : W .slices) (_ : W .ctxs) (_ : W .engCtr) (_ : W .slcCtr) (_ : W .ctxCtr) (_ : W .mem) (_ : W .freeIdx) (a1 a2 a3 a4) : Kept W s₀ (State.extentLoaded s a1 a2 a3 a4) := by
  unfold State.extentLoaded
  repeat' first
    | with_reducible assumption
    | with_reducible apply Kept.ite
    | with_reducible apply Kept.setJob
    | with_reducible apply Kept.loadFailed
    | with_reducible apply Kept.writeHome
    | with_reducible apply Kept.foldl
    | with_reducible apply Kept.foldl_fst
    | intro _
    | (extract_lets +onlyGivenNames x; with_reducible refine Kept.cut (W := W) (s₀ := s₀) (s := x) ?_ (fun _ => ?_); (on_goal 1 => subst x); on_goal 2 => clear_value x)
    | (extract_lets +onlyGivenNames x; subst x)
    | split

theorem Kept.promoteDecoded (h : Kept W s₀ s) (_ : W .link) (_ : W .fab) (_ : W .slices) (_ : W .ctxs) (_ : W .engCtr) (_ : W .slcCtr) (_ : W .ctxCtr) (_ : W .mem) (_ : W .freeIdx) (a1 a2 a3) : Kept W s₀ (State.promoteDecoded s a1 a2 a3) := by
  unfold State.promoteDecoded
  repeat' first
    | with_reducible assumption
    | with_reducible apply Kept.ite
    | with_reducible apply Kept.freeTile
    | with_reducible apply Kept.writeHome
    | with_reducible refine Kept.snd (by assumption) ?_
    | with_reducible apply Kept.emit
    | with_reducible apply Kept.holdTile
    | with_reducible apply Kept.foldl
    | with_reducible apply Kept.foldl_fst
    | intro _
    | (extract_lets +onlyGivenNames x; with_reducible refine Kept.cut (W := W) (s₀ := s₀) (s := x) ?_ (fun _ => ?_); (on_goal 1 => subst x); on_goal 2 => clear_value x)
    | (extract_lets +onlyGivenNames x; subst x)
    | split

theorem Kept.startDemotion (h : Kept W s₀ s) (_ : W .link) (_ : W .frames) (_ : W .fab) (_ : W .slices) (_ : W .ctxs) (_ : W .engCtr) (_ : W .slcCtr) (_ : W .ctxCtr) (a1 a2 a3) : Kept W s₀ (State.startDemotion s a1 a2 a3) := by
  unfold State.startDemotion
  repeat' first
    | with_reducible assumption
    | with_reducible apply Kept.ite
    | with_reducible apply Kept.hintDone
    | with_reducible apply Kept.countCtx
    | with_reducible apply Kept.setJob
    | with_reducible apply Kept.holdTile
    | with_reducible apply Kept.chargeFabric
    | with_reducible apply Kept.modTile
    | with_reducible apply Kept.serveTile
    | with_reducible apply Kept.countGranules
    | with_reducible apply Kept.each
    | with_reducible apply Kept.issue
    | with_reducible apply Kept.foldl
    | with_reducible apply Kept.foldl_fst
    | intro _
    | (extract_lets +onlyGivenNames x; with_reducible refine Kept.cut (W := W) (s₀ := s₀) (s := x) ?_ (fun _ => ?_); (on_goal 1 => subst x); on_goal 2 => clear_value x)
    | (extract_lets +onlyGivenNames x; subst x)
    | split

theorem Kept.on_effCtxSetTilemap (h : Kept W s₀ s) (_ : W .link) (_ : W .fab) (_ : W .slices) (_ : W .ctxs) (_ : W .engCtr) (_ : W .ctxCtr) (a1) : Kept W s₀ (effCtxSetTilemap a1 s) := by
  unfold effCtxSetTilemap
  repeat' first
    | with_reducible assumption
    | with_reducible apply Kept.ite
    | with_reducible apply Kept.modCtx
    | with_reducible apply Kept.setTilemap
    | with_reducible apply Kept.modAdm
    | with_reducible apply Kept.clearDirectory
    | with_reducible apply Kept.done
    | with_reducible apply Kept.foldl
    | with_reducible apply Kept.foldl_fst
    | intro _
    | (extract_lets +onlyGivenNames x; with_reducible refine Kept.cut (W := W) (s₀ := s₀) (s := x) ?_ (fun _ => ?_); (on_goal 1 => subst x); on_goal 2 => clear_value x)
    | (extract_lets +onlyGivenNames x; subst x)
    | split

theorem Kept.on_effKneadHint (h : Kept W s₀ s) (_ : W .link) (_ : W .slices) (_ : W .ctxs) (_ : W .ctxCtr) (a1) : Kept W s₀ (effKneadHint a1 s) := by
  unfold effKneadHint
  repeat' first
    | with_reducible assumption
    | with_reducible apply Kept.ite
    | with_reducible apply Kept.each
    | with_reducible apply Kept.setJob
    | with_reducible apply Kept.askPromotion
    | with_reducible apply Kept.hintDone
    | with_reducible apply Kept.foldl
    | with_reducible apply Kept.foldl_fst
    | intro _
    | (extract_lets +onlyGivenNames x; with_reducible refine Kept.cut (W := W) (s₀ := s₀) (s := x) ?_ (fun _ => ?_); (on_goal 1 => subst x); on_goal 2 => clear_value x)
    | (extract_lets +onlyGivenNames x; subst x)
    | split

theorem Kept.on_effKneadPin (h : Kept W s₀ s) (_ : W .link) (_ : W .slices) (_ : W .ctxs) (_ : W .ctxCtr) (a1) : Kept W s₀ (effKneadPin a1 s) := by
  unfold effKneadPin
  repeat' first
    | with_reducible assumption
    | with_reducible apply Kept.ite
    | with_reducible apply Kept.each
    | with_reducible apply Kept.modTile
    | with_reducible apply Kept.askPromotion
    | with_reducible apply Kept.setJob
    | with_reducible apply Kept.done
    | with_reducible apply Kept.modAdm
    | with_reducible apply Kept.foldl
    | with_reducible apply Kept.foldl_fst
    | intro _
    | (extract_lets +onlyGivenNames x; with_reducible refine Kept.cut (W := W) (s₀ := s₀) (s := x) ?_ (fun _ => ?_); (on_goal 1 => subst x); on_goal 2 => clear_value x)
    | (extract_lets +onlyGivenNames x; subst x)
    | split

theorem Kept.on_effPolicy (h : Kept W s₀ s) (_ : W .link) (_ : W .ctxs) (_ : W .ctxCtr) (a1) : Kept W s₀ (effPolicy a1 s) := by
  unfold effPolicy
  repeat' first
    | with_reducible assumption
    | with_reducible apply Kept.ite
    | with_reducible apply Kept.modCtx
    | with_reducible apply Kept.done
    | with_reducible apply Kept.setCtxValue
    | with_reducible apply Kept.foldl
    | with_reducible apply Kept.foldl_fst
    | intro _
    | (extract_lets +onlyGivenNames x; with_reducible refine Kept.cut (W := W) (s₀ := s₀) (s := x) ?_ (fun _ => ?_); (on_goal 1 => subst x); on_goal 2 => clear_value x)
    | (extract_lets +onlyGivenNames x; subst x)
    | split

theorem Kept.on_execCtxSetTilemap (h : Kept W s₀ s) (_ : W .link) (_ : W .fab) (_ : W .power) (_ : W .slices) (_ : W .ctxs) (_ : W .engCtr) (_ : W .ctxCtr) (a1) : KeptX W s₀ (execCtxSetTilemap a1 s) := by
  unfold execCtxSetTilemap
  repeat' first
    | with_reducible assumption
    | with_reducible apply KeptX.next
    | with_reducible apply KeptX.ite
    | with_reducible apply Kept.ite
    | with_reducible apply Kept.runCmd
    | with_reducible apply Kept.on_noTake
    | with_reducible apply Kept.on_effCtxSetTilemap
    | with_reducible apply Kept.foldl
    | with_reducible apply Kept.foldl_fst
    | intro _
    | (extract_lets +onlyGivenNames x; with_reducible refine Kept.cut (W := W) (s₀ := s₀) (s := x) ?_ (fun _ => ?_); (on_goal 1 => subst x); on_goal 2 => clear_value x)
    | (extract_lets +onlyGivenNames x; subst x)
    | split

theorem Kept.on_execDemotion (h : Kept W s₀ s) (_ : W .link) (_ : W .frames) (_ : W .fab) (_ : W .slices) (_ : W .ctxs) (_ : W .engCtr) (_ : W .slcCtr) (_ : W .ctxCtr) (a1 a2) : KeptX W s₀ (execDemotion a1 a2 s) := by
  unfold execDemotion
  repeat' first
    | with_reducible assumption
    | with_reducible apply KeptX.next
    | with_reducible apply KeptX.ite
    | with_reducible apply Kept.ite
    | with_reducible apply Kept.hintDone
    | with_reducible apply Kept.setJob
    | with_reducible apply Kept.startDemotion
    | with_reducible apply Kept.foldl
    | with_reducible apply Kept.foldl_fst
    | intro _
    | (extract_lets +onlyGivenNames x; with_reducible refine Kept.cut (W := W) (s₀ := s₀) (s := x) ?_ (fun _ => ?_); (on_goal 1 => subst x); on_goal 2 => clear_value x)
    | (extract_lets +onlyGivenNames x; subst x)
    | split

theorem Kept.on_execKneadHint (h : Kept W s₀ s) (_ : W .link) (_ : W .power) (_ : W .slices) (_ : W .ctxs) (_ : W .engCtr) (_ : W .ctxCtr) (a1) : KeptX W s₀ (execKneadHint a1 s) := by
  unfold execKneadHint
  repeat' first
    | with_reducible assumption
    | with_reducible apply KeptX.next
    | with_reducible apply KeptX.ite
    | with_reducible apply Kept.ite
    | with_reducible apply Kept.runCmd
    | with_reducible apply Kept.on_noTake
    | with_reducible apply Kept.on_effKneadHint
    | with_reducible apply Kept.foldl
    | with_reducible apply Kept.foldl_fst
    | intro _
    | (extract_lets +onlyGivenNames x; with_reducible refine Kept.cut (W := W) (s₀ := s₀) (s := x) ?_ (fun _ => ?_); (on_goal 1 => subst x); on_goal 2 => clear_value x)
    | (extract_lets +onlyGivenNames x; subst x)
    | split

theorem Kept.on_execKneadIdleDemote (h : Kept W s₀ s) (_ : W .ctxs) (a1 a2) : KeptX W s₀ (execKneadIdleDemote a1 a2 s) := by
  unfold execKneadIdleDemote
  repeat' first
    | with_reducible assumption
    | with_reducible apply KeptX.next
    | with_reducible apply KeptX.ite
    | with_reducible apply Kept.ite
    | with_reducible apply Kept.setJob
    | with_reducible apply Kept.foldl
    | with_reducible apply Kept.foldl_fst
    | intro _
    | (extract_lets +onlyGivenNames x; with_reducible refine Kept.cut (W := W) (s₀ := s₀) (s := x) ?_ (fun _ => ?_); (on_goal 1 => subst x); on_goal 2 => clear_value x)
    | (extract_lets +onlyGivenNames x; subst x)
    | split

theorem Kept.on_execKneadPin (h : Kept W s₀ s) (_ : W .link) (_ : W .power) (_ : W .slices) (_ : W .ctxs) (_ : W .engCtr) (_ : W .ctxCtr) (a1) : KeptX W s₀ (execKneadPin a1 s) := by
  unfold execKneadPin
  repeat' first
    | with_reducible assumption
    | with_reducible apply KeptX.next
    | with_reducible apply KeptX.ite
    | with_reducible apply Kept.ite
    | with_reducible apply Kept.runCmd
    | with_reducible apply Kept.on_noTake
    | with_reducible apply Kept.on_effKneadPin
    | with_reducible apply Kept.foldl
    | with_reducible apply Kept.foldl_fst
    | intro _
    | (extract_lets +onlyGivenNames x; with_reducible refine Kept.cut (W := W) (s₀ := s₀) (s := x) ?_ (fun _ => ?_); (on_goal 1 => subst x); on_goal 2 => clear_value x)
    | (extract_lets +onlyGivenNames x; subst x)
    | split

theorem Kept.on_execKneadPolicy (h : Kept W s₀ s) (_ : W .link) (_ : W .power) (_ : W .ctxs) (_ : W .engCtr) (_ : W .ctxCtr) (a1) : KeptX W s₀ (execKneadPolicy a1 s) := by
  unfold execKneadPolicy
  repeat' first
    | with_reducible assumption
    | with_reducible apply KeptX.next
    | with_reducible apply KeptX.ite
    | with_reducible apply Kept.ite
    | with_reducible apply Kept.runCmd
    | with_reducible apply Kept.on_noTake
    | with_reducible apply Kept.on_effPolicy
    | with_reducible apply Kept.foldl
    | with_reducible apply Kept.foldl_fst
    | intro _
    | (extract_lets +onlyGivenNames x; with_reducible refine Kept.cut (W := W) (s₀ := s₀) (s := x) ?_ (fun _ => ?_); (on_goal 1 => subst x); on_goal 2 => clear_value x)
    | (extract_lets +onlyGivenNames x; subst x)
    | split

theorem Kept.on_execPromotion (h : Kept W s₀ s) (_ : W .fab) (_ : W .ctxs) (_ : W .engCtr) (_ : W .ctxCtr) (a1 a2) : KeptX W s₀ (execPromotion a1 a2 s) := by
  unfold execPromotion
  repeat' first
    | with_reducible assumption
    | with_reducible apply KeptX.next
    | with_reducible apply KeptX.ite
    | with_reducible apply Kept.ite
    | with_reducible apply Kept.setJob
    | with_reducible apply Kept.loadExtent
    | with_reducible apply Kept.modTile
    | with_reducible apply Kept.foldl
    | with_reducible apply Kept.foldl_fst
    | intro _
    | (extract_lets +onlyGivenNames x; with_reducible refine Kept.cut (W := W) (s₀ := s₀) (s := x) ?_ (fun _ => ?_); (on_goal 1 => subst x); on_goal 2 => clear_value x)
    | (extract_lets +onlyGivenNames x; subst x)
    | split

theorem Kept.abandonExport (h : Kept W s₀ s) (_ : W .fab) (_ : W .ctxs) (_ : W .ctxCtr) (a1) : Kept W s₀ (State.abandonExport s a1) := by
  unfold State.abandonExport
  repeat' first
    | with_reducible assumption
    | with_reducible apply Kept.ite
    | with_reducible apply Kept.dropJobs
    | with_reducible apply Kept.countCtx
    | with_reducible apply Kept.modCtx
    | with_reducible apply Kept.foldl
    | with_reducible apply Kept.foldl_fst
    | intro _
    | (extract_lets +onlyGivenNames x; with_reducible refine Kept.cut (W := W) (s₀ := s₀) (s := x) ?_ (fun _ => ?_); (on_goal 1 => subst x); on_goal 2 => clear_value x)
    | (extract_lets +onlyGivenNames x; subst x)
    | split

theorem Kept.exportBegun (h : Kept W s₀ s) (_ : W .link) (_ : W .fab) (_ : W .ctxs) (_ : W .ctxCtr) (a1 a2) : Kept W s₀ (State.exportBegun s a1 a2) := by
  unfold State.exportBegun
  repeat' first
    | with_reducible assumption
    | with_reducible apply Kept.ite
    | with_reducible apply Kept.finish
    | with_reducible apply Kept.abandonExport
    | with_reducible apply Kept.judgeExport
    | with_reducible apply Kept.foldl
    | with_reducible apply Kept.foldl_fst
    | intro _
    | (extract_lets +onlyGivenNames x; with_reducible refine Kept.cut (W := W) (s₀ := s₀) (s := x) ?_ (fun _ => ?_); (on_goal 1 => subst x); on_goal 2 => clear_value x)
    | (extract_lets +onlyGivenNames x; subst x)
    | split

theorem Kept.exportDecoded (h : Kept W s₀ s) (_ : W .link) (_ : W .fab) (_ : W .ctxs) (_ : W .ctxCtr) (a1 a2 a3 a4) : Kept W s₀ (State.exportDecoded s a1 a2 a3 a4) := by
  unfold State.exportDecoded
  repeat' first
    | with_reducible assumption
    | with_reducible apply Kept.ite
    | with_reducible apply Kept.exportBegun
    | with_reducible apply Kept.modTile
    | with_reducible apply Kept.modAdm
    | with_reducible apply Kept.foldl
    | with_reducible apply Kept.foldl_fst
    | intro _
    | (extract_lets +onlyGivenNames x; with_reducible refine Kept.cut (W := W) (s₀ := s₀) (s := x) ?_ (fun _ => ?_); (on_goal 1 => subst x); on_goal 2 => clear_value x)
    | (extract_lets +onlyGivenNames x; subst x)
    | split

theorem Kept.exportDone (h : Kept W s₀ s) (_ : W .link) (_ : W .slices) (_ : W .ctxs) (_ : W .engCtr) (_ : W .ctxCtr) (a1 a2 a3 a4) : Kept W s₀ (State.exportDone s a1 a2 a3 a4) := by
  unfold State.exportDone
  repeat' first
    | with_reducible assumption
    | with_reducible apply Kept.ite
    | with_reducible apply Kept.modCtx
    | with_reducible apply Kept.emit
    | with_reducible apply Kept.countCtx
    | with_reducible apply Kept.relieveAll
    | with_reducible apply Kept.foldl
    | with_reducible apply Kept.foldl_fst
    | intro _
    | (extract_lets +onlyGivenNames x; with_reducible refine Kept.cut (W := W) (s₀ := s₀) (s := x) ?_ (fun _ => ?_); (on_goal 1 => subst x); on_goal 2 => clear_value x)
    | (extract_lets +onlyGivenNames x; subst x)
    | split

theorem Kept.exportPieces (h : Kept W s₀ s) (_ : W .link) (_ : W .slices) (_ : W .ctxs) (_ : W .branches) (_ : W .engCtr) (_ : W .ctxCtr) (_ : W .mem) (a1 a2 a3 a4 a5) : Kept W s₀ (State.exportPieces s a1 a2 a3 a4 a5) := by
  unfold State.exportPieces
  repeat' first
    | with_reducible assumption
    | with_reducible apply Kept.ite
    | with_reducible apply Kept.each
    | with_reducible apply Kept.portDie
    | with_reducible apply Kept.modAdm
    | with_reducible apply Kept.countCtx
    | with_reducible apply Kept.modCtx
    | with_reducible apply Kept.exportDone
    | with_reducible apply Kept.foldl
    | with_reducible apply Kept.foldl_fst
    | intro _
    | (extract_lets +onlyGivenNames x; with_reducible refine Kept.cut (W := W) (s₀ := s₀) (s := x) ?_ (fun _ => ?_); (on_goal 1 => subst x); on_goal 2 => clear_value x)
    | (extract_lets +onlyGivenNames x; subst x)
    | split

theorem Kept.writeRecord (h : Kept W s₀ s) (_ : W .slices) (_ : W .ctxs) (_ : W .branches) (_ : W .slcCtr) (_ : W .ctxCtr) (_ : W .mem) (a1 a2 a3 a4 a5 a6 a7) : Kept W s₀ (State.writeRecord s a1 a2 a3 a4 a5 a6 a7) := by
  unfold State.writeRecord
  repeat' first
    | with_reducible assumption
    | with_reducible apply Kept.ite
    | with_reducible apply Kept.portDie
    | with_reducible apply Kept.modCtx
    | with_reducible apply Kept.endRead
    | with_reducible apply Kept.serveTile
    | with_reducible apply Kept.countCtx
    | with_reducible apply Kept.foldl
    | with_reducible apply Kept.foldl_fst
    | intro _
    | (extract_lets +onlyGivenNames x; with_reducible refine Kept.cut (W := W) (s₀ := s₀) (s := x) ?_ (fun _ => ?_); (on_goal 1 => subst x); on_goal 2 => clear_value x)
    | (extract_lets +onlyGivenNames x; subst x)
    | split

theorem Kept.exportTiles (h : Kept W s₀ s) (_ : W .link) (_ : W .fab) (_ : W .slices) (_ : W .ctxs) (_ : W .branches) (_ : W .engCtr) (_ : W .slcCtr) (_ : W .ctxCtr) (_ : W .mem) (c tag id bake f) : Kept W s₀ (s.exportTiles c tag id bake f) := by
  induction f generalizing s with
  | zero => exact h
  | succ f ih =>
    unfold State.exportTiles
    repeat' first
      | with_reducible assumption
      | with_reducible apply Kept.ite
      | with_reducible apply ih
      | with_reducible apply Kept.askRead
      | with_reducible apply Kept.modAdm
      | with_reducible apply Kept.writeRecord
      | intro _
      | split

theorem Kept.restoreTile (h : Kept W s₀ s) (_ : W .link) (_ : W .slices) (_ : W .ctxs) (_ : W .branches) (_ : W .slcCtr) (_ : W .ctxCtr) (_ : W .mem) (a1 a2 a3 a4 a5) : Kept W s₀ (State.restoreTile s a1 a2 a3 a4 a5) := by
  unfold State.restoreTile
  repeat' first
    | with_reducible assumption
    | with_reducible apply Kept.ite
    | with_reducible apply Kept.serveTile
    | with_reducible apply Kept.portWrite
    | with_reducible apply Kept.modTile
    | with_reducible apply Kept.unholdTile
    | with_reducible apply Kept.modCtx
    | with_reducible apply Kept.modAdm
    | with_reducible apply Kept.foldl
    | with_reducible apply Kept.foldl_fst
    | intro _
    | (extract_lets +onlyGivenNames x; with_reducible refine Kept.cut (W := W) (s₀ := s₀) (s := x) ?_ (fun _ => ?_); (on_goal 1 => subst x); on_goal 2 => clear_value x)
    | (extract_lets +onlyGivenNames x; subst x)
    | split

theorem Kept.runCommit (h : Kept W s₀ s) (_ : W .link) (_ : W .slices) (_ : W .ctxs) (_ : W .branches) (_ : W .slcCtr) (_ : W .ctxCtr) (_ : W .mem) (a1 a2) : Kept W s₀ (State.runCommit s a1 a2) := by
  unfold State.runCommit
  repeat' first
    | with_reducible assumption
    | with_reducible apply Kept.ite
    | with_reducible apply Kept.finish
    | with_reducible apply Kept.countCtx
    | with_reducible apply Kept.each
    | with_reducible apply Kept.askPromotion
    | with_reducible apply Kept.modCtx
    | with_reducible apply Kept.recast
    | with_reducible apply Kept.unholdTile
    | with_reducible apply Kept.trap
    | with_reducible refine Kept.fst (by assumption) ?_
    | with_reducible apply Kept.foldl
    | with_reducible apply Kept.foldl_fst
    | intro _
    | (extract_lets +onlyGivenNames x; with_reducible refine Kept.cut (W := W) (s₀ := s₀) (s := x) ?_ (fun _ => ?_); (on_goal 1 => subst x); on_goal 2 => clear_value x)
    | (extract_lets +onlyGivenNames x; subst x)
    | split

theorem Kept.runExport (h : Kept W s₀ s) (_ : W .link) (_ : W .fab) (_ : W .slices) (_ : W .ctxs) (_ : W .branches) (_ : W .engCtr) (_ : W .slcCtr) (_ : W .ctxCtr) (_ : W .mem) (a1 a2) : Kept W s₀ (State.runExport s a1 a2) := by
  unfold State.runExport
  repeat' first
    | with_reducible assumption
    | with_reducible apply Kept.ite
    | with_reducible apply Kept.finish
    | with_reducible apply Kept.exportTiles
    | with_reducible apply Kept.exportPieces
    | with_reducible apply Kept.foldl
    | with_reducible apply Kept.foldl_fst
    | intro _
    | (extract_lets +onlyGivenNames x; with_reducible refine Kept.cut (W := W) (s₀ := s₀) (s := x) ?_ (fun _ => ?_); (on_goal 1 => subst x); on_goal 2 => clear_value x)
    | (extract_lets +onlyGivenNames x; subst x)
    | split

/-- How taking a record ends keeps what its state keeps. -/
def KeptTaken (W : Part → Prop) (s₀ : State) : Take → Prop
  | .more s => Kept W s₀ s
  | .wait s => Kept W s₀ s
  | .stop _ _ s => Kept W s₀ s
theorem KeptTaken.more (h : Kept W s₀ s) : KeptTaken W s₀ (.more s) := h
theorem KeptTaken.wait (h : Kept W s₀ s) : KeptTaken W s₀ (.wait s) := h
theorem KeptTaken.stop (h : Kept W s₀ s) (a b) : KeptTaken W s₀ (.stop a b s) := h
theorem KeptTaken.ite {c : Prop} [Decidable c] {r q : Take} (h : c → KeptTaken W s₀ r) (g : ¬ c → KeptTaken W s₀ q) :
    KeptTaken W s₀ (if c then r else q) := by
  split
  · exact h ‹_›
  · exact g ‹_›
theorem Kept.takePiece (h : Kept W s₀ s) (_ : W .ctxs) (_ : W .ctxCtr) (a1 a2 a3 a4) : KeptTaken W s₀ (s.takePiece a1 a2 a3 a4) := by
  unfold State.takePiece
  repeat' first
    | with_reducible assumption
    | with_reducible apply KeptTaken.ite
    | with_reducible apply KeptTaken.more
    | with_reducible apply KeptTaken.stop
    | with_reducible apply Kept.countCtx
    | with_reducible apply Kept.modCtx
    | intro _
    | (extract_lets +onlyGivenNames x; with_reducible refine Kept.cut (W := W) (s₀ := s₀) (s := x) ?_ (fun _ => ?_); (on_goal 1 => subst x); on_goal 2 => clear_value x)
    | (extract_lets +onlyGivenNames x; subst x)
    | split
theorem Kept.takeRecord (h : Kept W s₀ s) (_ : W .link) (_ : W .slices) (_ : W .ctxs) (_ : W .branches) (_ : W .slcCtr) (_ : W .ctxCtr) (_ : W .mem) (c a tag) : KeptTaken W s₀ (s.takeRecord c a tag) := by
  unfold State.takeRecord
  repeat' first
    | with_reducible assumption
    | with_reducible apply KeptTaken.ite
    | with_reducible apply KeptTaken.more
    | with_reducible apply KeptTaken.wait
    | with_reducible apply KeptTaken.stop
    | with_reducible apply Kept.countCtx
    | with_reducible apply Kept.takePiece
    | with_reducible apply Kept.askPromotion
    | with_reducible apply Kept.restoreTile
    | intro _
    | (extract_lets +onlyGivenNames x; with_reducible refine Kept.cut (W := W) (s₀ := s₀) (s := x) ?_ (fun _ => ?_); (on_goal 1 => subst x); on_goal 2 => clear_value x)
    | (extract_lets +onlyGivenNames x; subst x)
    | split
theorem Kept.andThen {r : Take} (h : KeptTaken W s₀ r) (_ : W .link) (c tag n) (hn : ∀ s, Kept W s₀ s → Kept W s₀ (n s)) :
    Kept W s₀ (r.andThen c tag n) := by
  cases r with
  | more s => exact hn s h
  | wait s => exact h
  | stop a b s => exact Kept.finish h ‹_› _ _ _ _
theorem Kept.runRestore (h : Kept W s₀ s) (_ : W .link) (_ : W .slices) (_ : W .ctxs) (_ : W .branches) (_ : W .slcCtr) (_ : W .ctxCtr) (_ : W .mem) (c tag f) : Kept W s₀ (s.runRestore c tag f) := by
  induction f generalizing s with
  | zero => exact h
  | succ f ih =>
    rw [State.runRestore]
    have ht (a b) : KeptTaken W s₀ (s.takeRecord a b tag) := by
      with_reducible apply Kept.takeRecord <;> with_reducible assumption
    split
    · exact h
    · split
      · exact h.finish ‹_› _ _ _ _
      · split
        · exact h
        · exact Kept.andThen (ht _ _) ‹_› _ _ _ (fun _ h => ih ((h.countCtx ‹_› _ _ _).modAdm ‹_› _ _ _))

theorem Kept.on_effExportBegin (h : Kept W s₀ s) (_ : W .link) (_ : W .fab) (_ : W .ctxs) (_ : W .ctxCtr) (a1) : Kept W s₀ (effExportBegin a1 s) := by
  unfold effExportBegin
  repeat' first
    | with_reducible assumption
    | with_reducible apply Kept.ite
    | with_reducible apply Kept.abandonExport
    | with_reducible apply Kept.modCtx
    | with_reducible apply Kept.exportBegun
    | with_reducible apply Kept.each
    | with_reducible apply Kept.countCtx
    | with_reducible apply Kept.askOwn
    | with_reducible apply Kept.foldl
    | with_reducible apply Kept.foldl_fst
    | intro _
    | (extract_lets +onlyGivenNames x; with_reducible refine Kept.cut (W := W) (s₀ := s₀) (s := x) ?_ (fun _ => ?_); (on_goal 1 => subst x); on_goal 2 => clear_value x)
    | (extract_lets +onlyGivenNames x; subst x)
    | split

theorem Kept.on_effExportNext (h : Kept W s₀ s) (_ : W .link) (_ : W .fab) (_ : W .slices) (_ : W .ctxs) (_ : W .branches) (_ : W .engCtr) (_ : W .slcCtr) (_ : W .ctxCtr) (_ : W .mem) (a1) : Kept W s₀ (effExportNext a1 s) := by
  unfold effExportNext
  repeat' first
    | with_reducible assumption
    | with_reducible apply Kept.ite
    | with_reducible apply Kept.runExport
    | with_reducible apply Kept.foldl
    | with_reducible apply Kept.foldl_fst
    | intro _
    | (extract_lets +onlyGivenNames x; with_reducible refine Kept.cut (W := W) (s₀ := s₀) (s := x) ?_ (fun _ => ?_); (on_goal 1 => subst x); on_goal 2 => clear_value x)
    | (extract_lets +onlyGivenNames x; subst x)
    | split

theorem Kept.on_effRestoreBegin (h : Kept W s₀ s) (_ : W .link) (_ : W .fab) (_ : W .slices) (_ : W .ctxs) (_ : W .ctxCtr) (a1) : Kept W s₀ (effRestoreBegin a1 s) := by
  unfold effRestoreBegin
  repeat' first
    | with_reducible assumption
    | with_reducible apply Kept.ite
    | with_reducible apply Kept.each
    | with_reducible apply Kept.holdTile
    | with_reducible apply Kept.dropJobs
    | with_reducible apply Kept.relieveAll
    | with_reducible apply Kept.modCtx
    | with_reducible apply Kept.countCtx
    | with_reducible apply Kept.done
    | with_reducible apply Kept.foldl
    | with_reducible apply Kept.foldl_fst
    | intro _
    | (extract_lets +onlyGivenNames x; with_reducible refine Kept.cut (W := W) (s₀ := s₀) (s := x) ?_ (fun _ => ?_); (on_goal 1 => subst x); on_goal 2 => clear_value x)
    | (extract_lets +onlyGivenNames x; subst x)
    | split

theorem Kept.on_effRestoreCommit (h : Kept W s₀ s) (_ : W .link) (_ : W .slices) (_ : W .ctxs) (_ : W .branches) (_ : W .slcCtr) (_ : W .ctxCtr) (_ : W .mem) (a1) : Kept W s₀ (effRestoreCommit a1 s) := by
  unfold effRestoreCommit
  repeat' first
    | with_reducible assumption
    | with_reducible apply Kept.ite
    | with_reducible apply Kept.finish
    | with_reducible apply Kept.runCommit
    | with_reducible apply Kept.foldl
    | with_reducible apply Kept.foldl_fst
    | intro _
    | (extract_lets +onlyGivenNames x; with_reducible refine Kept.cut (W := W) (s₀ := s₀) (s := x) ?_ (fun _ => ?_); (on_goal 1 => subst x); on_goal 2 => clear_value x)
    | (extract_lets +onlyGivenNames x; subst x)
    | split

theorem Kept.on_effRestoreNext (h : Kept W s₀ s) (_ : W .link) (_ : W .slices) (_ : W .ctxs) (_ : W .branches) (_ : W .slcCtr) (_ : W .ctxCtr) (_ : W .mem) (a1) : Kept W s₀ (effRestoreNext a1 s) := by
  unfold effRestoreNext
  repeat' first
    | with_reducible assumption
    | with_reducible apply Kept.ite
    | with_reducible apply Kept.runRestore
    | with_reducible apply Kept.foldl
    | with_reducible apply Kept.foldl_fst
    | intro _
    | (extract_lets +onlyGivenNames x; with_reducible refine Kept.cut (W := W) (s₀ := s₀) (s := x) ?_ (fun _ => ?_); (on_goal 1 => subst x); on_goal 2 => clear_value x)
    | (extract_lets +onlyGivenNames x; subst x)
    | split

theorem Kept.on_execExportBegin (h : Kept W s₀ s) (_ : W .link) (_ : W .fab) (_ : W .power) (_ : W .ctxs) (_ : W .engCtr) (_ : W .ctxCtr) (a1) : KeptX W s₀ (execExportBegin a1 s) := by
  unfold execExportBegin
  repeat' first
    | with_reducible assumption
    | with_reducible apply KeptX.next
    | with_reducible apply KeptX.ite
    | with_reducible apply Kept.ite
    | with_reducible apply Kept.runCmd
    | with_reducible apply Kept.on_noTake
    | with_reducible apply Kept.on_effExportBegin
    | with_reducible apply Kept.foldl
    | with_reducible apply Kept.foldl_fst
    | intro _
    | (extract_lets +onlyGivenNames x; with_reducible refine Kept.cut (W := W) (s₀ := s₀) (s := x) ?_ (fun _ => ?_); (on_goal 1 => subst x); on_goal 2 => clear_value x)
    | (extract_lets +onlyGivenNames x; subst x)
    | split

theorem Kept.on_execExportNext (h : Kept W s₀ s) (_ : W .link) (_ : W .fab) (_ : W .power) (_ : W .slices) (_ : W .ctxs) (_ : W .branches) (_ : W .engCtr) (_ : W .slcCtr) (_ : W .ctxCtr) (_ : W .mem) (a1) : KeptX W s₀ (execExportNext a1 s) := by
  unfold execExportNext
  repeat' first
    | with_reducible assumption
    | with_reducible apply KeptX.next
    | with_reducible apply KeptX.ite
    | with_reducible apply Kept.ite
    | with_reducible apply Kept.runCmd
    | with_reducible apply Kept.on_noTake
    | with_reducible apply Kept.on_effExportNext
    | with_reducible apply Kept.foldl
    | with_reducible apply Kept.foldl_fst
    | intro _
    | (extract_lets +onlyGivenNames x; with_reducible refine Kept.cut (W := W) (s₀ := s₀) (s := x) ?_ (fun _ => ?_); (on_goal 1 => subst x); on_goal 2 => clear_value x)
    | (extract_lets +onlyGivenNames x; subst x)
    | split

theorem Kept.on_takeRestoreBegin (h : Kept W s₀ s) (_ : W .link) (_ : W .ctxs) (_ : W .ctxCtr) (a1) : Kept W s₀ (takeRestoreBegin a1 s) := by
  unfold takeRestoreBegin
  repeat' first
    | with_reducible assumption
    | with_reducible apply Kept.ite
    | with_reducible apply Kept.countCtx
    | with_reducible apply Kept.modCtx
    | with_reducible apply Kept.modAdm
    | with_reducible apply Kept.foldl
    | with_reducible apply Kept.foldl_fst
    | intro _
    | (extract_lets +onlyGivenNames x; with_reducible refine Kept.cut (W := W) (s₀ := s₀) (s := x) ?_ (fun _ => ?_); (on_goal 1 => subst x); on_goal 2 => clear_value x)
    | (extract_lets +onlyGivenNames x; subst x)
    | split

theorem Kept.on_execRestoreBegin (h : Kept W s₀ s) (_ : W .link) (_ : W .fab) (_ : W .power) (_ : W .slices) (_ : W .ctxs) (_ : W .engCtr) (_ : W .ctxCtr) (a1) : KeptX W s₀ (execRestoreBegin a1 s) := by
  unfold execRestoreBegin
  repeat' first
    | with_reducible assumption
    | with_reducible apply KeptX.next
    | with_reducible apply KeptX.ite
    | with_reducible apply Kept.ite
    | with_reducible apply Kept.runCmd
    | with_reducible apply Kept.on_takeRestoreBegin
    | with_reducible apply Kept.on_effRestoreBegin
    | with_reducible apply Kept.foldl
    | with_reducible apply Kept.foldl_fst
    | intro _
    | (extract_lets +onlyGivenNames x; with_reducible refine Kept.cut (W := W) (s₀ := s₀) (s := x) ?_ (fun _ => ?_); (on_goal 1 => subst x); on_goal 2 => clear_value x)
    | (extract_lets +onlyGivenNames x; subst x)
    | split

theorem Kept.on_execRestoreCommit (h : Kept W s₀ s) (_ : W .link) (_ : W .power) (_ : W .slices) (_ : W .ctxs) (_ : W .branches) (_ : W .engCtr) (_ : W .slcCtr) (_ : W .ctxCtr) (_ : W .mem) (a1) : KeptX W s₀ (execRestoreCommit a1 s) := by
  unfold execRestoreCommit
  repeat' first
    | with_reducible assumption
    | with_reducible apply KeptX.next
    | with_reducible apply KeptX.ite
    | with_reducible apply Kept.ite
    | with_reducible apply Kept.runCmd
    | with_reducible apply Kept.on_noTake
    | with_reducible apply Kept.on_effRestoreCommit
    | with_reducible apply Kept.foldl
    | with_reducible apply Kept.foldl_fst
    | intro _
    | (extract_lets +onlyGivenNames x; with_reducible refine Kept.cut (W := W) (s₀ := s₀) (s := x) ?_ (fun _ => ?_); (on_goal 1 => subst x); on_goal 2 => clear_value x)
    | (extract_lets +onlyGivenNames x; subst x)
    | split

theorem Kept.on_execRestoreNext (h : Kept W s₀ s) (_ : W .link) (_ : W .power) (_ : W .slices) (_ : W .ctxs) (_ : W .branches) (_ : W .engCtr) (_ : W .slcCtr) (_ : W .ctxCtr) (_ : W .mem) (a1) : KeptX W s₀ (execRestoreNext a1 s) := by
  unfold execRestoreNext
  repeat' first
    | with_reducible assumption
    | with_reducible apply KeptX.next
    | with_reducible apply KeptX.ite
    | with_reducible apply Kept.ite
    | with_reducible apply Kept.runCmd
    | with_reducible apply Kept.on_noTake
    | with_reducible apply Kept.on_effRestoreNext
    | with_reducible apply Kept.foldl
    | with_reducible apply Kept.foldl_fst
    | intro _
    | (extract_lets +onlyGivenNames x; with_reducible refine Kept.cut (W := W) (s₀ := s₀) (s := x) ?_ (fun _ => ?_); (on_goal 1 => subst x); on_goal 2 => clear_value x)
    | (extract_lets +onlyGivenNames x; subst x)
    | split

theorem Kept.awaitHold (h : Kept W s₀ s) (_ : W .link) (a1) : Kept W s₀ (State.awaitHold s a1) := by
  unfold State.awaitHold
  repeat' first
    | with_reducible assumption
    | with_reducible apply Kept.ite
    | with_reducible apply Kept.modAdm
    | with_reducible apply Kept.defer
    | with_reducible apply Kept.foldl
    | with_reducible apply Kept.foldl_fst
    | intro _
    | (extract_lets +onlyGivenNames x; with_reducible refine Kept.cut (W := W) (s₀ := s₀) (s := x) ?_ (fun _ => ?_); (on_goal 1 => subst x); on_goal 2 => clear_value x)
    | (extract_lets +onlyGivenNames x; subst x)
    | split

theorem Kept.awaitSettled (h : Kept W s₀ s) (_ : W .link) (_ : W .slices) (_ : W .ctxs) (_ : W .ctxCtr) (a1 a2) : Kept W s₀ (State.awaitSettled s a1 a2) := by
  unfold State.awaitSettled
  repeat' first
    | with_reducible assumption
    | with_reducible apply Kept.ite
    | with_reducible apply Kept.modAdm
    | with_reducible apply Kept.each
    | with_reducible apply Kept.askPromotion
    | with_reducible apply Kept.abandonDemotion
    | with_reducible apply Kept.foldl
    | with_reducible apply Kept.foldl_fst
    | intro _
    | (extract_lets +onlyGivenNames x; with_reducible refine Kept.cut (W := W) (s₀ := s₀) (s := x) ?_ (fun _ => ?_); (on_goal 1 => subst x); on_goal 2 => clear_value x)
    | (extract_lets +onlyGivenNames x; subst x)
    | split

theorem Kept.branchEvent (h : Kept W s₀ s) (_ : W .link) (_ : W .engCtr) (a1 a2 a3 a4 a5) : Kept W s₀ (State.branchEvent s a1 a2 a3 a4 a5) := by
  unfold State.branchEvent
  repeat' first
    | with_reducible assumption
    | with_reducible apply Kept.ite
    | with_reducible apply Kept.emit
    | with_reducible apply Kept.foldl
    | with_reducible apply Kept.foldl_fst
    | intro _
    | (extract_lets +onlyGivenNames x; with_reducible refine Kept.cut (W := W) (s₀ := s₀) (s := x) ?_ (fun _ => ?_); (on_goal 1 => subst x); on_goal 2 => clear_value x)
    | (extract_lets +onlyGivenNames x; subst x)
    | split

theorem Kept.countRefused (g : Kept W s₀ t) (_ : W .ctxCtr) (c) : Kept W s₀ (s.countRefused t c) := by
  unfold State.countRefused
  repeat' first
    | with_reducible assumption
    | with_reducible apply Kept.countCtx
    | (extract_lets +onlyGivenNames x; subst x)
    | split

theorem Kept.damagedEnd (h : Kept W s₀ s) (_ : W .link) (a1 a2) : KeptO W s₀ (s.damagedEnd a1 a2) := by
  unfold State.damagedEnd
  cases a2.damaged with
  | none => exact KeptO.none
  | some t => exact KeptO.some (h.finish ‹_› _ _ _ _)

theorem Kept.dropBranch (h : Kept W s₀ s) (_ : W .slices) (_ : W .ctxs) (_ : W .branches) (a1 a2) : Kept W s₀ (State.dropBranch s a1 a2) := by
  unfold State.dropBranch
  repeat' first
    | with_reducible assumption
    | with_reducible apply Kept.ite
    | with_reducible apply Kept.each
    | with_reducible apply Kept.modTile
    | with_reducible apply Kept.untrap
    | with_reducible apply Kept.foldl
    | with_reducible apply Kept.foldl_fst
    | intro _
    | (extract_lets +onlyGivenNames x; with_reducible refine Kept.cut (W := W) (s₀ := s₀) (s := x) ?_ (fun _ => ?_); (on_goal 1 => subst x); on_goal 2 => clear_value x)
    | (extract_lets +onlyGivenNames x; subst x)
    | split
    | with_reducible apply Kept.set_branches
    | with_reducible apply mwf_mset
    | with_reducible apply mwf_merase
    | with_reducible apply mwf_mkeep
    | with_reducible apply mwf_mmap

theorem Kept.forkTile (h : Kept W s₀ s) (_ : W .slices) (_ : W .ctxs) (_ : W .branches) (_ : W .slcCtr) (_ : W .ctxCtr) (_ : W .mem) (a1 a2 a3 a4) : Kept W s₀ (State.forkTile s a1 a2 a3 a4) := by
  unfold State.forkTile
  repeat' first
    | with_reducible assumption
    | with_reducible apply Kept.ite
    | with_reducible apply Kept.serveTile
    | with_reducible apply Kept.portWrite
    | with_reducible apply Kept.endRead
    | with_reducible apply Kept.modTile
    | with_reducible apply Kept.foldl
    | with_reducible apply Kept.foldl_fst
    | intro _
    | (extract_lets +onlyGivenNames x; with_reducible refine Kept.cut (W := W) (s₀ := s₀) (s := x) ?_ (fun _ => ?_); (on_goal 1 => subst x); on_goal 2 => clear_value x)
    | (extract_lets +onlyGivenNames x; subst x)
    | split

theorem Kept.oweBranch (h : Kept W s₀ s) (_ : W .slices) (_ : W .ctxs) (a1 a2 a3) : Kept W s₀ (State.oweBranch s a1 a2 a3) := by
  unfold State.oweBranch
  repeat' first
    | with_reducible assumption
    | with_reducible apply Kept.ite
    | with_reducible apply Kept.trap
    | with_reducible apply Kept.modTile
    | with_reducible apply Kept.foldl
    | with_reducible apply Kept.foldl_fst
    | intro _
    | (extract_lets +onlyGivenNames x; with_reducible refine Kept.cut (W := W) (s₀ := s₀) (s := x) ?_ (fun _ => ?_); (on_goal 1 => subst x); on_goal 2 => clear_value x)
    | (extract_lets +onlyGivenNames x; subst x)
    | split

theorem Kept.resetTile (h : Kept W s₀ s) (_ : W .slices) (_ : W .ctxs) (_ : W .branches) (_ : W .slcCtr) (_ : W .ctxCtr) (_ : W .mem) (a1 a2 a3 a4 a5) : Kept W s₀ (State.resetTile s a1 a2 a3 a4 a5) := by
  unfold State.resetTile
  repeat' first
    | with_reducible assumption
    | with_reducible apply Kept.ite
    | with_reducible apply Kept.modTile
    | with_reducible apply Kept.serveTile
    | with_reducible apply Kept.portWrite
    | with_reducible apply Kept.oweBranch
    | with_reducible apply Kept.modBranch
    | with_reducible apply Kept.foldl
    | with_reducible apply Kept.foldl_fst
    | intro _
    | (extract_lets +onlyGivenNames x; with_reducible refine Kept.cut (W := W) (s₀ := s₀) (s := x) ?_ (fun _ => ?_); (on_goal 1 => subst x); on_goal 2 => clear_value x)
    | (extract_lets +onlyGivenNames x; subst x)
    | split

theorem Kept.on_effBranchDrop (h : Kept W s₀ s) (_ : W .link) (_ : W .slices) (_ : W .ctxs) (_ : W .branches) (_ : W .engCtr) (_ : W .ctxCtr) (a1) : Kept W s₀ (effBranchDrop a1 s) := by
  unfold effBranchDrop
  repeat' first
    | with_reducible assumption
    | with_reducible apply Kept.ite
    | with_reducible apply Kept.finish
    | with_reducible apply Kept.done
    | with_reducible apply Kept.modAdm
    | with_reducible apply Kept.branchEvent
    | with_reducible apply Kept.countCtx
    | with_reducible apply Kept.dropBranch
    | with_reducible apply Kept.foldl
    | with_reducible apply Kept.foldl_fst
    | intro _
    | (extract_lets +onlyGivenNames x; with_reducible refine Kept.cut (W := W) (s₀ := s₀) (s := x) ?_ (fun _ => ?_); (on_goal 1 => subst x); on_goal 2 => clear_value x)
    | (extract_lets +onlyGivenNames x; subst x)
    | split

theorem Kept.on_effBranchFork (h : Kept W s₀ s) (_ : W .link) (_ : W .fab) (_ : W .slices) (_ : W .ctxs) (_ : W .branches) (_ : W .engCtr) (_ : W .slcCtr) (_ : W .ctxCtr) (_ : W .mem) (a1) : Kept W s₀ (effBranchFork a1 s) := by
  unfold effBranchFork
  repeat' first
    | with_reducible assumption
    | with_reducible apply Kept.ite
    | with_reducible apply Kept.finish
    | with_reducible apply Kept.damagedEnd
    | with_reducible apply Kept.awaitSettled
    | with_reducible apply Kept.awaitHold
    | with_reducible apply Kept.waitRead
    | with_reducible apply Kept.each
    | with_reducible apply Kept.forkTile
    | with_reducible apply Kept.branchEvent
    | with_reducible apply Kept.countCtx
    | with_reducible apply Kept.done
    | with_reducible apply Kept.modAdm
    | with_reducible exact KeptO.none
    | with_reducible apply KeptO.some
    | with_reducible apply KeptO.ite
    | with_reducible refine KeptO.get ?_ (by assumption)
    | with_reducible apply Kept.foldl
    | with_reducible apply Kept.foldl_fst
    | intro _
    | (extract_lets +onlyGivenNames x; with_reducible refine Kept.cut (W := W) (s₀ := s₀) (s := x) ?_ (fun _ => ?_); (on_goal 1 => subst x); on_goal 2 => clear_value x)
    | (extract_lets +onlyGivenNames x; subst x)
    | split

theorem Kept.on_effBranchRestore (h : Kept W s₀ s) (_ : W .link) (_ : W .slices) (_ : W .ctxs) (_ : W .branches) (_ : W .engCtr) (_ : W .slcCtr) (_ : W .ctxCtr) (_ : W .mem) (a1) : Kept W s₀ (effBranchRestore a1 s) := by
  unfold effBranchRestore
  repeat' first
    | with_reducible assumption
    | with_reducible apply Kept.ite
    | with_reducible apply Kept.finish
    | with_reducible apply Kept.damagedEnd
    | with_reducible apply Kept.awaitSettled
    | with_reducible apply Kept.awaitHold
    | with_reducible apply Kept.each
    | with_reducible apply Kept.resetTile
    | with_reducible apply Kept.branchEvent
    | with_reducible apply Kept.countCtx
    | with_reducible apply Kept.done
    | with_reducible apply Kept.modAdm
    | with_reducible exact KeptO.none
    | with_reducible apply KeptO.some
    | with_reducible apply KeptO.ite
    | with_reducible refine KeptO.get ?_ (by assumption)
    | with_reducible apply Kept.foldl
    | with_reducible apply Kept.foldl_fst
    | intro _
    | (extract_lets +onlyGivenNames x; with_reducible refine Kept.cut (W := W) (s₀ := s₀) (s := x) ?_ (fun _ => ?_); (on_goal 1 => subst x); on_goal 2 => clear_value x)
    | (extract_lets +onlyGivenNames x; subst x)
    | split

theorem Kept.on_effBranchTake (h : Kept W s₀ s) (_ : W .link) (_ : W .slices) (_ : W .ctxs) (_ : W .branches) (_ : W .engCtr) (_ : W .ctxCtr) (a1) : Kept W s₀ (effBranchTake a1 s) := by
  unfold effBranchTake
  repeat' first
    | with_reducible assumption
    | with_reducible apply Kept.ite
    | with_reducible apply Kept.finish
    | with_reducible apply Kept.countCtx
    | with_reducible apply Kept.awaitHold
    | with_reducible apply Kept.each
    | with_reducible apply Kept.oweBranch
    | with_reducible apply Kept.done
    | with_reducible apply Kept.modAdm
    | with_reducible apply Kept.branchEvent
    | with_reducible apply Kept.foldl
    | with_reducible apply Kept.foldl_fst
    | intro _
    | (extract_lets +onlyGivenNames x; with_reducible refine Kept.cut (W := W) (s₀ := s₀) (s := x) ?_ (fun _ => ?_); (on_goal 1 => subst x); on_goal 2 => clear_value x)
    | (extract_lets +onlyGivenNames x; subst x)
    | split
    | with_reducible apply Kept.set_branches
    | with_reducible apply mwf_mset
    | with_reducible apply mwf_merase
    | with_reducible apply mwf_mkeep
    | with_reducible apply mwf_mmap

theorem Kept.on_execBranchDrop (h : Kept W s₀ s) (_ : W .link) (_ : W .power) (_ : W .slices) (_ : W .ctxs) (_ : W .branches) (_ : W .engCtr) (_ : W .ctxCtr) (a1) : KeptX W s₀ (execBranchDrop a1 s) := by
  unfold execBranchDrop
  repeat' first
    | with_reducible assumption
    | with_reducible apply KeptX.next
    | with_reducible apply KeptX.ite
    | with_reducible apply Kept.ite
    | with_reducible apply Kept.runCmd
    | with_reducible apply Kept.on_noTake
    | with_reducible apply Kept.on_effBranchDrop
    | with_reducible apply Kept.foldl
    | with_reducible apply Kept.foldl_fst
    | intro _
    | (extract_lets +onlyGivenNames x; with_reducible refine Kept.cut (W := W) (s₀ := s₀) (s := x) ?_ (fun _ => ?_); (on_goal 1 => subst x); on_goal 2 => clear_value x)
    | (extract_lets +onlyGivenNames x; subst x)
    | split

theorem Kept.on_execBranchFork (h : Kept W s₀ s) (_ : W .link) (_ : W .fab) (_ : W .power) (_ : W .slices) (_ : W .ctxs) (_ : W .branches) (_ : W .engCtr) (_ : W .slcCtr) (_ : W .ctxCtr) (_ : W .mem) (a1) : KeptX W s₀ (execBranchFork a1 s) := by
  unfold execBranchFork
  repeat' first
    | with_reducible assumption
    | with_reducible apply KeptX.next
    | with_reducible apply KeptX.ite
    | with_reducible apply Kept.ite
    | with_reducible apply Kept.runCmd
    | with_reducible apply Kept.on_noTake
    | with_reducible apply Kept.on_effBranchFork
    | with_reducible apply Kept.foldl
    | with_reducible apply Kept.foldl_fst
    | intro _
    | (extract_lets +onlyGivenNames x; with_reducible refine Kept.cut (W := W) (s₀ := s₀) (s := x) ?_ (fun _ => ?_); (on_goal 1 => subst x); on_goal 2 => clear_value x)
    | (extract_lets +onlyGivenNames x; subst x)
    | split

theorem Kept.on_execBranchRestore (h : Kept W s₀ s) (_ : W .link) (_ : W .power) (_ : W .slices) (_ : W .ctxs) (_ : W .branches) (_ : W .engCtr) (_ : W .slcCtr) (_ : W .ctxCtr) (_ : W .mem) (a1) : KeptX W s₀ (execBranchRestore a1 s) := by
  unfold execBranchRestore
  repeat' first
    | with_reducible assumption
    | with_reducible apply KeptX.next
    | with_reducible apply KeptX.ite
    | with_reducible apply Kept.ite
    | with_reducible apply Kept.runCmd
    | with_reducible apply Kept.on_noTake
    | with_reducible apply Kept.on_effBranchRestore
    | with_reducible apply Kept.foldl
    | with_reducible apply Kept.foldl_fst
    | intro _
    | (extract_lets +onlyGivenNames x; with_reducible refine Kept.cut (W := W) (s₀ := s₀) (s := x) ?_ (fun _ => ?_); (on_goal 1 => subst x); on_goal 2 => clear_value x)
    | (extract_lets +onlyGivenNames x; subst x)
    | split

theorem Kept.on_execBranchTake (h : Kept W s₀ s) (_ : W .link) (_ : W .power) (_ : W .slices) (_ : W .ctxs) (_ : W .branches) (_ : W .engCtr) (_ : W .ctxCtr) (a1) : KeptX W s₀ (execBranchTake a1 s) := by
  unfold execBranchTake
  repeat' first
    | with_reducible assumption
    | with_reducible apply KeptX.next
    | with_reducible apply KeptX.ite
    | with_reducible apply Kept.ite
    | with_reducible apply Kept.countRefused
    | with_reducible apply Kept.runCmd
    | with_reducible apply Kept.on_noTake
    | with_reducible apply Kept.on_effBranchTake
    | with_reducible apply Kept.foldl
    | with_reducible apply Kept.foldl_fst
    | intro _
    | (extract_lets +onlyGivenNames x; with_reducible refine Kept.cut (W := W) (s₀ := s₀) (s := x) ?_ (fun _ => ?_); (on_goal 1 => subst x); on_goal 2 => clear_value x)
    | (extract_lets +onlyGivenNames x; subst x)
    | split

theorem Kept.decodeAnswered (h : Kept W s₀ s) (_ : W .fab) (_ : W .ctxCtr) (a1 a2 a3) : Kept W s₀ (State.decodeAnswered s a1 a2 a3) := by
  unfold State.decodeAnswered
  repeat' first
    | with_reducible assumption
    | with_reducible apply Kept.ite
    | with_reducible apply Kept.countCtx
    | with_reducible apply Kept.modDecode
    | with_reducible apply Kept.foldl
    | with_reducible apply Kept.foldl_fst
    | intro _
    | (extract_lets +onlyGivenNames x; with_reducible refine Kept.cut (W := W) (s₀ := s₀) (s := x) ?_ (fun _ => ?_); (on_goal 1 => subst x); on_goal 2 => clear_value x)
    | (extract_lets +onlyGivenNames x; subst x)
    | split

theorem Kept.decodeTimedOut (h : Kept W s₀ s) (_ : W .fab) (a1) : Kept W s₀ (State.decodeTimedOut s a1) := by
  unfold State.decodeTimedOut
  repeat' first
    | with_reducible assumption
    | with_reducible apply Kept.ite
    | with_reducible apply Kept.modDecode
    | with_reducible apply Kept.foldl
    | with_reducible apply Kept.foldl_fst
    | intro _
    | (extract_lets +onlyGivenNames x; with_reducible refine Kept.cut (W := W) (s₀ := s₀) (s := x) ?_ (fun _ => ?_); (on_goal 1 => subst x); on_goal 2 => clear_value x)
    | (extract_lets +onlyGivenNames x; subst x)
    | split

theorem Kept.finishJob (h : Kept W s₀ s) (_ : W .link) (_ : W .frames) (_ : W .fab) (_ : W .health) (_ : W .slices) (_ : W .ctxs) (_ : W .branches) (_ : W .pctr) (_ : W .poison) (_ : W .engCtr) (_ : W .slcCtr) (_ : W .ctxCtr) (_ : W .sram) (_ : W .mem) (_ : W .freeIdx) (a1 a2) : Kept W s₀ (State.finishJob s a1 a2) := by
  unfold State.finishJob
  repeat' first
    | with_reducible assumption
    | with_reducible apply Kept.ite
    | with_reducible apply Kept.dropJobs
    | with_reducible apply Kept.mendDone
    | with_reducible apply Kept.rebuildDecoded
    | with_reducible apply Kept.crustDecoded
    | with_reducible apply Kept.drainDecoded
    | with_reducible apply Kept.exportDecoded
    | with_reducible apply Kept.promoteDecoded
    | with_reducible apply Kept.runRollback
    | with_reducible apply Kept.rollbackDecoded
    | with_reducible apply Kept.foldl
    | with_reducible apply Kept.foldl_fst
    | intro _
    | (extract_lets +onlyGivenNames x; with_reducible refine Kept.cut (W := W) (s₀ := s₀) (s := x) ?_ (fun _ => ?_); (on_goal 1 => subst x); on_goal 2 => clear_value x)
    | (extract_lets +onlyGivenNames x; subst x)
    | split

theorem Kept.sendDecode (h : Kept W s₀ s) (_ : W .link) (_ : W .frames) (_ : W .fab) (_ : W .health) (_ : W .slices) (_ : W .ctxs) (_ : W .branches) (_ : W .pctr) (_ : W .poison) (_ : W .engCtr) (_ : W .slcCtr) (_ : W .ctxCtr) (_ : W .sram) (_ : W .mem) (_ : W .freeIdx) (a1) : Kept W s₀ (State.sendDecode s a1) := by
  unfold State.sendDecode
  repeat' first
    | with_reducible assumption
    | with_reducible apply Kept.ite
    | with_reducible apply Kept.finishJob
    | with_reducible apply Kept.modDecode
    | with_reducible apply Kept.countCtx
    | with_reducible apply Kept.each
    | with_reducible apply Kept.issue
    | with_reducible apply Kept.foldl
    | with_reducible apply Kept.foldl_fst
    | intro _
    | (extract_lets +onlyGivenNames x; with_reducible refine Kept.cut (W := W) (s₀ := s₀) (s := x) ?_ (fun _ => ?_); (on_goal 1 => subst x); on_goal 2 => clear_value x)
    | (extract_lets +onlyGivenNames x; subst x)
    | split

theorem Kept.pumpJobs (h : Kept W s₀ s) (_ : W .link) (_ : W .frames) (_ : W .fab) (_ : W .health) (_ : W .slices) (_ : W .ctxs) (_ : W .branches) (_ : W .pctr) (_ : W .poison) (_ : W .engCtr) (_ : W .slcCtr) (_ : W .ctxCtr) (_ : W .sram) (_ : W .mem) (_ : W .freeIdx) : Kept W s₀ (State.pumpJobs s) := by
  unfold State.pumpJobs
  repeat' first
    | with_reducible assumption
    | with_reducible apply Kept.ite
    | with_reducible apply Kept.each
    | with_reducible apply Kept.sendDecode
    | with_reducible apply Kept.foldl
    | with_reducible apply Kept.foldl_fst
    | intro _
    | (extract_lets +onlyGivenNames x; with_reducible refine Kept.cut (W := W) (s₀ := s₀) (s := x) ?_ (fun _ => ?_); (on_goal 1 => subst x); on_goal 2 => clear_value x)
    | (extract_lets +onlyGivenNames x; subst x)
    | split

theorem Kept.takeResult (h : Kept W s₀ s) (_ : W .link) (_ : W .frames) (_ : W .fab) (_ : W .health) (_ : W .slices) (_ : W .ctxs) (_ : W .branches) (_ : W .pctr) (_ : W .poison) (_ : W .engCtr) (_ : W .slcCtr) (_ : W .ctxCtr) (_ : W .sram) (_ : W .mem) (_ : W .freeIdx) (a1 a2 a3 a4) : Kept W s₀ (State.takeResult s a1 a2 a3 a4) := by
  unfold State.takeResult
  repeat' first
    | with_reducible assumption
    | with_reducible apply Kept.ite
    | with_reducible apply Kept.modDecode
    | with_reducible apply Kept.finishJob
    | with_reducible apply Kept.foldl
    | with_reducible apply Kept.foldl_fst
    | intro _
    | (extract_lets +onlyGivenNames x; with_reducible refine Kept.cut (W := W) (s₀ := s₀) (s := x) ?_ (fun _ => ?_); (on_goal 1 => subst x); on_goal 2 => clear_value x)
    | (extract_lets +onlyGivenNames x; subst x)
    | split

theorem Kept.serveDecodePart (h : Kept W s₀ s) (_ : W .link) (_ : W .frames) (_ : W .fab) (_ : W .health) (_ : W .slices) (_ : W .ctxs) (_ : W .branches) (_ : W .pctr) (_ : W .poison) (_ : W .engCtr) (_ : W .slcCtr) (_ : W .ctxCtr) (_ : W .sram) (_ : W .mem) (_ : W .freeIdx) (a1 a2) : Kept W s₀ (State.serveDecodePart s a1 a2) := by
  unfold State.serveDecodePart
  repeat' first
    | with_reducible assumption
    | with_reducible apply Kept.ite
    | with_reducible apply Kept.respond
    | with_reducible apply Kept.takePart
    | with_reducible apply Kept.each
    | with_reducible apply Kept.takeResult
    | with_reducible apply Kept.foldl
    | with_reducible apply Kept.foldl_fst
    | intro _
    | (extract_lets +onlyGivenNames x; with_reducible refine Kept.cut (W := W) (s₀ := s₀) (s := x) ?_ (fun _ => ?_); (on_goal 1 => subst x); on_goal 2 => clear_value x)
    | (extract_lets +onlyGivenNames x; subst x)
    | split

theorem Kept.on_execDecodePart (h : Kept W s₀ s) (_ : W .link) (_ : W .frames) (_ : W .fab) (_ : W .power) (_ : W .health) (_ : W .slices) (_ : W .ctxs) (_ : W .branches) (_ : W .pctr) (_ : W .poison) (_ : W .engCtr) (_ : W .slcCtr) (_ : W .ctxCtr) (_ : W .sram) (_ : W .mem) (_ : W .freeIdx) (a1 a2) : KeptX W s₀ (execDecodePart a1 a2 s) := by
  unfold execDecodePart
  repeat' first
    | with_reducible assumption
    | with_reducible apply KeptX.next
    | with_reducible apply KeptX.ite
    | with_reducible apply Kept.ite
    | with_reducible apply Kept.inRequest
    | with_reducible apply Kept.serveDecodePart
    | with_reducible apply Kept.foldl
    | with_reducible apply Kept.foldl_fst
    | intro _
    | (extract_lets +onlyGivenNames x; with_reducible refine Kept.cut (W := W) (s₀ := s₀) (s := x) ?_ (fun _ => ?_); (on_goal 1 => subst x); on_goal 2 => clear_value x)
    | (extract_lets +onlyGivenNames x; subst x)
    | split

theorem Kept.adoptEnds (h : Kept W s₀ s) (_ : W .link) (_ : W .fab) (_ : W .slices) (_ : W .ctxs) (_ : W .engCtr) (_ : W .slcCtr) (_ : W .ctxCtr) (a1 a2) : Kept W s₀ (State.adoptEnds s a1 a2) := by
  unfold State.adoptEnds
  repeat' first
    | with_reducible assumption
    | with_reducible apply Kept.ite
    | with_reducible apply Kept.adoptStep
    | with_reducible apply Kept.modCtx
    | with_reducible apply Kept.endAdopt
    | with_reducible apply Kept.foldl
    | with_reducible apply Kept.foldl_fst
    | intro _
    | (extract_lets +onlyGivenNames x; with_reducible refine Kept.cut (W := W) (s₀ := s₀) (s := x) ?_ (fun _ => ?_); (on_goal 1 => subst x); on_goal 2 => clear_value x)
    | (extract_lets +onlyGivenNames x; subst x)
    | split

theorem Kept.commandBack (h : Kept W s₀ s) (_ : W .link) (a1 a2) : Kept W s₀ (State.commandBack s a1 a2) := by
  unfold State.commandBack
  repeat' first
    | with_reducible assumption
    | with_reducible apply Kept.ite
    | with_reducible apply Kept.modAdm
    | with_reducible apply Kept.finish
    | with_reducible apply Kept.foldl
    | with_reducible apply Kept.foldl_fst
    | intro _
    | (extract_lets +onlyGivenNames x; with_reducible refine Kept.cut (W := W) (s₀ := s₀) (s := x) ?_ (fun _ => ?_); (on_goal 1 => subst x); on_goal 2 => clear_value x)
    | (extract_lets +onlyGivenNames x; subst x)
    | split

theorem Kept.commitEnds (h : Kept W s₀ s) (_ : W .link) (_ : W .fab) (_ : W .engCtr) (_ : W .ctxCtr) (a1 a2) : Kept W s₀ (State.commitEnds s a1 a2) := by
  unfold State.commitEnds
  repeat' first
    | with_reducible assumption
    | with_reducible apply Kept.ite
    | with_reducible apply Kept.countCtx
    | with_reducible apply Kept.suspectIn
    | with_reducible apply Kept.foldl
    | with_reducible apply Kept.foldl_fst
    | intro _
    | (extract_lets +onlyGivenNames x; with_reducible refine Kept.cut (W := W) (s₀ := s₀) (s := x) ?_ (fun _ => ?_); (on_goal 1 => subst x); on_goal 2 => clear_value x)
    | (extract_lets +onlyGivenNames x; subst x)
    | split

theorem Kept.retryLater (h : Kept W s₀ s) (_ : W .fab) (a1) : Kept W s₀ (State.retryLater s a1) := by
  unfold State.retryLater
  repeat' first
    | with_reducible assumption
    | with_reducible apply Kept.ite
    | with_reducible apply Kept.foldl
    | with_reducible apply Kept.foldl_fst
    | intro _
    | (extract_lets +onlyGivenNames x; with_reducible refine Kept.cut (W := W) (s₀ := s₀) (s := x) ?_ (fun _ => ?_); (on_goal 1 => subst x); on_goal 2 => clear_value x)
    | (extract_lets +onlyGivenNames x; subst x)
    | split
    | with_reducible apply Kept.set_fab

theorem Kept.findingEnds (h : Kept W s₀ s) (_ : W .link) (_ : W .health) (_ : W .ctxs) (_ : W .ctxCtr) (a1 a2) : Kept W s₀ (State.findingEnds s a1 a2) := by
  unfold State.findingEnds
  repeat' first
    | with_reducible assumption
    | with_reducible apply Kept.ite
    | with_reducible apply Kept.countCtx
    | with_reducible apply Kept.findingBack
    | with_reducible apply Kept.risk
    | with_reducible apply Kept.foldl
    | with_reducible apply Kept.foldl_fst
    | intro _
    | (extract_lets +onlyGivenNames x; with_reducible refine Kept.cut (W := W) (s₀ := s₀) (s := x) ?_ (fun _ => ?_); (on_goal 1 => subst x); on_goal 2 => clear_value x)
    | (extract_lets +onlyGivenNames x; subst x)
    | split

theorem Kept.reissue (h : Kept W s₀ s) (_ : W .fab) (_ : W .ctxs) (_ : W .engCtr) (_ : W .ctxCtr) (a1) : Kept W s₀ (State.reissue s a1) := by
  unfold State.reissue
  repeat' first
    | with_reducible assumption
    | with_reducible apply Kept.ite
    | with_reducible apply Kept.issueWith
    | with_reducible apply Kept.countCtx
    | with_reducible apply Kept.foldl
    | with_reducible apply Kept.foldl_fst
    | intro _
    | (extract_lets +onlyGivenNames x; with_reducible refine Kept.cut (W := W) (s₀ := s₀) (s := x) ?_ (fun _ => ?_); (on_goal 1 => subst x); on_goal 2 => clear_value x)
    | (extract_lets +onlyGivenNames x; subst x)
    | split

theorem Kept.verdictEnds (h : Kept W s₀ s) (_ : W .fab) (_ : W .ctxs) (_ : W .engCtr) (_ : W .ctxCtr) (a1 a2) : Kept W s₀ (State.verdictEnds s a1 a2) := by
  unfold State.verdictEnds
  repeat' first
    | with_reducible assumption
    | with_reducible apply Kept.ite
    | with_reducible apply Kept.modStep
    | with_reducible apply Kept.reissue
    | with_reducible apply Kept.retryLater
    | with_reducible apply Kept.foldl
    | with_reducible apply Kept.foldl_fst
    | intro _
    | (extract_lets +onlyGivenNames x; with_reducible refine Kept.cut (W := W) (s₀ := s₀) (s := x) ?_ (fun _ => ?_); (on_goal 1 => subst x); on_goal 2 => clear_value x)
    | (extract_lets +onlyGivenNames x; subst x)
    | split

theorem Kept.riskEnds (h : Kept W s₀ s) (_ : W .fab) (_ : W .ctxs) (_ : W .engCtr) (_ : W .ctxCtr) (a1 a2) : Kept W s₀ (State.riskEnds s a1 a2) := by
  unfold State.riskEnds
  repeat' first
    | with_reducible assumption
    | with_reducible apply Kept.ite
    | with_reducible apply Kept.modStep
    | with_reducible apply Kept.modCtx
    | with_reducible apply Kept.reissue
    | with_reducible apply Kept.retryLater
    | with_reducible apply Kept.foldl
    | with_reducible apply Kept.foldl_fst
    | intro _
    | (extract_lets +onlyGivenNames x; with_reducible refine Kept.cut (W := W) (s₀ := s₀) (s := x) ?_ (fun _ => ?_); (on_goal 1 => subst x); on_goal 2 => clear_value x)
    | (extract_lets +onlyGivenNames x; subst x)
    | split

theorem Kept.storeEnds (h : Kept W s₀ s) (_ : W .link) (_ : W .engCtr) (_ : W .ctxCtr) (a1 a2 a3 a4) : Kept W s₀ (State.storeEnds s a1 a2 a3 a4) := by
  unfold State.storeEnds
  repeat' first
    | with_reducible assumption
    | with_reducible apply Kept.ite
    | with_reducible apply Kept.finish
    | with_reducible apply Kept.raiseAdmSat
    | with_reducible apply Kept.foldl
    | with_reducible apply Kept.foldl_fst
    | intro _
    | (extract_lets +onlyGivenNames x; with_reducible refine Kept.cut (W := W) (s₀ := s₀) (s := x) ?_ (fun _ => ?_); (on_goal 1 => subst x); on_goal 2 => clear_value x)
    | (extract_lets +onlyGivenNames x; subst x)
    | split

theorem Kept.flagEnds (h : Kept W s₀ s) (_ : W .link) (_ : W .ctxs) (_ : W .engCtr) (_ : W .ctxCtr) (a1 a2 a3 a4) : Kept W s₀ (State.flagEnds s a1 a2 a3 a4) := by
  unfold State.flagEnds
  repeat' first
    | with_reducible assumption
    | with_reducible apply Kept.ite
    | with_reducible apply Kept.versionOut
    | with_reducible apply Kept.finish
    | with_reducible apply Kept.raiseAdmSat
    | with_reducible apply Kept.foldl
    | with_reducible apply Kept.foldl_fst
    | intro _
    | (extract_lets +onlyGivenNames x; with_reducible refine Kept.cut (W := W) (s₀ := s₀) (s := x) ?_ (fun _ => ?_); (on_goal 1 => subst x); on_goal 2 => clear_value x)
    | (extract_lets +onlyGivenNames x; subst x)
    | split

theorem Kept.endReq (h : Kept W s₀ s) (_ : W .link) (_ : W .fab) (_ : W .health) (_ : W .slices) (_ : W .ctxs) (_ : W .engCtr) (_ : W .slcCtr) (_ : W .ctxCtr) (_ : W .mem) (_ : W .freeIdx) (a1 a2) : Kept W s₀ (State.endReq s a1 a2) := by
  unfold State.endReq
  repeat' first
    | with_reducible assumption
    | with_reducible apply Kept.ite
    | with_reducible apply Kept.retryLater
    | with_reducible apply Kept.commandBack
    | with_reducible apply Kept.findingEnds
    | with_reducible apply Kept.verdictEnds
    | with_reducible apply Kept.riskEnds
    | with_reducible apply Kept.commitEnds
    | with_reducible apply Kept.count
    | with_reducible apply Kept.decodeTimedOut
    | with_reducible apply Kept.decodeAnswered
    | with_reducible apply Kept.adoptNext
    | with_reducible apply Kept.skipIn
    | with_reducible apply Kept.adoptEnds
    | with_reducible apply Kept.storeEnds
    | with_reducible apply Kept.flagEnds
    | with_reducible apply Kept.demoteStored
    | with_reducible apply Kept.directoryDone
    | with_reducible apply Kept.pushSums
    | with_reducible apply Kept.extentLoaded
    | with_reducible apply Kept.foldl
    | with_reducible apply Kept.foldl_fst
    | intro _
    | (extract_lets +onlyGivenNames x; with_reducible refine Kept.cut (W := W) (s₀ := s₀) (s := x) ?_ (fun _ => ?_); (on_goal 1 => subst x); on_goal 2 => clear_value x)
    | (extract_lets +onlyGivenNames x; subst x)
    | split

theorem Kept.dropRequests (h : Kept W s₀ s) (_ : W .link) (_ : W .fab) (_ : W .health) (_ : W .slices) (_ : W .ctxs) (_ : W .engCtr) (_ : W .slcCtr) (_ : W .ctxCtr) (_ : W .mem) (_ : W .freeIdx) (a1) : Kept W s₀ (State.dropRequests s a1) := by
  unfold State.dropRequests
  repeat' first
    | with_reducible assumption
    | with_reducible apply Kept.ite
    | with_reducible apply Kept.each
    | with_reducible apply Kept.modPeel
    | with_reducible apply Kept.endReq
    | with_reducible apply Kept.quarantine
    | with_reducible apply Kept.risk
    | with_reducible apply Kept.countPeel
    | with_reducible apply Kept.foldl
    | with_reducible apply Kept.foldl_fst
    | intro _
    | (extract_lets +onlyGivenNames x; with_reducible refine Kept.cut (W := W) (s₀ := s₀) (s := x) ?_ (fun _ => ?_); (on_goal 1 => subst x); on_goal 2 => clear_value x)
    | (extract_lets +onlyGivenNames x; subst x)
    | split
    | with_reducible apply Kept.set_fab

theorem Kept.noteTimeout (h : Kept W s₀ s) (_ : W .fab) (a1) : Kept W s₀ (State.noteTimeout s a1) := by
  unfold State.noteTimeout
  repeat' first
    | with_reducible assumption
    | with_reducible apply Kept.ite
    | with_reducible apply Kept.each
    | with_reducible apply Kept.modSign
    | with_reducible apply Kept.foldl
    | with_reducible apply Kept.foldl_fst
    | intro _
    | (extract_lets +onlyGivenNames x; with_reducible refine Kept.cut (W := W) (s₀ := s₀) (s := x) ?_ (fun _ => ?_); (on_goal 1 => subst x); on_goal 2 => clear_value x)
    | (extract_lets +onlyGivenNames x; subst x)
    | split

theorem Kept.expire (h : Kept W s₀ s) (_ : W .fab) (_ : W .health) (_ : W .engCtr) (a1) : Kept W s₀ (State.expire s a1) := by
  unfold State.expire
  repeat' first
    | with_reducible assumption
    | with_reducible apply Kept.ite
    | with_reducible apply Kept.quarantine
    | with_reducible apply Kept.risk
    | with_reducible apply Kept.countPeel
    | with_reducible apply Kept.noteTimeout
    | with_reducible apply Kept.foldl
    | with_reducible apply Kept.foldl_fst
    | intro _
    | (extract_lets +onlyGivenNames x; with_reducible refine Kept.cut (W := W) (s₀ := s₀) (s := x) ?_ (fun _ => ?_); (on_goal 1 => subst x); on_goal 2 => clear_value x)
    | (extract_lets +onlyGivenNames x; subst x)
    | split

theorem Kept.fenceMargin (h : Kept W s₀ s) (_ : W .link) (_ : W .engCtr) (a1 a2) : Kept W s₀ (State.fenceMargin s a1 a2) := by
  unfold State.fenceMargin
  repeat' first
    | with_reducible assumption
    | with_reducible apply Kept.ite
    | with_reducible apply Kept.marginEvent
    | with_reducible apply Kept.foldl
    | with_reducible apply Kept.foldl_fst
    | intro _
    | (extract_lets +onlyGivenNames x; with_reducible refine Kept.cut (W := W) (s₀ := s₀) (s := x) ?_ (fun _ => ?_); (on_goal 1 => subst x); on_goal 2 => clear_value x)
    | (extract_lets +onlyGivenNames x; subst x)
    | split

theorem Kept.fence (h : Kept W s₀ s) (_ : W .link) (_ : W .fab) (_ : W .health) (_ : W .slices) (_ : W .ctxs) (_ : W .engCtr) (_ : W .slcCtr) (_ : W .ctxCtr) (_ : W .mem) (_ : W .freeIdx) (a1 a2) : Kept W s₀ (State.fence s a1 a2) := by
  unfold State.fence
  repeat' first
    | with_reducible assumption
    | with_reducible apply Kept.ite
    | with_reducible apply Kept.modCtx
    | with_reducible apply Kept.dropRequests
    | with_reducible apply Kept.modSign
    | with_reducible apply Kept.each
    | with_reducible apply Kept.adoptNext
    | with_reducible apply Kept.skipIn
    | with_reducible apply Kept.fenceMargin
    | with_reducible apply Kept.countCtx
    | with_reducible apply Kept.foldl
    | with_reducible apply Kept.foldl_fst
    | intro _
    | (extract_lets +onlyGivenNames x; with_reducible refine Kept.cut (W := W) (s₀ := s₀) (s := x) ?_ (fun _ => ?_); (on_goal 1 => subst x); on_goal 2 => clear_value x)
    | (extract_lets +onlyGivenNames x; subst x)
    | split

theorem Kept.freeReq (h : Kept W s₀ s) (_ : W .fab) (a1) : Kept W s₀ (State.freeReq s a1) := by
  unfold State.freeReq
  repeat' first
    | with_reducible assumption
    | with_reducible apply Kept.ite
    | with_reducible apply Kept.foldl
    | with_reducible apply Kept.foldl_fst
    | intro _
    | (extract_lets +onlyGivenNames x; with_reducible refine Kept.cut (W := W) (s₀ := s₀) (s := x) ?_ (fun _ => ?_); (on_goal 1 => subst x); on_goal 2 => clear_value x)
    | (extract_lets +onlyGivenNames x; subst x)
    | split
    | with_reducible apply Kept.set_fab

theorem Kept.lateArrival (h : Kept W s₀ s) (_ : W .link) (_ : W .fab) (_ : W .health) (_ : W .engCtr) (a1 a2) : Kept W s₀ (State.lateArrival s a1 a2) := by
  unfold State.lateArrival
  repeat' first
    | with_reducible assumption
    | with_reducible apply Kept.ite
    | with_reducible apply Kept.drop
    | with_reducible apply Kept.modPeel
    | with_reducible apply Kept.emit
    | with_reducible apply Kept.foldl
    | with_reducible apply Kept.foldl_fst
    | intro _
    | (extract_lets +onlyGivenNames x; with_reducible refine Kept.cut (W := W) (s₀ := s₀) (s := x) ?_ (fun _ => ?_); (on_goal 1 => subst x); on_goal 2 => clear_value x)
    | (extract_lets +onlyGivenNames x; subst x)
    | split

theorem Kept.noteReply (h : Kept W s₀ s) (_ : W .fab) (a1) : Kept W s₀ (State.noteReply s a1) := by
  unfold State.noteReply
  repeat' first
    | with_reducible assumption
    | with_reducible apply Kept.ite
    | with_reducible apply Kept.each
    | with_reducible apply Kept.modSign
    | with_reducible apply Kept.foldl
    | with_reducible apply Kept.foldl_fst
    | intro _
    | (extract_lets +onlyGivenNames x; with_reducible refine Kept.cut (W := W) (s₀ := s₀) (s := x) ?_ (fun _ => ?_); (on_goal 1 => subst x); on_goal 2 => clear_value x)
    | (extract_lets +onlyGivenNames x; subst x)
    | split

theorem Kept.takeResponse (h : Kept W s₀ s) (_ : W .link) (_ : W .fab) (_ : W .health) (_ : W .slices) (_ : W .ctxs) (_ : W .engCtr) (_ : W .slcCtr) (_ : W .ctxCtr) (_ : W .mem) (_ : W .freeIdx) (a1 a2 a3) : Kept W s₀ (State.takeResponse s a1 a2 a3) := by
  unfold State.takeResponse
  repeat' first
    | with_reducible assumption
    | with_reducible apply Kept.ite
    | with_reducible apply Kept.freeReq
    | with_reducible apply Kept.noteReply
    | with_reducible apply Kept.count
    | with_reducible apply Kept.lost
    | with_reducible apply Kept.retryLater
    | with_reducible apply Kept.countCtx
    | with_reducible apply Kept.countPeel
    | with_reducible apply Kept.endReq
    | with_reducible apply Kept.foldl
    | with_reducible apply Kept.foldl_fst
    | intro _
    | (extract_lets +onlyGivenNames x; with_reducible refine Kept.cut (W := W) (s₀ := s₀) (s := x) ?_ (fun _ => ?_); (on_goal 1 => subst x); on_goal 2 => clear_value x)
    | (extract_lets +onlyGivenNames x; subst x)
    | split

theorem Kept.takeHeld (h : Kept W s₀ s) (_ : W .link) (_ : W .fab) (_ : W .health) (_ : W .slices) (_ : W .ctxs) (_ : W .engCtr) (_ : W .slcCtr) (_ : W .ctxCtr) (_ : W .mem) (_ : W .freeIdx) : Kept W s₀ (State.takeHeld s) := by
  unfold State.takeHeld
  repeat' first
    | with_reducible assumption
    | with_reducible apply Kept.ite
    | with_reducible apply Kept.each
    | with_reducible apply Kept.takeResponse
    | with_reducible apply Kept.endReq
    | with_reducible apply Kept.expire
    | with_reducible apply Kept.wakeWaiters
    | with_reducible apply Kept.foldl
    | with_reducible apply Kept.foldl_fst
    | intro _
    | (extract_lets +onlyGivenNames x; with_reducible refine Kept.cut (W := W) (s₀ := s₀) (s := x) ?_ (fun _ => ?_); (on_goal 1 => subst x); on_goal 2 => clear_value x)
    | (extract_lets +onlyGivenNames x; subst x)
    | split
    | with_reducible apply Kept.set_fab

theorem Kept.on_effCounterOp (h : Kept W s₀ s) (_ : W .link) (_ : W .fab) (_ : W .health) (_ : W .slices) (_ : W .ctxs) (_ : W .pctr) (_ : W .poison) (_ : W .engCtr) (_ : W .slcCtr) (_ : W .ctxCtr) (_ : W .sram) (a1) : Kept W s₀ (effCounterOp a1 s) := by
  unfold effCounterOp
  repeat' first
    | with_reducible assumption
    | with_reducible apply Kept.ite
    | with_reducible apply Kept.checkCtr
    | with_reducible apply Kept.finish
    | with_reducible apply Kept.done
    | with_reducible apply Kept.ctrOp
    | with_reducible apply Kept.noteBarrier
    | with_reducible apply Kept.counterAt
    | with_reducible apply Kept.foldl
    | with_reducible apply Kept.foldl_fst
    | intro _
    | (extract_lets +onlyGivenNames x; with_reducible refine Kept.cut (W := W) (s₀ := s₀) (s := x) ?_ (fun _ => ?_); (on_goal 1 => subst x); on_goal 2 => clear_value x)
    | (extract_lets +onlyGivenNames x; subst x)
    | split
    | with_reducible apply Kept.set_fab

theorem Kept.on_effFence (h : Kept W s₀ s) (_ : W .link) (_ : W .fab) (_ : W .health) (_ : W .slices) (_ : W .ctxs) (_ : W .engCtr) (_ : W .slcCtr) (_ : W .ctxCtr) (_ : W .mem) (_ : W .freeIdx) (a1) : Kept W s₀ (effFence a1 s) := by
  unfold effFence
  repeat' first
    | with_reducible assumption
    | with_reducible apply Kept.ite
    | with_reducible apply Kept.done
    | with_reducible apply Kept.fence
    | with_reducible apply Kept.foldl
    | with_reducible apply Kept.foldl_fst
    | intro _
    | (extract_lets +onlyGivenNames x; with_reducible refine Kept.cut (W := W) (s₀ := s₀) (s := x) ?_ (fun _ => ?_); (on_goal 1 => subst x); on_goal 2 => clear_value x)
    | (extract_lets +onlyGivenNames x; subst x)
    | split

theorem Kept.on_execCounterOp (h : Kept W s₀ s) (_ : W .link) (_ : W .fab) (_ : W .power) (_ : W .health) (_ : W .slices) (_ : W .ctxs) (_ : W .pctr) (_ : W .poison) (_ : W .engCtr) (_ : W .slcCtr) (_ : W .ctxCtr) (_ : W .sram) (a1) : KeptX W s₀ (execCounterOp a1 s) := by
  unfold execCounterOp
  repeat' first
    | with_reducible assumption
    | with_reducible apply KeptX.next
    | with_reducible apply KeptX.ite
    | with_reducible apply Kept.ite
    | with_reducible apply Kept.runCmd
    | with_reducible apply Kept.on_noTake
    | with_reducible apply Kept.on_effCounterOp
    | with_reducible apply Kept.foldl
    | with_reducible apply Kept.foldl_fst
    | intro _
    | (extract_lets +onlyGivenNames x; with_reducible refine Kept.cut (W := W) (s₀ := s₀) (s := x) ?_ (fun _ => ?_); (on_goal 1 => subst x); on_goal 2 => clear_value x)
    | (extract_lets +onlyGivenNames x; subst x)
    | split

theorem Kept.on_execFabricRequestTimeout (h : Kept W s₀ s) (_ : W .link) (_ : W .fab) (_ : W .health) (_ : W .slices) (_ : W .ctxs) (_ : W .engCtr) (_ : W .slcCtr) (_ : W .ctxCtr) (_ : W .mem) (_ : W .freeIdx) (a1 a2) : KeptX W s₀ (execFabricRequestTimeout a1 a2 s) := by
  unfold execFabricRequestTimeout
  repeat' first
    | with_reducible assumption
    | with_reducible apply KeptX.next
    | with_reducible apply KeptX.ite
    | with_reducible apply Kept.ite
    | with_reducible apply Kept.expire
    | with_reducible apply Kept.endReq
    | with_reducible apply Kept.foldl
    | with_reducible apply Kept.foldl_fst
    | intro _
    | (extract_lets +onlyGivenNames x; with_reducible refine Kept.cut (W := W) (s₀ := s₀) (s := x) ?_ (fun _ => ?_); (on_goal 1 => subst x); on_goal 2 => clear_value x)
    | (extract_lets +onlyGivenNames x; subst x)
    | split
    | with_reducible apply Kept.set_fab

theorem Kept.on_execFenceMember (h : Kept W s₀ s) (_ : W .link) (_ : W .fab) (_ : W .power) (_ : W .health) (_ : W .slices) (_ : W .ctxs) (_ : W .engCtr) (_ : W .slcCtr) (_ : W .ctxCtr) (_ : W .mem) (_ : W .freeIdx) (a1) : KeptX W s₀ (execFenceMember a1 s) := by
  unfold execFenceMember
  repeat' first
    | with_reducible assumption
    | with_reducible apply KeptX.next
    | with_reducible apply KeptX.ite
    | with_reducible apply Kept.ite
    | with_reducible apply Kept.runCmd
    | with_reducible apply Kept.on_noTake
    | with_reducible apply Kept.on_effFence
    | with_reducible apply Kept.foldl
    | with_reducible apply Kept.foldl_fst
    | intro _
    | (extract_lets +onlyGivenNames x; with_reducible refine Kept.cut (W := W) (s₀ := s₀) (s := x) ?_ (fun _ => ?_); (on_goal 1 => subst x); on_goal 2 => clear_value x)
    | (extract_lets +onlyGivenNames x; subst x)
    | split

theorem Kept.on_execInboundResponse (h : Kept W s₀ s) (_ : W .link) (_ : W .fab) (_ : W .power) (_ : W .health) (_ : W .slices) (_ : W .ctxs) (_ : W .engCtr) (_ : W .slcCtr) (_ : W .ctxCtr) (_ : W .mem) (_ : W .freeIdx) (a1 a2) : KeptX W s₀ (execInboundResponse a1 a2 s) := by
  unfold execInboundResponse
  repeat' first
    | with_reducible assumption
    | with_reducible apply KeptX.next
    | with_reducible apply KeptX.ite
    | with_reducible apply Kept.ite
    | with_reducible apply Kept.admitXfer
    | with_reducible apply Kept.lateArrival
    | with_reducible apply Kept.freeReq
    | with_reducible apply Kept.holdWake
    | with_reducible apply Kept.takeResponse
    | with_reducible refine Kept.fst (by assumption) ?_
    | with_reducible apply Kept.foldl
    | with_reducible apply Kept.foldl_fst
    | intro _
    | (extract_lets +onlyGivenNames x; with_reducible refine Kept.cut (W := W) (s₀ := s₀) (s := x) ?_ (fun _ => ?_); (on_goal 1 => subst x); on_goal 2 => clear_value x)
    | (extract_lets +onlyGivenNames x; subst x)
    | split
    | with_reducible apply Kept.set_fab

theorem Kept.on_execLocalWaitTimeout (h : Kept W s₀ s) (_ : W .link) (_ : W .fab) (a1 a2) : KeptX W s₀ (execLocalWaitTimeout a1 a2 s) := by
  unfold execLocalWaitTimeout
  repeat' first
    | with_reducible assumption
    | with_reducible apply KeptX.next
    | with_reducible apply KeptX.ite
    | with_reducible apply Kept.ite
    | with_reducible apply Kept.finish
    | with_reducible apply Kept.foldl
    | with_reducible apply Kept.foldl_fst
    | intro _
    | (extract_lets +onlyGivenNames x; with_reducible refine Kept.cut (W := W) (s₀ := s₀) (s := x) ?_ (fun _ => ?_); (on_goal 1 => subst x); on_goal 2 => clear_value x)
    | (extract_lets +onlyGivenNames x; subst x)
    | split
    | with_reducible apply Kept.set_fab

end Sys2Proof.Machine
end

