-- ==== Sys2Proof/Laws/KeptPlan.lean ====
section
/-!
SUPPORT. Laws/KeptPlan.lean: what each operation of Errors, Storage, Gate, Power, Plan, Context, Guard, Begin may change (`Kept`).
-/
namespace Sys2Proof.Machine
set_option linter.unreachableTactic false
set_option linter.unusedTactic false
set_option linter.tactic.unusedName false

variable {W : Part → Prop} {s₀ s t : State}

theorem Kept.faultLine (h : Kept W s₀ s) (_ : W .slices) (_ : W .slcCtr) (a1 a2) : Kept W s₀ (State.faultLine s a1 a2) := by
  unfold State.faultLine
  repeat' first
    | with_reducible assumption
    | with_reducible apply Kept.ite
    | with_reducible apply Kept.countSlice
    | with_reducible apply Kept.modSlice
    | with_reducible apply Kept.foldl
    | with_reducible apply Kept.foldl_fst
    | intro _
    | (extract_lets +onlyGivenNames x; with_reducible refine Kept.cut (W := W) (s₀ := s₀) (s := x) ?_ (fun _ => ?_); (on_goal 1 => subst x); on_goal 2 => clear_value x)
    | (extract_lets +onlyGivenNames x; subst x)
    | split

theorem Kept.loseLine (h : Kept W s₀ s) (_ : W .mem) (_ : W .freeIdx) (a1 a2) : Kept W s₀ (s.loseLine a1 a2) :=
  (h.freeTile ‹_›).set_mem ‹_› fun g => memWf_writeMem g _ _

theorem Kept.parkTile (h : Kept W s₀ s) (_ : W .slices) (_ : W .slcCtr) (a1 a2) : Kept W s₀ (State.parkTile s a1 a2) := by
  unfold State.parkTile
  repeat' first
    | with_reducible assumption
    | with_reducible apply Kept.ite
    | with_reducible apply Kept.countSlice
    | with_reducible apply Kept.modSlice
    | with_reducible apply Kept.foldl
    | with_reducible apply Kept.foldl_fst
    | intro _
    | (extract_lets +onlyGivenNames x; with_reducible refine Kept.cut (W := W) (s₀ := s₀) (s := x) ?_ (fun _ => ?_); (on_goal 1 => subst x); on_goal 2 => clear_value x)
    | (extract_lets +onlyGivenNames x; subst x)
    | split

theorem Kept.faultTile (h : Kept W s₀ s) (_ : W .slices) (_ : W .slcCtr) (_ : W .mem) (_ : W .freeIdx) (a1 a2 a3 a4) : Kept W s₀ (State.faultTile s a1 a2 a3 a4) := by
  unfold State.faultTile
  repeat' first
    | with_reducible assumption
    | with_reducible apply Kept.ite
    | with_reducible apply Kept.loseLine
    | with_reducible apply Kept.faultLine
    | with_reducible apply Kept.parkTile
    | with_reducible apply Kept.hold
    | with_reducible apply Kept.unhold
    | with_reducible apply Kept.foldl
    | with_reducible apply Kept.foldl_fst
    | intro _
    | (extract_lets +onlyGivenNames x; with_reducible refine Kept.cut (W := W) (s₀ := s₀) (s := x) ?_ (fun _ => ?_); (on_goal 1 => subst x); on_goal 2 => clear_value x)
    | (extract_lets +onlyGivenNames x; subst x)
    | split

theorem Kept.remapLine (h : Kept W s₀ s) (_ : W .link) (_ : W .slices) (_ : W .engCtr) (_ : W .slcCtr) (a1 a2) : Kept W s₀ (State.remapLine s a1 a2) := by
  unfold State.remapLine
  repeat' first
    | with_reducible assumption
    | with_reducible apply Kept.ite
    | with_reducible apply Kept.countSlice
    | with_reducible apply Kept.modSlice
    | with_reducible apply Kept.emit
    | with_reducible apply Kept.foldl
    | with_reducible apply Kept.foldl_fst
    | intro _
    | (extract_lets +onlyGivenNames x; with_reducible refine Kept.cut (W := W) (s₀ := s₀) (s := x) ?_ (fun _ => ?_); (on_goal 1 => subst x); on_goal 2 => clear_value x)
    | (extract_lets +onlyGivenNames x; subst x)
    | split

theorem Kept.lineCorrected (h : Kept W s₀ s) (_ : W .link) (_ : W .slices) (_ : W .engCtr) (_ : W .slcCtr) (a1 a2) : Kept W s₀ (State.lineCorrected s a1 a2) := by
  unfold State.lineCorrected
  repeat' first
    | with_reducible assumption
    | with_reducible apply Kept.ite
    | with_reducible apply Kept.countSlice
    | with_reducible apply Kept.modSlice
    | with_reducible apply Kept.remapLine
    | with_reducible apply Kept.foldl
    | with_reducible apply Kept.foldl_fst
    | intro _
    | (extract_lets +onlyGivenNames x; with_reducible refine Kept.cut (W := W) (s₀ := s₀) (s := x) ?_ (fun _ => ?_); (on_goal 1 => subst x); on_goal 2 => clear_value x)
    | (extract_lets +onlyGivenNames x; subst x)
    | split

theorem Kept.loseBookkeeping (h : Kept W s₀ s) (_ : W .ctxs) (_ : W .ctxCtr) (a1 a2) : Kept W s₀ (State.loseBookkeeping s a1 a2) := by
  unfold State.loseBookkeeping
  repeat' first
    | with_reducible assumption
    | with_reducible apply Kept.ite
    | with_reducible apply Kept.spillTile
    | with_reducible apply Kept.modTile
    | with_reducible apply Kept.foldl
    | with_reducible apply Kept.foldl_fst
    | intro _
    | (extract_lets +onlyGivenNames x; with_reducible refine Kept.cut (W := W) (s₀ := s₀) (s := x) ?_ (fun _ => ?_); (on_goal 1 => subst x); on_goal 2 => clear_value x)
    | (extract_lets +onlyGivenNames x; subst x)
    | split

theorem Kept.mendFailedEvent (h : Kept W s₀ s) (_ : W .link) (_ : W .engCtr) (a1 a2 a3) : Kept W s₀ (State.mendFailedEvent s a1 a2 a3) := by
  unfold State.mendFailedEvent
  repeat' first
    | with_reducible assumption
    | with_reducible apply Kept.ite
    | with_reducible apply Kept.emit
    | with_reducible apply Kept.foldl
    | with_reducible apply Kept.foldl_fst
    | intro _
    | (extract_lets +onlyGivenNames x; with_reducible refine Kept.cut (W := W) (s₀ := s₀) (s := x) ?_ (fun _ => ?_); (on_goal 1 => subst x); on_goal 2 => clear_value x)
    | (extract_lets +onlyGivenNames x; subst x)
    | split

theorem Kept.loseCopy (h : Kept W s₀ s) (_ : W .link) (_ : W .ctxs) (_ : W .branches) (_ : W .engCtr) (_ : W .ctxCtr) (_ : W .freeIdx) (a1 a2) : Kept W s₀ (State.loseCopy s a1 a2) := by
  unfold State.loseCopy
  repeat' first
    | with_reducible assumption
    | with_reducible apply Kept.ite
    | with_reducible apply Kept.modTile
    | with_reducible apply Kept.modCtx
    | with_reducible apply Kept.mendFailedEvent
    | with_reducible apply Kept.freeTile
    | with_reducible apply Kept.modBranch
    | with_reducible apply Kept.countCtx
    | with_reducible refine Kept.snd (by assumption) ?_
    | with_reducible apply Kept.foldl
    | with_reducible apply Kept.foldl_fst
    | intro _
    | (extract_lets +onlyGivenNames x; with_reducible refine Kept.cut (W := W) (s₀ := s₀) (s := x) ?_ (fun _ => ?_); (on_goal 1 => subst x); on_goal 2 => clear_value x)
    | (extract_lets +onlyGivenNames x; subst x)
    | split

theorem Kept.loseCrust (h : Kept W s₀ s) (_ : W .fab) (_ : W .ctxs) (a1 a2) : Kept W s₀ (State.loseCrust s a1 a2) := by
  unfold State.loseCrust
  repeat' first
    | with_reducible assumption
    | with_reducible apply Kept.ite
    | with_reducible apply Kept.askCrust
    | with_reducible apply Kept.modCrust
    | with_reducible apply Kept.modCtx
    | with_reducible apply Kept.foldl
    | with_reducible apply Kept.foldl_fst
    | intro _
    | (extract_lets +onlyGivenNames x; with_reducible refine Kept.cut (W := W) (s₀ := s₀) (s := x) ?_ (fun _ => ?_); (on_goal 1 => subst x); on_goal 2 => clear_value x)
    | (extract_lets +onlyGivenNames x; subst x)
    | split

theorem Kept.loseRecords (h : Kept W s₀ s) (_ : W .ctxs) (_ : W .ctxCtr) (_ : W .freeIdx) (a1 a2 a3) : Kept W s₀ (State.loseRecords s a1 a2 a3) := by
  unfold State.loseRecords
  repeat' first
    | with_reducible assumption
    | with_reducible apply Kept.ite
    | with_reducible apply Kept.each
    | with_reducible apply Kept.modTile
    | with_reducible apply Kept.spillTile
    | with_reducible apply Kept.freeTile
    | with_reducible refine Kept.snd (by assumption) ?_
    | with_reducible apply Kept.foldl
    | with_reducible apply Kept.foldl_fst
    | intro _
    | (extract_lets +onlyGivenNames x; with_reducible refine Kept.cut (W := W) (s₀ := s₀) (s := x) ?_ (fun _ => ?_); (on_goal 1 => subst x); on_goal 2 => clear_value x)
    | (extract_lets +onlyGivenNames x; subst x)
    | split

theorem Kept.oneOf {α : Type} (h : Kept W s₀ s) (_ : W .freeIdx) (n) (l : List α) : Kept W s₀ (s.oneOf n l).1 := h.free ‹_›

theorem KeptO.findSome {α : Type} {l : List α} {f : α → Option State} (hf : ∀ x, KeptO W s₀ (f x)) :
    KeptO W s₀ (l.findSome? f) := by
  refine ⟨fun t e => ?_⟩
  obtain ⟨x, _, hx⟩ := List.exists_of_findSome?_eq_some e
  exact (hf x).get_ t hx
theorem Kept.loseOwn (h : Kept W s₀ s) (_ : W .link) (_ : W .fab) (_ : W .ctxs) (_ : W .branches) (_ : W .engCtr) (_ : W .ctxCtr) (_ : W .freeIdx) (a1 a2 a3) : KeptO W s₀ (s.loseOwn a1 a2 a3) := by
  unfold State.loseOwn
  refine KeptO.findSome fun e => ?_
  dsimp only
  repeat' first
    | with_reducible assumption
    | with_reducible exact KeptO.none
    | with_reducible apply KeptO.some
    | with_reducible apply Kept.loseRecords
    | with_reducible apply Kept.loseBookkeeping
    | with_reducible apply Kept.loseCopy
    | with_reducible apply Kept.loseCrust
    | with_reducible apply Kept.oneOf
    | split

theorem Kept.strike (h : Kept W s₀ s) (_ : W .link) (_ : W .fab) (_ : W .slices) (_ : W .ctxs) (_ : W .branches) (_ : W .engCtr) (_ : W .slcCtr) (_ : W .ctxCtr) (_ : W .mem) (_ : W .freeIdx) (a1 a2 a3) : Kept W s₀ (State.strike s a1 a2 a3) := by
  unfold State.strike
  repeat' first
    | with_reducible assumption
    | with_reducible apply Kept.ite
    | with_reducible apply Kept.countCtx
    | with_reducible apply Kept.parkTile
    | with_reducible apply Kept.modSlice
    | with_reducible apply Kept.remapLine
    | with_reducible apply Kept.loseLine
    | with_reducible apply Kept.holdTile
    | with_reducible apply Kept.faultTile
    | with_reducible apply Kept.loseOwn
    | with_reducible exact KeptO.none
    | with_reducible apply KeptO.some
    | with_reducible apply KeptO.ite
    | with_reducible refine KeptO.get ?_ (by assumption)
    | with_reducible apply Kept.foldl
    | with_reducible apply Kept.foldl_fst
    | intro _
    | (extract_lets +onlyGivenNames x; with_reducible refine Kept.cut (W := W) (s₀ := s₀) (s := x) ?_ (fun _ => ?_); (on_goal 1 => subst x); on_goal 2 => clear_value x)
    | (extract_lets +onlyGivenNames x; subst x)
    | split

theorem Kept.poisonLine (h : Kept W s₀ s) (_ : W .link) (_ : W .fab) (_ : W .health) (_ : W .slices) (_ : W .ctxs) (_ : W .branches) (_ : W .engCtr) (_ : W .slcCtr) (_ : W .ctxCtr) (_ : W .mem) (_ : W .freeIdx) (a1 a2) : Kept W s₀ (State.poisonLine s a1 a2) := by
  unfold State.poisonLine
  repeat' first
    | with_reducible assumption
    | with_reducible apply Kept.ite
    | with_reducible apply Kept.modSlice
    | with_reducible apply Kept.risk
    | with_reducible apply Kept.countSlice
    | with_reducible apply Kept.strike
    | with_reducible apply Kept.foldl
    | with_reducible apply Kept.foldl_fst
    | intro _
    | (extract_lets +onlyGivenNames x; with_reducible refine Kept.cut (W := W) (s₀ := s₀) (s := x) ?_ (fun _ => ?_); (on_goal 1 => subst x); on_goal 2 => clear_value x)
    | (extract_lets +onlyGivenNames x; subst x)
    | split

theorem Kept.releaseFaults (h : Kept W s₀ s) (_ : W .slices) : Kept W s₀ (State.releaseFaults s) := by
  unfold State.releaseFaults
  repeat' first
    | with_reducible assumption
    | with_reducible apply Kept.ite
    | with_reducible apply Kept.each
    | with_reducible apply Kept.unhold
    | with_reducible apply Kept.foldl
    | with_reducible apply Kept.foldl_fst
    | intro _
    | (extract_lets +onlyGivenNames x; with_reducible refine Kept.cut (W := W) (s₀ := s₀) (s := x) ?_ (fun _ => ?_); (on_goal 1 => subst x); on_goal 2 => clear_value x)
    | (extract_lets +onlyGivenNames x; subst x)
    | split

theorem Kept.on_execMcErrorReport (h : Kept W s₀ s) (_ : W .link) (_ : W .fab) (_ : W .health) (_ : W .slices) (_ : W .ctxs) (_ : W .branches) (_ : W .engCtr) (_ : W .slcCtr) (_ : W .ctxCtr) (_ : W .mem) (_ : W .freeIdx) (a1 a2 a3) : KeptX W s₀ (execMcErrorReport a1 a2 a3 s) := by
  unfold execMcErrorReport
  repeat' first
    | with_reducible assumption
    | with_reducible apply KeptX.next
    | with_reducible apply KeptX.ite
    | with_reducible apply Kept.ite
    | with_reducible apply Kept.modSlice
    | with_reducible apply Kept.countSlice
    | with_reducible apply Kept.risk
    | with_reducible apply Kept.strike
    | with_reducible apply Kept.lineCorrected
    | with_reducible apply Kept.foldl
    | with_reducible apply Kept.foldl_fst
    | intro _
    | (extract_lets +onlyGivenNames x; with_reducible refine Kept.cut (W := W) (s₀ := s₀) (s := x) ?_ (fun _ => ?_); (on_goal 1 => subst x); on_goal 2 => clear_value x)
    | (extract_lets +onlyGivenNames x; subst x)
    | split

theorem Kept.on_execMemReadResponse (h : Kept W s₀ s) (_ : W .link) (_ : W .fab) (_ : W .health) (_ : W .slices) (_ : W .ctxs) (_ : W .branches) (_ : W .engCtr) (_ : W .slcCtr) (_ : W .ctxCtr) (_ : W .mem) (_ : W .freeIdx) (a1 a2 a3 a4) : KeptX W s₀ (execMemReadResponse a1 a2 a3 a4 s) := by
  unfold execMemReadResponse
  repeat' first
    | with_reducible assumption
    | with_reducible apply KeptX.next
    | with_reducible apply KeptX.ite
    | with_reducible apply Kept.ite
    | with_reducible apply Kept.modSlice
    | with_reducible apply Kept.each
    | with_reducible apply Kept.poisonLine
    | with_reducible apply Kept.foldl
    | with_reducible apply Kept.foldl_fst
    | intro _
    | (extract_lets +onlyGivenNames x; with_reducible refine Kept.cut (W := W) (s₀ := s₀) (s := x) ?_ (fun _ => ?_); (on_goal 1 => subst x); on_goal 2 => clear_value x)
    | (extract_lets +onlyGivenNames x; subst x)
    | split

theorem Kept.loseLanding (h : Kept W s₀ s) (_ : W .slices) (_ : W .freeIdx) (a1) : Kept W s₀ (State.loseLanding s a1) := by
  unfold State.loseLanding
  repeat' first
    | with_reducible assumption
    | with_reducible apply Kept.ite
    | with_reducible apply Kept.free
    | with_reducible apply Kept.modSlice
    | with_reducible refine Kept.snd (by assumption) ?_
    | with_reducible apply Kept.foldl
    | with_reducible apply Kept.foldl_fst
    | intro _
    | (extract_lets +onlyGivenNames x; with_reducible refine Kept.cut (W := W) (s₀ := s₀) (s := x) ?_ (fun _ => ?_); (on_goal 1 => subst x); on_goal 2 => clear_value x)
    | (extract_lets +onlyGivenNames x; subst x)
    | split

theorem Kept.loseSpare (h : Kept W s₀ s) (_ : W .link) (_ : W .fab) (_ : W .slices) (_ : W .ctxs) (_ : W .branches) (_ : W .engCtr) (_ : W .slcCtr) (_ : W .ctxCtr) (_ : W .mem) (_ : W .freeIdx) (a1 a2) : Kept W s₀ (State.loseSpare s a1 a2) := by
  unfold State.loseSpare
  repeat' first
    | with_reducible assumption
    | with_reducible apply Kept.ite
    | with_reducible apply Kept.holdTile
    | with_reducible apply Kept.faultTile
    | with_reducible apply Kept.loseOwn
    | with_reducible exact KeptO.none
    | with_reducible apply KeptO.some
    | with_reducible apply KeptO.ite
    | with_reducible refine KeptO.get ?_ (by assumption)
    | with_reducible apply Kept.foldl
    | with_reducible apply Kept.foldl_fst
    | intro _
    | (extract_lets +onlyGivenNames x; with_reducible refine Kept.cut (W := W) (s₀ := s₀) (s := x) ?_ (fun _ => ?_); (on_goal 1 => subst x); on_goal 2 => clear_value x)
    | (extract_lets +onlyGivenNames x; subst x)
    | split

theorem Kept.treatWord (h : Kept W s₀ s) (_ : W .boot) (_ : W .link) (_ : W .fab) (_ : W .slices) (_ : W .ctxs) (_ : W .branches) (_ : W .poison) (_ : W .engCtr) (_ : W .slcCtr) (_ : W .ctxCtr) (_ : W .mem) (_ : W .freeIdx) (a1) : Kept W s₀ (State.treatWord s a1) := by
  unfold State.treatWord
  repeat' first
    | with_reducible assumption
    | with_reducible apply Kept.each
    | with_reducible apply Kept.ite
    | with_reducible apply Kept.emit
    | with_reducible apply Kept.countUnit
    | with_reducible apply Kept.faultFreeze
    | with_reducible apply Kept.poisonCtr
    | with_reducible apply Kept.loseLanding
    | with_reducible apply Kept.loseSpare
    | with_reducible apply Kept.countSlice
    | with_reducible apply Kept.modSlice
    | with_reducible apply Kept.foldl
    | with_reducible apply Kept.foldl_fst
    | intro _
    | (extract_lets +onlyGivenNames x; with_reducible refine Kept.cut (W := W) (s₀ := s₀) (s := x) ?_ (fun _ => ?_); (on_goal 1 => subst x); on_goal 2 => clear_value x)
    | (extract_lets +onlyGivenNames x; subst x)
    | split

theorem Kept.checkWord (h : Kept W s₀ s) (_ : W .boot) (_ : W .link) (_ : W .fab) (_ : W .health) (_ : W .slices) (_ : W .ctxs) (_ : W .branches) (_ : W .pctr) (_ : W .poison) (_ : W .engCtr) (_ : W .slcCtr) (_ : W .ctxCtr) (_ : W .sram) (_ : W .mem) (_ : W .freeIdx) (a1 a2) : Kept W s₀ (State.checkWord s a1 a2) := by
  unfold State.checkWord
  repeat' first
    | with_reducible assumption
    | with_reducible apply Kept.ite
    | with_reducible apply Kept.count
    | with_reducible apply Kept.treatWord
    | with_reducible apply Kept.setUnitWord
    | with_reducible apply Kept.noteCorrected
    | with_reducible apply Kept.foldl
    | with_reducible apply Kept.foldl_fst
    | intro _
    | (extract_lets +onlyGivenNames x; with_reducible refine Kept.cut (W := W) (s₀ := s₀) (s := x) ?_ (fun _ => ?_); (on_goal 1 => subst x); on_goal 2 => clear_value x)
    | (extract_lets +onlyGivenNames x; subst x)
    | split
    | with_reducible apply Kept.set_sram
    | with_reducible apply mwf_mset
    | with_reducible apply mwf_merase
    | with_reducible apply mwf_mkeep
    | with_reducible apply mwf_mmap

theorem Kept.checkUnit (h : Kept W s₀ s) (_ : W .boot) (_ : W .link) (_ : W .fab) (_ : W .health) (_ : W .slices) (_ : W .ctxs) (_ : W .branches) (_ : W .pctr) (_ : W .poison) (_ : W .engCtr) (_ : W .slcCtr) (_ : W .ctxCtr) (_ : W .sram) (_ : W .mem) (_ : W .freeIdx) (a1 a2) : Kept W s₀ (State.checkUnit s a1 a2) := by
  unfold State.checkUnit
  repeat' first
    | with_reducible assumption
    | with_reducible apply Kept.ite
    | with_reducible apply Kept.each
    | with_reducible apply Kept.checkWord
    | with_reducible apply Kept.foldl
    | with_reducible apply Kept.foldl_fst
    | intro _
    | (extract_lets +onlyGivenNames x; with_reducible refine Kept.cut (W := W) (s₀ := s₀) (s := x) ?_ (fun _ => ?_); (on_goal 1 => subst x); on_goal 2 => clear_value x)
    | (extract_lets +onlyGivenNames x; subst x)
    | split

theorem Kept.rawWord (h : Kept W s₀ s) (_ : W .freeIdx) (a1) : Kept W s₀ (State.rawWord s a1).1 := by
  unfold State.rawWord
  repeat' first
    | with_reducible assumption
    | with_reducible apply Kept.ite
    | with_reducible apply Kept.free
    | with_reducible refine Kept.snd (by assumption) ?_
    | with_reducible apply Kept.foldl
    | with_reducible apply Kept.foldl_fst
    | intro _
    | (extract_lets +onlyGivenNames x; with_reducible refine Kept.cut (W := W) (s₀ := s₀) (s := x) ?_ (fun _ => ?_); (on_goal 1 => subst x); on_goal 2 => clear_value x)
    | (extract_lets +onlyGivenNames x; subst x)
    | split
    | (dsimp only)

theorem Kept.on_effCheckbit (h : Kept W s₀ s) (_ : W .link) (_ : W .sram) (a1) : Kept W s₀ (effCheckbit a1 s) := by
  unfold effCheckbit
  repeat' first
    | with_reducible assumption
    | with_reducible apply Kept.ite
    | with_reducible apply Kept.done
    | with_reducible apply Kept.foldl
    | with_reducible apply Kept.foldl_fst
    | intro _
    | (extract_lets +onlyGivenNames x; with_reducible refine Kept.cut (W := W) (s₀ := s₀) (s := x) ?_ (fun _ => ?_); (on_goal 1 => subst x); on_goal 2 => clear_value x)
    | (extract_lets +onlyGivenNames x; subst x)
    | split
    | with_reducible apply Kept.set_sram
    | with_reducible apply mwf_mset
    | with_reducible apply mwf_merase
    | with_reducible apply mwf_mkeep
    | with_reducible apply mwf_mmap

theorem Kept.on_effRawRead (h : Kept W s₀ s) (_ : W .link) (_ : W .slices) (_ : W .ctxs) (_ : W .branches) (_ : W .ctxCtr) (_ : W .mem) (_ : W .freeIdx) (a1) : Kept W s₀ (effRawRead a1 s) := by
  unfold effRawRead
  repeat' first
    | with_reducible assumption
    | with_reducible apply Kept.ite
    | with_reducible apply Kept.rawWord
    | with_reducible apply Kept.done
    | with_reducible apply Kept.portDie
    | with_reducible refine Kept.fst (by assumption) ?_
    | with_reducible apply Kept.foldl
    | with_reducible apply Kept.foldl_fst
    | intro _
    | (extract_lets +onlyGivenNames x; with_reducible refine Kept.cut (W := W) (s₀ := s₀) (s := x) ?_ (fun _ => ?_); (on_goal 1 => subst x); on_goal 2 => clear_value x)
    | (extract_lets +onlyGivenNames x; subst x)
    | split

theorem Kept.on_execCheckbitWrite (h : Kept W s₀ s) (_ : W .link) (_ : W .power) (_ : W .engCtr) (_ : W .sram) (a1) : KeptX W s₀ (execCheckbitWrite a1 s) := by
  unfold execCheckbitWrite
  repeat' first
    | with_reducible assumption
    | with_reducible apply KeptX.next
    | with_reducible apply KeptX.ite
    | with_reducible apply Kept.ite
    | with_reducible apply Kept.runCmd
    | with_reducible apply Kept.on_noTake
    | with_reducible apply Kept.on_effCheckbit
    | with_reducible apply Kept.foldl
    | with_reducible apply Kept.foldl_fst
    | intro _
    | (extract_lets +onlyGivenNames x; with_reducible refine Kept.cut (W := W) (s₀ := s₀) (s := x) ?_ (fun _ => ?_); (on_goal 1 => subst x); on_goal 2 => clear_value x)
    | (extract_lets +onlyGivenNames x; subst x)
    | split

theorem Kept.on_execRawRead (h : Kept W s₀ s) (_ : W .link) (_ : W .power) (_ : W .slices) (_ : W .ctxs) (_ : W .branches) (_ : W .engCtr) (_ : W .ctxCtr) (_ : W .mem) (_ : W .freeIdx) (a1) : KeptX W s₀ (execRawRead a1 s) := by
  unfold execRawRead
  repeat' first
    | with_reducible assumption
    | with_reducible apply KeptX.next
    | with_reducible apply KeptX.ite
    | with_reducible apply Kept.ite
    | with_reducible apply Kept.runCmd
    | with_reducible apply Kept.on_noTake
    | with_reducible apply Kept.on_effRawRead
    | with_reducible apply Kept.foldl
    | with_reducible apply Kept.foldl_fst
    | intro _
    | (extract_lets +onlyGivenNames x; with_reducible refine Kept.cut (W := W) (s₀ := s₀) (s := x) ?_ (fun _ => ?_); (on_goal 1 => subst x); on_goal 2 => clear_value x)
    | (extract_lets +onlyGivenNames x; subst x)
    | split

theorem Kept.on_execStorageScrub (h : Kept W s₀ s) (_ : W .boot) (_ : W .link) (_ : W .fab) (_ : W .health) (_ : W .slices) (_ : W .ctxs) (_ : W .branches) (_ : W .pctr) (_ : W .poison) (_ : W .engCtr) (_ : W .slcCtr) (_ : W .ctxCtr) (_ : W .sram) (_ : W .mem) (_ : W .freeIdx) (a1) : KeptX W s₀ (execStorageScrub a1 s) := by
  unfold execStorageScrub
  repeat' first
    | with_reducible assumption
    | with_reducible apply KeptX.next
    | with_reducible apply KeptX.ite
    | with_reducible apply Kept.ite
    | with_reducible apply Kept.checkWord
    | with_reducible apply Kept.foldl
    | with_reducible apply Kept.foldl_fst
    | intro _
    | (extract_lets +onlyGivenNames x; with_reducible refine Kept.cut (W := W) (s₀ := s₀) (s := x) ?_ (fun _ => ?_); (on_goal 1 => subst x); on_goal 2 => clear_value x)
    | (extract_lets +onlyGivenNames x; subst x)
    | split

theorem Kept.answer (h : Kept W s₀ s) (_ : W .slices) (_ : W .slcCtr) (a1 a2 a3 a4 a5) : Kept W s₀ (State.answer s a1 a2 a3 a4 a5) := by
  unfold State.answer
  repeat' first
    | with_reducible assumption
    | with_reducible apply Kept.ite
    | with_reducible apply Kept.countSlice
    | with_reducible apply Kept.modSlice
    | with_reducible apply Kept.foldl
    | with_reducible apply Kept.foldl_fst
    | intro _
    | (extract_lets +onlyGivenNames x; with_reducible refine Kept.cut (W := W) (s₀ := s₀) (s := x) ?_ (fun _ => ?_); (on_goal 1 => subst x); on_goal 2 => clear_value x)
    | (extract_lets +onlyGivenNames x; subst x)
    | split

theorem Kept.holdDemand (h : Kept W s₀ s) (_ : W .slices) (_ : W .ctxs) (_ : W .ctxCtr) (a1 a2 a3) : Kept W s₀ (State.holdDemand s a1 a2 a3) := by
  unfold State.holdDemand
  repeat' first
    | with_reducible assumption
    | with_reducible apply Kept.ite
    | with_reducible apply Kept.askPromotion
    | with_reducible apply Kept.abandonDemotion
    | with_reducible apply Kept.foldl
    | with_reducible apply Kept.foldl_fst
    | intro _
    | (extract_lets +onlyGivenNames x; with_reducible refine Kept.cut (W := W) (s₀ := s₀) (s := x) ?_ (fun _ => ?_); (on_goal 1 => subst x); on_goal 2 => clear_value x)
    | (extract_lets +onlyGivenNames x; subst x)
    | split

theorem Kept.startCopies (h : Kept W s₀ s) (_ : W .slices) (_ : W .slcCtr) (i f) : Kept W s₀ (s.startCopies i f) := by
  induction f generalizing s with
  | zero => exact h
  | succ f ih =>
    unfold State.startCopies
    repeat' first
      | with_reducible assumption
      | with_reducible apply Kept.ite
      | with_reducible apply ih
      | with_reducible apply Kept.countSlice
      | with_reducible apply Kept.modSlice
      | intro _
      | (extract_lets +onlyGivenNames x; with_reducible refine Kept.cut (W := W) (s₀ := s₀) (s := x) ?_ (fun _ => ?_); (on_goal 1 => subst x); on_goal 2 => clear_value x)
      | (extract_lets +onlyGivenNames x; subst x)
      | split

theorem Kept.queueCopy (h : Kept W s₀ s) (_ : W .slices) (_ : W .slcCtr) (a1 a2) : Kept W s₀ (State.queueCopy s a1 a2) := by
  unfold State.queueCopy
  repeat' first
    | with_reducible assumption
    | with_reducible apply Kept.ite
    | with_reducible apply Kept.hold
    | with_reducible apply Kept.startCopies
    | with_reducible apply Kept.modSlice
    | with_reducible apply Kept.foldl
    | with_reducible apply Kept.foldl_fst
    | intro _
    | (extract_lets +onlyGivenNames x; with_reducible refine Kept.cut (W := W) (s₀ := s₀) (s := x) ?_ (fun _ => ?_); (on_goal 1 => subst x); on_goal 2 => clear_value x)
    | (extract_lets +onlyGivenNames x; subst x)
    | split

theorem Kept.follow (h : Kept W s₀ s) (_ : W .slices) (_ : W .ctxs) (_ : W .slcCtr) (_ : W .ctxCtr) (_ : W .mem) (a1 a2 a3 a4 a5) : Kept W s₀ (State.follow s a1 a2 a3 a4 a5) := by
  unfold State.follow
  repeat' first
    | with_reducible assumption
    | with_reducible apply Kept.ite
    | with_reducible apply Kept.modSlice
    | with_reducible apply Kept.holdDemand
    | with_reducible apply Kept.parkTile
    | with_reducible apply Kept.queueCopy
    | with_reducible apply Kept.foldl
    | with_reducible apply Kept.foldl_fst
    | intro _
    | (extract_lets +onlyGivenNames x; with_reducible refine Kept.cut (W := W) (s₀ := s₀) (s := x) ?_ (fun _ => ?_); (on_goal 1 => subst x); on_goal 2 => clear_value x)
    | (extract_lets +onlyGivenNames x; subst x)
    | split
    | with_reducible apply Kept.set_mem
    | with_reducible apply memWf_writeMem

theorem Kept.noteStall (h : Kept W s₀ s) (_ : W .slices) (_ : W .ctxs) (a1 a2 a3 a4) : Kept W s₀ (State.noteStall s a1 a2 a3 a4) := by
  unfold State.noteStall
  repeat' first
    | with_reducible assumption
    | with_reducible apply Kept.ite
    | with_reducible apply Kept.modSlice
    | with_reducible apply Kept.modCtx
    | with_reducible apply Kept.foldl
    | with_reducible apply Kept.foldl_fst
    | intro _
    | (extract_lets +onlyGivenNames x; with_reducible refine Kept.cut (W := W) (s₀ := s₀) (s := x) ?_ (fun _ => ?_); (on_goal 1 => subst x); on_goal 2 => clear_value x)
    | (extract_lets +onlyGivenNames x; subst x)
    | split

theorem Kept.readTables (h : Kept W s₀ s) (_ : W .boot) (_ : W .link) (_ : W .fab) (_ : W .health) (_ : W .slices) (_ : W .ctxs) (_ : W .branches) (_ : W .pctr) (_ : W .poison) (_ : W .engCtr) (_ : W .slcCtr) (_ : W .ctxCtr) (_ : W .sram) (_ : W .mem) (_ : W .freeIdx) (a1) : Kept W s₀ (State.readTables s a1) := by
  unfold State.readTables
  repeat' first
    | with_reducible assumption
    | with_reducible apply Kept.ite
    | with_reducible apply Kept.each
    | with_reducible apply Kept.checkWord
    | with_reducible apply Kept.foldl
    | with_reducible apply Kept.foldl_fst
    | intro _
    | (extract_lets +onlyGivenNames x; with_reducible refine Kept.cut (W := W) (s₀ := s₀) (s := x) ?_ (fun _ => ?_); (on_goal 1 => subst x); on_goal 2 => clear_value x)
    | (extract_lets +onlyGivenNames x; subst x)
    | split

theorem Kept.rewriteTables (h : Kept W s₀ s) (_ : W .boot) (_ : W .link) (_ : W .fab) (_ : W .health) (_ : W .slices) (_ : W .ctxs) (_ : W .branches) (_ : W .pctr) (_ : W .poison) (_ : W .engCtr) (_ : W .slcCtr) (_ : W .ctxCtr) (_ : W .sram) (_ : W .mem) (_ : W .freeIdx) (a1) : Kept W s₀ (State.rewriteTables s a1) := by
  unfold State.rewriteTables
  repeat' first
    | with_reducible assumption
    | with_reducible apply Kept.ite
    | with_reducible apply Kept.each
    | with_reducible apply Kept.checkWord
    | with_reducible apply Kept.modSlice
    | with_reducible apply Kept.foldl
    | with_reducible apply Kept.foldl_fst
    | intro _
    | (extract_lets +onlyGivenNames x; with_reducible refine Kept.cut (W := W) (s₀ := s₀) (s := x) ?_ (fun _ => ?_); (on_goal 1 => subst x); on_goal 2 => clear_value x)
    | (extract_lets +onlyGivenNames x; subst x)
    | split

theorem Kept.on_effGateForce (h : Kept W s₀ s) (_ : W .link) (_ : W .slices) (a1) : Kept W s₀ (effGateForce a1 s) := by
  unfold effGateForce
  repeat' first
    | with_reducible assumption
    | with_reducible apply Kept.ite
    | with_reducible apply Kept.hold
    | with_reducible apply Kept.modSlice
    | with_reducible apply Kept.done
    | with_reducible apply Kept.foldl
    | with_reducible apply Kept.foldl_fst
    | intro _
    | (extract_lets +onlyGivenNames x; with_reducible refine Kept.cut (W := W) (s₀ := s₀) (s := x) ?_ (fun _ => ?_); (on_goal 1 => subst x); on_goal 2 => clear_value x)
    | (extract_lets +onlyGivenNames x; subst x)
    | split

theorem Kept.on_execGateForce (h : Kept W s₀ s) (_ : W .link) (_ : W .power) (_ : W .slices) (_ : W .engCtr) (a1) : KeptX W s₀ (execGateForce a1 s) := by
  unfold execGateForce
  repeat' first
    | with_reducible assumption
    | with_reducible apply KeptX.next
    | with_reducible apply KeptX.ite
    | with_reducible apply Kept.ite
    | with_reducible apply Kept.runCmd
    | with_reducible apply Kept.on_noTake
    | with_reducible apply Kept.on_effGateForce
    | with_reducible apply Kept.foldl
    | with_reducible apply Kept.foldl_fst
    | intro _
    | (extract_lets +onlyGivenNames x; with_reducible refine Kept.cut (W := W) (s₀ := s₀) (s := x) ?_ (fun _ => ?_); (on_goal 1 => subst x); on_goal 2 => clear_value x)
    | (extract_lets +onlyGivenNames x; subst x)
    | split

theorem Kept.on_execGateRequest (h : Kept W s₀ s) (_ : W .boot) (_ : W .link) (_ : W .fab) (_ : W .health) (_ : W .slices) (_ : W .ctxs) (_ : W .branches) (_ : W .pctr) (_ : W .poison) (_ : W .engCtr) (_ : W .slcCtr) (_ : W .ctxCtr) (_ : W .sram) (_ : W .mem) (_ : W .freeIdx) (a1 a2 a3 a4 a5) : KeptX W s₀ (execGateRequest a1 a2 a3 a4 a5 s) := by
  unfold execGateRequest
  repeat' first
    | with_reducible assumption
    | with_reducible apply KeptX.next
    | with_reducible apply KeptX.ite
    | with_reducible apply Kept.ite
    | with_reducible apply Kept.readTables
    | with_reducible apply Kept.touch
    | with_reducible apply Kept.follow
    | with_reducible apply Kept.answer
    | with_reducible apply Kept.rewriteTables
    | with_reducible apply Kept.noteStall
    | with_reducible apply Kept.foldl
    | with_reducible apply Kept.foldl_fst
    | intro _
    | (extract_lets +onlyGivenNames x; with_reducible refine Kept.cut (W := W) (s₀ := s₀) (s := x) ?_ (fun _ => ?_); (on_goal 1 => subst x); on_goal 2 => clear_value x)
    | (extract_lets +onlyGivenNames x; subst x)
    | split

theorem Kept.on_execProofCopyDone (h : Kept W s₀ s) (_ : W .slices) (_ : W .ctxs) (_ : W .branches) (_ : W .slcCtr) (_ : W .ctxCtr) (a1 a2) : KeptX W s₀ (execProofCopyDone a1 a2 s) := by
  unfold execProofCopyDone
  repeat' first
    | with_reducible assumption
    | with_reducible apply KeptX.next
    | with_reducible apply KeptX.ite
    | with_reducible apply Kept.ite
    | with_reducible apply Kept.countSlice
    | with_reducible apply Kept.modSlice
    | with_reducible apply Kept.modTile
    | with_reducible apply Kept.makeCopies
    | with_reducible apply Kept.serve
    | with_reducible apply Kept.startCopies
    | with_reducible apply Kept.unhold
    | with_reducible apply Kept.foldl
    | with_reducible apply Kept.foldl_fst
    | intro _
    | (extract_lets +onlyGivenNames x; with_reducible refine Kept.cut (W := W) (s₀ := s₀) (s := x) ?_ (fun _ => ?_); (on_goal 1 => subst x); on_goal 2 => clear_value x)
    | (extract_lets +onlyGivenNames x; subst x)
    | split

theorem Kept.on_execSpareLineAccess (h : Kept W s₀ s) (_ : W .boot) (_ : W .link) (_ : W .fab) (_ : W .health) (_ : W .slices) (_ : W .ctxs) (_ : W .branches) (_ : W .pctr) (_ : W .poison) (_ : W .engCtr) (_ : W .slcCtr) (_ : W .ctxCtr) (_ : W .sram) (_ : W .mem) (_ : W .freeIdx) (a1 a2 a3 a4 a5) : KeptX W s₀ (execSpareLineAccess a1 a2 a3 a4 a5 s) := by
  unfold execSpareLineAccess
  repeat' first
    | with_reducible assumption
    | with_reducible apply KeptX.next
    | with_reducible apply KeptX.ite
    | with_reducible apply Kept.ite
    | with_reducible apply Kept.modSlice
    | with_reducible apply Kept.each
    | with_reducible apply Kept.checkWord
    | with_reducible apply Kept.foldl
    | with_reducible apply Kept.foldl_fst
    | intro _
    | (extract_lets +onlyGivenNames x; with_reducible refine Kept.cut (W := W) (s₀ := s₀) (s := x) ?_ (fun _ => ?_); (on_goal 1 => subst x); on_goal 2 => clear_value x)
    | (extract_lets +onlyGivenNames x; subst x)
    | split

theorem Kept.tempOf (h : Kept W s₀ s) (_ : W .freeIdx) (a1) : Kept W s₀ (State.tempOf s a1).1 := by
  unfold State.tempOf
  repeat' first
    | with_reducible assumption
    | with_reducible apply Kept.ite
    | with_reducible apply Kept.free
    | with_reducible refine Kept.snd (by assumption) ?_
    | with_reducible apply Kept.foldl
    | with_reducible apply Kept.foldl_fst
    | intro _
    | (extract_lets +onlyGivenNames x; with_reducible refine Kept.cut (W := W) (s₀ := s₀) (s := x) ?_ (fun _ => ?_); (on_goal 1 => subst x); on_goal 2 => clear_value x)
    | (extract_lets +onlyGivenNames x; subst x)
    | split
    | (dsimp only)

theorem Kept.failSensor (h : Kept W s₀ s) (_ : W .link) (_ : W .slices) (_ : W .engCtr) (_ : W .freeIdx) (a1) : Kept W s₀ (State.failSensor s a1) := by
  unfold State.failSensor
  repeat' first
    | with_reducible assumption
    | with_reducible apply Kept.ite
    | with_reducible apply Kept.modSlice
    | with_reducible apply Kept.tempOf
    | with_reducible apply Kept.emit
    | with_reducible refine Kept.fst (by assumption) ?_
    | with_reducible apply Kept.foldl
    | with_reducible apply Kept.foldl_fst
    | intro _
    | (extract_lets +onlyGivenNames x; with_reducible refine Kept.cut (W := W) (s₀ := s₀) (s := x) ?_ (fun _ => ?_); (on_goal 1 => subst x); on_goal 2 => clear_value x)
    | (extract_lets +onlyGivenNames x; subst x)
    | split

theorem Kept.riskEvent (h : Kept W s₀ s) (_ : W .link) (_ : W .engCtr) (a1 a2 a3) : Kept W s₀ (State.riskEvent s a1 a2 a3) := by
  unfold State.riskEvent
  repeat' first
    | with_reducible assumption
    | with_reducible apply Kept.ite
    | with_reducible apply Kept.emit
    | with_reducible apply Kept.count
    | with_reducible apply Kept.foldl
    | with_reducible apply Kept.foldl_fst
    | intro _
    | (extract_lets +onlyGivenNames x; with_reducible refine Kept.cut (W := W) (s₀ := s₀) (s := x) ?_ (fun _ => ?_); (on_goal 1 => subst x); on_goal 2 => clear_value x)
    | (extract_lets +onlyGivenNames x; subst x)
    | split

theorem Kept.judgeRisk (h : Kept W s₀ s) (_ : W .link) (_ : W .health) (_ : W .engCtr) (a1) : Kept W s₀ (State.judgeRisk s a1) := by
  unfold State.judgeRisk
  repeat' first
    | with_reducible assumption
    | with_reducible apply Kept.ite
    | with_reducible apply Kept.riskEvent
    | with_reducible apply Kept.count
    | with_reducible apply Kept.foldl
    | with_reducible apply Kept.foldl_fst
    | intro _
    | (extract_lets +onlyGivenNames x; with_reducible refine Kept.cut (W := W) (s₀ := s₀) (s := x) ?_ (fun _ => ?_); (on_goal 1 => subst x); on_goal 2 => clear_value x)
    | (extract_lets +onlyGivenNames x; subst x)
    | split
    | with_reducible apply Kept.set_health

theorem Kept.judgeTemp (h : Kept W s₀ s) (_ : W .link) (_ : W .slices) (_ : W .engCtr) (_ : W .freeIdx) (a1) : Kept W s₀ (State.judgeTemp s a1) := by
  unfold State.judgeTemp
  repeat' first
    | with_reducible assumption
    | with_reducible apply Kept.ite
    | with_reducible apply Kept.tempOf
    | with_reducible apply Kept.modSlice
    | with_reducible apply Kept.emit
    | with_reducible refine Kept.fst (by assumption) ?_
    | with_reducible apply Kept.foldl
    | with_reducible apply Kept.foldl_fst
    | intro _
    | (extract_lets +onlyGivenNames x; with_reducible refine Kept.cut (W := W) (s₀ := s₀) (s := x) ?_ (fun _ => ?_); (on_goal 1 => subst x); on_goal 2 => clear_value x)
    | (extract_lets +onlyGivenNames x; subst x)
    | split

theorem Kept.sampleTherm (h : Kept W s₀ s) (_ : W .link) (_ : W .slices) (_ : W .engCtr) (_ : W .freeIdx) (a1 a2) : Kept W s₀ (State.sampleTherm s a1 a2) := by
  unfold State.sampleTherm
  repeat' first
    | with_reducible assumption
    | with_reducible apply Kept.ite
    | with_reducible apply Kept.modSlice
    | with_reducible apply Kept.failSensor
    | with_reducible apply Kept.foldl
    | with_reducible apply Kept.foldl_fst
    | intro _
    | (extract_lets +onlyGivenNames x; with_reducible refine Kept.cut (W := W) (s₀ := s₀) (s := x) ?_ (fun _ => ?_); (on_goal 1 => subst x); on_goal 2 => clear_value x)
    | (extract_lets +onlyGivenNames x; subst x)
    | split

theorem Kept.serveHeld (h : Kept W s₀ s) (_ : W .link) (_ : W .frames) (_ : W .fab) (_ : W .health) (_ : W .slices) (_ : W .ctxs) (_ : W .branches) (_ : W .pctr) (_ : W .poison) (_ : W .engCtr) (_ : W .slcCtr) (_ : W .ctxCtr) (_ : W .sram) (_ : W .mem) (_ : W .freeIdx) (a1 a2) : Kept W s₀ (State.serveHeld s a1 a2) := by
  unfold State.serveHeld
  repeat' first
    | with_reducible assumption
    | with_reducible apply Kept.ite
    | with_reducible apply Kept.respond
    | with_reducible apply Kept.lateArrival
    | with_reducible apply Kept.takeResponse
    | with_reducible apply Kept.serveCounter
    | with_reducible apply Kept.serveCrumb
    | with_reducible apply Kept.serveNotice
    | with_reducible apply Kept.serveDecodeReq
    | with_reducible apply Kept.serveDecodePart
    | with_reducible apply Kept.serveBcast
    | with_reducible apply Kept.adoptNext
    | with_reducible apply Kept.serveUp
    | with_reducible apply Kept.serveRecord
    | with_reducible apply Kept.foldl
    | with_reducible apply Kept.foldl_fst
    | intro _
    | (extract_lets +onlyGivenNames x; with_reducible refine Kept.cut (W := W) (s₀ := s₀) (s := x) ?_ (fun _ => ?_); (on_goal 1 => subst x); on_goal 2 => clear_value x)
    | (extract_lets +onlyGivenNames x; subst x)
    | split
    | with_reducible apply Kept.set_fab

theorem Kept.setPoint (h : Kept W s₀ s) (_ : W .power) (_ : W .engCtr) (a1) : Kept W s₀ (State.setPoint s a1) := by
  unfold State.setPoint
  repeat' first
    | with_reducible assumption
    | with_reducible apply Kept.ite
    | with_reducible apply Kept.count
    | with_reducible apply Kept.foldl
    | with_reducible apply Kept.foldl_fst
    | intro _
    | (extract_lets +onlyGivenNames x; with_reducible refine Kept.cut (W := W) (s₀ := s₀) (s := x) ?_ (fun _ => ?_); (on_goal 1 => subst x); on_goal 2 => clear_value x)
    | (extract_lets +onlyGivenNames x; subst x)
    | split
    | with_reducible apply Kept.set_power

theorem Kept.on_execClockStopWake (h : Kept W s₀ s) (_ : W .link) (_ : W .fab) (_ : W .power) (_ : W .health) (_ : W .ctxs) (_ : W .engCtr) (_ : W .ctxCtr) (a1 a2) : KeptX W s₀ (execClockStopWake a1 a2 s) := by
  unfold execClockStopWake
  repeat' first
    | with_reducible assumption
    | with_reducible apply KeptX.next
    | with_reducible apply KeptX.ite
    | with_reducible apply Kept.ite
    | with_reducible apply Kept.wake
    | with_reducible apply Kept.admitXfer
    | with_reducible apply Kept.respond
    | with_reducible apply Kept.holdWake
    | with_reducible refine Kept.fst (by assumption) ?_
    | with_reducible apply Kept.foldl
    | with_reducible apply Kept.foldl_fst
    | intro _
    | (extract_lets +onlyGivenNames x; with_reducible refine Kept.cut (W := W) (s₀ := s₀) (s := x) ?_ (fun _ => ?_); (on_goal 1 => subst x); on_goal 2 => clear_value x)
    | (extract_lets +onlyGivenNames x; subst x)
    | split

theorem Kept.on_execPowerCapEvent (h : Kept W s₀ s) (_ : W .link) (_ : W .power) (_ : W .engCtr) : KeptX W s₀ (execPowerCapEvent s) := by
  unfold execPowerCapEvent
  repeat' first
    | with_reducible assumption
    | with_reducible apply KeptX.next
    | with_reducible apply KeptX.ite
    | with_reducible apply Kept.ite
    | with_reducible apply Kept.emit
    | with_reducible apply Kept.foldl
    | with_reducible apply Kept.foldl_fst
    | intro _
    | (extract_lets +onlyGivenNames x; with_reducible refine Kept.cut (W := W) (s₀ := s₀) (s := x) ?_ (fun _ => ?_); (on_goal 1 => subst x); on_goal 2 => clear_value x)
    | (extract_lets +onlyGivenNames x; subst x)
    | split
    | with_reducible apply Kept.set_power

theorem Kept.on_execPowerStateAck (h : Kept W s₀ s) (_ : W .link) (_ : W .frames) (_ : W .fab) (_ : W .power) (_ : W .health) (_ : W .slices) (_ : W .ctxs) (_ : W .branches) (_ : W .pctr) (_ : W .poison) (_ : W .engCtr) (_ : W .slcCtr) (_ : W .ctxCtr) (_ : W .sram) (_ : W .mem) (_ : W .freeIdx) : KeptX W s₀ (execPowerStateAck s) := by
  unfold execPowerStateAck
  repeat' first
    | with_reducible assumption
    | with_reducible apply KeptX.next
    | with_reducible apply KeptX.ite
    | with_reducible apply Kept.ite
    | with_reducible apply Kept.each
    | with_reducible apply Kept.modPeel
    | with_reducible apply Kept.serveHeld
    | with_reducible apply Kept.foldl
    | with_reducible apply Kept.foldl_fst
    | intro _
    | (extract_lets +onlyGivenNames x; with_reducible refine Kept.cut (W := W) (s₀ := s₀) (s := x) ?_ (fun _ => ?_); (on_goal 1 => subst x); on_goal 2 => clear_value x)
    | (extract_lets +onlyGivenNames x; subst x)
    | split
    | with_reducible apply Kept.set_power

theorem Kept.on_execRiskLevelFall (h : Kept W s₀ s) (_ : W .link) (_ : W .health) (_ : W .engCtr) : KeptX W s₀ (execRiskLevelFall s) := by
  unfold execRiskLevelFall
  repeat' first
    | with_reducible assumption
    | with_reducible apply KeptX.next
    | with_reducible apply KeptX.ite
    | with_reducible apply Kept.ite
    | with_reducible apply Kept.riskEvent
    | with_reducible apply Kept.foldl
    | with_reducible apply Kept.foldl_fst
    | intro _
    | (extract_lets +onlyGivenNames x; with_reducible refine Kept.cut (W := W) (s₀ := s₀) (s := x) ?_ (fun _ => ?_); (on_goal 1 => subst x); on_goal 2 => clear_value x)
    | (extract_lets +onlyGivenNames x; subst x)
    | split
    | with_reducible apply Kept.set_health

theorem Kept.on_execSensorStale (h : Kept W s₀ s) (_ : W .link) (_ : W .slices) (_ : W .engCtr) (_ : W .freeIdx) (a1) : KeptX W s₀ (execSensorStale a1 s) := by
  unfold execSensorStale
  repeat' first
    | with_reducible assumption
    | with_reducible apply KeptX.next
    | with_reducible apply KeptX.ite
    | with_reducible apply Kept.ite
    | with_reducible apply Kept.judgeTemp
    | with_reducible apply Kept.failSensor
    | with_reducible apply Kept.foldl
    | with_reducible apply Kept.foldl_fst
    | intro _
    | (extract_lets +onlyGivenNames x; with_reducible refine Kept.cut (W := W) (s₀ := s₀) (s := x) ?_ (fun _ => ?_); (on_goal 1 => subst x); on_goal 2 => clear_value x)
    | (extract_lets +onlyGivenNames x; subst x)
    | split

theorem Kept.on_execStackStateExit (h : Kept W s₀ s) (_ : W .slices) (_ : W .slcCtr) (a1) : KeptX W s₀ (execStackStateExit a1 s) := by
  unfold execStackStateExit
  repeat' first
    | with_reducible assumption
    | with_reducible apply KeptX.next
    | with_reducible apply KeptX.ite
    | with_reducible apply Kept.ite
    | with_reducible apply Kept.modSlice
    | with_reducible apply Kept.countSlice
    | with_reducible apply Kept.foldl
    | with_reducible apply Kept.foldl_fst
    | intro _
    | (extract_lets +onlyGivenNames x; with_reducible refine Kept.cut (W := W) (s₀ := s₀) (s := x) ?_ (fun _ => ?_); (on_goal 1 => subst x); on_goal 2 => clear_value x)
    | (extract_lets +onlyGivenNames x; subst x)
    | split

theorem Kept.chargeSlice (h : Kept W s₀ s) (_ : W .slices) (_ : W .engCtr) (a1) : Kept W s₀ (State.chargeSlice s a1) := by
  unfold State.chargeSlice
  repeat' first
    | with_reducible assumption
    | with_reducible apply Kept.ite
    | with_reducible apply Kept.modSlice
    | with_reducible apply Kept.count
    | with_reducible apply Kept.foldl
    | with_reducible apply Kept.foldl_fst
    | intro _
    | (extract_lets +onlyGivenNames x; with_reducible refine Kept.cut (W := W) (s₀ := s₀) (s := x) ?_ (fun _ => ?_); (on_goal 1 => subst x); on_goal 2 => clear_value x)
    | (extract_lets +onlyGivenNames x; subst x)
    | split

theorem Kept.closeSlice (h : Kept W s₀ s) (_ : W .link) (_ : W .slices) (_ : W .engCtr) (_ : W .slcCtr) (_ : W .freeIdx) (a1 a2) : Kept W s₀ (State.closeSlice s a1 a2) := by
  unfold State.closeSlice
  repeat' first
    | with_reducible assumption
    | with_reducible apply Kept.ite
    | with_reducible apply Kept.modSlice
    | with_reducible apply Kept.sampleTherm
    | with_reducible apply Kept.countSlice
    | with_reducible apply Kept.foldl
    | with_reducible apply Kept.foldl_fst
    | intro _
    | (extract_lets +onlyGivenNames x; with_reducible refine Kept.cut (W := W) (s₀ := s₀) (s := x) ?_ (fun _ => ?_); (on_goal 1 => subst x); on_goal 2 => clear_value x)
    | (extract_lets +onlyGivenNames x; subst x)
    | split

theorem Kept.countGoodput (h : Kept W s₀ s) (_ : W .ctxs) (_ : W .ctxCtr) (a1) : Kept W s₀ (State.countGoodput s a1) := by
  unfold State.countGoodput
  repeat' first
    | with_reducible assumption
    | with_reducible apply Kept.ite
    | with_reducible apply Kept.countCtx
    | with_reducible apply Kept.modCtx
    | with_reducible apply Kept.foldl
    | with_reducible apply Kept.foldl_fst
    | intro _
    | (extract_lets +onlyGivenNames x; with_reducible refine Kept.cut (W := W) (s₀ := s₀) (s := x) ?_ (fun _ => ?_); (on_goal 1 => subst x); on_goal 2 => clear_value x)
    | (extract_lets +onlyGivenNames x; subst x)
    | split

theorem Kept.countPieces (h : Kept W s₀ s) (_ : W .frames) (_ : W .engCtr) (_ : W .slcCtr) : Kept W s₀ (State.countPieces s) := by
  unfold State.countPieces
  repeat' first
    | with_reducible assumption
    | with_reducible apply Kept.ite
    | with_reducible apply Kept.each
    | with_reducible apply Kept.countSlice
    | with_reducible apply Kept.count
    | with_reducible apply Kept.foldl
    | with_reducible apply Kept.foldl_fst
    | intro _
    | (extract_lets +onlyGivenNames x; with_reducible refine Kept.cut (W := W) (s₀ := s₀) (s := x) ?_ (fun _ => ?_); (on_goal 1 => subst x); on_goal 2 => clear_value x)
    | (extract_lets +onlyGivenNames x; subst x)
    | split
    | with_reducible apply Kept.set_frames

theorem Kept.deferWork (h : Kept W s₀ s) (_ : W .link) (a1) : Kept W s₀ (State.deferWork s a1) := by
  unfold State.deferWork
  repeat' first
    | with_reducible assumption
    | with_reducible apply Kept.ite
    | with_reducible apply Kept.defer
    | with_reducible apply Kept.foldl
    | with_reducible apply Kept.foldl_fst
    | intro _
    | (extract_lets +onlyGivenNames x; with_reducible refine Kept.cut (W := W) (s₀ := s₀) (s := x) ?_ (fun _ => ?_); (on_goal 1 => subst x); on_goal 2 => clear_value x)
    | (extract_lets +onlyGivenNames x; subst x)
    | split

theorem Kept.farRead (h : Kept W s₀ s) (_ : W .link) (_ : W .fab) (_ : W .ctxs) (_ : W .engCtr) (_ : W .ctxCtr) (a1 a2 a3) : Kept W s₀ (State.farRead s a1 a2 a3) := by
  unfold State.farRead
  repeat' first
    | with_reducible assumption
    | with_reducible apply Kept.ite
    | with_reducible apply Kept.countCtx
    | with_reducible apply Kept.modCtx
    | with_reducible apply Kept.loadExtent
    | with_reducible apply Kept.setJob
    | with_reducible apply Kept.emit
    | with_reducible apply Kept.foldl
    | with_reducible apply Kept.foldl_fst
    | intro _
    | (extract_lets +onlyGivenNames x; with_reducible refine Kept.cut (W := W) (s₀ := s₀) (s := x) ?_ (fun _ => ?_); (on_goal 1 => subst x); on_goal 2 => clear_value x)
    | (extract_lets +onlyGivenNames x; subst x)
    | split

theorem Kept.farReads (h : Kept W s₀ s) (_ : W .link) (_ : W .fab) (_ : W .ctxs) (_ : W .engCtr) (_ : W .ctxCtr) (a1) : Kept W s₀ (State.farReads s a1) := by
  unfold State.farReads
  repeat' first
    | with_reducible assumption
    | with_reducible apply Kept.ite
    | with_reducible apply Kept.each
    | with_reducible apply Kept.farRead
    | with_reducible apply Kept.foldl
    | with_reducible apply Kept.foldl_fst
    | intro _
    | (extract_lets +onlyGivenNames x; with_reducible refine Kept.cut (W := W) (s₀ := s₀) (s := x) ?_ (fun _ => ?_); (on_goal 1 => subst x); on_goal 2 => clear_value x)
    | (extract_lets +onlyGivenNames x; subst x)
    | split

theorem Kept.holdStep (h : Kept W s₀ s) (_ : W .link) (_ : W .ctxs) (_ : W .engCtr) (_ : W .ctxCtr) (a1 a2) : Kept W s₀ (State.holdStep s a1 a2) := by
  unfold State.holdStep
  repeat' first
    | with_reducible assumption
    | with_reducible apply Kept.ite
    | with_reducible apply Kept.modStep
    | with_reducible apply Kept.countCtx
    | with_reducible apply Kept.verdictEvent
    | with_reducible apply Kept.foldl
    | with_reducible apply Kept.foldl_fst
    | intro _
    | (extract_lets +onlyGivenNames x; with_reducible refine Kept.cut (W := W) (s₀ := s₀) (s := x) ?_ (fun _ => ?_); (on_goal 1 => subst x); on_goal 2 => clear_value x)
    | (extract_lets +onlyGivenNames x; subst x)
    | split

theorem Kept.issuePieces (h : Kept W s₀ s) (_ : W .link) (_ : W .frames) (_ : W .slcCtr) : Kept W s₀ (State.issuePieces s) := by
  unfold State.issuePieces
  repeat' first
    | with_reducible assumption
    | with_reducible apply Kept.ite
    | with_reducible apply Kept.each
    | with_reducible apply Kept.countSlice
    | with_reducible apply Kept.deferWork
    | with_reducible apply Kept.foldl
    | with_reducible apply Kept.foldl_fst
    | intro _
    | (extract_lets +onlyGivenNames x; with_reducible refine Kept.cut (W := W) (s₀ := s₀) (s := x) ?_ (fun _ => ?_); (on_goal 1 => subst x); on_goal 2 => clear_value x)
    | (extract_lets +onlyGivenNames x; subst x)
    | split
    | with_reducible apply Kept.set_frames

theorem Kept.judgeSign (h : Kept W s₀ s) (_ : W .link) (_ : W .fab) (_ : W .engCtr) (_ : W .ctxCtr) (a1 a2) : Kept W s₀ (State.judgeSign s a1 a2) := by
  unfold State.judgeSign
  repeat' first
    | with_reducible assumption
    | with_reducible apply Kept.ite
    | with_reducible apply Kept.modSign
    | with_reducible apply Kept.suspectIn
    | with_reducible apply Kept.lostIn
    | with_reducible apply Kept.foldl
    | with_reducible apply Kept.foldl_fst
    | intro _
    | (extract_lets +onlyGivenNames x; with_reducible refine Kept.cut (W := W) (s₀ := s₀) (s := x) ?_ (fun _ => ?_); (on_goal 1 => subst x); on_goal 2 => clear_value x)
    | (extract_lets +onlyGivenNames x; subst x)
    | split

theorem Kept.judgeSigns (h : Kept W s₀ s) (_ : W .link) (_ : W .fab) (_ : W .engCtr) (_ : W .ctxCtr) : Kept W s₀ (State.judgeSigns s) := by
  unfold State.judgeSigns
  repeat' first
    | with_reducible assumption
    | with_reducible apply Kept.ite
    | with_reducible apply Kept.each
    | with_reducible apply Kept.judgeSign
    | with_reducible apply Kept.foldl
    | with_reducible apply Kept.foldl_fst
    | intro _
    | (extract_lets +onlyGivenNames x; with_reducible refine Kept.cut (W := W) (s₀ := s₀) (s := x) ?_ (fun _ => ?_); (on_goal 1 => subst x); on_goal 2 => clear_value x)
    | (extract_lets +onlyGivenNames x; subst x)
    | split

theorem Kept.probes (h : Kept W s₀ s) (_ : W .fab) (_ : W .ctxs) (_ : W .engCtr) (_ : W .ctxCtr) : Kept W s₀ (State.probes s) := by
  unfold State.probes
  repeat' first
    | with_reducible assumption
    | with_reducible apply Kept.ite
    | with_reducible apply Kept.issue
    | with_reducible apply Kept.count
    | with_reducible apply Kept.foldl
    | with_reducible apply Kept.foldl_fst
    | intro _
    | (extract_lets +onlyGivenNames x; with_reducible refine Kept.cut (W := W) (s₀ := s₀) (s := x) ?_ (fun _ => ?_); (on_goal 1 => subst x); on_goal 2 => clear_value x)
    | (extract_lets +onlyGivenNames x; subst x)
    | split

theorem Kept.letOut (h : Kept W s₀ s) (_ : W .link) (_ : W .fab) (_ : W .slices) (_ : W .ctxs) (_ : W .engCtr) (_ : W .ctxCtr) : Kept W s₀ (State.letOut s) := by
  unfold State.letOut
  repeat' first
    | with_reducible assumption
    | with_reducible apply Kept.ite
    | with_reducible apply Kept.each
    | with_reducible apply Kept.farReads
    | with_reducible apply Kept.resendAll
    | with_reducible apply Kept.releaseFaults
    | with_reducible apply Kept.noticeAgain
    | with_reducible apply Kept.probes
    | with_reducible apply Kept.foldl
    | with_reducible apply Kept.foldl_fst
    | intro _
    | (extract_lets +onlyGivenNames x; with_reducible refine Kept.cut (W := W) (s₀ := s₀) (s := x) ?_ (fun _ => ?_); (on_goal 1 => subst x); on_goal 2 => clear_value x)
    | (extract_lets +onlyGivenNames x; subst x)
    | split

theorem Kept.planStack (h : Kept W s₀ s) (_ : W .slices) (_ : W .slcCtr) (a1) : Kept W s₀ (State.planStack s a1) := by
  unfold State.planStack
  repeat' first
    | with_reducible assumption
    | with_reducible apply Kept.ite
    | with_reducible apply Kept.countSlice
    | with_reducible apply Kept.modSlice
    | with_reducible apply Kept.foldl
    | with_reducible apply Kept.foldl_fst
    | intro _
    | (extract_lets +onlyGivenNames x; with_reducible refine Kept.cut (W := W) (s₀ := s₀) (s := x) ?_ (fun _ => ?_); (on_goal 1 => subst x); on_goal 2 => clear_value x)
    | (extract_lets +onlyGivenNames x; subst x)
    | split

theorem Kept.planSlice (h : Kept W s₀ s) (_ : W .slices) (a1 a2) : Kept W s₀ (State.planSlice s a1 a2) := by
  unfold State.planSlice
  repeat' first
    | with_reducible assumption
    | with_reducible apply Kept.ite
    | with_reducible apply Kept.modSlice
    | with_reducible apply Kept.foldl
    | with_reducible apply Kept.foldl_fst
    | intro _
    | (extract_lets +onlyGivenNames x; with_reducible refine Kept.cut (W := W) (s₀ := s₀) (s := x) ?_ (fun _ => ?_); (on_goal 1 => subst x); on_goal 2 => clear_value x)
    | (extract_lets +onlyGivenNames x; subst x)
    | split

theorem Kept.planGate (h : Kept W s₀ s) (_ : W .slices) (_ : W .freeIdx) (a1) : Kept W s₀ (State.planGate s a1) := by
  unfold State.planGate
  repeat' first
    | with_reducible assumption
    | with_reducible apply Kept.ite
    | with_reducible apply Kept.free
    | with_reducible apply Kept.modSlice
    | with_reducible refine Kept.snd (by assumption) ?_
    | intro _
    | (extract_lets +onlyGivenNames x; with_reducible refine Kept.cut (W := W) (s₀ := s₀) (s := x) ?_ (fun _ => ?_); (on_goal 1 => subst x); on_goal 2 => clear_value x)
    | (extract_lets +onlyGivenNames x; subst x)
    | split

theorem Kept.planPower (h : Kept W s₀ s) (_ : W .power) (_ : W .slices) (_ : W .engCtr) (_ : W .slcCtr) (_ : W .freeIdx) (a1) : Kept W s₀ (State.planPower s a1) := by
  unfold State.planPower
  repeat' first
    | with_reducible assumption
    | with_reducible apply Kept.ite
    | with_reducible apply Kept.each
    | with_reducible apply Kept.modSlice
    | with_reducible apply Kept.setPoint
    | with_reducible apply Kept.planGate
    | with_reducible apply Kept.planStack
    | with_reducible apply Kept.planSlice
    | with_reducible apply Kept.countSlice
    | with_reducible apply Kept.count
    | with_reducible apply Kept.foldl
    | with_reducible apply Kept.foldl_fst
    | intro _
    | (extract_lets +onlyGivenNames x; with_reducible refine Kept.cut (W := W) (s₀ := s₀) (s := x) ?_ (fun _ => ?_); (on_goal 1 => subst x); on_goal 2 => clear_value x)
    | (extract_lets +onlyGivenNames x; subst x)
    | split
    | with_reducible apply Kept.set_power

theorem Kept.queue_ (h : Kept W s₀ s) (_ : W .frames) : Kept W s₀ (State.queue s) := by
  unfold State.queue
  repeat' first
    | with_reducible assumption
    | with_reducible apply Kept.ite
    | with_reducible apply Kept.foldl
    | with_reducible apply Kept.foldl_fst
    | intro _
    | (extract_lets +onlyGivenNames x; with_reducible refine Kept.cut (W := W) (s₀ := s₀) (s := x) ?_ (fun _ => ?_); (on_goal 1 => subst x); on_goal 2 => clear_value x)
    | (extract_lets +onlyGivenNames x; subst x)
    | split
    | with_reducible apply Kept.set_frames

theorem Kept.makePlan (h : Kept W s₀ s) (_ : W .link) (_ : W .frames) (_ : W .fab) (_ : W .power) (_ : W .health) (_ : W .slices) (_ : W .ctxs) (_ : W .branches) (_ : W .pctr) (_ : W .poison) (_ : W .engCtr) (_ : W .slcCtr) (_ : W .ctxCtr) (_ : W .sram) (_ : W .mem) (_ : W .freeIdx) (a1) : Kept W s₀ (State.makePlan s a1) := by
  unfold State.makePlan
  repeat' first
    | with_reducible assumption
    | with_reducible apply Kept.ite
    | with_reducible apply Kept.planPower
    | with_reducible apply Kept.queue_
    | with_reducible apply Kept.count
    | with_reducible apply Kept.each
    | with_reducible apply Kept.modSlice
    | with_reducible apply Kept.applyLanded
    | with_reducible apply Kept.pushSums
    | with_reducible apply Kept.pumpJobs
    | with_reducible apply Kept.issuePieces
    | with_reducible apply Kept.foldl
    | with_reducible apply Kept.foldl_fst
    | intro _
    | (extract_lets +onlyGivenNames x; with_reducible refine Kept.cut (W := W) (s₀ := s₀) (s := x) ?_ (fun _ => ?_); (on_goal 1 => subst x); on_goal 2 => clear_value x)
    | (extract_lets +onlyGivenNames x; subst x)
    | split
    | with_reducible apply Kept.set_frames

theorem Kept.missEvent (h : Kept W s₀ s) (_ : W .link) (_ : W .engCtr) (a1) : Kept W s₀ (State.missEvent s a1) := by
  unfold State.missEvent
  repeat' first
    | with_reducible assumption
    | with_reducible apply Kept.ite
    | with_reducible apply Kept.emit
    | with_reducible apply Kept.foldl
    | with_reducible apply Kept.foldl_fst
    | intro _
    | (extract_lets +onlyGivenNames x; with_reducible refine Kept.cut (W := W) (s₀ := s₀) (s := x) ?_ (fun _ => ?_); (on_goal 1 => subst x); on_goal 2 => clear_value x)
    | (extract_lets +onlyGivenNames x; subst x)
    | split

theorem Kept.openFrame (h : Kept W s₀ s) (_ : W .win) (_ : W .link) (_ : W .frames) (_ : W .fab) (_ : W .power) (_ : W .health) (_ : W .slices) (_ : W .ctxs) (_ : W .engCtr) (_ : W .slcCtr) (_ : W .ctxCtr) (_ : W .freeIdx) (a1) : Kept W s₀ (State.openFrame s a1) := by
  unfold State.openFrame
  repeat' first
    | with_reducible assumption
    | with_reducible apply Kept.holdFrame
    | with_reducible apply Kept.ite
    | with_reducible apply Kept.each
    | with_reducible apply Kept.closeSlice
    | with_reducible apply Kept.modPeel
    | with_reducible apply Kept.judgeTemp
    | with_reducible apply Kept.judgeRisk
    | with_reducible apply Kept.judgeSigns
    | with_reducible apply Kept.foldl
    | with_reducible apply Kept.foldl_fst
    | intro _
    | (extract_lets +onlyGivenNames x; with_reducible refine Kept.cut (W := W) (s₀ := s₀) (s := x) ?_ (fun _ => ?_); (on_goal 1 => subst x); on_goal 2 => clear_value x)
    | (extract_lets +onlyGivenNames x; subst x)
    | split
    | with_reducible apply Kept.set_win_frames_fab_power
    | with_reducible apply Kept.set_win
    | with_reducible apply Kept.set_frames
    | with_reducible apply Kept.set_fab
    | with_reducible apply Kept.set_power
    | with_reducible apply Kept.set_ctxs
    | with_reducible apply mwf_mset
    | with_reducible apply mwf_merase
    | with_reducible apply mwf_mkeep
    | with_reducible apply mwf_mmap

theorem Kept.retire (h : Kept W s₀ s) (_ : W .link) (_ : W .frames) (_ : W .fab) (_ : W .health) (_ : W .slices) (_ : W .ctxs) (_ : W .pctr) (_ : W .poison) (_ : W .engCtr) (_ : W .slcCtr) (_ : W .ctxCtr) (_ : W .sram) : Kept W s₀ (State.retire s) := by
  unfold State.retire
  repeat' first
    | with_reducible assumption
    | with_reducible apply Kept.ite
    | with_reducible apply Kept.each
    | with_reducible apply Kept.modSlice
    | with_reducible apply Kept.serve
    | with_reducible apply Kept.countPieces
    | with_reducible apply Kept.chargeSlice
    | with_reducible apply Kept.countGoodput
    | with_reducible apply Kept.raiseSparse
    | with_reducible apply Kept.sendCommits
    | with_reducible apply Kept.foldl
    | with_reducible apply Kept.foldl_fst
    | intro _
    | (extract_lets +onlyGivenNames x; with_reducible refine Kept.cut (W := W) (s₀ := s₀) (s := x) ?_ (fun _ => ?_); (on_goal 1 => subst x); on_goal 2 => clear_value x)
    | (extract_lets +onlyGivenNames x; subst x)
    | split
    | with_reducible apply Kept.set_frames

theorem Kept.stopHint (h : Kept W s₀ s) (_ : W .link) (_ : W .ctxs) (a1 a2) : Kept W s₀ (State.stopHint s a1 a2) := by
  unfold State.stopHint
  repeat' first
    | with_reducible assumption
    | with_reducible apply Kept.ite
    | with_reducible apply Kept.modCtx
    | with_reducible apply Kept.finish
    | with_reducible apply Kept.foldl
    | with_reducible apply Kept.foldl_fst
    | intro _
    | (extract_lets +onlyGivenNames x; with_reducible refine Kept.cut (W := W) (s₀ := s₀) (s := x) ?_ (fun _ => ?_); (on_goal 1 => subst x); on_goal 2 => clear_value x)
    | (extract_lets +onlyGivenNames x; subst x)
    | split

theorem Kept.switchPeriod (h : Kept W s₀ s) (_ : W .link) (_ : W .frames) (_ : W .fab) (_ : W .ctxs) (a1) : Kept W s₀ (State.switchPeriod s a1) := by
  unfold State.switchPeriod
  repeat' first
    | with_reducible assumption
    | with_reducible apply Kept.ite
    | with_reducible apply Kept.finish
    | with_reducible apply Kept.foldl
    | with_reducible apply Kept.foldl_fst
    | intro _
    | (extract_lets +onlyGivenNames x; with_reducible refine Kept.cut (W := W) (s₀ := s₀) (s := x) ?_ (fun _ => ?_); (on_goal 1 => subst x); on_goal 2 => clear_value x)
    | (extract_lets +onlyGivenNames x; subst x)
    | split
    | with_reducible apply Kept.set_link_frames_fab_ctxs
    | with_reducible apply Kept.set_link
    | with_reducible apply Kept.set_frames
    | with_reducible apply Kept.set_fab
    | with_reducible apply Kept.set_ctxs
    | with_reducible apply mwf_mset
    | with_reducible apply mwf_merase
    | with_reducible apply mwf_mkeep
    | with_reducible apply mwf_mmap

theorem Kept.on_effSetFrame (h : Kept W s₀ s) (_ : W .link) (a1) : Kept W s₀ (effSetFrame a1 s) := by
  unfold effSetFrame
  repeat' first
    | with_reducible assumption
    | with_reducible apply Kept.ite
    | with_reducible apply Kept.done
    | with_reducible apply Kept.foldl
    | with_reducible apply Kept.foldl_fst
    | intro _
    | (extract_lets +onlyGivenNames x; with_reducible refine Kept.cut (W := W) (s₀ := s₀) (s := x) ?_ (fun _ => ?_); (on_goal 1 => subst x); on_goal 2 => clear_value x)
    | (extract_lets +onlyGivenNames x; subst x)
    | split

theorem Kept.on_execDeadlineMiss (h : Kept W s₀ s) (_ : W .link) (_ : W .ctxs) (_ : W .engCtr) (_ : W .ctxCtr) (a1 a2) : KeptX W s₀ (execDeadlineMiss a1 a2 s) := by
  unfold execDeadlineMiss
  repeat' first
    | with_reducible assumption
    | with_reducible apply KeptX.next
    | with_reducible apply KeptX.ite
    | with_reducible apply Kept.ite
    | with_reducible apply Kept.modAdm
    | with_reducible apply Kept.count
    | with_reducible apply Kept.skipPublish
    | with_reducible apply Kept.missEvent
    | with_reducible apply Kept.holdStep
    | with_reducible apply Kept.stopHint
    | with_reducible apply Kept.foldl
    | with_reducible apply Kept.foldl_fst
    | intro _
    | (extract_lets +onlyGivenNames x; with_reducible refine Kept.cut (W := W) (s₀ := s₀) (s := x) ?_ (fun _ => ?_); (on_goal 1 => subst x); on_goal 2 => clear_value x)
    | (extract_lets +onlyGivenNames x; subst x)
    | split

theorem Kept.on_execFramePeriodSwitch (h : Kept W s₀ s) (_ : W .link) (_ : W .frames) (_ : W .fab) (_ : W .ctxs) (a1) : KeptX W s₀ (execFramePeriodSwitch a1 s) := by
  unfold execFramePeriodSwitch
  repeat' first
    | with_reducible assumption
    | with_reducible apply KeptX.next
    | with_reducible apply KeptX.ite
    | with_reducible apply Kept.ite
    | with_reducible apply Kept.switchPeriod
    | with_reducible apply Kept.foldl
    | with_reducible apply Kept.foldl_fst
    | intro _
    | (extract_lets +onlyGivenNames x; with_reducible refine Kept.cut (W := W) (s₀ := s₀) (s := x) ?_ (fun _ => ?_); (on_goal 1 => subst x); on_goal 2 => clear_value x)
    | (extract_lets +onlyGivenNames x; subst x)
    | split

theorem Kept.on_execFramePlanBuild (h : Kept W s₀ s) (_ : W .boot) (_ : W .win) (_ : W .link) (_ : W .frames) (_ : W .fab) (_ : W .power) (_ : W .health) (_ : W .slices) (_ : W .ctxs) (_ : W .branches) (_ : W .pctr) (_ : W .poison) (_ : W .engCtr) (_ : W .slcCtr) (_ : W .ctxCtr) (_ : W .sram) (_ : W .mem) (_ : W .freeIdx) (a1) : KeptX W s₀ (execFramePlanBuild a1 s) := by
  unfold execFramePlanBuild
  repeat' first
    | with_reducible assumption
    | with_reducible apply KeptX.next
    | with_reducible apply KeptX.ite
    | with_reducible apply Kept.ite
    | with_reducible apply Kept.faultFreeze
    | with_reducible apply Kept.openFrame
    | with_reducible apply Kept.switchPeriod
    | with_reducible apply Kept.emit
    | with_reducible apply Kept.count
    | with_reducible apply Kept.makePlan
    | with_reducible apply Kept.letOut
    | with_reducible apply Kept.foldl
    | with_reducible apply Kept.foldl_fst
    | intro _
    | (extract_lets +onlyGivenNames x; with_reducible refine Kept.cut (W := W) (s₀ := s₀) (s := x) ?_ (fun _ => ?_); (on_goal 1 => subst x); on_goal 2 => clear_value x)
    | (extract_lets +onlyGivenNames x; subst x)
    | split

theorem Kept.on_execPieceAged (h : Kept W s₀ s) (_ : W .frames) (a1) : KeptX W s₀ (execPieceAged a1 s) := by
  unfold execPieceAged
  repeat' first
    | with_reducible assumption
    | with_reducible apply KeptX.next
    | with_reducible apply KeptX.ite
    | with_reducible apply Kept.ite
    | with_reducible apply Kept.foldl
    | with_reducible apply Kept.foldl_fst
    | intro _
    | (extract_lets +onlyGivenNames x; with_reducible refine Kept.cut (W := W) (s₀ := s₀) (s := x) ?_ (fun _ => ?_); (on_goal 1 => subst x); on_goal 2 => clear_value x)
    | (extract_lets +onlyGivenNames x; subst x)
    | split
    | with_reducible apply Kept.set_frames

theorem Kept.on_execPlanCutoff (h : Kept W s₀ s) (_ : W .link) (_ : W .frames) (_ : W .fab) (_ : W .health) (_ : W .slices) (_ : W .ctxs) (_ : W .pctr) (_ : W .poison) (_ : W .engCtr) (_ : W .slcCtr) (_ : W .ctxCtr) (_ : W .sram) : KeptX W s₀ (execPlanCutoff s) := by
  unfold execPlanCutoff
  repeat' first
    | with_reducible assumption
    | with_reducible apply KeptX.next
    | with_reducible apply KeptX.ite
    | with_reducible apply Kept.ite
    | with_reducible apply Kept.retire
    | with_reducible apply Kept.foldl
    | with_reducible apply Kept.foldl_fst
    | intro _
    | (extract_lets +onlyGivenNames x; with_reducible refine Kept.cut (W := W) (s₀ := s₀) (s := x) ?_ (fun _ => ?_); (on_goal 1 => subst x); on_goal 2 => clear_value x)
    | (extract_lets +onlyGivenNames x; subst x)
    | split

theorem Kept.on_takeSetFrame (h : Kept W s₀ s) (_ : W .frames) (a1) : Kept W s₀ (takeSetFrame a1 s) := by
  unfold takeSetFrame
  repeat' first
    | with_reducible assumption
    | with_reducible apply Kept.ite
    | with_reducible apply Kept.foldl
    | with_reducible apply Kept.foldl_fst
    | intro _
    | (extract_lets +onlyGivenNames x; with_reducible refine Kept.cut (W := W) (s₀ := s₀) (s := x) ?_ (fun _ => ?_); (on_goal 1 => subst x); on_goal 2 => clear_value x)
    | (extract_lets +onlyGivenNames x; subst x)
    | split
    | with_reducible apply Kept.set_frames

theorem Kept.on_execSetFrame (h : Kept W s₀ s) (_ : W .link) (_ : W .frames) (_ : W .power) (_ : W .engCtr) (a1) : KeptX W s₀ (execSetFrame a1 s) := by
  unfold execSetFrame
  repeat' first
    | with_reducible assumption
    | with_reducible apply KeptX.next
    | with_reducible apply KeptX.ite
    | with_reducible apply Kept.ite
    | with_reducible apply Kept.runCmd
    | with_reducible apply Kept.on_takeSetFrame
    | with_reducible apply Kept.on_effSetFrame
    | with_reducible apply Kept.foldl
    | with_reducible apply Kept.foldl_fst
    | intro _
    | (extract_lets +onlyGivenNames x; with_reducible refine Kept.cut (W := W) (s₀ := s₀) (s := x) ?_ (fun _ => ?_); (on_goal 1 => subst x); on_goal 2 => clear_value x)
    | (extract_lets +onlyGivenNames x; subst x)
    | split

theorem Kept.on_execTickLockLoss (h : Kept W s₀ s) (_ : W .link) (_ : W .frames) (_ : W .fab) (_ : W .health) (_ : W .slices) (_ : W .ctxs) (_ : W .pctr) (_ : W .poison) (_ : W .engCtr) (_ : W .slcCtr) (_ : W .ctxCtr) (_ : W .sram) : KeptX W s₀ (execTickLockLoss s) := by
  unfold execTickLockLoss
  repeat' first
    | with_reducible assumption
    | with_reducible apply KeptX.next
    | with_reducible apply KeptX.ite
    | with_reducible apply Kept.ite
    | with_reducible apply Kept.count
    | with_reducible apply Kept.retire
    | with_reducible apply Kept.foldl
    | with_reducible apply Kept.foldl_fst
    | intro _
    | (extract_lets +onlyGivenNames x; with_reducible refine Kept.cut (W := W) (s₀ := s₀) (s := x) ?_ (fun _ => ?_); (on_goal 1 => subst x); on_goal 2 => clear_value x)
    | (extract_lets +onlyGivenNames x; subst x)
    | split
    | with_reducible apply Kept.set_frames

theorem Kept.on_execTickLockRegained (h : Kept W s₀ s) (_ : W .frames) (_ : W .engCtr) (a1) : KeptX W s₀ (execTickLockRegained a1 s) := by
  unfold execTickLockRegained
  repeat' first
    | with_reducible assumption
    | with_reducible apply KeptX.next
    | with_reducible apply KeptX.ite
    | with_reducible apply Kept.ite
    | with_reducible apply Kept.count
    | with_reducible apply Kept.foldl
    | with_reducible apply Kept.foldl_fst
    | intro _
    | (extract_lets +onlyGivenNames x; with_reducible refine Kept.cut (W := W) (s₀ := s₀) (s := x) ?_ (fun _ => ?_); (on_goal 1 => subst x); on_goal 2 => clear_value x)
    | (extract_lets +onlyGivenNames x; subst x)
    | split
    | with_reducible apply Kept.set_frames

theorem Kept.clearBank (h : Kept W s₀ s) (_ : W .ctxCtr) (a1) : Kept W s₀ (State.clearBank s a1) := by
  unfold State.clearBank
  repeat' first
    | with_reducible assumption
    | with_reducible apply Kept.ite
    | with_reducible apply Kept.foldl
    | with_reducible apply Kept.foldl_fst
    | intro _
    | (extract_lets +onlyGivenNames x; with_reducible refine Kept.cut (W := W) (s₀ := s₀) (s := x) ?_ (fun _ => ?_); (on_goal 1 => subst x); on_goal 2 => clear_value x)
    | (extract_lets +onlyGivenNames x; subst x)
    | split
    | with_reducible apply Kept.set_ctxCtr
    | with_reducible apply mwf_mset
    | with_reducible apply mwf_merase
    | with_reducible apply mwf_mkeep
    | with_reducible apply mwf_mmap

theorem Kept.dropRanges (h : Kept W s₀ s) (_ : W .slices) (_ : W .ctxs) (a1) : Kept W s₀ (State.dropRanges s a1) := by
  unfold State.dropRanges
  repeat' first
    | with_reducible assumption
    | with_reducible apply Kept.ite
    | with_reducible apply Kept.unprotect
    | with_reducible apply Kept.modCtx
    | with_reducible apply Kept.each
    | with_reducible apply Kept.modSlice
    | with_reducible apply Kept.foldl
    | with_reducible apply Kept.foldl_fst
    | intro _
    | (extract_lets +onlyGivenNames x; with_reducible refine Kept.cut (W := W) (s₀ := s₀) (s := x) ?_ (fun _ => ?_); (on_goal 1 => subst x); on_goal 2 => clear_value x)
    | (extract_lets +onlyGivenNames x; subst x)
    | split

theorem Kept.endCommands (h : Kept W s₀ s) (_ : W .link) (_ : W .frames) (a1) : Kept W s₀ (State.endCommands s a1) := by
  unfold State.endCommands
  repeat' first
    | with_reducible assumption
    | with_reducible apply Kept.ite
    | with_reducible apply Kept.each
    | with_reducible apply Kept.finish
    | with_reducible apply Kept.foldl
    | with_reducible apply Kept.foldl_fst
    | intro _
    | (extract_lets +onlyGivenNames x; with_reducible refine Kept.cut (W := W) (s₀ := s₀) (s := x) ?_ (fun _ => ?_); (on_goal 1 => subst x); on_goal 2 => clear_value x)
    | (extract_lets +onlyGivenNames x; subst x)
    | split
    | with_reducible apply Kept.set_frames

theorem Kept.freeStacks (h : Kept W s₀ s) (_ : W .slices) (_ : W .slcCtr) (a1) : Kept W s₀ (State.freeStacks s a1) := by
  unfold State.freeStacks
  repeat' first
    | with_reducible assumption
    | with_reducible apply Kept.ite
    | with_reducible apply Kept.each
    | with_reducible apply Kept.freeStack
    | with_reducible apply Kept.startCopies
    | with_reducible apply Kept.foldl
    | with_reducible apply Kept.foldl_fst
    | intro _
    | (extract_lets +onlyGivenNames x; with_reducible refine Kept.cut (W := W) (s₀ := s₀) (s := x) ?_ (fun _ => ?_); (on_goal 1 => subst x); on_goal 2 => clear_value x)
    | (extract_lets +onlyGivenNames x; subst x)
    | split

theorem Kept.dropOf (h : Kept W s₀ s) (_ : W .frames) (_ : W .fab) (_ : W .slices) (a1) : Kept W s₀ (State.dropOf s a1) := by
  unfold State.dropOf
  repeat' first
    | with_reducible assumption
    | with_reducible apply Kept.ite
    | with_reducible apply Kept.each
    | with_reducible apply Kept.quarantine
    | with_reducible apply Kept.foldl
    | with_reducible apply Kept.foldl_fst
    | intro _
    | (extract_lets +onlyGivenNames x; with_reducible refine Kept.cut (W := W) (s₀ := s₀) (s := x) ?_ (fun _ => ?_); (on_goal 1 => subst x); on_goal 2 => clear_value x)
    | (extract_lets +onlyGivenNames x; subst x)
    | split
    | with_reducible apply Kept.set_frames_slices
    | with_reducible apply Kept.set_frames
    | with_reducible apply Kept.set_fab
    | with_reducible apply Kept.set_slices
    | with_reducible apply mwf_mset
    | with_reducible apply mwf_merase
    | with_reducible apply mwf_mkeep
    | with_reducible apply mwf_mmap

theorem Kept.vacate (h : Kept W s₀ s) (_ : W .frames) (_ : W .fab) (_ : W .slices) (_ : W .ctxs) (a1) : Kept W s₀ (State.vacate s a1) := by
  unfold State.vacate
  repeat' first
    | with_reducible assumption
    | with_reducible apply Kept.ite
    | with_reducible apply Kept.dropOf
    | with_reducible apply Kept.foldl
    | with_reducible apply Kept.foldl_fst
    | intro _
    | (extract_lets +onlyGivenNames x; with_reducible refine Kept.cut (W := W) (s₀ := s₀) (s := x) ?_ (fun _ => ?_); (on_goal 1 => subst x); on_goal 2 => clear_value x)
    | (extract_lets +onlyGivenNames x; subst x)
    | split
    | with_reducible apply Kept.set_ctxs
    | with_reducible apply mwf_mset
    | with_reducible apply mwf_merase
    | with_reducible apply mwf_mkeep
    | with_reducible apply mwf_mmap

theorem Kept.contextReset (h : Kept W s₀ s) (_ : W .link) (_ : W .frames) (_ : W .fab) (_ : W .slices) (_ : W .ctxs) (_ : W .branches) (_ : W .slcCtr) (_ : W .ctxCtr) (a1) : Kept W s₀ (State.contextReset s a1) := by
  unfold State.contextReset
  repeat' first
    | with_reducible assumption
    | with_reducible apply Kept.ite
    | with_reducible apply Kept.dropRanges
    | with_reducible apply Kept.endCommands
    | with_reducible apply Kept.clearBank
    | with_reducible apply Kept.freeStacks
    | with_reducible apply Kept.vacate
    | with_reducible apply Kept.foldl
    | with_reducible apply Kept.foldl_fst
    | intro _
    | (extract_lets +onlyGivenNames x; with_reducible refine Kept.cut (W := W) (s₀ := s₀) (s := x) ?_ (fun _ => ?_); (on_goal 1 => subst x); on_goal 2 => clear_value x)
    | (extract_lets +onlyGivenNames x; subst x)
    | split
    | with_reducible apply Kept.set_branches
    | with_reducible apply mwf_mset
    | with_reducible apply mwf_merase
    | with_reducible apply mwf_mkeep
    | with_reducible apply mwf_mmap

theorem Kept.on_effCtxClose (h : Kept W s₀ s) (_ : W .link) (_ : W .fab) (_ : W .slices) (_ : W .ctxs) (_ : W .engCtr) (_ : W .slcCtr) (_ : W .ctxCtr) (a1) : Kept W s₀ (effCtxClose a1 s) := by
  unfold effCtxClose
  repeat' first
    | with_reducible assumption
    | with_reducible apply Kept.ite
    | with_reducible apply Kept.freeStacks
    | with_reducible apply Kept.done
    | with_reducible apply Kept.each
    | with_reducible apply Kept.issue
    | with_reducible apply Kept.foldl
    | with_reducible apply Kept.foldl_fst
    | intro _
    | (extract_lets +onlyGivenNames x; with_reducible refine Kept.cut (W := W) (s₀ := s₀) (s := x) ?_ (fun _ => ?_); (on_goal 1 => subst x); on_goal 2 => clear_value x)
    | (extract_lets +onlyGivenNames x; subst x)
    | split

theorem Kept.on_effSampleRow (h : Kept W s₀ s) (_ : W .link) (_ : W .fab) (_ : W .slices) (_ : W .ctxs) (_ : W .engCtr) (_ : W .slcCtr) (_ : W .ctxCtr) (a1) : Kept W s₀ (effSampleRow a1 s) := by
  unfold effSampleRow
  repeat' first
    | with_reducible assumption
    | with_reducible apply Kept.ite
    | with_reducible apply Kept.finish
    | with_reducible apply Kept.modAdm
    | with_reducible apply Kept.each
    | with_reducible apply Kept.demandLoaf
    | with_reducible apply Kept.waitRead
    | with_reducible apply Kept.endRead
    | with_reducible apply Kept.touch
    | with_reducible apply Kept.serve
    | with_reducible apply Kept.done
    | with_reducible apply Kept.foldl
    | with_reducible apply Kept.foldl_fst
    | intro _
    | (extract_lets +onlyGivenNames x; with_reducible refine Kept.cut (W := W) (s₀ := s₀) (s := x) ?_ (fun _ => ?_); (on_goal 1 => subst x); on_goal 2 => clear_value x)
    | (extract_lets +onlyGivenNames x; subst x)
    | split

theorem Kept.on_takeCtxClose (h : Kept W s₀ s) (_ : W .link) (_ : W .frames) (_ : W .fab) (_ : W .slices) (_ : W .ctxs) (a1) : Kept W s₀ (takeCtxClose a1 s) := by
  unfold takeCtxClose
  repeat' first
    | with_reducible assumption
    | with_reducible apply Kept.ite
    | with_reducible apply Kept.modAdm
    | with_reducible apply Kept.vacate
    | with_reducible apply Kept.foldl
    | with_reducible apply Kept.foldl_fst
    | intro _
    | (extract_lets +onlyGivenNames x; with_reducible refine Kept.cut (W := W) (s₀ := s₀) (s := x) ?_ (fun _ => ?_); (on_goal 1 => subst x); on_goal 2 => clear_value x)
    | (extract_lets +onlyGivenNames x; subst x)
    | split

theorem Kept.on_execCtxClose (h : Kept W s₀ s) (_ : W .link) (_ : W .frames) (_ : W .fab) (_ : W .power) (_ : W .slices) (_ : W .ctxs) (_ : W .engCtr) (_ : W .slcCtr) (_ : W .ctxCtr) (a1) : KeptX W s₀ (execCtxClose a1 s) := by
  unfold execCtxClose
  repeat' first
    | with_reducible assumption
    | with_reducible apply KeptX.next
    | with_reducible apply KeptX.ite
    | with_reducible apply Kept.ite
    | with_reducible apply Kept.runCmd
    | with_reducible apply Kept.on_takeCtxClose
    | with_reducible apply Kept.on_effCtxClose
    | with_reducible apply Kept.foldl
    | with_reducible apply Kept.foldl_fst
    | intro _
    | (extract_lets +onlyGivenNames x; with_reducible refine Kept.cut (W := W) (s₀ := s₀) (s := x) ?_ (fun _ => ?_); (on_goal 1 => subst x); on_goal 2 => clear_value x)
    | (extract_lets +onlyGivenNames x; subst x)
    | split

theorem Kept.on_takeCtxOpen (h : Kept W s₀ s) (_ : W .ctxs) (_ : W .ctxCtr) (a1) : Kept W s₀ (takeCtxOpen a1 s) := by
  unfold takeCtxOpen
  repeat' first
    | with_reducible assumption
    | with_reducible apply Kept.ite
    | with_reducible apply Kept.clearBank
    | with_reducible apply Kept.modCtx
    | with_reducible apply Kept.foldl
    | with_reducible apply Kept.foldl_fst
    | intro _
    | (extract_lets +onlyGivenNames x; with_reducible refine Kept.cut (W := W) (s₀ := s₀) (s := x) ?_ (fun _ => ?_); (on_goal 1 => subst x); on_goal 2 => clear_value x)
    | (extract_lets +onlyGivenNames x; subst x)
    | split

theorem Kept.on_execCtxOpen (h : Kept W s₀ s) (_ : W .link) (_ : W .power) (_ : W .ctxs) (_ : W .engCtr) (_ : W .ctxCtr) (a1) : KeptX W s₀ (execCtxOpen a1 s) := by
  unfold execCtxOpen
  repeat' first
    | with_reducible assumption
    | with_reducible apply KeptX.next
    | with_reducible apply KeptX.ite
    | with_reducible apply Kept.ite
    | with_reducible apply Kept.runCmd
    | with_reducible apply Kept.on_takeCtxOpen
    | with_reducible apply Kept.on_effDone0
    | with_reducible apply Kept.foldl
    | with_reducible apply Kept.foldl_fst
    | intro _
    | (extract_lets +onlyGivenNames x; with_reducible refine Kept.cut (W := W) (s₀ := s₀) (s := x) ?_ (fun _ => ?_); (on_goal 1 => subst x); on_goal 2 => clear_value x)
    | (extract_lets +onlyGivenNames x; subst x)
    | split

theorem Kept.on_execSampleRow (h : Kept W s₀ s) (_ : W .link) (_ : W .fab) (_ : W .power) (_ : W .slices) (_ : W .ctxs) (_ : W .engCtr) (_ : W .slcCtr) (_ : W .ctxCtr) (a1) : KeptX W s₀ (execSampleRow a1 s) := by
  unfold execSampleRow
  repeat' first
    | with_reducible assumption
    | with_reducible apply KeptX.next
    | with_reducible apply KeptX.ite
    | with_reducible apply Kept.ite
    | with_reducible apply Kept.runCmd
    | with_reducible apply Kept.on_noTake
    | with_reducible apply Kept.on_effSampleRow
    | with_reducible apply Kept.foldl
    | with_reducible apply Kept.foldl_fst
    | intro _
    | (extract_lets +onlyGivenNames x; with_reducible refine Kept.cut (W := W) (s₀ := s₀) (s := x) ?_ (fun _ => ?_); (on_goal 1 => subst x); on_goal 2 => clear_value x)
    | (extract_lets +onlyGivenNames x; subst x)
    | split

theorem Kept.guardFreeze (h : Kept W s₀ s) (_ : W .boot) : Kept W s₀ s.guardFreeze := by
  unfold State.guardFreeze
  refine Kept.countGuard ?_ ‹_› 3
  exact h.set_boot ‹_› fun g => ⟨g.supply, g.cold, g.frozen, g.fault⟩

theorem Kept.guardThaw (h : Kept W s₀ s) (_ : W .boot) (_ : W .link) (_ : W .fab) (_ : W .health) (_ : W .slices) (_ : W .ctxs) (_ : W .engCtr) (_ : W .slcCtr) (_ : W .ctxCtr) (_ : W .mem) (_ : W .freeIdx) : Kept W s₀ (State.guardThaw s) := by
  unfold State.guardThaw
  repeat' first
    | with_reducible assumption
    | with_reducible apply Kept.ite
    | exact fun g => ⟨g.supply, g.cold, g.frozen, g.fault⟩
    | with_reducible apply Kept.countGuard
    | with_reducible apply Kept.takeHeld
    | with_reducible apply Kept.foldl
    | with_reducible apply Kept.foldl_fst
    | intro _
    | (extract_lets +onlyGivenNames x; with_reducible refine Kept.cut (W := W) (s₀ := s₀) (s := x) ?_ (fun _ => ?_); (on_goal 1 => subst x); on_goal 2 => clear_value x)
    | (extract_lets +onlyGivenNames x; subst x)
    | split
    | with_reducible apply Kept.set_boot

theorem Kept.mgtAnswer (h : Kept W s₀ s) (_ : W .boot) (a b c) : Kept W s₀ (s.mgtAnswer a b c) := by
  unfold State.mgtAnswer
  have h1 := fun v => h.set_boot (v := { s.boot with mgt := v }) ‹_› fun g => ⟨g.supply, g.cold, g.frozen, g.fault⟩
  dsimp only
  split
  · exact h1 _
  · exact (h1 _).countGuard ‹_› _

theorem State.up_mgtAnswer (s : State) (r e d) : (s.mgtAnswer r e d).up = s.up := by
  unfold State.mgtAnswer
  dsimp only
  split <;> rfl
theorem Kept.manage (h : Kept W s₀ s) (_ : W .boot) (op r data) {act : State → State}
    (ha : ∀ t, Kept W s₀ t → t.up = true → Kept W s₀ (act t)) : Kept W s₀ (s.manage op r data act) := by
  unfold State.manage
  split
  · exact h
  · rename_i hu
    have hu : s.up = true := by
      cases e : s.up
      · exact absurd (Or.inl e) hu
      · rfl
    dsimp only
    split
    · exact ha _ (h.mgtAnswer ‹_› _ _ _) ((s.up_mgtAnswer _ _ _).trans hu)
    · exact h.mgtAnswer ‹_› _ _ _

theorem Kept.resetOf (h : Kept W s₀ s) (_ : W .boot) (_ : W .link) (_ : W .frames) (_ : W .fab) (_ : W .slices) (_ : W .ctxs) (_ : W .branches) (_ : W .slcCtr) (_ : W .ctxCtr) (hu : s.up = true) (c) : Kept W s₀ (s.resetOf c) := by
  unfold State.resetOf
  split
  · exact h.beginWarm ‹_› ‹_› hu _ _
  · refine Kept.countGuard ?_ ‹_› _
    with_reducible apply Kept.contextReset <;> with_reducible assumption

theorem Kept.on_execContextReset (h : Kept W s₀ s) (_ : W .boot) (_ : W .link) (_ : W .frames) (_ : W .fab) (_ : W .slices) (_ : W .ctxs) (_ : W .branches) (_ : W .slcCtr) (_ : W .ctxCtr) (r) : KeptX W s₀ (execContextReset r s) := by
  unfold execContextReset
  split
  · exact .next h
  · refine .next (h.manage ‹_› _ _ _ fun t ht hu => ?_)
    with_reducible apply Kept.resetOf <;> with_reducible assumption

theorem Kept.on_execGuardCounters (h : Kept W s₀ s) (_ : W .boot) (r) : KeptX W s₀ (execGuardCounters r s) :=
  .next (h.manage ‹_› _ _ _ fun _ ht _ => ht)

theorem Kept.on_execGuardFreeze (h : Kept W s₀ s) (_ : W .boot) (a1) : KeptX W s₀ (execGuardFreeze a1 s) := by
  unfold execGuardFreeze
  repeat' first
    | with_reducible assumption
    | with_reducible apply KeptX.next
    | with_reducible apply KeptX.ite
    | with_reducible apply Kept.ite
    | with_reducible apply Kept.manage
    | with_reducible apply Kept.guardFreeze
    | with_reducible apply Kept.foldl
    | with_reducible apply Kept.foldl_fst
    | intro _
    | (extract_lets +onlyGivenNames x; with_reducible refine Kept.cut (W := W) (s₀ := s₀) (s := x) ?_ (fun _ => ?_); (on_goal 1 => subst x); on_goal 2 => clear_value x)
    | (extract_lets +onlyGivenNames x; subst x)
    | split

theorem Kept.on_execGuardReset (h : Kept W s₀ s) (_ : W .boot) (_ : W .link) (r) : KeptX W s₀ (execGuardReset r s) := by
  unfold execGuardReset
  split
  · exact .next h
  · exact .next (h.manage ‹_› _ _ _ fun t ht hu => ht.beginWarm ‹_› ‹_› hu _ _)

theorem Kept.on_execGuardStatus (h : Kept W s₀ s) (_ : W .boot) (r) : KeptX W s₀ (execGuardStatus r s) :=
  .next (h.manage ‹_› _ _ _ fun _ ht _ => ht)

theorem Kept.on_execGuardThaw (h : Kept W s₀ s) (_ : W .boot) (_ : W .link) (_ : W .fab) (_ : W .health) (_ : W .slices) (_ : W .ctxs) (_ : W .engCtr) (_ : W .slcCtr) (_ : W .ctxCtr) (_ : W .mem) (_ : W .freeIdx) (a1) : KeptX W s₀ (execGuardThaw a1 s) := by
  unfold execGuardThaw
  repeat' first
    | with_reducible assumption
    | with_reducible apply KeptX.next
    | with_reducible apply KeptX.ite
    | with_reducible apply Kept.ite
    | with_reducible apply Kept.manage
    | with_reducible apply Kept.guardThaw
    | with_reducible apply Kept.foldl
    | with_reducible apply Kept.foldl_fst
    | intro _
    | (extract_lets +onlyGivenNames x; with_reducible refine Kept.cut (W := W) (s₀ := s₀) (s := x) ?_ (fun _ => ?_); (on_goal 1 => subst x); on_goal 2 => clear_value x)
    | (extract_lets +onlyGivenNames x; subst x)
    | split

theorem Kept.on_execGuardUnknownOp (h : Kept W s₀ s) (_ : W .boot) (a1) : KeptX W s₀ (execGuardUnknownOp a1 s) := by
  unfold execGuardUnknownOp
  repeat' first
    | with_reducible assumption
    | with_reducible apply KeptX.next
    | with_reducible apply KeptX.ite
    | with_reducible apply Kept.ite
    | with_reducible apply Kept.mgtAnswer
    | with_reducible apply Kept.foldl
    | with_reducible apply Kept.foldl_fst
    | intro _
    | (extract_lets +onlyGivenNames x; with_reducible refine Kept.cut (W := W) (s₀ := s₀) (s := x) ?_ (fun _ => ?_); (on_goal 1 => subst x); on_goal 2 => clear_value x)
    | (extract_lets +onlyGivenNames x; subst x)
    | split

theorem Kept.goOn (h : Kept W s₀ s) (_ : W .link) (_ : W .fab) (_ : W .health) (_ : W .slices) (_ : W .ctxs) (_ : W .branches) (_ : W .pctr) (_ : W .poison) (_ : W .engCtr) (_ : W .slcCtr) (_ : W .ctxCtr) (_ : W .sram) (_ : W .mem) (_ : W .freeIdx) (a1) : Kept W s₀ (State.goOn s a1) := by
  unfold State.goOn
  repeat' first
    | with_reducible assumption
    | with_reducible apply Kept.skipLate
    | with_reducible apply Kept.ite
    | with_reducible apply Kept.runAccumulate
    | with_reducible apply Kept.runRollback
    | with_reducible apply Kept.runMends
    | with_reducible apply Kept.hintDone
    | with_reducible apply Kept.runExport
    | with_reducible apply Kept.runRestore
    | with_reducible apply Kept.runCommit
    | with_reducible apply Kept.foldl
    | with_reducible apply Kept.foldl_fst
    | intro _
    | (extract_lets +onlyGivenNames x; with_reducible refine Kept.cut (W := W) (s₀ := s₀) (s := x) ?_ (fun _ => ?_); (on_goal 1 => subst x); on_goal 2 => clear_value x)
    | (extract_lets +onlyGivenNames x; subst x)
    | split

theorem Kept.on_effOf (h : Kept W s₀ s) (_ : W .win) (_ : W .link) (_ : W .frames) (_ : W .fab) (_ : W .power) (_ : W .health) (_ : W .slices) (_ : W .ctxs) (_ : W .branches) (_ : W .pctr) (_ : W .poison) (_ : W .engCtr) (_ : W .slcCtr) (_ : W .ctxCtr) (_ : W .sram) (_ : W .mem) (_ : W .freeIdx) (op c) : Kept W s₀ (effOf op c s) := by
  suffices hs : ∀ f, f = effOf op → Kept W s₀ (f c s) from hs _ rfl
  intro f hf
  unfold effOf at hf
  split at hf <;> subst hf <;> first
    | (with_reducible apply Kept.on_effNop <;> with_reducible assumption)
    | (with_reducible apply Kept.on_effPing <;> with_reducible assumption)
    | (with_reducible apply Kept.on_effQueryCaps <;> with_reducible assumption)
    | (with_reducible apply Kept.on_effReadCounters <;> with_reducible assumption)
    | (with_reducible apply Kept.on_effSetEventMask <;> with_reducible assumption)
    | (with_reducible apply Kept.on_effSetFrame <;> with_reducible assumption)
    | (with_reducible apply Kept.on_effDone0 <;> with_reducible assumption)
    | (with_reducible apply Kept.on_effCtxClose <;> with_reducible assumption)
    | (with_reducible apply Kept.on_effCtxSetTilemap <;> with_reducible assumption)
    | (with_reducible apply Kept.on_effRegionDefine <;> with_reducible assumption)
    | (with_reducible apply Kept.on_effRegionSetClass <;> with_reducible assumption)
    | (with_reducible apply Kept.on_effRegionRelease <;> with_reducible assumption)
    | (with_reducible apply Kept.on_effPoolSize <;> with_reducible assumption)
    | (with_reducible apply Kept.on_effGroupJoin <;> with_reducible assumption)
    | (with_reducible apply Kept.on_effNone <;> with_reducible assumption)
    | (with_reducible apply Kept.on_effGradReady <;> with_reducible assumption)
    | (with_reducible apply Kept.on_effAccumulate <;> with_reducible assumption)
    | (with_reducible apply Kept.on_effStepPublish <;> with_reducible assumption)
    | (with_reducible apply Kept.on_effPublishTargets <;> with_reducible assumption)
    | (with_reducible apply Kept.on_effLossScale <;> with_reducible assumption)
    | (with_reducible apply Kept.on_effBakeStatus <;> with_reducible assumption)
    | (with_reducible apply Kept.on_effFence <;> with_reducible assumption)
    | (with_reducible apply Kept.on_effAdopt <;> with_reducible assumption)
    | (with_reducible apply Kept.on_effRebuildStart <;> with_reducible assumption)
    | (with_reducible apply Kept.on_effRollback <;> with_reducible assumption)
    | (with_reducible apply Kept.on_effReplay <;> with_reducible assumption)
    | (with_reducible apply Kept.on_effMendTile <;> with_reducible assumption)
    | (with_reducible apply Kept.on_effKneadHint <;> with_reducible assumption)
    | (with_reducible apply Kept.on_effKneadPin <;> with_reducible assumption)
    | (with_reducible apply Kept.on_effPolicy <;> with_reducible assumption)
    | (with_reducible apply Kept.on_effExportBegin <;> with_reducible assumption)
    | (with_reducible apply Kept.on_effExportNext <;> with_reducible assumption)
    | (with_reducible apply Kept.on_effRestoreBegin <;> with_reducible assumption)
    | (with_reducible apply Kept.on_effRestoreNext <;> with_reducible assumption)
    | (with_reducible apply Kept.on_effRestoreCommit <;> with_reducible assumption)
    | (with_reducible apply Kept.on_effBranchTake <;> with_reducible assumption)
    | (with_reducible apply Kept.on_effBranchRestore <;> with_reducible assumption)
    | (with_reducible apply Kept.on_effBranchFork <;> with_reducible assumption)
    | (with_reducible apply Kept.on_effBranchDrop <;> with_reducible assumption)
    | (with_reducible apply Kept.on_effPowerEnvelope <;> with_reducible assumption)
    | (with_reducible apply Kept.on_effCalUserSet <;> with_reducible assumption)
    | (with_reducible apply Kept.on_effRiskWeights <;> with_reducible assumption)
    | (with_reducible apply Kept.on_effHealthMode <;> with_reducible assumption)
    | (with_reducible apply Kept.on_effSampleRow <;> with_reducible assumption)
    | (with_reducible apply Kept.on_effCounterOp <;> with_reducible assumption)
    | (with_reducible apply Kept.on_effCheckbit <;> with_reducible assumption)
    | (with_reducible apply Kept.on_effRawRead <;> with_reducible assumption)
    | (with_reducible apply Kept.on_effGateForce <;> with_reducible assumption)
    | (with_reducible apply Kept.on_effCancelTag <;> with_reducible assumption)
    | (with_reducible apply Kept.on_effCancelContext <;> with_reducible assumption)

theorem Kept.takeUp (h : Kept W s₀ s) (_ : W .win) (_ : W .link) (_ : W .frames) (_ : W .fab) (_ : W .power) (_ : W .health) (_ : W .slices) (_ : W .ctxs) (_ : W .branches) (_ : W .pctr) (_ : W .poison) (_ : W .engCtr) (_ : W .slcCtr) (_ : W .ctxCtr) (_ : W .sram) (_ : W .mem) (_ : W .freeIdx) (a1 a2) : Kept W s₀ (State.takeUp s a1 a2) := by
  unfold State.takeUp
  repeat' first
    | with_reducible assumption
    | with_reducible apply Kept.ite
    | with_reducible apply Kept.beginOrWait
    | with_reducible apply Kept.on_effOf
    | with_reducible apply Kept.goOn
    | with_reducible apply Kept.foldl
    | with_reducible apply Kept.foldl_fst
    | intro _
    | (extract_lets +onlyGivenNames x; with_reducible refine Kept.cut (W := W) (s₀ := s₀) (s := x) ?_ (fun _ => ?_); (on_goal 1 => subst x); on_goal 2 => clear_value x)
    | (extract_lets +onlyGivenNames x; subst x)
    | split

theorem Kept.idle (h : Kept W s₀ s) (_ : W .win) (_ : W .link) (_ : W .frames) (_ : W .fab) (_ : W .power) (_ : W .health) (_ : W .slices) (_ : W .ctxs) (_ : W .branches) (_ : W .pctr) (_ : W .poison) (_ : W .engCtr) (_ : W .slcCtr) (_ : W .ctxCtr) (_ : W .sram) (_ : W .mem) (_ : W .freeIdx) : Kept W s₀ (State.idle s) := by
  unfold State.idle
  repeat' first
    | with_reducible assumption
    | with_reducible apply Kept.ite
    | with_reducible apply Kept.each
    | with_reducible apply Kept.takeUp
    | with_reducible apply Kept.pushSums
    | with_reducible apply Kept.foldl
    | with_reducible apply Kept.foldl_fst
    | intro _
    | (extract_lets +onlyGivenNames x; with_reducible refine Kept.cut (W := W) (s₀ := s₀) (s := x) ?_ (fun _ => ?_); (on_goal 1 => subst x); on_goal 2 => clear_value x)
    | (extract_lets +onlyGivenNames x; subst x)
    | split

end Sys2Proof.Machine
end

