-- ==== Sys2Proof/Laws/Exec.lean ====
section
/-!
SUPPORT. Laws/Exec.lean: what every command and every step does: it answers a next state, keeps the queue and a sound state,
and changes only its own parts of the state.
-/
namespace Sys2Proof.Machine

variable {s : State}

/-- The parts that command `i` may change. -/
abbrev Instr.Touches (i : Instr) : Part → Prop := fun p => p ∈ Instr.parts i

theorem exec_kept (i : Instr) (s : State) : KeptX (Instr.Touches i) s (exec i s) := by
  have h := Kept.refl (Instr.Touches i) s
  cases i with
  | coldReset => exact Kept.on_execColdReset h (by intro p; cases p <;> simp [Instr.Touches, Instr.parts])
  | fuseSenseDone pages => exact Kept.on_execFuseSenseDone h (by simp [Instr.Touches, Instr.parts]) (by simp [Instr.Touches, Instr.parts]) _
  | bootGo value => exact Kept.on_execBootGo h (by simp [Instr.Touches, Instr.parts]) (by simp [Instr.Touches, Instr.parts]) (by simp [Instr.Touches, Instr.parts]) (by simp [Instr.Touches, Instr.parts]) (by simp [Instr.Touches, Instr.parts]) (by simp [Instr.Touches, Instr.parts]) _
  | imageAuthenticated poisoned => exact Kept.on_execImageAuthenticated h (by simp [Instr.Touches, Instr.parts]) _
  | selftestDone failing => exact Kept.on_execSelftestDone h (by simp [Instr.Touches, Instr.parts]) _
  | engineReady tick => exact Kept.on_execEngineReady h (by simp [Instr.Touches, Instr.parts]) (by simp [Instr.Touches, Instr.parts]) (by simp [Instr.Touches, Instr.parts]) (by simp [Instr.Touches, Instr.parts]) _
  | warmReset => exact Kept.on_execWarmReset h (by simp [Instr.Touches, Instr.parts]) (by simp [Instr.Touches, Instr.parts])
  | teardownDone => exact Kept.on_execTeardownDone h (by intro p; cases p <;> simp [Instr.Touches, Instr.parts])
  | guardStatus req => exact Kept.on_execGuardStatus h (by simp [Instr.Touches, Instr.parts]) _
  | guardFreeze req => exact Kept.on_execGuardFreeze h (by simp [Instr.Touches, Instr.parts]) _
  | guardThaw req => exact Kept.on_execGuardThaw h (by simp [Instr.Touches, Instr.parts]) (by simp [Instr.Touches, Instr.parts]) (by simp [Instr.Touches, Instr.parts]) (by simp [Instr.Touches, Instr.parts]) (by simp [Instr.Touches, Instr.parts]) (by simp [Instr.Touches, Instr.parts]) (by simp [Instr.Touches, Instr.parts]) (by simp [Instr.Touches, Instr.parts]) (by simp [Instr.Touches, Instr.parts]) (by simp [Instr.Touches, Instr.parts]) (by simp [Instr.Touches, Instr.parts]) _
  | guardReset req => exact Kept.on_execGuardReset h (by simp [Instr.Touches, Instr.parts]) (by simp [Instr.Touches, Instr.parts]) _
  | contextReset req => exact Kept.on_execContextReset h (by simp [Instr.Touches, Instr.parts]) (by simp [Instr.Touches, Instr.parts]) (by simp [Instr.Touches, Instr.parts]) (by simp [Instr.Touches, Instr.parts]) (by simp [Instr.Touches, Instr.parts]) (by simp [Instr.Touches, Instr.parts]) (by simp [Instr.Touches, Instr.parts]) (by simp [Instr.Touches, Instr.parts]) (by simp [Instr.Touches, Instr.parts]) _
  | guardCounters req => exact Kept.on_execGuardCounters h (by simp [Instr.Touches, Instr.parts]) _
  | guardUnknownOp req => exact Kept.on_execGuardUnknownOp h (by simp [Instr.Touches, Instr.parts]) _
  | cmdDoorbell value => exact Kept.on_execCmdDoorbell h (by simp [Instr.Touches, Instr.parts]) (by simp [Instr.Touches, Instr.parts]) (by simp [Instr.Touches, Instr.parts]) (by simp [Instr.Touches, Instr.parts]) (by simp [Instr.Touches, Instr.parts]) (by simp [Instr.Touches, Instr.parts]) _
  | evqHeadWrite value => exact Kept.on_execEvqHeadWrite h (by simp [Instr.Touches, Instr.parts]) (by simp [Instr.Touches, Instr.parts]) (by simp [Instr.Touches, Instr.parts]) (by simp [Instr.Touches, Instr.parts]) (by simp [Instr.Touches, Instr.parts]) (by simp [Instr.Touches, Instr.parts]) _
  | registerWrite addr value => exact Kept.on_execRegisterWrite h (by simp [Instr.Touches, Instr.parts]) (by simp [Instr.Touches, Instr.parts]) (by simp [Instr.Touches, Instr.parts]) (by simp [Instr.Touches, Instr.parts]) (by simp [Instr.Touches, Instr.parts]) (by simp [Instr.Touches, Instr.parts]) _ _
  | eventRingWrite => exact Kept.on_execEventRingWrite h (by simp [Instr.Touches, Instr.parts])
  | malformedCommand opcode tag ctx len flits => exact Kept.on_execMalformedCommand h (by simp [Instr.Touches, Instr.parts]) (by simp [Instr.Touches, Instr.parts]) (by simp [Instr.Touches, Instr.parts]) _ _ _ _ _
  | nop c => exact Kept.on_execNop h (by simp [Instr.Touches, Instr.parts]) (by simp [Instr.Touches, Instr.parts]) (by simp [Instr.Touches, Instr.parts]) _
  | ping c => exact Kept.on_execPing h (by simp [Instr.Touches, Instr.parts]) (by simp [Instr.Touches, Instr.parts]) (by simp [Instr.Touches, Instr.parts]) _
  | queryCaps c => exact Kept.on_execQueryCaps h (by simp [Instr.Touches, Instr.parts]) (by simp [Instr.Touches, Instr.parts]) (by simp [Instr.Touches, Instr.parts]) (by simp [Instr.Touches, Instr.parts]) (by simp [Instr.Touches, Instr.parts]) (by simp [Instr.Touches, Instr.parts]) (by simp [Instr.Touches, Instr.parts]) (by simp [Instr.Touches, Instr.parts]) _
  | readCounters c => exact Kept.on_execReadCounters h (by simp [Instr.Touches, Instr.parts]) (by simp [Instr.Touches, Instr.parts]) (by simp [Instr.Touches, Instr.parts]) (by simp [Instr.Touches, Instr.parts]) (by simp [Instr.Touches, Instr.parts]) (by simp [Instr.Touches, Instr.parts]) (by simp [Instr.Touches, Instr.parts]) (by simp [Instr.Touches, Instr.parts]) _
  | setEventMask c => exact Kept.on_execSetEventMask h (by simp [Instr.Touches, Instr.parts]) (by simp [Instr.Touches, Instr.parts]) (by simp [Instr.Touches, Instr.parts]) (by simp [Instr.Touches, Instr.parts]) _
  | setFrame c => exact Kept.on_execSetFrame h (by simp [Instr.Touches, Instr.parts]) (by simp [Instr.Touches, Instr.parts]) (by simp [Instr.Touches, Instr.parts]) (by simp [Instr.Touches, Instr.parts]) _
  | framePeriodSwitch tick => exact Kept.on_execFramePeriodSwitch h (by simp [Instr.Touches, Instr.parts]) (by simp [Instr.Touches, Instr.parts]) (by simp [Instr.Touches, Instr.parts]) (by simp [Instr.Touches, Instr.parts]) _
  | ctxOpen c => exact Kept.on_execCtxOpen h (by simp [Instr.Touches, Instr.parts]) (by simp [Instr.Touches, Instr.parts]) (by simp [Instr.Touches, Instr.parts]) (by simp [Instr.Touches, Instr.parts]) (by simp [Instr.Touches, Instr.parts]) _
  | ctxClose c => exact Kept.on_execCtxClose h (by simp [Instr.Touches, Instr.parts]) (by simp [Instr.Touches, Instr.parts]) (by simp [Instr.Touches, Instr.parts]) (by simp [Instr.Touches, Instr.parts]) (by simp [Instr.Touches, Instr.parts]) (by simp [Instr.Touches, Instr.parts]) (by simp [Instr.Touches, Instr.parts]) (by simp [Instr.Touches, Instr.parts]) (by simp [Instr.Touches, Instr.parts]) _
  | ctxSetTilemap c => exact Kept.on_execCtxSetTilemap h (by simp [Instr.Touches, Instr.parts]) (by simp [Instr.Touches, Instr.parts]) (by simp [Instr.Touches, Instr.parts]) (by simp [Instr.Touches, Instr.parts]) (by simp [Instr.Touches, Instr.parts]) (by simp [Instr.Touches, Instr.parts]) (by simp [Instr.Touches, Instr.parts]) _
  | ctxSetSeed c => exact Kept.on_execCtxSetSeed h (by simp [Instr.Touches, Instr.parts]) (by simp [Instr.Touches, Instr.parts]) (by simp [Instr.Touches, Instr.parts]) (by simp [Instr.Touches, Instr.parts]) _
  | regionDefine c => exact Kept.on_execRegionDefine h (by simp [Instr.Touches, Instr.parts]) (by simp [Instr.Touches, Instr.parts]) (by simp [Instr.Touches, Instr.parts]) (by simp [Instr.Touches, Instr.parts]) (by simp [Instr.Touches, Instr.parts]) (by simp [Instr.Touches, Instr.parts]) _
  | regionSetClass c => exact Kept.on_execRegionSetClass h (by simp [Instr.Touches, Instr.parts]) (by simp [Instr.Touches, Instr.parts]) (by simp [Instr.Touches, Instr.parts]) (by simp [Instr.Touches, Instr.parts]) (by simp [Instr.Touches, Instr.parts]) (by simp [Instr.Touches, Instr.parts]) _
  | regionRelease c => exact Kept.on_execRegionRelease h (by simp [Instr.Touches, Instr.parts]) (by simp [Instr.Touches, Instr.parts]) (by simp [Instr.Touches, Instr.parts]) (by simp [Instr.Touches, Instr.parts]) (by simp [Instr.Touches, Instr.parts]) (by simp [Instr.Touches, Instr.parts]) _
  | poolSize c => exact Kept.on_execPoolSize h (by simp [Instr.Touches, Instr.parts]) (by simp [Instr.Touches, Instr.parts]) (by simp [Instr.Touches, Instr.parts]) (by simp [Instr.Touches, Instr.parts]) (by simp [Instr.Touches, Instr.parts]) (by simp [Instr.Touches, Instr.parts]) (by simp [Instr.Touches, Instr.parts]) _
  | groupConfig c => exact Kept.on_execGroupConfig h (by simp [Instr.Touches, Instr.parts]) (by simp [Instr.Touches, Instr.parts]) (by simp [Instr.Touches, Instr.parts]) (by simp [Instr.Touches, Instr.parts]) _
  | groupJoin c => exact Kept.on_execGroupJoin h (by simp [Instr.Touches, Instr.parts]) (by simp [Instr.Touches, Instr.parts]) (by simp [Instr.Touches, Instr.parts]) (by simp [Instr.Touches, Instr.parts]) (by simp [Instr.Touches, Instr.parts]) (by simp [Instr.Touches, Instr.parts]) (by simp [Instr.Touches, Instr.parts]) _
  | groupKey c => exact Kept.on_execGroupKey h (by simp [Instr.Touches, Instr.parts]) (by simp [Instr.Touches, Instr.parts]) (by simp [Instr.Touches, Instr.parts]) (by simp [Instr.Touches, Instr.parts]) (by simp [Instr.Touches, Instr.parts]) _
  | groupLeave c => exact Kept.on_execGroupLeave h (by simp [Instr.Touches, Instr.parts]) (by simp [Instr.Touches, Instr.parts]) (by simp [Instr.Touches, Instr.parts]) (by simp [Instr.Touches, Instr.parts]) (by simp [Instr.Touches, Instr.parts]) (by simp [Instr.Touches, Instr.parts]) (by simp [Instr.Touches, Instr.parts]) _
  | progLoad c => exact Kept.on_execProgLoad h (by simp [Instr.Touches, Instr.parts]) (by simp [Instr.Touches, Instr.parts]) (by simp [Instr.Touches, Instr.parts]) (by simp [Instr.Touches, Instr.parts]) _
  | pgroupSet c => exact Kept.on_execPgroupSet h (by simp [Instr.Touches, Instr.parts]) (by simp [Instr.Touches, Instr.parts]) (by simp [Instr.Touches, Instr.parts]) (by simp [Instr.Touches, Instr.parts]) _
  | stepBegin c => exact Kept.on_execStepBegin h (by simp [Instr.Touches, Instr.parts]) (by simp [Instr.Touches, Instr.parts]) (by simp [Instr.Touches, Instr.parts]) (by simp [Instr.Touches, Instr.parts]) _
  | stepGradReady c => exact Kept.on_execStepGradReady h (by simp [Instr.Touches, Instr.parts]) (by simp [Instr.Touches, Instr.parts]) (by simp [Instr.Touches, Instr.parts]) (by simp [Instr.Touches, Instr.parts]) _
  | masterTileUpdate ctx tile checkerBusy => exact Kept.on_execMasterTileUpdate h (by simp [Instr.Touches, Instr.parts]) (by simp [Instr.Touches, Instr.parts]) (by simp [Instr.Touches, Instr.parts]) (by simp [Instr.Touches, Instr.parts]) (by simp [Instr.Touches, Instr.parts]) (by simp [Instr.Touches, Instr.parts]) (by simp [Instr.Touches, Instr.parts]) (by simp [Instr.Touches, Instr.parts]) (by simp [Instr.Touches, Instr.parts]) (by simp [Instr.Touches, Instr.parts]) _ _ _
  | stepAccumulate c => exact Kept.on_execStepAccumulate h (by simp [Instr.Touches, Instr.parts]) (by simp [Instr.Touches, Instr.parts]) (by simp [Instr.Touches, Instr.parts]) (by simp [Instr.Touches, Instr.parts]) (by simp [Instr.Touches, Instr.parts]) (by simp [Instr.Touches, Instr.parts]) (by simp [Instr.Touches, Instr.parts]) (by simp [Instr.Touches, Instr.parts]) (by simp [Instr.Touches, Instr.parts]) (by simp [Instr.Touches, Instr.parts]) (by simp [Instr.Touches, Instr.parts]) _
  | stepLoss c => exact Kept.on_execStepLoss h (by simp [Instr.Touches, Instr.parts]) (by simp [Instr.Touches, Instr.parts]) (by simp [Instr.Touches, Instr.parts]) (by simp [Instr.Touches, Instr.parts]) _
  | riskLevelPublish ctx => exact Kept.on_execRiskLevelPublish h (by simp [Instr.Touches, Instr.parts]) (by simp [Instr.Touches, Instr.parts]) (by simp [Instr.Touches, Instr.parts]) (by simp [Instr.Touches, Instr.parts]) (by simp [Instr.Touches, Instr.parts]) (by simp [Instr.Touches, Instr.parts]) (by simp [Instr.Touches, Instr.parts]) (by simp [Instr.Touches, Instr.parts]) (by simp [Instr.Touches, Instr.parts]) (by simp [Instr.Touches, Instr.parts]) (by simp [Instr.Touches, Instr.parts]) _
  | stepFindingAdd ctx => exact Kept.on_execStepFindingAdd h (by simp [Instr.Touches, Instr.parts]) (by simp [Instr.Touches, Instr.parts]) (by simp [Instr.Touches, Instr.parts]) (by simp [Instr.Touches, Instr.parts]) (by simp [Instr.Touches, Instr.parts]) (by simp [Instr.Touches, Instr.parts]) (by simp [Instr.Touches, Instr.parts]) (by simp [Instr.Touches, Instr.parts]) (by simp [Instr.Touches, Instr.parts]) (by simp [Instr.Touches, Instr.parts]) (by simp [Instr.Touches, Instr.parts]) _
  | verdictDecide ctx => exact Kept.on_execVerdictDecide h (by simp [Instr.Touches, Instr.parts]) (by simp [Instr.Touches, Instr.parts]) (by simp [Instr.Touches, Instr.parts]) (by simp [Instr.Touches, Instr.parts]) (by simp [Instr.Touches, Instr.parts]) (by simp [Instr.Touches, Instr.parts]) (by simp [Instr.Touches, Instr.parts]) (by simp [Instr.Touches, Instr.parts]) (by simp [Instr.Touches, Instr.parts]) (by simp [Instr.Touches, Instr.parts]) (by simp [Instr.Touches, Instr.parts]) _
  | verdictClean ctx => exact Kept.on_execVerdictClean h (by simp [Instr.Touches, Instr.parts]) (by simp [Instr.Touches, Instr.parts]) (by simp [Instr.Touches, Instr.parts]) (by simp [Instr.Touches, Instr.parts]) (by simp [Instr.Touches, Instr.parts]) (by simp [Instr.Touches, Instr.parts]) (by simp [Instr.Touches, Instr.parts]) (by simp [Instr.Touches, Instr.parts]) (by simp [Instr.Touches, Instr.parts]) (by simp [Instr.Touches, Instr.parts]) (by simp [Instr.Touches, Instr.parts]) (by simp [Instr.Touches, Instr.parts]) (by simp [Instr.Touches, Instr.parts]) _
  | verdictOverflow ctx => exact Kept.on_execVerdictOverflow h (by simp [Instr.Touches, Instr.parts]) (by simp [Instr.Touches, Instr.parts]) (by simp [Instr.Touches, Instr.parts]) (by simp [Instr.Touches, Instr.parts]) (by simp [Instr.Touches, Instr.parts]) (by simp [Instr.Touches, Instr.parts]) (by simp [Instr.Touches, Instr.parts]) (by simp [Instr.Touches, Instr.parts]) (by simp [Instr.Touches, Instr.parts]) (by simp [Instr.Touches, Instr.parts]) (by simp [Instr.Touches, Instr.parts]) (by simp [Instr.Touches, Instr.parts]) (by simp [Instr.Touches, Instr.parts]) _
  | unriseDone ctx => exact Kept.on_execUnriseDone h (by simp [Instr.Touches, Instr.parts]) (by simp [Instr.Touches, Instr.parts]) (by simp [Instr.Touches, Instr.parts]) (by simp [Instr.Touches, Instr.parts]) (by simp [Instr.Touches, Instr.parts]) (by simp [Instr.Touches, Instr.parts]) (by simp [Instr.Touches, Instr.parts]) (by simp [Instr.Touches, Instr.parts]) _
  | stepPublish c => exact Kept.on_execStepPublish h (by simp [Instr.Touches, Instr.parts]) (by simp [Instr.Touches, Instr.parts]) (by simp [Instr.Touches, Instr.parts]) _
  | publishWrite ctx target => exact Kept.on_execPublishWrite h (by simp [Instr.Touches, Instr.parts]) (by simp [Instr.Touches, Instr.parts]) (by simp [Instr.Touches, Instr.parts]) (by simp [Instr.Touches, Instr.parts]) (by simp [Instr.Touches, Instr.parts]) (by simp [Instr.Touches, Instr.parts]) (by simp [Instr.Touches, Instr.parts]) (by simp [Instr.Touches, Instr.parts]) (by simp [Instr.Touches, Instr.parts]) (by simp [Instr.Touches, Instr.parts]) (by simp [Instr.Touches, Instr.parts]) (by simp [Instr.Touches, Instr.parts]) _ _
  | publishTargets c => exact Kept.on_execPublishTargets h (by simp [Instr.Touches, Instr.parts]) (by simp [Instr.Touches, Instr.parts]) (by simp [Instr.Touches, Instr.parts]) (by simp [Instr.Touches, Instr.parts]) (by simp [Instr.Touches, Instr.parts]) (by simp [Instr.Touches, Instr.parts]) (by simp [Instr.Touches, Instr.parts]) (by simp [Instr.Touches, Instr.parts]) (by simp [Instr.Touches, Instr.parts]) (by simp [Instr.Touches, Instr.parts]) (by simp [Instr.Touches, Instr.parts]) (by simp [Instr.Touches, Instr.parts]) (by simp [Instr.Touches, Instr.parts]) (by simp [Instr.Touches, Instr.parts]) _
  | lossScaleSet c => exact Kept.on_execLossScaleSet h (by simp [Instr.Touches, Instr.parts]) (by simp [Instr.Touches, Instr.parts]) (by simp [Instr.Touches, Instr.parts]) (by simp [Instr.Touches, Instr.parts]) _
  | cadenceSet c => exact Kept.on_execCadenceSet h (by simp [Instr.Touches, Instr.parts]) (by simp [Instr.Touches, Instr.parts]) (by simp [Instr.Touches, Instr.parts]) (by simp [Instr.Touches, Instr.parts]) _
  | bakeSealNow c => exact Kept.on_execBakeSealNow h (by simp [Instr.Touches, Instr.parts]) (by simp [Instr.Touches, Instr.parts]) (by simp [Instr.Touches, Instr.parts]) (by simp [Instr.Touches, Instr.parts]) _
  | bakeStatus c => exact Kept.on_execBakeStatus h (by simp [Instr.Touches, Instr.parts]) (by simp [Instr.Touches, Instr.parts]) (by simp [Instr.Touches, Instr.parts]) (by simp [Instr.Touches, Instr.parts]) (by simp [Instr.Touches, Instr.parts]) (by simp [Instr.Touches, Instr.parts]) (by simp [Instr.Touches, Instr.parts]) (by simp [Instr.Touches, Instr.parts]) _
  | bakeJobwide c => exact Kept.on_execBakeJobwide h (by simp [Instr.Touches, Instr.parts]) (by simp [Instr.Touches, Instr.parts]) (by simp [Instr.Touches, Instr.parts]) (by simp [Instr.Touches, Instr.parts]) (by simp [Instr.Touches, Instr.parts]) (by simp [Instr.Touches, Instr.parts]) _
  | bakeSeal ctx => exact Kept.on_execBakeSeal h (by simp [Instr.Touches, Instr.parts]) (by simp [Instr.Touches, Instr.parts]) (by simp [Instr.Touches, Instr.parts]) (by simp [Instr.Touches, Instr.parts]) (by simp [Instr.Touches, Instr.parts]) (by simp [Instr.Touches, Instr.parts]) _
  | crumbDrain ctx tile => exact Kept.on_execCrumbDrain h (by simp [Instr.Touches, Instr.parts]) (by simp [Instr.Touches, Instr.parts]) (by simp [Instr.Touches, Instr.parts]) (by simp [Instr.Touches, Instr.parts]) (by simp [Instr.Touches, Instr.parts]) (by simp [Instr.Touches, Instr.parts]) (by simp [Instr.Touches, Instr.parts]) (by simp [Instr.Touches, Instr.parts]) (by simp [Instr.Touches, Instr.parts]) _ _
  | sealNoticeSend ctx keeper => exact Kept.on_execSealNoticeSend h (by simp [Instr.Touches, Instr.parts]) (by simp [Instr.Touches, Instr.parts]) (by simp [Instr.Touches, Instr.parts]) (by simp [Instr.Touches, Instr.parts]) _ _
  | crumb peel x => exact Kept.on_execCrumb h (by simp [Instr.Touches, Instr.parts]) (by simp [Instr.Touches, Instr.parts]) (by simp [Instr.Touches, Instr.parts]) (by simp [Instr.Touches, Instr.parts]) (by simp [Instr.Touches, Instr.parts]) (by simp [Instr.Touches, Instr.parts]) (by simp [Instr.Touches, Instr.parts]) (by simp [Instr.Touches, Instr.parts]) (by simp [Instr.Touches, Instr.parts]) _ _
  | sealNotice peel x => exact Kept.on_execSealNotice h (by simp [Instr.Touches, Instr.parts]) (by simp [Instr.Touches, Instr.parts]) (by simp [Instr.Touches, Instr.parts]) (by simp [Instr.Touches, Instr.parts]) (by simp [Instr.Touches, Instr.parts]) (by simp [Instr.Touches, Instr.parts]) (by simp [Instr.Touches, Instr.parts]) _ _
  | rackCommit ctx => exact Kept.on_execRackCommit h (by simp [Instr.Touches, Instr.parts]) (by simp [Instr.Touches, Instr.parts]) (by simp [Instr.Touches, Instr.parts]) (by simp [Instr.Touches, Instr.parts]) (by simp [Instr.Touches, Instr.parts]) (by simp [Instr.Touches, Instr.parts]) (by simp [Instr.Touches, Instr.parts]) (by simp [Instr.Touches, Instr.parts]) (by simp [Instr.Touches, Instr.parts]) (by simp [Instr.Touches, Instr.parts]) (by simp [Instr.Touches, Instr.parts]) _
  | fenceMember c => exact Kept.on_execFenceMember h (by simp [Instr.Touches, Instr.parts]) (by simp [Instr.Touches, Instr.parts]) (by simp [Instr.Touches, Instr.parts]) (by simp [Instr.Touches, Instr.parts]) (by simp [Instr.Touches, Instr.parts]) (by simp [Instr.Touches, Instr.parts]) (by simp [Instr.Touches, Instr.parts]) (by simp [Instr.Touches, Instr.parts]) (by simp [Instr.Touches, Instr.parts]) (by simp [Instr.Touches, Instr.parts]) (by simp [Instr.Touches, Instr.parts]) _
  | adoptPosition c => exact Kept.on_execAdoptPosition h (by simp [Instr.Touches, Instr.parts]) (by simp [Instr.Touches, Instr.parts]) (by simp [Instr.Touches, Instr.parts]) (by simp [Instr.Touches, Instr.parts]) (by simp [Instr.Touches, Instr.parts]) (by simp [Instr.Touches, Instr.parts]) (by simp [Instr.Touches, Instr.parts]) _
  | rebuildStart c => exact Kept.on_execRebuildStart h (by simp [Instr.Touches, Instr.parts]) (by simp [Instr.Touches, Instr.parts]) (by simp [Instr.Touches, Instr.parts]) (by simp [Instr.Touches, Instr.parts]) (by simp [Instr.Touches, Instr.parts]) (by simp [Instr.Touches, Instr.parts]) (by simp [Instr.Touches, Instr.parts]) (by simp [Instr.Touches, Instr.parts]) (by simp [Instr.Touches, Instr.parts]) (by simp [Instr.Touches, Instr.parts]) (by simp [Instr.Touches, Instr.parts]) _
  | demandRebuild slice tile => exact Kept.on_execDemandRebuild h (by simp [Instr.Touches, Instr.parts]) (by simp [Instr.Touches, Instr.parts]) (by simp [Instr.Touches, Instr.parts]) (by simp [Instr.Touches, Instr.parts]) (by simp [Instr.Touches, Instr.parts]) (by simp [Instr.Touches, Instr.parts]) (by simp [Instr.Touches, Instr.parts]) (by simp [Instr.Touches, Instr.parts]) (by simp [Instr.Touches, Instr.parts]) _ _
  | rebuildProgress ctx => exact Kept.on_execRebuildProgress h (by simp [Instr.Touches, Instr.parts]) (by simp [Instr.Touches, Instr.parts]) _
  | rebuildDone ctx kind => exact Kept.on_execRebuildDone h (by simp [Instr.Touches, Instr.parts]) (by simp [Instr.Touches, Instr.parts]) (by simp [Instr.Touches, Instr.parts]) _ _
  | rollback c => exact Kept.on_execRollback h (by simp [Instr.Touches, Instr.parts]) (by simp [Instr.Touches, Instr.parts]) (by simp [Instr.Touches, Instr.parts]) (by simp [Instr.Touches, Instr.parts]) (by simp [Instr.Touches, Instr.parts]) (by simp [Instr.Touches, Instr.parts]) (by simp [Instr.Touches, Instr.parts]) (by simp [Instr.Touches, Instr.parts]) (by simp [Instr.Touches, Instr.parts]) (by simp [Instr.Touches, Instr.parts]) (by simp [Instr.Touches, Instr.parts]) (by simp [Instr.Touches, Instr.parts]) (by simp [Instr.Touches, Instr.parts]) (by simp [Instr.Touches, Instr.parts]) (by simp [Instr.Touches, Instr.parts]) (by simp [Instr.Touches, Instr.parts]) _
  | replayCheck c => exact Kept.on_execReplayCheck h (by simp [Instr.Touches, Instr.parts]) (by simp [Instr.Touches, Instr.parts]) (by simp [Instr.Touches, Instr.parts]) (by simp [Instr.Touches, Instr.parts]) (by simp [Instr.Touches, Instr.parts]) _
  | mendTile c => exact Kept.on_execMendTile h (by simp [Instr.Touches, Instr.parts]) (by simp [Instr.Touches, Instr.parts]) (by simp [Instr.Touches, Instr.parts]) (by simp [Instr.Touches, Instr.parts]) (by simp [Instr.Touches, Instr.parts]) (by simp [Instr.Touches, Instr.parts]) (by simp [Instr.Touches, Instr.parts]) (by simp [Instr.Touches, Instr.parts]) (by simp [Instr.Touches, Instr.parts]) (by simp [Instr.Touches, Instr.parts]) (by simp [Instr.Touches, Instr.parts]) _
  | mend ctx tile => exact Kept.on_execMend h (by simp [Instr.Touches, Instr.parts]) (by simp [Instr.Touches, Instr.parts]) (by simp [Instr.Touches, Instr.parts]) (by simp [Instr.Touches, Instr.parts]) (by simp [Instr.Touches, Instr.parts]) (by simp [Instr.Touches, Instr.parts]) (by simp [Instr.Touches, Instr.parts]) (by simp [Instr.Touches, Instr.parts]) (by simp [Instr.Touches, Instr.parts]) _ _
  | kneadHint c => exact Kept.on_execKneadHint h (by simp [Instr.Touches, Instr.parts]) (by simp [Instr.Touches, Instr.parts]) (by simp [Instr.Touches, Instr.parts]) (by simp [Instr.Touches, Instr.parts]) (by simp [Instr.Touches, Instr.parts]) (by simp [Instr.Touches, Instr.parts]) _
  | kneadPin c => exact Kept.on_execKneadPin h (by simp [Instr.Touches, Instr.parts]) (by simp [Instr.Touches, Instr.parts]) (by simp [Instr.Touches, Instr.parts]) (by simp [Instr.Touches, Instr.parts]) (by simp [Instr.Touches, Instr.parts]) (by simp [Instr.Touches, Instr.parts]) _
  | kneadPolicy c => exact Kept.on_execKneadPolicy h (by simp [Instr.Touches, Instr.parts]) (by simp [Instr.Touches, Instr.parts]) (by simp [Instr.Touches, Instr.parts]) (by simp [Instr.Touches, Instr.parts]) (by simp [Instr.Touches, Instr.parts]) _
  | kneadIdleDemote ctx tile => exact Kept.on_execKneadIdleDemote h (by simp [Instr.Touches, Instr.parts]) _ _
  | demotion ctx tile => exact Kept.on_execDemotion h (by simp [Instr.Touches, Instr.parts]) (by simp [Instr.Touches, Instr.parts]) (by simp [Instr.Touches, Instr.parts]) (by simp [Instr.Touches, Instr.parts]) (by simp [Instr.Touches, Instr.parts]) (by simp [Instr.Touches, Instr.parts]) (by simp [Instr.Touches, Instr.parts]) (by simp [Instr.Touches, Instr.parts]) _ _
  | promotion ctx tile => exact Kept.on_execPromotion h (by simp [Instr.Touches, Instr.parts]) (by simp [Instr.Touches, Instr.parts]) (by simp [Instr.Touches, Instr.parts]) (by simp [Instr.Touches, Instr.parts]) _ _
  | exportBegin c => exact Kept.on_execExportBegin h (by simp [Instr.Touches, Instr.parts]) (by simp [Instr.Touches, Instr.parts]) (by simp [Instr.Touches, Instr.parts]) (by simp [Instr.Touches, Instr.parts]) (by simp [Instr.Touches, Instr.parts]) (by simp [Instr.Touches, Instr.parts]) _
  | exportNext c => exact Kept.on_execExportNext h (by simp [Instr.Touches, Instr.parts]) (by simp [Instr.Touches, Instr.parts]) (by simp [Instr.Touches, Instr.parts]) (by simp [Instr.Touches, Instr.parts]) (by simp [Instr.Touches, Instr.parts]) (by simp [Instr.Touches, Instr.parts]) (by simp [Instr.Touches, Instr.parts]) (by simp [Instr.Touches, Instr.parts]) (by simp [Instr.Touches, Instr.parts]) (by simp [Instr.Touches, Instr.parts]) _
  | restoreBegin c => exact Kept.on_execRestoreBegin h (by simp [Instr.Touches, Instr.parts]) (by simp [Instr.Touches, Instr.parts]) (by simp [Instr.Touches, Instr.parts]) (by simp [Instr.Touches, Instr.parts]) (by simp [Instr.Touches, Instr.parts]) (by simp [Instr.Touches, Instr.parts]) (by simp [Instr.Touches, Instr.parts]) _
  | restoreNext c => exact Kept.on_execRestoreNext h (by simp [Instr.Touches, Instr.parts]) (by simp [Instr.Touches, Instr.parts]) (by simp [Instr.Touches, Instr.parts]) (by simp [Instr.Touches, Instr.parts]) (by simp [Instr.Touches, Instr.parts]) (by simp [Instr.Touches, Instr.parts]) (by simp [Instr.Touches, Instr.parts]) (by simp [Instr.Touches, Instr.parts]) (by simp [Instr.Touches, Instr.parts]) _
  | restoreCommit c => exact Kept.on_execRestoreCommit h (by simp [Instr.Touches, Instr.parts]) (by simp [Instr.Touches, Instr.parts]) (by simp [Instr.Touches, Instr.parts]) (by simp [Instr.Touches, Instr.parts]) (by simp [Instr.Touches, Instr.parts]) (by simp [Instr.Touches, Instr.parts]) (by simp [Instr.Touches, Instr.parts]) (by simp [Instr.Touches, Instr.parts]) (by simp [Instr.Touches, Instr.parts]) _
  | branchTake c => exact Kept.on_execBranchTake h (by simp [Instr.Touches, Instr.parts]) (by simp [Instr.Touches, Instr.parts]) (by simp [Instr.Touches, Instr.parts]) (by simp [Instr.Touches, Instr.parts]) (by simp [Instr.Touches, Instr.parts]) (by simp [Instr.Touches, Instr.parts]) (by simp [Instr.Touches, Instr.parts]) _
  | branchRestore c => exact Kept.on_execBranchRestore h (by simp [Instr.Touches, Instr.parts]) (by simp [Instr.Touches, Instr.parts]) (by simp [Instr.Touches, Instr.parts]) (by simp [Instr.Touches, Instr.parts]) (by simp [Instr.Touches, Instr.parts]) (by simp [Instr.Touches, Instr.parts]) (by simp [Instr.Touches, Instr.parts]) (by simp [Instr.Touches, Instr.parts]) (by simp [Instr.Touches, Instr.parts]) _
  | branchFork c => exact Kept.on_execBranchFork h (by simp [Instr.Touches, Instr.parts]) (by simp [Instr.Touches, Instr.parts]) (by simp [Instr.Touches, Instr.parts]) (by simp [Instr.Touches, Instr.parts]) (by simp [Instr.Touches, Instr.parts]) (by simp [Instr.Touches, Instr.parts]) (by simp [Instr.Touches, Instr.parts]) (by simp [Instr.Touches, Instr.parts]) (by simp [Instr.Touches, Instr.parts]) (by simp [Instr.Touches, Instr.parts]) _
  | branchDrop c => exact Kept.on_execBranchDrop h (by simp [Instr.Touches, Instr.parts]) (by simp [Instr.Touches, Instr.parts]) (by simp [Instr.Touches, Instr.parts]) (by simp [Instr.Touches, Instr.parts]) (by simp [Instr.Touches, Instr.parts]) (by simp [Instr.Touches, Instr.parts]) (by simp [Instr.Touches, Instr.parts]) _
  | powerEnvelope c => exact Kept.on_execPowerEnvelope h (by simp [Instr.Touches, Instr.parts]) (by simp [Instr.Touches, Instr.parts]) (by simp [Instr.Touches, Instr.parts]) _
  | calUserSet c => exact Kept.on_execCalUserSet h (by simp [Instr.Touches, Instr.parts]) (by simp [Instr.Touches, Instr.parts]) (by simp [Instr.Touches, Instr.parts]) (by simp [Instr.Touches, Instr.parts]) _
  | riskWeights c => exact Kept.on_execRiskWeights h (by simp [Instr.Touches, Instr.parts]) (by simp [Instr.Touches, Instr.parts]) (by simp [Instr.Touches, Instr.parts]) (by simp [Instr.Touches, Instr.parts]) _
  | healthMode c => exact Kept.on_execHealthMode h (by simp [Instr.Touches, Instr.parts]) (by simp [Instr.Touches, Instr.parts]) (by simp [Instr.Touches, Instr.parts]) (by simp [Instr.Touches, Instr.parts]) (by simp [Instr.Touches, Instr.parts]) _
  | sampleRow c => exact Kept.on_execSampleRow h (by simp [Instr.Touches, Instr.parts]) (by simp [Instr.Touches, Instr.parts]) (by simp [Instr.Touches, Instr.parts]) (by simp [Instr.Touches, Instr.parts]) (by simp [Instr.Touches, Instr.parts]) (by simp [Instr.Touches, Instr.parts]) (by simp [Instr.Touches, Instr.parts]) (by simp [Instr.Touches, Instr.parts]) _
  | counterOp c => exact Kept.on_execCounterOp h (by simp [Instr.Touches, Instr.parts]) (by simp [Instr.Touches, Instr.parts]) (by simp [Instr.Touches, Instr.parts]) (by simp [Instr.Touches, Instr.parts]) (by simp [Instr.Touches, Instr.parts]) (by simp [Instr.Touches, Instr.parts]) (by simp [Instr.Touches, Instr.parts]) (by simp [Instr.Touches, Instr.parts]) (by simp [Instr.Touches, Instr.parts]) (by simp [Instr.Touches, Instr.parts]) (by simp [Instr.Touches, Instr.parts]) (by simp [Instr.Touches, Instr.parts]) _
  | checkbitWrite c => exact Kept.on_execCheckbitWrite h (by simp [Instr.Touches, Instr.parts]) (by simp [Instr.Touches, Instr.parts]) (by simp [Instr.Touches, Instr.parts]) (by simp [Instr.Touches, Instr.parts]) _
  | rawRead c => exact Kept.on_execRawRead h (by simp [Instr.Touches, Instr.parts]) (by simp [Instr.Touches, Instr.parts]) (by simp [Instr.Touches, Instr.parts]) (by simp [Instr.Touches, Instr.parts]) (by simp [Instr.Touches, Instr.parts]) (by simp [Instr.Touches, Instr.parts]) (by simp [Instr.Touches, Instr.parts]) (by simp [Instr.Touches, Instr.parts]) (by simp [Instr.Touches, Instr.parts]) _
  | gateForce c => exact Kept.on_execGateForce h (by simp [Instr.Touches, Instr.parts]) (by simp [Instr.Touches, Instr.parts]) (by simp [Instr.Touches, Instr.parts]) (by simp [Instr.Touches, Instr.parts]) _
  | cancelTag c => exact Kept.on_execCancelTag h (by simp [Instr.Touches, Instr.parts]) (by simp [Instr.Touches, Instr.parts]) (by simp [Instr.Touches, Instr.parts]) (by simp [Instr.Touches, Instr.parts]) (by simp [Instr.Touches, Instr.parts]) (by simp [Instr.Touches, Instr.parts]) (by simp [Instr.Touches, Instr.parts]) (by simp [Instr.Touches, Instr.parts]) (by simp [Instr.Touches, Instr.parts]) (by simp [Instr.Touches, Instr.parts]) (by simp [Instr.Touches, Instr.parts]) (by simp [Instr.Touches, Instr.parts]) (by simp [Instr.Touches, Instr.parts]) (by simp [Instr.Touches, Instr.parts]) (by simp [Instr.Touches, Instr.parts]) _
  | cancelContext c => exact Kept.on_execCancelContext h (by simp [Instr.Touches, Instr.parts]) (by simp [Instr.Touches, Instr.parts]) (by simp [Instr.Touches, Instr.parts]) (by simp [Instr.Touches, Instr.parts]) (by simp [Instr.Touches, Instr.parts]) (by simp [Instr.Touches, Instr.parts]) (by simp [Instr.Touches, Instr.parts]) (by simp [Instr.Touches, Instr.parts]) (by simp [Instr.Touches, Instr.parts]) (by simp [Instr.Touches, Instr.parts]) (by simp [Instr.Touches, Instr.parts]) (by simp [Instr.Touches, Instr.parts]) (by simp [Instr.Touches, Instr.parts]) (by simp [Instr.Touches, Instr.parts]) (by simp [Instr.Touches, Instr.parts]) _
  | gateRequest slice line write src wdata => exact Kept.on_execGateRequest h (by simp [Instr.Touches, Instr.parts]) (by simp [Instr.Touches, Instr.parts]) (by simp [Instr.Touches, Instr.parts]) (by simp [Instr.Touches, Instr.parts]) (by simp [Instr.Touches, Instr.parts]) (by simp [Instr.Touches, Instr.parts]) (by simp [Instr.Touches, Instr.parts]) (by simp [Instr.Touches, Instr.parts]) (by simp [Instr.Touches, Instr.parts]) (by simp [Instr.Touches, Instr.parts]) (by simp [Instr.Touches, Instr.parts]) (by simp [Instr.Touches, Instr.parts]) (by simp [Instr.Touches, Instr.parts]) (by simp [Instr.Touches, Instr.parts]) (by simp [Instr.Touches, Instr.parts]) _ _ _ _ _
  | proofCopyDone slice tile => exact Kept.on_execProofCopyDone h (by simp [Instr.Touches, Instr.parts]) (by simp [Instr.Touches, Instr.parts]) (by simp [Instr.Touches, Instr.parts]) (by simp [Instr.Touches, Instr.parts]) (by simp [Instr.Touches, Instr.parts]) _ _
  | spareLineAccess slice write idx wdata wmask => exact Kept.on_execSpareLineAccess h (by simp [Instr.Touches, Instr.parts]) (by simp [Instr.Touches, Instr.parts]) (by simp [Instr.Touches, Instr.parts]) (by simp [Instr.Touches, Instr.parts]) (by simp [Instr.Touches, Instr.parts]) (by simp [Instr.Touches, Instr.parts]) (by simp [Instr.Touches, Instr.parts]) (by simp [Instr.Touches, Instr.parts]) (by simp [Instr.Touches, Instr.parts]) (by simp [Instr.Touches, Instr.parts]) (by simp [Instr.Touches, Instr.parts]) (by simp [Instr.Touches, Instr.parts]) (by simp [Instr.Touches, Instr.parts]) (by simp [Instr.Touches, Instr.parts]) (by simp [Instr.Touches, Instr.parts]) _ _ _ _ _
  | mcErrorReport slice kind line => exact Kept.on_execMcErrorReport h (by simp [Instr.Touches, Instr.parts]) (by simp [Instr.Touches, Instr.parts]) (by simp [Instr.Touches, Instr.parts]) (by simp [Instr.Touches, Instr.parts]) (by simp [Instr.Touches, Instr.parts]) (by simp [Instr.Touches, Instr.parts]) (by simp [Instr.Touches, Instr.parts]) (by simp [Instr.Touches, Instr.parts]) (by simp [Instr.Touches, Instr.parts]) (by simp [Instr.Touches, Instr.parts]) (by simp [Instr.Touches, Instr.parts]) _ _ _
  | memReadResponse slice tag data poison => exact Kept.on_execMemReadResponse h (by simp [Instr.Touches, Instr.parts]) (by simp [Instr.Touches, Instr.parts]) (by simp [Instr.Touches, Instr.parts]) (by simp [Instr.Touches, Instr.parts]) (by simp [Instr.Touches, Instr.parts]) (by simp [Instr.Touches, Instr.parts]) (by simp [Instr.Touches, Instr.parts]) (by simp [Instr.Touches, Instr.parts]) (by simp [Instr.Touches, Instr.parts]) (by simp [Instr.Touches, Instr.parts]) (by simp [Instr.Touches, Instr.parts]) _ _ _ _
  | probe peel x => exact Kept.on_execProbe h (by simp [Instr.Touches, Instr.parts]) (by simp [Instr.Touches, Instr.parts]) (by simp [Instr.Touches, Instr.parts]) (by simp [Instr.Touches, Instr.parts]) (by simp [Instr.Touches, Instr.parts]) (by simp [Instr.Touches, Instr.parts]) (by simp [Instr.Touches, Instr.parts]) _ _
  | counter peel x => exact Kept.on_execCounter h (by simp [Instr.Touches, Instr.parts]) (by simp [Instr.Touches, Instr.parts]) (by simp [Instr.Touches, Instr.parts]) (by simp [Instr.Touches, Instr.parts]) (by simp [Instr.Touches, Instr.parts]) (by simp [Instr.Touches, Instr.parts]) (by simp [Instr.Touches, Instr.parts]) (by simp [Instr.Touches, Instr.parts]) (by simp [Instr.Touches, Instr.parts]) (by simp [Instr.Touches, Instr.parts]) (by simp [Instr.Touches, Instr.parts]) (by simp [Instr.Touches, Instr.parts]) _ _
  | decodeReq peel x => exact Kept.on_execDecodeReq h (by simp [Instr.Touches, Instr.parts]) (by simp [Instr.Touches, Instr.parts]) (by simp [Instr.Touches, Instr.parts]) (by simp [Instr.Touches, Instr.parts]) (by simp [Instr.Touches, Instr.parts]) (by simp [Instr.Touches, Instr.parts]) (by simp [Instr.Touches, Instr.parts]) (by simp [Instr.Touches, Instr.parts]) _ _
  | decodePart peel x => exact Kept.on_execDecodePart h (by simp [Instr.Touches, Instr.parts]) (by simp [Instr.Touches, Instr.parts]) (by simp [Instr.Touches, Instr.parts]) (by simp [Instr.Touches, Instr.parts]) (by simp [Instr.Touches, Instr.parts]) (by simp [Instr.Touches, Instr.parts]) (by simp [Instr.Touches, Instr.parts]) (by simp [Instr.Touches, Instr.parts]) (by simp [Instr.Touches, Instr.parts]) (by simp [Instr.Touches, Instr.parts]) (by simp [Instr.Touches, Instr.parts]) (by simp [Instr.Touches, Instr.parts]) (by simp [Instr.Touches, Instr.parts]) (by simp [Instr.Touches, Instr.parts]) (by simp [Instr.Touches, Instr.parts]) (by simp [Instr.Touches, Instr.parts]) _ _
  | bcast peel x => exact Kept.on_execBcast h (by simp [Instr.Touches, Instr.parts]) (by simp [Instr.Touches, Instr.parts]) (by simp [Instr.Touches, Instr.parts]) (by simp [Instr.Touches, Instr.parts]) (by simp [Instr.Touches, Instr.parts]) (by simp [Instr.Touches, Instr.parts]) (by simp [Instr.Touches, Instr.parts]) (by simp [Instr.Touches, Instr.parts]) _ _
  | bcastUp peel x => exact Kept.on_execBcastUp h (by simp [Instr.Touches, Instr.parts]) (by simp [Instr.Touches, Instr.parts]) (by simp [Instr.Touches, Instr.parts]) (by simp [Instr.Touches, Instr.parts]) (by simp [Instr.Touches, Instr.parts]) (by simp [Instr.Touches, Instr.parts]) (by simp [Instr.Touches, Instr.parts]) (by simp [Instr.Touches, Instr.parts]) _ _
  | record peel x => exact Kept.on_execRecord h (by simp [Instr.Touches, Instr.parts]) (by simp [Instr.Touches, Instr.parts]) (by simp [Instr.Touches, Instr.parts]) (by simp [Instr.Touches, Instr.parts]) (by simp [Instr.Touches, Instr.parts]) (by simp [Instr.Touches, Instr.parts]) (by simp [Instr.Touches, Instr.parts]) (by simp [Instr.Touches, Instr.parts]) (by simp [Instr.Touches, Instr.parts]) _ _
  | inboundResponse peel x => exact Kept.on_execInboundResponse h (by simp [Instr.Touches, Instr.parts]) (by simp [Instr.Touches, Instr.parts]) (by simp [Instr.Touches, Instr.parts]) (by simp [Instr.Touches, Instr.parts]) (by simp [Instr.Touches, Instr.parts]) (by simp [Instr.Touches, Instr.parts]) (by simp [Instr.Touches, Instr.parts]) (by simp [Instr.Touches, Instr.parts]) (by simp [Instr.Touches, Instr.parts]) (by simp [Instr.Touches, Instr.parts]) (by simp [Instr.Touches, Instr.parts]) _ _
  | fabricRequestTimeout peel slot => exact Kept.on_execFabricRequestTimeout h (by simp [Instr.Touches, Instr.parts]) (by simp [Instr.Touches, Instr.parts]) (by simp [Instr.Touches, Instr.parts]) (by simp [Instr.Touches, Instr.parts]) (by simp [Instr.Touches, Instr.parts]) (by simp [Instr.Touches, Instr.parts]) (by simp [Instr.Touches, Instr.parts]) (by simp [Instr.Touches, Instr.parts]) (by simp [Instr.Touches, Instr.parts]) (by simp [Instr.Touches, Instr.parts]) _ _
  | tagQuarantineEnd peel slot => exact Kept.on_execTagQuarantineEnd h (by simp [Instr.Touches, Instr.parts]) _ _
  | compareWaitLimit peel src tag => exact Kept.on_execCompareWaitLimit h (by simp [Instr.Touches, Instr.parts]) _ _ _
  | localWaitTimeout ctx tag => exact Kept.on_execLocalWaitTimeout h (by simp [Instr.Touches, Instr.parts]) (by simp [Instr.Touches, Instr.parts]) _ _
  | bcastChildTimeout ctx child => exact Kept.on_execBcastChildTimeout h (by simp [Instr.Touches, Instr.parts]) (by simp [Instr.Touches, Instr.parts]) (by simp [Instr.Touches, Instr.parts]) (by simp [Instr.Touches, Instr.parts]) (by simp [Instr.Touches, Instr.parts]) (by simp [Instr.Touches, Instr.parts]) _ _
  | sealWaitExpiry ctx position => exact Kept.on_execSealWaitExpiry h (by simp [Instr.Touches, Instr.parts]) (by simp [Instr.Touches, Instr.parts]) (by simp [Instr.Touches, Instr.parts]) (by simp [Instr.Touches, Instr.parts]) (by simp [Instr.Touches, Instr.parts]) _ _
  | keyGraceEnd ctx => exact Kept.on_execKeyGraceEnd h (by simp [Instr.Touches, Instr.parts]) _
  | framePlanBuild inp => exact Kept.on_execFramePlanBuild h (by simp [Instr.Touches, Instr.parts]) (by simp [Instr.Touches, Instr.parts]) (by simp [Instr.Touches, Instr.parts]) (by simp [Instr.Touches, Instr.parts]) (by simp [Instr.Touches, Instr.parts]) (by simp [Instr.Touches, Instr.parts]) (by simp [Instr.Touches, Instr.parts]) (by simp [Instr.Touches, Instr.parts]) (by simp [Instr.Touches, Instr.parts]) (by simp [Instr.Touches, Instr.parts]) (by simp [Instr.Touches, Instr.parts]) (by simp [Instr.Touches, Instr.parts]) (by simp [Instr.Touches, Instr.parts]) (by simp [Instr.Touches, Instr.parts]) (by simp [Instr.Touches, Instr.parts]) (by simp [Instr.Touches, Instr.parts]) (by simp [Instr.Touches, Instr.parts]) (by simp [Instr.Touches, Instr.parts]) _
  | planCutoff => exact Kept.on_execPlanCutoff h (by simp [Instr.Touches, Instr.parts]) (by simp [Instr.Touches, Instr.parts]) (by simp [Instr.Touches, Instr.parts]) (by simp [Instr.Touches, Instr.parts]) (by simp [Instr.Touches, Instr.parts]) (by simp [Instr.Touches, Instr.parts]) (by simp [Instr.Touches, Instr.parts]) (by simp [Instr.Touches, Instr.parts]) (by simp [Instr.Touches, Instr.parts]) (by simp [Instr.Touches, Instr.parts]) (by simp [Instr.Touches, Instr.parts]) (by simp [Instr.Touches, Instr.parts])
  | frameWatchdog => exact Kept.on_execFrameWatchdog h (by simp [Instr.Touches, Instr.parts]) (by simp [Instr.Touches, Instr.parts])
  | firmwareDigestCheck digest => exact Kept.on_execFirmwareDigestCheck h (by simp [Instr.Touches, Instr.parts]) (by simp [Instr.Touches, Instr.parts]) (by simp [Instr.Touches, Instr.parts]) _
  | deadlineMiss ctx tag => exact Kept.on_execDeadlineMiss h (by simp [Instr.Touches, Instr.parts]) (by simp [Instr.Touches, Instr.parts]) (by simp [Instr.Touches, Instr.parts]) (by simp [Instr.Touches, Instr.parts]) _ _
  | pieceAged piece => exact Kept.on_execPieceAged h (by simp [Instr.Touches, Instr.parts]) _
  | tickLockLoss => exact Kept.on_execTickLockLoss h (by simp [Instr.Touches, Instr.parts]) (by simp [Instr.Touches, Instr.parts]) (by simp [Instr.Touches, Instr.parts]) (by simp [Instr.Touches, Instr.parts]) (by simp [Instr.Touches, Instr.parts]) (by simp [Instr.Touches, Instr.parts]) (by simp [Instr.Touches, Instr.parts]) (by simp [Instr.Touches, Instr.parts]) (by simp [Instr.Touches, Instr.parts]) (by simp [Instr.Touches, Instr.parts]) (by simp [Instr.Touches, Instr.parts]) (by simp [Instr.Touches, Instr.parts])
  | tickLockRegained tick => exact Kept.on_execTickLockRegained h (by simp [Instr.Touches, Instr.parts]) (by simp [Instr.Touches, Instr.parts]) _
  | riskLevelFall => exact Kept.on_execRiskLevelFall h (by simp [Instr.Touches, Instr.parts]) (by simp [Instr.Touches, Instr.parts]) (by simp [Instr.Touches, Instr.parts])
  | powerCapEvent => exact Kept.on_execPowerCapEvent h (by simp [Instr.Touches, Instr.parts]) (by simp [Instr.Touches, Instr.parts]) (by simp [Instr.Touches, Instr.parts])
  | sensorStale slice => exact Kept.on_execSensorStale h (by simp [Instr.Touches, Instr.parts]) (by simp [Instr.Touches, Instr.parts]) (by simp [Instr.Touches, Instr.parts]) (by simp [Instr.Touches, Instr.parts]) _
  | powerStateAck => exact Kept.on_execPowerStateAck h (by simp [Instr.Touches, Instr.parts]) (by simp [Instr.Touches, Instr.parts]) (by simp [Instr.Touches, Instr.parts]) (by simp [Instr.Touches, Instr.parts]) (by simp [Instr.Touches, Instr.parts]) (by simp [Instr.Touches, Instr.parts]) (by simp [Instr.Touches, Instr.parts]) (by simp [Instr.Touches, Instr.parts]) (by simp [Instr.Touches, Instr.parts]) (by simp [Instr.Touches, Instr.parts]) (by simp [Instr.Touches, Instr.parts]) (by simp [Instr.Touches, Instr.parts]) (by simp [Instr.Touches, Instr.parts]) (by simp [Instr.Touches, Instr.parts]) (by simp [Instr.Touches, Instr.parts]) (by simp [Instr.Touches, Instr.parts])
  | clockStopWake peel x => exact Kept.on_execClockStopWake h (by simp [Instr.Touches, Instr.parts]) (by simp [Instr.Touches, Instr.parts]) (by simp [Instr.Touches, Instr.parts]) (by simp [Instr.Touches, Instr.parts]) (by simp [Instr.Touches, Instr.parts]) (by simp [Instr.Touches, Instr.parts]) (by simp [Instr.Touches, Instr.parts]) _ _
  | stackStateExit slice => exact Kept.on_execStackStateExit h (by simp [Instr.Touches, Instr.parts]) (by simp [Instr.Touches, Instr.parts]) _
  | storageScrub addr => exact Kept.on_execStorageScrub h (by simp [Instr.Touches, Instr.parts]) (by simp [Instr.Touches, Instr.parts]) (by simp [Instr.Touches, Instr.parts]) (by simp [Instr.Touches, Instr.parts]) (by simp [Instr.Touches, Instr.parts]) (by simp [Instr.Touches, Instr.parts]) (by simp [Instr.Touches, Instr.parts]) (by simp [Instr.Touches, Instr.parts]) (by simp [Instr.Touches, Instr.parts]) (by simp [Instr.Touches, Instr.parts]) (by simp [Instr.Touches, Instr.parts]) (by simp [Instr.Touches, Instr.parts]) (by simp [Instr.Touches, Instr.parts]) (by simp [Instr.Touches, Instr.parts]) (by simp [Instr.Touches, Instr.parts]) _
  | coldResetAssert => exact Kept.on_execColdResetAssert h (by intro p; cases p <;> simp [Instr.Touches, Instr.parts])
  | mainSupplyFall => exact Kept.on_execMainSupplyFall h (by intro p; cases p <;> simp [Instr.Touches, Instr.parts]) (by simp [Instr.Touches, Instr.parts])
  | peelLinkUpChange peel up => exact Kept.on_execPeelLinkUpChange h (by simp [Instr.Touches, Instr.parts]) (by simp [Instr.Touches, Instr.parts]) _ _
  | malformedTransfer peel check => exact Kept.on_execMalformedTransfer h (by simp [Instr.Touches, Instr.parts]) (by simp [Instr.Touches, Instr.parts]) _ _
  | crumbLandingTimeout ctx batch row slot offset => exact Kept.on_execCrumbLandingTimeout h (by simp [Instr.Touches, Instr.parts]) _ _ _ _ _
  | backgroundFold ctx tile => exact Kept.on_execBackgroundFold h (by simp [Instr.Touches, Instr.parts]) (by simp [Instr.Touches, Instr.parts]) (by simp [Instr.Touches, Instr.parts]) (by simp [Instr.Touches, Instr.parts]) (by simp [Instr.Touches, Instr.parts]) (by simp [Instr.Touches, Instr.parts]) _ _

/-- Every step answers a next state. It keeps a sound state sound, takes at most the queue's first command and changes only
that command's parts. -/
theorem step_cons {i : Instr} {q : List Instr} (h : s.pending = i :: q) : step s = exec i { s with pending := q } := by
  unfold step; rw [h]
theorem step_nil (h : s.pending = []) : step s = .next s.idle := by
  unfold step; rw [h]

end Sys2Proof.Machine
end

