-- ==== Sys2Proof/Laws/State.lean ====
section
/-!
SUPPORT. Laws/State.lean: what each small update of the state leaves as it is, one lemma a field, and what it writes.
-/
namespace Sys2Proof.Machine

variable (s : State)

/-! `modCtx` -/
@[simp] theorem State.modCtx_pending (c : Nat) (f : Ctx → Ctx) : (s.modCtx c f).pending = s.pending := rfl
@[simp] theorem State.modCtx_boot (c : Nat) (f : Ctx → Ctx) : (s.modCtx c f).boot = s.boot := rfl
@[simp] theorem State.modCtx_win (c : Nat) (f : Ctx → Ctx) : (s.modCtx c f).win = s.win := rfl
@[simp] theorem State.modCtx_link (c : Nat) (f : Ctx → Ctx) : (s.modCtx c f).link = s.link := rfl
@[simp] theorem State.modCtx_frames (c : Nat) (f : Ctx → Ctx) : (s.modCtx c f).frames = s.frames := rfl
@[simp] theorem State.modCtx_fab (c : Nat) (f : Ctx → Ctx) : (s.modCtx c f).fab = s.fab := rfl
@[simp] theorem State.modCtx_power (c : Nat) (f : Ctx → Ctx) : (s.modCtx c f).power = s.power := rfl
@[simp] theorem State.modCtx_health (c : Nat) (f : Ctx → Ctx) : (s.modCtx c f).health = s.health := rfl
@[simp] theorem State.modCtx_slices (c : Nat) (f : Ctx → Ctx) : (s.modCtx c f).slices = s.slices := rfl
@[simp] theorem State.modCtx_branches (c : Nat) (f : Ctx → Ctx) : (s.modCtx c f).branches = s.branches := rfl
@[simp] theorem State.modCtx_pctr (c : Nat) (f : Ctx → Ctx) : (s.modCtx c f).pctr = s.pctr := rfl
@[simp] theorem State.modCtx_poison (c : Nat) (f : Ctx → Ctx) : (s.modCtx c f).poison = s.poison := rfl
@[simp] theorem State.modCtx_engCtr (c : Nat) (f : Ctx → Ctx) : (s.modCtx c f).engCtr = s.engCtr := rfl
@[simp] theorem State.modCtx_slcCtr (c : Nat) (f : Ctx → Ctx) : (s.modCtx c f).slcCtr = s.slcCtr := rfl
@[simp] theorem State.modCtx_ctxCtr (c : Nat) (f : Ctx → Ctx) : (s.modCtx c f).ctxCtr = s.ctxCtr := rfl
@[simp] theorem State.modCtx_sram (c : Nat) (f : Ctx → Ctx) : (s.modCtx c f).sram = s.sram := rfl
@[simp] theorem State.modCtx_mem (c : Nat) (f : Ctx → Ctx) : (s.modCtx c f).mem = s.mem := rfl
@[simp] theorem State.modCtx_freeIdx (c : Nat) (f : Ctx → Ctx) : (s.modCtx c f).freeIdx = s.freeIdx := rfl

/-! `modSlice` -/
@[simp] theorem State.modSlice_pending (i : Nat) (f : Slice → Slice) : (s.modSlice i f).pending = s.pending := rfl
@[simp] theorem State.modSlice_boot (i : Nat) (f : Slice → Slice) : (s.modSlice i f).boot = s.boot := rfl
@[simp] theorem State.modSlice_win (i : Nat) (f : Slice → Slice) : (s.modSlice i f).win = s.win := rfl
@[simp] theorem State.modSlice_link (i : Nat) (f : Slice → Slice) : (s.modSlice i f).link = s.link := rfl
@[simp] theorem State.modSlice_frames (i : Nat) (f : Slice → Slice) : (s.modSlice i f).frames = s.frames := rfl
@[simp] theorem State.modSlice_fab (i : Nat) (f : Slice → Slice) : (s.modSlice i f).fab = s.fab := rfl
@[simp] theorem State.modSlice_power (i : Nat) (f : Slice → Slice) : (s.modSlice i f).power = s.power := rfl
@[simp] theorem State.modSlice_health (i : Nat) (f : Slice → Slice) : (s.modSlice i f).health = s.health := rfl
@[simp] theorem State.modSlice_ctxs (i : Nat) (f : Slice → Slice) : (s.modSlice i f).ctxs = s.ctxs := rfl
@[simp] theorem State.modSlice_branches (i : Nat) (f : Slice → Slice) : (s.modSlice i f).branches = s.branches := rfl
@[simp] theorem State.modSlice_pctr (i : Nat) (f : Slice → Slice) : (s.modSlice i f).pctr = s.pctr := rfl
@[simp] theorem State.modSlice_poison (i : Nat) (f : Slice → Slice) : (s.modSlice i f).poison = s.poison := rfl
@[simp] theorem State.modSlice_engCtr (i : Nat) (f : Slice → Slice) : (s.modSlice i f).engCtr = s.engCtr := rfl
@[simp] theorem State.modSlice_slcCtr (i : Nat) (f : Slice → Slice) : (s.modSlice i f).slcCtr = s.slcCtr := rfl
@[simp] theorem State.modSlice_ctxCtr (i : Nat) (f : Slice → Slice) : (s.modSlice i f).ctxCtr = s.ctxCtr := rfl
@[simp] theorem State.modSlice_sram (i : Nat) (f : Slice → Slice) : (s.modSlice i f).sram = s.sram := rfl
@[simp] theorem State.modSlice_mem (i : Nat) (f : Slice → Slice) : (s.modSlice i f).mem = s.mem := rfl
@[simp] theorem State.modSlice_freeIdx (i : Nat) (f : Slice → Slice) : (s.modSlice i f).freeIdx = s.freeIdx := rfl

/-! `modPeel` -/
@[simp] theorem State.modPeel_pending (p : Nat) (f : Peel → Peel) : (s.modPeel p f).pending = s.pending := rfl
@[simp] theorem State.modPeel_boot (p : Nat) (f : Peel → Peel) : (s.modPeel p f).boot = s.boot := rfl
@[simp] theorem State.modPeel_win (p : Nat) (f : Peel → Peel) : (s.modPeel p f).win = s.win := rfl
@[simp] theorem State.modPeel_link (p : Nat) (f : Peel → Peel) : (s.modPeel p f).link = s.link := rfl
@[simp] theorem State.modPeel_frames (p : Nat) (f : Peel → Peel) : (s.modPeel p f).frames = s.frames := rfl
@[simp] theorem State.modPeel_power (p : Nat) (f : Peel → Peel) : (s.modPeel p f).power = s.power := rfl
@[simp] theorem State.modPeel_health (p : Nat) (f : Peel → Peel) : (s.modPeel p f).health = s.health := rfl
@[simp] theorem State.modPeel_slices (p : Nat) (f : Peel → Peel) : (s.modPeel p f).slices = s.slices := rfl
@[simp] theorem State.modPeel_ctxs (p : Nat) (f : Peel → Peel) : (s.modPeel p f).ctxs = s.ctxs := rfl
@[simp] theorem State.modPeel_branches (p : Nat) (f : Peel → Peel) : (s.modPeel p f).branches = s.branches := rfl
@[simp] theorem State.modPeel_pctr (p : Nat) (f : Peel → Peel) : (s.modPeel p f).pctr = s.pctr := rfl
@[simp] theorem State.modPeel_poison (p : Nat) (f : Peel → Peel) : (s.modPeel p f).poison = s.poison := rfl
@[simp] theorem State.modPeel_engCtr (p : Nat) (f : Peel → Peel) : (s.modPeel p f).engCtr = s.engCtr := rfl
@[simp] theorem State.modPeel_slcCtr (p : Nat) (f : Peel → Peel) : (s.modPeel p f).slcCtr = s.slcCtr := rfl
@[simp] theorem State.modPeel_ctxCtr (p : Nat) (f : Peel → Peel) : (s.modPeel p f).ctxCtr = s.ctxCtr := rfl
@[simp] theorem State.modPeel_sram (p : Nat) (f : Peel → Peel) : (s.modPeel p f).sram = s.sram := rfl
@[simp] theorem State.modPeel_mem (p : Nat) (f : Peel → Peel) : (s.modPeel p f).mem = s.mem := rfl
@[simp] theorem State.modPeel_freeIdx (p : Nat) (f : Peel → Peel) : (s.modPeel p f).freeIdx = s.freeIdx := rfl

/-! `modAdm` -/
@[simp] theorem State.modAdm_pending (x : Nat) (g : BitVec 16) (f : Adm → Adm) : (s.modAdm x g f).pending = s.pending := rfl
@[simp] theorem State.modAdm_boot (x : Nat) (g : BitVec 16) (f : Adm → Adm) : (s.modAdm x g f).boot = s.boot := rfl
@[simp] theorem State.modAdm_win (x : Nat) (g : BitVec 16) (f : Adm → Adm) : (s.modAdm x g f).win = s.win := rfl
@[simp] theorem State.modAdm_frames (x : Nat) (g : BitVec 16) (f : Adm → Adm) : (s.modAdm x g f).frames = s.frames := rfl
@[simp] theorem State.modAdm_fab (x : Nat) (g : BitVec 16) (f : Adm → Adm) : (s.modAdm x g f).fab = s.fab := rfl
@[simp] theorem State.modAdm_power (x : Nat) (g : BitVec 16) (f : Adm → Adm) : (s.modAdm x g f).power = s.power := rfl
@[simp] theorem State.modAdm_health (x : Nat) (g : BitVec 16) (f : Adm → Adm) : (s.modAdm x g f).health = s.health := rfl
@[simp] theorem State.modAdm_slices (x : Nat) (g : BitVec 16) (f : Adm → Adm) : (s.modAdm x g f).slices = s.slices := rfl
@[simp] theorem State.modAdm_ctxs (x : Nat) (g : BitVec 16) (f : Adm → Adm) : (s.modAdm x g f).ctxs = s.ctxs := rfl
@[simp] theorem State.modAdm_branches (x : Nat) (g : BitVec 16) (f : Adm → Adm) : (s.modAdm x g f).branches = s.branches := rfl
@[simp] theorem State.modAdm_pctr (x : Nat) (g : BitVec 16) (f : Adm → Adm) : (s.modAdm x g f).pctr = s.pctr := rfl
@[simp] theorem State.modAdm_poison (x : Nat) (g : BitVec 16) (f : Adm → Adm) : (s.modAdm x g f).poison = s.poison := rfl
@[simp] theorem State.modAdm_engCtr (x : Nat) (g : BitVec 16) (f : Adm → Adm) : (s.modAdm x g f).engCtr = s.engCtr := rfl
@[simp] theorem State.modAdm_slcCtr (x : Nat) (g : BitVec 16) (f : Adm → Adm) : (s.modAdm x g f).slcCtr = s.slcCtr := rfl
@[simp] theorem State.modAdm_ctxCtr (x : Nat) (g : BitVec 16) (f : Adm → Adm) : (s.modAdm x g f).ctxCtr = s.ctxCtr := rfl
@[simp] theorem State.modAdm_sram (x : Nat) (g : BitVec 16) (f : Adm → Adm) : (s.modAdm x g f).sram = s.sram := rfl
@[simp] theorem State.modAdm_mem (x : Nat) (g : BitVec 16) (f : Adm → Adm) : (s.modAdm x g f).mem = s.mem := rfl
@[simp] theorem State.modAdm_freeIdx (x : Nat) (g : BitVec 16) (f : Adm → Adm) : (s.modAdm x g f).freeIdx = s.freeIdx := rfl

/-! `setCtxValue` -/
@[simp] theorem State.setCtxValue_pending (c k n : Nat) : (s.setCtxValue c k n).pending = s.pending := rfl
@[simp] theorem State.setCtxValue_boot (c k n : Nat) : (s.setCtxValue c k n).boot = s.boot := rfl
@[simp] theorem State.setCtxValue_win (c k n : Nat) : (s.setCtxValue c k n).win = s.win := rfl
@[simp] theorem State.setCtxValue_link (c k n : Nat) : (s.setCtxValue c k n).link = s.link := rfl
@[simp] theorem State.setCtxValue_frames (c k n : Nat) : (s.setCtxValue c k n).frames = s.frames := rfl
@[simp] theorem State.setCtxValue_fab (c k n : Nat) : (s.setCtxValue c k n).fab = s.fab := rfl
@[simp] theorem State.setCtxValue_power (c k n : Nat) : (s.setCtxValue c k n).power = s.power := rfl
@[simp] theorem State.setCtxValue_health (c k n : Nat) : (s.setCtxValue c k n).health = s.health := rfl
@[simp] theorem State.setCtxValue_slices (c k n : Nat) : (s.setCtxValue c k n).slices = s.slices := rfl
@[simp] theorem State.setCtxValue_ctxs (c k n : Nat) : (s.setCtxValue c k n).ctxs = s.ctxs := rfl
@[simp] theorem State.setCtxValue_branches (c k n : Nat) : (s.setCtxValue c k n).branches = s.branches := rfl
@[simp] theorem State.setCtxValue_pctr (c k n : Nat) : (s.setCtxValue c k n).pctr = s.pctr := rfl
@[simp] theorem State.setCtxValue_poison (c k n : Nat) : (s.setCtxValue c k n).poison = s.poison := rfl
@[simp] theorem State.setCtxValue_engCtr (c k n : Nat) : (s.setCtxValue c k n).engCtr = s.engCtr := rfl
@[simp] theorem State.setCtxValue_slcCtr (c k n : Nat) : (s.setCtxValue c k n).slcCtr = s.slcCtr := rfl
@[simp] theorem State.setCtxValue_sram (c k n : Nat) : (s.setCtxValue c k n).sram = s.sram := rfl
@[simp] theorem State.setCtxValue_mem (c k n : Nat) : (s.setCtxValue c k n).mem = s.mem := rfl
@[simp] theorem State.setCtxValue_freeIdx (c k n : Nat) : (s.setCtxValue c k n).freeIdx = s.freeIdx := rfl

/-! `clearBank` -/
@[simp] theorem State.clearBank_pending (c : Nat) : (s.clearBank c).pending = s.pending := rfl
@[simp] theorem State.clearBank_boot (c : Nat) : (s.clearBank c).boot = s.boot := rfl
@[simp] theorem State.clearBank_win (c : Nat) : (s.clearBank c).win = s.win := rfl
@[simp] theorem State.clearBank_link (c : Nat) : (s.clearBank c).link = s.link := rfl
@[simp] theorem State.clearBank_frames (c : Nat) : (s.clearBank c).frames = s.frames := rfl
@[simp] theorem State.clearBank_fab (c : Nat) : (s.clearBank c).fab = s.fab := rfl
@[simp] theorem State.clearBank_power (c : Nat) : (s.clearBank c).power = s.power := rfl
@[simp] theorem State.clearBank_health (c : Nat) : (s.clearBank c).health = s.health := rfl
@[simp] theorem State.clearBank_slices (c : Nat) : (s.clearBank c).slices = s.slices := rfl
@[simp] theorem State.clearBank_ctxs (c : Nat) : (s.clearBank c).ctxs = s.ctxs := rfl
@[simp] theorem State.clearBank_branches (c : Nat) : (s.clearBank c).branches = s.branches := rfl
@[simp] theorem State.clearBank_pctr (c : Nat) : (s.clearBank c).pctr = s.pctr := rfl
@[simp] theorem State.clearBank_poison (c : Nat) : (s.clearBank c).poison = s.poison := rfl
@[simp] theorem State.clearBank_engCtr (c : Nat) : (s.clearBank c).engCtr = s.engCtr := rfl
@[simp] theorem State.clearBank_slcCtr (c : Nat) : (s.clearBank c).slcCtr = s.slcCtr := rfl
@[simp] theorem State.clearBank_sram (c : Nat) : (s.clearBank c).sram = s.sram := rfl
@[simp] theorem State.clearBank_mem (c : Nat) : (s.clearBank c).mem = s.mem := rfl
@[simp] theorem State.clearBank_freeIdx (c : Nat) : (s.clearBank c).freeIdx = s.freeIdx := rfl

/-! `advanceHead` -/
@[simp] theorem State.advanceHead_pending (n : Nat) : (s.advanceHead n).pending = s.pending := rfl
@[simp] theorem State.advanceHead_boot (n : Nat) : (s.advanceHead n).boot = s.boot := rfl
@[simp] theorem State.advanceHead_win (n : Nat) : (s.advanceHead n).win = s.win := rfl
@[simp] theorem State.advanceHead_frames (n : Nat) : (s.advanceHead n).frames = s.frames := rfl
@[simp] theorem State.advanceHead_fab (n : Nat) : (s.advanceHead n).fab = s.fab := rfl
@[simp] theorem State.advanceHead_power (n : Nat) : (s.advanceHead n).power = s.power := rfl
@[simp] theorem State.advanceHead_health (n : Nat) : (s.advanceHead n).health = s.health := rfl
@[simp] theorem State.advanceHead_slices (n : Nat) : (s.advanceHead n).slices = s.slices := rfl
@[simp] theorem State.advanceHead_ctxs (n : Nat) : (s.advanceHead n).ctxs = s.ctxs := rfl
@[simp] theorem State.advanceHead_branches (n : Nat) : (s.advanceHead n).branches = s.branches := rfl
@[simp] theorem State.advanceHead_pctr (n : Nat) : (s.advanceHead n).pctr = s.pctr := rfl
@[simp] theorem State.advanceHead_poison (n : Nat) : (s.advanceHead n).poison = s.poison := rfl
@[simp] theorem State.advanceHead_engCtr (n : Nat) : (s.advanceHead n).engCtr = s.engCtr := rfl
@[simp] theorem State.advanceHead_slcCtr (n : Nat) : (s.advanceHead n).slcCtr = s.slcCtr := rfl
@[simp] theorem State.advanceHead_ctxCtr (n : Nat) : (s.advanceHead n).ctxCtr = s.ctxCtr := rfl
@[simp] theorem State.advanceHead_sram (n : Nat) : (s.advanceHead n).sram = s.sram := rfl
@[simp] theorem State.advanceHead_mem (n : Nat) : (s.advanceHead n).mem = s.mem := rfl
@[simp] theorem State.advanceHead_freeIdx (n : Nat) : (s.advanceHead n).freeIdx = s.freeIdx := rfl

/-! `countGuard` -/
@[simp] theorem State.countGuard_pending (i : Nat) : (s.countGuard i).pending = s.pending := rfl
@[simp] theorem State.countGuard_win (i : Nat) : (s.countGuard i).win = s.win := rfl
@[simp] theorem State.countGuard_link (i : Nat) : (s.countGuard i).link = s.link := rfl
@[simp] theorem State.countGuard_frames (i : Nat) : (s.countGuard i).frames = s.frames := rfl
@[simp] theorem State.countGuard_fab (i : Nat) : (s.countGuard i).fab = s.fab := rfl
@[simp] theorem State.countGuard_power (i : Nat) : (s.countGuard i).power = s.power := rfl
@[simp] theorem State.countGuard_health (i : Nat) : (s.countGuard i).health = s.health := rfl
@[simp] theorem State.countGuard_slices (i : Nat) : (s.countGuard i).slices = s.slices := rfl
@[simp] theorem State.countGuard_ctxs (i : Nat) : (s.countGuard i).ctxs = s.ctxs := rfl
@[simp] theorem State.countGuard_branches (i : Nat) : (s.countGuard i).branches = s.branches := rfl
@[simp] theorem State.countGuard_pctr (i : Nat) : (s.countGuard i).pctr = s.pctr := rfl
@[simp] theorem State.countGuard_poison (i : Nat) : (s.countGuard i).poison = s.poison := rfl
@[simp] theorem State.countGuard_engCtr (i : Nat) : (s.countGuard i).engCtr = s.engCtr := rfl
@[simp] theorem State.countGuard_slcCtr (i : Nat) : (s.countGuard i).slcCtr = s.slcCtr := rfl
@[simp] theorem State.countGuard_ctxCtr (i : Nat) : (s.countGuard i).ctxCtr = s.ctxCtr := rfl
@[simp] theorem State.countGuard_sram (i : Nat) : (s.countGuard i).sram = s.sram := rfl
@[simp] theorem State.countGuard_mem (i : Nat) : (s.countGuard i).mem = s.mem := rfl
@[simp] theorem State.countGuard_freeIdx (i : Nat) : (s.countGuard i).freeIdx = s.freeIdx := rfl

/-! `count` -/
@[simp] theorem State.count_pending (w n : Nat) : (s.count w n).pending = s.pending := by unfold State.count; split <;> rfl
@[simp] theorem State.count_boot (w n : Nat) : (s.count w n).boot = s.boot := by unfold State.count; split <;> rfl
@[simp] theorem State.count_win (w n : Nat) : (s.count w n).win = s.win := by unfold State.count; split <;> rfl
@[simp] theorem State.count_link (w n : Nat) : (s.count w n).link = s.link := by unfold State.count; split <;> rfl
@[simp] theorem State.count_frames (w n : Nat) : (s.count w n).frames = s.frames := by unfold State.count; split <;> rfl
@[simp] theorem State.count_fab (w n : Nat) : (s.count w n).fab = s.fab := by unfold State.count; split <;> rfl
@[simp] theorem State.count_power (w n : Nat) : (s.count w n).power = s.power := by unfold State.count; split <;> rfl
@[simp] theorem State.count_health (w n : Nat) : (s.count w n).health = s.health := by unfold State.count; split <;> rfl
@[simp] theorem State.count_slices (w n : Nat) : (s.count w n).slices = s.slices := by unfold State.count; split <;> rfl
@[simp] theorem State.count_ctxs (w n : Nat) : (s.count w n).ctxs = s.ctxs := by unfold State.count; split <;> rfl
@[simp] theorem State.count_branches (w n : Nat) : (s.count w n).branches = s.branches := by unfold State.count; split <;> rfl
@[simp] theorem State.count_pctr (w n : Nat) : (s.count w n).pctr = s.pctr := by unfold State.count; split <;> rfl
@[simp] theorem State.count_poison (w n : Nat) : (s.count w n).poison = s.poison := by unfold State.count; split <;> rfl
@[simp] theorem State.count_slcCtr (w n : Nat) : (s.count w n).slcCtr = s.slcCtr := by unfold State.count; split <;> rfl
@[simp] theorem State.count_ctxCtr (w n : Nat) : (s.count w n).ctxCtr = s.ctxCtr := by unfold State.count; split <;> rfl
@[simp] theorem State.count_sram (w n : Nat) : (s.count w n).sram = s.sram := by unfold State.count; split <;> rfl
@[simp] theorem State.count_mem (w n : Nat) : (s.count w n).mem = s.mem := by unfold State.count; split <;> rfl
@[simp] theorem State.count_freeIdx (w n : Nat) : (s.count w n).freeIdx = s.freeIdx := by unfold State.count; split <;> rfl

/-! `countSlice` -/
@[simp] theorem State.countSlice_pending (i b n : Nat) : (s.countSlice i b n).pending = s.pending := by unfold State.countSlice; split <;> rfl
@[simp] theorem State.countSlice_boot (i b n : Nat) : (s.countSlice i b n).boot = s.boot := by unfold State.countSlice; split <;> rfl
@[simp] theorem State.countSlice_win (i b n : Nat) : (s.countSlice i b n).win = s.win := by unfold State.countSlice; split <;> rfl
@[simp] theorem State.countSlice_link (i b n : Nat) : (s.countSlice i b n).link = s.link := by unfold State.countSlice; split <;> rfl
@[simp] theorem State.countSlice_frames (i b n : Nat) : (s.countSlice i b n).frames = s.frames := by unfold State.countSlice; split <;> rfl
@[simp] theorem State.countSlice_fab (i b n : Nat) : (s.countSlice i b n).fab = s.fab := by unfold State.countSlice; split <;> rfl
@[simp] theorem State.countSlice_power (i b n : Nat) : (s.countSlice i b n).power = s.power := by unfold State.countSlice; split <;> rfl
@[simp] theorem State.countSlice_health (i b n : Nat) : (s.countSlice i b n).health = s.health := by unfold State.countSlice; split <;> rfl
@[simp] theorem State.countSlice_slices (i b n : Nat) : (s.countSlice i b n).slices = s.slices := by unfold State.countSlice; split <;> rfl
@[simp] theorem State.countSlice_ctxs (i b n : Nat) : (s.countSlice i b n).ctxs = s.ctxs := by unfold State.countSlice; split <;> rfl
@[simp] theorem State.countSlice_branches (i b n : Nat) : (s.countSlice i b n).branches = s.branches := by unfold State.countSlice; split <;> rfl
@[simp] theorem State.countSlice_pctr (i b n : Nat) : (s.countSlice i b n).pctr = s.pctr := by unfold State.countSlice; split <;> rfl
@[simp] theorem State.countSlice_poison (i b n : Nat) : (s.countSlice i b n).poison = s.poison := by unfold State.countSlice; split <;> rfl
@[simp] theorem State.countSlice_engCtr (i b n : Nat) : (s.countSlice i b n).engCtr = s.engCtr := by unfold State.countSlice; split <;> rfl
@[simp] theorem State.countSlice_ctxCtr (i b n : Nat) : (s.countSlice i b n).ctxCtr = s.ctxCtr := by unfold State.countSlice; split <;> rfl
@[simp] theorem State.countSlice_sram (i b n : Nat) : (s.countSlice i b n).sram = s.sram := by unfold State.countSlice; split <;> rfl
@[simp] theorem State.countSlice_mem (i b n : Nat) : (s.countSlice i b n).mem = s.mem := by unfold State.countSlice; split <;> rfl
@[simp] theorem State.countSlice_freeIdx (i b n : Nat) : (s.countSlice i b n).freeIdx = s.freeIdx := by unfold State.countSlice; split <;> rfl

/-! `countCtx` -/
@[simp] theorem State.countCtx_pending (c k n : Nat) : (s.countCtx c k n).pending = s.pending := by unfold State.countCtx; split <;> rfl
@[simp] theorem State.countCtx_boot (c k n : Nat) : (s.countCtx c k n).boot = s.boot := by unfold State.countCtx; split <;> rfl
@[simp] theorem State.countCtx_win (c k n : Nat) : (s.countCtx c k n).win = s.win := by unfold State.countCtx; split <;> rfl
@[simp] theorem State.countCtx_link (c k n : Nat) : (s.countCtx c k n).link = s.link := by unfold State.countCtx; split <;> rfl
@[simp] theorem State.countCtx_frames (c k n : Nat) : (s.countCtx c k n).frames = s.frames := by unfold State.countCtx; split <;> rfl
@[simp] theorem State.countCtx_fab (c k n : Nat) : (s.countCtx c k n).fab = s.fab := by unfold State.countCtx; split <;> rfl
@[simp] theorem State.countCtx_power (c k n : Nat) : (s.countCtx c k n).power = s.power := by unfold State.countCtx; split <;> rfl
@[simp] theorem State.countCtx_health (c k n : Nat) : (s.countCtx c k n).health = s.health := by unfold State.countCtx; split <;> rfl
@[simp] theorem State.countCtx_slices (c k n : Nat) : (s.countCtx c k n).slices = s.slices := by unfold State.countCtx; split <;> rfl
@[simp] theorem State.countCtx_ctxs (c k n : Nat) : (s.countCtx c k n).ctxs = s.ctxs := by unfold State.countCtx; split <;> rfl
@[simp] theorem State.countCtx_branches (c k n : Nat) : (s.countCtx c k n).branches = s.branches := by unfold State.countCtx; split <;> rfl
@[simp] theorem State.countCtx_pctr (c k n : Nat) : (s.countCtx c k n).pctr = s.pctr := by unfold State.countCtx; split <;> rfl
@[simp] theorem State.countCtx_poison (c k n : Nat) : (s.countCtx c k n).poison = s.poison := by unfold State.countCtx; split <;> rfl
@[simp] theorem State.countCtx_engCtr (c k n : Nat) : (s.countCtx c k n).engCtr = s.engCtr := by unfold State.countCtx; split <;> rfl
@[simp] theorem State.countCtx_slcCtr (c k n : Nat) : (s.countCtx c k n).slcCtr = s.slcCtr := by unfold State.countCtx; split <;> rfl
@[simp] theorem State.countCtx_sram (c k n : Nat) : (s.countCtx c k n).sram = s.sram := by unfold State.countCtx; split <;> rfl
@[simp] theorem State.countCtx_mem (c k n : Nat) : (s.countCtx c k n).mem = s.mem := by unfold State.countCtx; split <;> rfl
@[simp] theorem State.countCtx_freeIdx (c k n : Nat) : (s.countCtx c k n).freeIdx = s.freeIdx := by unfold State.countCtx; split <;> rfl

/-! `reply` -/
@[simp] theorem State.reply_pending (o : Byte) (x : Nat) (g : BitVec 16) (n d k : Nat) : (s.reply o x g n d k).pending = s.pending := by unfold State.reply; split <;> rfl
@[simp] theorem State.reply_boot (o : Byte) (x : Nat) (g : BitVec 16) (n d k : Nat) : (s.reply o x g n d k).boot = s.boot := by unfold State.reply; split <;> rfl
@[simp] theorem State.reply_win (o : Byte) (x : Nat) (g : BitVec 16) (n d k : Nat) : (s.reply o x g n d k).win = s.win := by unfold State.reply; split <;> rfl
@[simp] theorem State.reply_frames (o : Byte) (x : Nat) (g : BitVec 16) (n d k : Nat) : (s.reply o x g n d k).frames = s.frames := by unfold State.reply; split <;> rfl
@[simp] theorem State.reply_fab (o : Byte) (x : Nat) (g : BitVec 16) (n d k : Nat) : (s.reply o x g n d k).fab = s.fab := by unfold State.reply; split <;> rfl
@[simp] theorem State.reply_power (o : Byte) (x : Nat) (g : BitVec 16) (n d k : Nat) : (s.reply o x g n d k).power = s.power := by unfold State.reply; split <;> rfl
@[simp] theorem State.reply_health (o : Byte) (x : Nat) (g : BitVec 16) (n d k : Nat) : (s.reply o x g n d k).health = s.health := by unfold State.reply; split <;> rfl
@[simp] theorem State.reply_slices (o : Byte) (x : Nat) (g : BitVec 16) (n d k : Nat) : (s.reply o x g n d k).slices = s.slices := by unfold State.reply; split <;> rfl
@[simp] theorem State.reply_ctxs (o : Byte) (x : Nat) (g : BitVec 16) (n d k : Nat) : (s.reply o x g n d k).ctxs = s.ctxs := by unfold State.reply; split <;> rfl
@[simp] theorem State.reply_branches (o : Byte) (x : Nat) (g : BitVec 16) (n d k : Nat) : (s.reply o x g n d k).branches = s.branches := by unfold State.reply; split <;> rfl
@[simp] theorem State.reply_pctr (o : Byte) (x : Nat) (g : BitVec 16) (n d k : Nat) : (s.reply o x g n d k).pctr = s.pctr := by unfold State.reply; split <;> rfl
@[simp] theorem State.reply_poison (o : Byte) (x : Nat) (g : BitVec 16) (n d k : Nat) : (s.reply o x g n d k).poison = s.poison := by unfold State.reply; split <;> rfl
@[simp] theorem State.reply_engCtr (o : Byte) (x : Nat) (g : BitVec 16) (n d k : Nat) : (s.reply o x g n d k).engCtr = s.engCtr := by unfold State.reply; split <;> rfl
@[simp] theorem State.reply_slcCtr (o : Byte) (x : Nat) (g : BitVec 16) (n d k : Nat) : (s.reply o x g n d k).slcCtr = s.slcCtr := by unfold State.reply; split <;> rfl
@[simp] theorem State.reply_ctxCtr (o : Byte) (x : Nat) (g : BitVec 16) (n d k : Nat) : (s.reply o x g n d k).ctxCtr = s.ctxCtr := by unfold State.reply; split <;> rfl
@[simp] theorem State.reply_sram (o : Byte) (x : Nat) (g : BitVec 16) (n d k : Nat) : (s.reply o x g n d k).sram = s.sram := by unfold State.reply; split <;> rfl
@[simp] theorem State.reply_mem (o : Byte) (x : Nat) (g : BitVec 16) (n d k : Nat) : (s.reply o x g n d k).mem = s.mem := by unfold State.reply; split <;> rfl
@[simp] theorem State.reply_freeIdx (o : Byte) (x : Nat) (g : BitVec 16) (n d k : Nat) : (s.reply o x g n d k).freeIdx = s.freeIdx := by unfold State.reply; split <;> rfl

/-! `wake` -/
@[simp] theorem State.wake_pending : (s.wake).pending = s.pending := by unfold State.wake; split <;> simp
@[simp] theorem State.wake_boot : (s.wake).boot = s.boot := by unfold State.wake; split <;> simp
@[simp] theorem State.wake_win : (s.wake).win = s.win := by unfold State.wake; split <;> simp
@[simp] theorem State.wake_link : (s.wake).link = s.link := by unfold State.wake; split <;> simp
@[simp] theorem State.wake_frames : (s.wake).frames = s.frames := by unfold State.wake; split <;> simp
@[simp] theorem State.wake_fab : (s.wake).fab = s.fab := by unfold State.wake; split <;> simp
@[simp] theorem State.wake_health : (s.wake).health = s.health := by unfold State.wake; split <;> simp
@[simp] theorem State.wake_slices : (s.wake).slices = s.slices := by unfold State.wake; split <;> simp
@[simp] theorem State.wake_ctxs : (s.wake).ctxs = s.ctxs := by unfold State.wake; split <;> simp
@[simp] theorem State.wake_branches : (s.wake).branches = s.branches := by unfold State.wake; split <;> simp
@[simp] theorem State.wake_pctr : (s.wake).pctr = s.pctr := by unfold State.wake; split <;> simp
@[simp] theorem State.wake_poison : (s.wake).poison = s.poison := by unfold State.wake; split <;> simp
@[simp] theorem State.wake_slcCtr : (s.wake).slcCtr = s.slcCtr := by unfold State.wake; split <;> simp
@[simp] theorem State.wake_ctxCtr : (s.wake).ctxCtr = s.ctxCtr := by unfold State.wake; split <;> simp
@[simp] theorem State.wake_sram : (s.wake).sram = s.sram := by unfold State.wake; split <;> simp
@[simp] theorem State.wake_mem : (s.wake).mem = s.mem := by unfold State.wake; split <;> simp
@[simp] theorem State.wake_freeIdx : (s.wake).freeIdx = s.freeIdx := by unfold State.wake; split <;> simp

/-! `modTile` -/
@[simp] theorem State.modTile_pending (c t : Nat) (f : TileRec → TileRec) : (s.modTile c t f).pending = s.pending := by unfold State.modTile; split <;> rfl
@[simp] theorem State.modTile_boot (c t : Nat) (f : TileRec → TileRec) : (s.modTile c t f).boot = s.boot := by unfold State.modTile; split <;> rfl
@[simp] theorem State.modTile_win (c t : Nat) (f : TileRec → TileRec) : (s.modTile c t f).win = s.win := by unfold State.modTile; split <;> rfl
@[simp] theorem State.modTile_link (c t : Nat) (f : TileRec → TileRec) : (s.modTile c t f).link = s.link := by unfold State.modTile; split <;> rfl
@[simp] theorem State.modTile_frames (c t : Nat) (f : TileRec → TileRec) : (s.modTile c t f).frames = s.frames := by unfold State.modTile; split <;> rfl
@[simp] theorem State.modTile_fab (c t : Nat) (f : TileRec → TileRec) : (s.modTile c t f).fab = s.fab := by unfold State.modTile; split <;> rfl
@[simp] theorem State.modTile_power (c t : Nat) (f : TileRec → TileRec) : (s.modTile c t f).power = s.power := by unfold State.modTile; split <;> rfl
@[simp] theorem State.modTile_health (c t : Nat) (f : TileRec → TileRec) : (s.modTile c t f).health = s.health := by unfold State.modTile; split <;> rfl
@[simp] theorem State.modTile_slices (c t : Nat) (f : TileRec → TileRec) : (s.modTile c t f).slices = s.slices := by unfold State.modTile; split <;> rfl
@[simp] theorem State.modTile_branches (c t : Nat) (f : TileRec → TileRec) : (s.modTile c t f).branches = s.branches := by unfold State.modTile; split <;> rfl
@[simp] theorem State.modTile_pctr (c t : Nat) (f : TileRec → TileRec) : (s.modTile c t f).pctr = s.pctr := by unfold State.modTile; split <;> rfl
@[simp] theorem State.modTile_poison (c t : Nat) (f : TileRec → TileRec) : (s.modTile c t f).poison = s.poison := by unfold State.modTile; split <;> rfl
@[simp] theorem State.modTile_engCtr (c t : Nat) (f : TileRec → TileRec) : (s.modTile c t f).engCtr = s.engCtr := by unfold State.modTile; split <;> rfl
@[simp] theorem State.modTile_slcCtr (c t : Nat) (f : TileRec → TileRec) : (s.modTile c t f).slcCtr = s.slcCtr := by unfold State.modTile; split <;> rfl
@[simp] theorem State.modTile_ctxCtr (c t : Nat) (f : TileRec → TileRec) : (s.modTile c t f).ctxCtr = s.ctxCtr := by unfold State.modTile; split <;> rfl
@[simp] theorem State.modTile_sram (c t : Nat) (f : TileRec → TileRec) : (s.modTile c t f).sram = s.sram := by unfold State.modTile; split <;> rfl
@[simp] theorem State.modTile_mem (c t : Nat) (f : TileRec → TileRec) : (s.modTile c t f).mem = s.mem := by unfold State.modTile; split <;> rfl
@[simp] theorem State.modTile_freeIdx (c t : Nat) (f : TileRec → TileRec) : (s.modTile c t f).freeIdx = s.freeIdx := by unfold State.modTile; split <;> rfl

/-! What the updates write. -/
@[simp] theorem State.modCtx_ctx_self (c : Nat) (f : Ctx → Ctx) : (s.modCtx c f).ctx c = f (s.ctx c) :=
  mgetD_mset_self s.ctxs c _ _
theorem State.modCtx_ctx_ne {c d : Nat} (f : Ctx → Ctx) (h : c ≠ d) : (s.modCtx c f).ctx d = s.ctx d :=
  mgetD_mset_ne s.ctxs _ _ h
@[simp] theorem State.modSlice_slice_self (i : Nat) (f : Slice → Slice) : (s.modSlice i f).slice i = f (s.slice i) :=
  mgetD_mset_self s.slices i _ _
theorem State.modSlice_slice_ne {i j : Nat} (f : Slice → Slice) (h : i ≠ j) : (s.modSlice i f).slice j = s.slice j :=
  mgetD_mset_ne s.slices _ _ h
theorem State.slice_each (l : List Nat) (hn : l.Nodup) (j : Nat) (f : Slice → Slice) :
    (s.each l (fun s i => s.modSlice i f)).slice j = if j ∈ l then f (s.slice j) else s.slice j := by
  unfold State.each
  induction l generalizing s with
  | nil => simp
  | cons i l ih =>
    rw [List.nodup_cons] at hn
    rw [List.foldl_cons, ih _ hn.2]
    by_cases h : j = i
    · subst h; simp [hn.1]
    · rw [State.modSlice_slice_ne s f (Ne.symm h)]; simp [h]
theorem State.each_modSlice (l : List Nat) (f : Slice → Slice) :
    s.each l (fun s i => s.modSlice i f) = { s with slices := (s.each l (fun s i => s.modSlice i f)).slices } := by
  unfold State.each
  induction l generalizing s with
  | nil => rfl
  | cons i l ih => rw [List.foldl_cons, ih]; rfl
/-- Service is a matter of the boot state alone. -/
theorem State.live_congr {s t : State} (h : s.boot = t.boot) : s.live = t.live := by unfold State.live; rw [h]

end Sys2Proof.Machine
end

