-- ==== Sys2Proof/Laws/Command.lean ====
section
/-!
SUPPORT. Laws/Command.lean: what the engine does with one command of the link, said once for every command row: it takes its
flits, refuses it, admits it and lets it wait, or begins it; and what a final reply does.
-/
namespace Sys2Proof.Machine

variable {s : State} {r : CmdRow} {c : Cmd}

/-- The meaning of a command row is `runCmd` of its row. -/
theorem exec_cmdRow {i : Instr} (h : Instr.cmdRow? i = some (r, c)) (s : State) :
    exec i s = .next (s.runCmd r.op r.fields r.chk r.bytes r.take r.eff c) := by
  cases i <;> cases h <;> rfl

/-- A state that accepts commands is live. -/
theorem State.live_of_accepts (h : s.accepts = true) : s.live = true := by
  unfold State.accepts at h; exact (Bool.and_eq_true_iff.mp h).1

/-- A command that the engine takes with its flits runs its checks on the state with its flits taken. -/
theorem State.runCmd_offers (h : s.Offers c) (hf : (s.taken c).adm? c.cid c.tag = none) :
    s.runCmd r.op r.fields r.chk r.bytes r.take r.eff c
      = match (s.taken c).headerBad (rowOf r.op) c with
        | some e => (s.taken c).refuse (rowOf r.op) c e
        | none =>
          if (rowOf r.op).cnt.isSome ∧ c.n = 0 then (s.taken c).reply r.op c.cid c.tag 0 0
          else match (s.taken c).bodyBad (rowOf r.op) r.fields r.chk r.bytes c with
            | some e => (s.taken c).refuse (rowOf r.op) c e
            | none => (s.taken c).admitRun (rowOf r.op) c (s.estimated r c) r.take r.eff := by
  have hl := State.live_of_accepts h.accepts
  have hx : ¬ (c.len ≥ 512 ∨ s.fitsRing c.len = false) := by
    have := h.len; have g := h.fits; rintro (a | a)
    · omega
    · rw [g] at a; cases a
  unfold State.runCmd
  rw [if_neg (by simp [hl]), if_neg (by simp [h.accepts]), if_neg hx]
  change (if ((s.taken c).adm? c.cid c.tag).isSome then _ else _) = _
  rw [if_neg (by simp [hf])]
  rfl

@[simp] theorem State.taken_admitted : (s.taken c).link.admitted = s.link.admitted := by
  unfold State.taken State.advanceHead; simp
/-- Taking the flits leaves the admitted commands. -/
theorem State.taken_adm? (x : Nat) (g : BitVec 16) : (s.taken c).adm? x g = s.adm? x g := by
  unfold State.adm?; simp

/-- A command that passes its checks and can begin begins at once. -/
theorem State.runCmd_starts (h : s.Starts r c) :
    s.runCmd r.op r.fields r.chk r.bytes r.take r.eff c
      = (r.eff c (s.begun r c)).ack (s.taken c).link.outq.length (rowOf r.op) c (s.estimated r c) := by
  rw [State.runCmd_offers h.toOffers (by rw [State.taken_adm?]; exact h.free), h.head]
  dsimp only
  rw [if_neg h.count, h.body]
  dsimp only
  unfold State.admitRun
  dsimp only
  unfold State.beginOrWait
  have hn := h.now
  unfold State.admitted at hn
  dsimp only at hn
  rw [hn]
  rfl

/-! ### A final reply -/

/-- The state with other admitted commands. -/
def State.withAdm (s : State) (l : List Adm) : State := { s with link := { s.link with admitted := l } }

theorem replaceFirst_append {α : Type} {p : α → Bool} {f : α → α} {l : List α} {a : α} (h : l.find? p = none) (ha : p a = true) :
    replaceFirst p f (l ++ [a]) = l ++ [f a] := by
  induction l with
  | nil => simp [replaceFirst, ha]
  | cons b l ih =>
    rw [List.find?_cons] at h
    split at h
    · cases h
    · rename_i hb
      simp [replaceFirst, hb, ih h]
theorem dropFirst_append {α : Type} {p : α → Bool} {l : List α} {a : α} (h : l.find? p = none) (ha : p a = true) :
    dropFirst p (l ++ [a]) = l := by
  induction l with
  | nil => simp [dropFirst, ha]
  | cons b l ih =>
    rw [List.find?_cons] at h
    split at h
    · cases h
    · rename_i hb
      simp [dropFirst, hb, ih h]

/-- No cancel command of the context waits for the tag. -/
def unwatchedIn (l : List Adm) (x : Nat) (g : BitVec 16) : Prop :=
  ∀ a ∈ l, ((a.op == 0xF0 || a.op == 0xF1) && a.c.ctx.toNat == x && a.work.contains g.toNat) = false
theorem Adm.note_unwatched {l : List Adm} {x : Nat} {g : BitVec 16} (h : unwatchedIn l x g) (n : Nat) :
    l.map (Adm.note x g n) = l := by
  conv => rhs; rw [← List.map_id l]
  refine List.map_congr_left (fun a ha => ?_)
  unfold Adm.note
  rw [if_neg (by rw [h a ha]; decide)]
  rfl
theorem waiting_unwatched {l : List Adm} {x : Nat} {g : BitVec 16} (h : unwatchedIn l x g) :
    l.filter (fun a => (a.op == 0xF0 || a.op == 0xF1) && a.c.ctx.toNat == x && a.work == [g.toNat]) = [] := by
  rw [List.filter_eq_nil_iff]
  intro a ha e
  have := h a ha
  simp only [Bool.and_eq_true, Bool.or_eq_true, beq_iff_eq] at e
  obtain ⟨⟨e1, e2⟩, e3⟩ := e
  rcases e1 with e1 | e1 <;> simp [e1, e2, e3] at this

/-- The final reply of the command admitted last, for whose reply no cancel command waits: the reply is queued with the units
that the command has done, and the command leaves. -/
theorem State.finish_last {u : State} {l : List Adm} {a : Adm} {x : Nat} {g : BitVec 16} (n d : Nat)
    (hl : u.live = true) (hf : l.find? (Adm.isAt x g) = none) (ha : Adm.isAt x g a = true) (hu : unwatchedIn (l ++ [a]) x g) :
    (u.withAdm (l ++ [a])).finish x g n d = (u.reply a.op x g n d a.done).withAdm l := by
  have hlive : (u.withAdm (l ++ [a])).live = true := hl
  have hadm : (u.withAdm (l ++ [a])).adm? x g = some a := by
    unfold State.adm? State.withAdm
    simp [List.find?_append, hf, ha]
  have hul : unwatchedIn l x g := fun b hb => hu b (List.mem_append_left _ hb)
  unfold State.finish
  rw [if_neg (by rw [hadm]; simp)]
  have hw : (u.withAdm (l ++ [a])).link.admitted = l ++ [a] := rfl
  rw [hw, waiting_unwatched hu]
  simp only [List.map_nil, List.foldl_nil]
  unfold State.settle
  rw [hadm]
  dsimp only
  unfold State.reply
  rw [if_neg (by simp [hlive]), if_neg (by simp [hl])]
  unfold State.withAdm
  dsimp only
  rw [dropFirst_append hf ha, Adm.note_unwatched hul]

/-- A command that changes only what `T` says as it is taken and `E` says as it begins, and answers DONE at once. -/
structure Immediate (r : CmdRow) (c : Cmd) (T E : State → State) (D : State → Nat) (k : Nat) : Prop where
  take : ∀ u l, r.take c (State.withAdm u l) = (T u).withAdm l
  eff : ∀ u l a, l.find? (Adm.isAt c.cid c.tag) = none → Adm.isAt c.cid c.tag a = true → a.done = 0 →
    r.eff c (State.withAdm u (l ++ [a])) = ((E u).withAdm (l ++ [{ a with done := k }])).finish c.cid c.tag 0 (D u)
  live : ∀ u, (E (T u)).live = u.live
  adm : ∀ u, (E (T u)).link.admitted = u.link.admitted

theorem Cmd.ofNat_cid (c : Cmd) : BitVec.ofNat 4 c.cid = c.ctx := by unfold Cmd.cid; simp
theorem Adm.isAt_new (u : State) (o : OpRow) (c : Cmd) : Adm.isAt c.cid c.tag (u.newAdm o c) = true := by
  unfold Adm.isAt State.newAdm; simp [Cmd.cid]

/-- The record of a command just begun, with `k` units done. -/
def State.newBegun (s : State) (o : OpRow) (c : Cmd) (k : Nat) : Adm := { s.newAdm o c with begun := true, done := k }

/-- A command that is done as soon as it begins: the state it leaves. -/
theorem exec_immediate {i : Instr} (hi : Instr.cmdRow? i = some (r, c)) {T E : State → State} {D : State → Nat} {k : Nat}
    (m : Immediate r c T E D k) (ho : (rowOf r.op).op = r.op) (h : s.Starts r c) (hu : s.unwatched c = true) :
    exec i s = .next ((E (T (s.taken c))).answered r.op c 0 (D (T (s.taken c))) k) := by
  rw [exec_cmdRow hi, State.runCmd_starts h]
  congr 1
  have hfree : (s.taken c).link.admitted.find? (Adm.isAt c.cid c.tag) = none := by
    rw [State.taken_admitted]; exact h.free
  have hlive : (s.taken c).live = true := by
    have := State.live_of_accepts h.accepts
    unfold State.taken State.wake State.advanceHead State.count
    split <;> simpa [State.live] using this
  generalize hv : s.taken c = v at *
  have hat := Adm.isAt_new v (rowOf r.op) c
  have e1 : s.begun r c = (T v).withAdm (v.link.admitted ++ [v.newBegun (rowOf r.op) c 0]) := by
    unfold State.begun State.admitted
    rw [hv]
    dsimp only
    have := m.take v (v.link.admitted ++ [v.newAdm (rowOf r.op) c])
    unfold State.withAdm at this
    rw [this]
    unfold State.modAdm State.withAdm
    dsimp only
    rw [replaceFirst_append hfree hat]
    rfl
  rw [e1, m.eff (T v) v.link.admitted (v.newBegun (rowOf r.op) c 0) hfree hat rfl]
  change State.ack (((E (T v)).withAdm (v.link.admitted ++ [v.newBegun (rowOf r.op) c k])).finish _ _ _ _) _ _ _ _ = _
  have hub : unwatchedIn (v.link.admitted ++ [v.newBegun (rowOf r.op) c k]) c.cid c.tag := by
    unfold State.unwatched at hu
    rw [List.all_eq_true] at hu
    intro a ha
    rcases List.mem_append.mp ha with ha | ha
    · rw [← hv, State.taken_admitted] at ha
      have := hu a ha
      cases hx : ((a.op == 0xF0 || a.op == 0xF1) && a.c.ctx.toNat == c.cid && a.work.contains c.tag.toNat)
      · rfl
      · rw [hx] at this; cases this
    · cases List.mem_singleton.mp ha
      simp [State.newBegun, State.newAdm]
  rw [State.finish_last (a := v.newBegun (rowOf r.op) c k) _ _ (by rw [m.live]; exact hlive) hfree hat hub]
  unfold State.ack
  rw [if_neg]
  · unfold State.answered State.reply State.withAdm
    rw [if_neg (by rw [m.live, hlive]; decide)]
    have e2 := m.adm v
    simp only [State.newBegun, State.newAdm, ho, Cmd.ofNat_cid]
    simp only [← e2]
  · unfold State.adm? State.withAdm
    simp [hfree]

end Sys2Proof.Machine
end

