-- ==== Sys2Proof/Laws/PerInstr.lean ====
section
/-!
SUPPORT. Laws/PerInstr.lean: statements about every command as syntax, one lemma a constructor.
-/
namespace Sys2Proof.Laws.WfArity
open Sys2Proof Sys2Proof.Machine

/-- The packet of a command of the command link. -/
def packetOf (i : Instr) : Option Cmd :=
  match i with
  | .branchTake c => some c
  | j => (Instr.cmdRow? j).map Prod.snd
/-- The transfer of a row of the peels, with its peel. -/
def transferOf : Instr → Option (Nat × Xfer)
  | .crumb p x | .sealNotice p x | .probe p x | .counter p x | .decodeReq p x | .decodePart p x | .bcast p x | .bcastUp p x
  | .record p x | .inboundResponse p x => some (p, x)
  | .clockStopWake p x => x.map (fun y => (p, y))
  | _ => none

/-- What a well-formed command carries fits the fields that carry it: a packet's parameter words are counted by 16 bits (Table 4.1), a
transfer comes on one of two peels with at most 16 units of 256 bytes (Table 15.1). -/
def Statement (i : Instr) : Prop :=
  i.wf = true → (∀ c, packetOf i = some c → c.params.length < 65536)
    ∧ (∀ p x, transferOf i = some (p, x) → p < 2 ∧ x.payload.length ≤ 4096)

/-- A row that carries neither a packet nor a transfer. -/
theorem of_none {i : Instr} (h : packetOf i = none) (h' : transferOf i = none) : Statement i :=
  fun _ => ⟨fun _ e => (nomatch h.symm.trans e), fun _ _ e => nomatch h'.symm.trans e⟩
/-- A row that carries a packet. -/
theorem of_packet {i : Instr} {c : Cmd} (h : packetOf i = some c) (h' : transferOf i = none) (w : i.wf = c.wf) : Statement i :=
  fun e => ⟨fun _ e' => Option.some.inj (h.symm.trans e') ▸ of_decide_eq_true (w.symm.trans e), fun _ _ e' => nomatch h'.symm.trans e'⟩
/-- A row that carries a transfer. -/
theorem of_transfer {i : Instr} {p : Nat} {x : Xfer} (h : packetOf i = none) (h' : transferOf i = some (p, x))
    (w : i.wf = (peelWf p && x.wf)) : Statement i := by
  refine fun e => ⟨fun _ e' => (nomatch h.symm.trans e'), fun q y e' => ?_⟩
  cases Option.some.inj (h'.symm.trans e')
  exact ⟨of_decide_eq_true (Bool.and_elim_left (w.symm.trans e)), of_decide_eq_true (Bool.and_elim_right (w.symm.trans e))⟩

theorem coldReset : Statement .coldReset :=
  of_none rfl rfl

theorem fuseSenseDone (pages : List (BitVec 1024)) : Statement (.fuseSenseDone pages) :=
  of_none rfl rfl

theorem bootGo (value : Word) : Statement (.bootGo value) :=
  of_none rfl rfl

theorem imageAuthenticated (poisoned : Bool) : Statement (.imageAuthenticated poisoned) :=
  of_none rfl rfl

theorem selftestDone (failing : List Nat) : Statement (.selftestDone failing) :=
  of_none rfl rfl

theorem engineReady (tick : Word) : Statement (.engineReady tick) :=
  of_none rfl rfl

theorem warmReset : Statement .warmReset :=
  of_none rfl rfl

theorem teardownDone : Statement .teardownDone :=
  of_none rfl rfl

theorem guardStatus (req : BitVec 32) : Statement (.guardStatus req) :=
  of_none rfl rfl

theorem guardFreeze (req : BitVec 32) : Statement (.guardFreeze req) :=
  of_none rfl rfl

theorem guardThaw (req : BitVec 32) : Statement (.guardThaw req) :=
  of_none rfl rfl

theorem guardReset (req : BitVec 32) : Statement (.guardReset req) :=
  of_none rfl rfl

theorem contextReset (req : BitVec 32) : Statement (.contextReset req) :=
  of_none rfl rfl

theorem guardCounters (req : BitVec 32) : Statement (.guardCounters req) :=
  of_none rfl rfl

theorem guardUnknownOp (req : BitVec 32) : Statement (.guardUnknownOp req) :=
  of_none rfl rfl

theorem cmdDoorbell (value : Word) : Statement (.cmdDoorbell value) :=
  of_none rfl rfl

theorem evqHeadWrite (value : Word) : Statement (.evqHeadWrite value) :=
  of_none rfl rfl

theorem registerWrite (addr : BitVec 16) (value : Word) : Statement (.registerWrite addr value) :=
  of_none rfl rfl

theorem eventRingWrite : Statement .eventRingWrite :=
  of_none rfl rfl

theorem malformedCommand (opcode : Byte) (tag : BitVec 16) (ctx : BitVec 4) (len : BitVec 16) (flits : Nat) : Statement (.malformedCommand opcode tag ctx len flits) :=
  of_none rfl rfl

theorem nop (c : Cmd) : Statement (.nop c) :=
  of_packet rfl rfl rfl

theorem ping (c : Cmd) : Statement (.ping c) :=
  of_packet rfl rfl rfl

theorem queryCaps (c : Cmd) : Statement (.queryCaps c) :=
  of_packet rfl rfl rfl

theorem readCounters (c : Cmd) : Statement (.readCounters c) :=
  of_packet rfl rfl rfl

theorem setEventMask (c : Cmd) : Statement (.setEventMask c) :=
  of_packet rfl rfl rfl

theorem setFrame (c : Cmd) : Statement (.setFrame c) :=
  of_packet rfl rfl rfl

theorem framePeriodSwitch (tick : Word) : Statement (.framePeriodSwitch tick) :=
  of_none rfl rfl

theorem ctxOpen (c : Cmd) : Statement (.ctxOpen c) :=
  of_packet rfl rfl rfl

theorem ctxClose (c : Cmd) : Statement (.ctxClose c) :=
  of_packet rfl rfl rfl

theorem ctxSetTilemap (c : Cmd) : Statement (.ctxSetTilemap c) :=
  of_packet rfl rfl rfl

theorem ctxSetSeed (c : Cmd) : Statement (.ctxSetSeed c) :=
  of_packet rfl rfl rfl

theorem regionDefine (c : Cmd) : Statement (.regionDefine c) :=
  of_packet rfl rfl rfl

theorem regionSetClass (c : Cmd) : Statement (.regionSetClass c) :=
  of_packet rfl rfl rfl

theorem regionRelease (c : Cmd) : Statement (.regionRelease c) :=
  of_packet rfl rfl rfl

theorem poolSize (c : Cmd) : Statement (.poolSize c) :=
  of_packet rfl rfl rfl

theorem groupConfig (c : Cmd) : Statement (.groupConfig c) :=
  of_packet rfl rfl rfl

theorem groupJoin (c : Cmd) : Statement (.groupJoin c) :=
  of_packet rfl rfl rfl

theorem groupKey (c : Cmd) : Statement (.groupKey c) :=
  of_packet rfl rfl rfl

theorem groupLeave (c : Cmd) : Statement (.groupLeave c) :=
  of_packet rfl rfl rfl

theorem progLoad (c : Cmd) : Statement (.progLoad c) :=
  of_packet rfl rfl rfl

theorem pgroupSet (c : Cmd) : Statement (.pgroupSet c) :=
  of_packet rfl rfl rfl

theorem stepBegin (c : Cmd) : Statement (.stepBegin c) :=
  of_packet rfl rfl rfl

theorem stepGradReady (c : Cmd) : Statement (.stepGradReady c) :=
  of_packet rfl rfl rfl

theorem masterTileUpdate (ctx : BitVec 4) (tile : Nat) (checkerBusy : Bool) : Statement (.masterTileUpdate ctx tile checkerBusy) :=
  of_none rfl rfl

theorem stepAccumulate (c : Cmd) : Statement (.stepAccumulate c) :=
  of_packet rfl rfl rfl

theorem stepLoss (c : Cmd) : Statement (.stepLoss c) :=
  of_packet rfl rfl rfl

theorem riskLevelPublish (ctx : BitVec 4) : Statement (.riskLevelPublish ctx) :=
  of_none rfl rfl

theorem stepFindingAdd (ctx : BitVec 4) : Statement (.stepFindingAdd ctx) :=
  of_none rfl rfl

theorem verdictDecide (ctx : BitVec 4) : Statement (.verdictDecide ctx) :=
  of_none rfl rfl

theorem verdictClean (ctx : BitVec 4) : Statement (.verdictClean ctx) :=
  of_none rfl rfl

theorem verdictOverflow (ctx : BitVec 4) : Statement (.verdictOverflow ctx) :=
  of_none rfl rfl

theorem unriseDone (ctx : BitVec 4) : Statement (.unriseDone ctx) :=
  of_none rfl rfl

theorem stepPublish (c : Cmd) : Statement (.stepPublish c) :=
  of_packet rfl rfl rfl

theorem publishWrite (ctx : BitVec 4) (target : BitVec 4) : Statement (.publishWrite ctx target) :=
  of_none rfl rfl

theorem publishTargets (c : Cmd) : Statement (.publishTargets c) :=
  of_packet rfl rfl rfl

theorem lossScaleSet (c : Cmd) : Statement (.lossScaleSet c) :=
  of_packet rfl rfl rfl

theorem cadenceSet (c : Cmd) : Statement (.cadenceSet c) :=
  of_packet rfl rfl rfl

theorem bakeSealNow (c : Cmd) : Statement (.bakeSealNow c) :=
  of_packet rfl rfl rfl

theorem bakeStatus (c : Cmd) : Statement (.bakeStatus c) :=
  of_packet rfl rfl rfl

theorem bakeJobwide (c : Cmd) : Statement (.bakeJobwide c) :=
  of_packet rfl rfl rfl

theorem bakeSeal (ctx : BitVec 4) : Statement (.bakeSeal ctx) :=
  of_none rfl rfl

theorem crumbDrain (ctx : BitVec 4) (tile : Nat) : Statement (.crumbDrain ctx tile) :=
  of_none rfl rfl

theorem sealNoticeSend (ctx : BitVec 4) (keeper : BitVec 5) : Statement (.sealNoticeSend ctx keeper) :=
  of_none rfl rfl

theorem crumb (peel : Nat) (x : Xfer) : Statement (.crumb peel x) :=
  of_transfer rfl rfl rfl

theorem sealNotice (peel : Nat) (x : Xfer) : Statement (.sealNotice peel x) :=
  of_transfer rfl rfl rfl

theorem rackCommit (ctx : BitVec 4) : Statement (.rackCommit ctx) :=
  of_none rfl rfl

theorem fenceMember (c : Cmd) : Statement (.fenceMember c) :=
  of_packet rfl rfl rfl

theorem adoptPosition (c : Cmd) : Statement (.adoptPosition c) :=
  of_packet rfl rfl rfl

theorem rebuildStart (c : Cmd) : Statement (.rebuildStart c) :=
  of_packet rfl rfl rfl

theorem demandRebuild (slice : Nat) (tile : Nat) : Statement (.demandRebuild slice tile) :=
  of_none rfl rfl

theorem rebuildProgress (ctx : BitVec 4) : Statement (.rebuildProgress ctx) :=
  of_none rfl rfl

theorem rebuildDone (ctx : BitVec 4) (kind : Bool) : Statement (.rebuildDone ctx kind) :=
  of_none rfl rfl

theorem rollback (c : Cmd) : Statement (.rollback c) :=
  of_packet rfl rfl rfl

theorem replayCheck (c : Cmd) : Statement (.replayCheck c) :=
  of_packet rfl rfl rfl

theorem mendTile (c : Cmd) : Statement (.mendTile c) :=
  of_packet rfl rfl rfl

theorem mend (ctx : BitVec 4) (tile : Nat) : Statement (.mend ctx tile) :=
  of_none rfl rfl

theorem kneadHint (c : Cmd) : Statement (.kneadHint c) :=
  of_packet rfl rfl rfl

theorem kneadPin (c : Cmd) : Statement (.kneadPin c) :=
  of_packet rfl rfl rfl

theorem kneadPolicy (c : Cmd) : Statement (.kneadPolicy c) :=
  of_packet rfl rfl rfl

theorem kneadIdleDemote (ctx : BitVec 4) (tile : Nat) : Statement (.kneadIdleDemote ctx tile) :=
  of_none rfl rfl

theorem demotion (ctx : BitVec 4) (tile : Nat) : Statement (.demotion ctx tile) :=
  of_none rfl rfl

theorem promotion (ctx : BitVec 4) (tile : Nat) : Statement (.promotion ctx tile) :=
  of_none rfl rfl

theorem exportBegin (c : Cmd) : Statement (.exportBegin c) :=
  of_packet rfl rfl rfl

theorem exportNext (c : Cmd) : Statement (.exportNext c) :=
  of_packet rfl rfl rfl

theorem restoreBegin (c : Cmd) : Statement (.restoreBegin c) :=
  of_packet rfl rfl rfl

theorem restoreNext (c : Cmd) : Statement (.restoreNext c) :=
  of_packet rfl rfl rfl

theorem restoreCommit (c : Cmd) : Statement (.restoreCommit c) :=
  of_packet rfl rfl rfl

theorem branchTake (c : Cmd) : Statement (.branchTake c) :=
  of_packet rfl rfl rfl

theorem branchRestore (c : Cmd) : Statement (.branchRestore c) :=
  of_packet rfl rfl rfl

theorem branchFork (c : Cmd) : Statement (.branchFork c) :=
  of_packet rfl rfl rfl

theorem branchDrop (c : Cmd) : Statement (.branchDrop c) :=
  of_packet rfl rfl rfl

theorem powerEnvelope (c : Cmd) : Statement (.powerEnvelope c) :=
  of_packet rfl rfl rfl

theorem calUserSet (c : Cmd) : Statement (.calUserSet c) :=
  of_packet rfl rfl rfl

theorem riskWeights (c : Cmd) : Statement (.riskWeights c) :=
  of_packet rfl rfl rfl

theorem healthMode (c : Cmd) : Statement (.healthMode c) :=
  of_packet rfl rfl rfl

theorem sampleRow (c : Cmd) : Statement (.sampleRow c) :=
  of_packet rfl rfl rfl

theorem counterOp (c : Cmd) : Statement (.counterOp c) :=
  of_packet rfl rfl rfl

theorem checkbitWrite (c : Cmd) : Statement (.checkbitWrite c) :=
  of_packet rfl rfl rfl

theorem rawRead (c : Cmd) : Statement (.rawRead c) :=
  of_packet rfl rfl rfl

theorem gateForce (c : Cmd) : Statement (.gateForce c) :=
  of_packet rfl rfl rfl

theorem cancelTag (c : Cmd) : Statement (.cancelTag c) :=
  of_packet rfl rfl rfl

theorem cancelContext (c : Cmd) : Statement (.cancelContext c) :=
  of_packet rfl rfl rfl

theorem gateRequest (slice : Nat) (line : BitVec 31) (write : Bool) (src : BitVec 4) (wdata : LineData) : Statement (.gateRequest slice line write src wdata) :=
  of_none rfl rfl

theorem proofCopyDone (slice : Nat) (tile : Nat) : Statement (.proofCopyDone slice tile) :=
  of_none rfl rfl

theorem spareLineAccess (slice : Nat) (write : Bool) (idx : BitVec 5) (wdata : LineData) (wmask : BitVec 64) : Statement (.spareLineAccess slice write idx wdata wmask) :=
  of_none rfl rfl

theorem mcErrorReport (slice : Nat) (kind : BitVec 3) (line : BitVec 31) : Statement (.mcErrorReport slice kind line) :=
  of_none rfl rfl

theorem memReadResponse (slice : Nat) (tag : BitVec 10) (data : List LineData) (poison : BitVec 32) : Statement (.memReadResponse slice tag data poison) :=
  of_none rfl rfl

theorem probe (peel : Nat) (x : Xfer) : Statement (.probe peel x) :=
  of_transfer rfl rfl rfl

theorem counter (peel : Nat) (x : Xfer) : Statement (.counter peel x) :=
  of_transfer rfl rfl rfl

theorem decodeReq (peel : Nat) (x : Xfer) : Statement (.decodeReq peel x) :=
  of_transfer rfl rfl rfl

theorem decodePart (peel : Nat) (x : Xfer) : Statement (.decodePart peel x) :=
  of_transfer rfl rfl rfl

theorem bcast (peel : Nat) (x : Xfer) : Statement (.bcast peel x) :=
  of_transfer rfl rfl rfl

theorem bcastUp (peel : Nat) (x : Xfer) : Statement (.bcastUp peel x) :=
  of_transfer rfl rfl rfl

theorem record (peel : Nat) (x : Xfer) : Statement (.record peel x) :=
  of_transfer rfl rfl rfl

theorem inboundResponse (peel : Nat) (x : Xfer) : Statement (.inboundResponse peel x) :=
  of_transfer rfl rfl rfl

theorem fabricRequestTimeout (peel : Nat) (slot : BitVec 10) : Statement (.fabricRequestTimeout peel slot) :=
  of_none rfl rfl

theorem tagQuarantineEnd (peel : Nat) (slot : BitVec 10) : Statement (.tagQuarantineEnd peel slot) :=
  of_none rfl rfl

theorem compareWaitLimit (peel : Nat) (src : BitVec 5) (tag : BitVec 16) : Statement (.compareWaitLimit peel src tag) :=
  of_none rfl rfl

theorem localWaitTimeout (ctx : BitVec 4) (tag : BitVec 16) : Statement (.localWaitTimeout ctx tag) :=
  of_none rfl rfl

theorem bcastChildTimeout (ctx : BitVec 4) (child : BitVec 5) : Statement (.bcastChildTimeout ctx child) :=
  of_none rfl rfl

theorem sealWaitExpiry (ctx : BitVec 4) (position : BitVec 5) : Statement (.sealWaitExpiry ctx position) :=
  of_none rfl rfl

theorem keyGraceEnd (ctx : BitVec 4) : Statement (.keyGraceEnd ctx) :=
  of_none rfl rfl

theorem framePlanBuild (inp : FrameIn) : Statement (.framePlanBuild inp) :=
  of_none rfl rfl

theorem planCutoff : Statement .planCutoff :=
  of_none rfl rfl

theorem frameWatchdog : Statement .frameWatchdog :=
  of_none rfl rfl

theorem firmwareDigestCheck (digest : BitVec 256) : Statement (.firmwareDigestCheck digest) :=
  of_none rfl rfl

theorem deadlineMiss (ctx : BitVec 4) (tag : BitVec 16) : Statement (.deadlineMiss ctx tag) :=
  of_none rfl rfl

theorem pieceAged (piece : Nat) : Statement (.pieceAged piece) :=
  of_none rfl rfl

theorem tickLockLoss : Statement .tickLockLoss :=
  of_none rfl rfl

theorem tickLockRegained (tick : Word) : Statement (.tickLockRegained tick) :=
  of_none rfl rfl

theorem riskLevelFall : Statement .riskLevelFall :=
  of_none rfl rfl

theorem powerCapEvent : Statement .powerCapEvent :=
  of_none rfl rfl

theorem sensorStale (slice : Nat) : Statement (.sensorStale slice) :=
  of_none rfl rfl

theorem powerStateAck : Statement .powerStateAck :=
  of_none rfl rfl

theorem clockStopWake (peel : Nat) (x : Option Xfer) : Statement (.clockStopWake peel x) := by
  match x with
  | none => exact of_none rfl rfl
  | some _ => exact of_transfer rfl rfl rfl

theorem stackStateExit (slice : Nat) : Statement (.stackStateExit slice) :=
  of_none rfl rfl

theorem storageScrub (addr : BitVec 32) : Statement (.storageScrub addr) :=
  of_none rfl rfl

theorem coldResetAssert : Statement .coldResetAssert :=
  of_none rfl rfl

theorem mainSupplyFall : Statement .mainSupplyFall :=
  of_none rfl rfl

theorem peelLinkUpChange (peel : Nat) (up : Bool) : Statement (.peelLinkUpChange peel up) :=
  of_none rfl rfl

theorem malformedTransfer (peel : Nat) (check : Nat) : Statement (.malformedTransfer peel check) :=
  of_none rfl rfl

theorem crumbLandingTimeout (ctx : BitVec 4) (batch : BitVec 32) (row : BitVec 2) (slot : BitVec 5) (offset : BitVec 5) : Statement (.crumbLandingTimeout ctx batch row slot offset) :=
  of_none rfl rfl

theorem backgroundFold (ctx : BitVec 4) (tile : Nat) : Statement (.backgroundFold ctx tile) :=
  of_none rfl rfl

end Sys2Proof.Laws.WfArity
end

