-- ==== Sys2Proof/Laws/Transfer.lean ====
section
/-!
SUPPORT. Laws/Transfer.lean: a transfer with the CRC of its payload and its tag under key 0, which fields that leaves as they are,
and when it passes the checks of Table 15.4, so that no test evaluates a CRC or a tag.
-/
namespace Sys2Proof.Laws.Transfer
open Sys2Proof Sys2Proof.Machine

/-! ### Transfers that pass their checks -/

/-- A header below byte 48 with the CRC of its payload and its tag under key 0. -/
def sealed384 (h : BitVec 512) (pl : List Byte) : BitVec 512 := h ||| BitVec.ofNat 512 ((crc64 pl).toNat <<< 384)
def sealX (x : Xfer) : Xfer :=
  ⟨sealed384 x.hdr x.payload ||| BitVec.ofNat 512 (macOf 0 (sealed384 x.hdr x.payload) <<< 448), x.payload⟩

theorem natOfBytes_lt (l : List Byte) : natOfBytes l < 2 ^ (8 * l.length) := by
  induction l with
  | nil => simp [natOfBytes]
  | cons b l ih =>
    have hb := b.isLt
    have e : natOfBytes (b :: l) = 256 * natOfBytes l + b.toNat := rfl
    have p : 2 ^ (8 * (b :: l).length) = 256 * 2 ^ (8 * l.length) := by rw [List.length_cons, Nat.mul_add, Nat.pow_add]; omega
    rw [e, p]; omega
theorem macOf_lt (k : BitVec 128) (h : BitVec 512) : macOf k h < 2 ^ 32 := by
  refine lt_of_lt_of_le (natOfBytes_lt _) (Nat.pow_le_pow_right (by omega) ?_)
  rw [List.length_take]
  omega

/-- The header as a number: three fields that do not meet. -/
theorem sealX_toNat (x : Xfer) :
    (sealed384 x.hdr x.payload).toNat = x.hdr.toNat ||| (crc64 x.payload).toNat <<< 384
    ∧ (sealX x).hdr.toNat = x.hdr.toNat ||| (crc64 x.payload).toNat <<< 384 ||| macOf 0 (sealed384 x.hdr x.payload) <<< 448 := by
  have a : ((crc64 x.payload).toNat <<< 384) < 2 ^ 512 := by
    rw [Nat.shiftLeft_eq]; have := (crc64 x.payload).isLt; omega
  have b : (macOf 0 (sealed384 x.hdr x.payload) <<< 448) < 2 ^ 512 := by
    rw [Nat.shiftLeft_eq]; have := macOf_lt 0 (sealed384 x.hdr x.payload); omega
  have e : (sealed384 x.hdr x.payload).toNat = x.hdr.toNat ||| (crc64 x.payload).toNat <<< 384 := by
    rw [sealed384, BitVec.toNat_or, BitVec.toNat_ofNat, Nat.mod_eq_of_lt a]
  exact ⟨e, by rw [sealX, BitVec.toNat_or, BitVec.toNat_ofNat, Nat.mod_eq_of_lt b, e]⟩
theorem sealX_fld (x : Xfer) (lo w : Nat) (hw : lo + w ≤ 384) : fld (sealX x).hdr lo w = fld x.hdr lo w := by
  unfold fld
  rw [(sealX_toNat x).2]
  apply Nat.eq_of_testBit_eq
  intro i
  simp only [Nat.testBit_mod_two_pow, Nat.testBit_shiftRight, Nat.testBit_or, Nat.testBit_shiftLeft]
  by_cases hi : i < w
  · have h1 : ¬ (384 ≤ lo + i) := by omega
    have h2 : ¬ (448 ≤ lo + i) := by omega
    simp [h1, h2]
  · simp [hi]
theorem sealX_num (x : Xfer) (off n : Nat) (hw : off + n ≤ 48) : (sealX x).num off n = x.num off n :=
  sealX_fld x _ _ (by omega)
theorem sealX_resp (x : Xfer) : (sealX x).resp = x.resp := by
  unfold Xfer.resp
  rw [BitVec.getLsbD, BitVec.getLsbD, (sealX_toNat x).2]
  simp [Nat.testBit_or, Nat.testBit_shiftLeft]
theorem sealX_crc {x : Xfer} (h : x.hdr.toNat < 2 ^ 384) : (sealX x).num 48 8 = (crc64 x.payload).toNat := by
  unfold Xfer.num fld
  rw [(sealX_toNat x).2]
  apply Nat.eq_of_testBit_eq
  intro i
  simp only [Nat.testBit_mod_two_pow, Nat.testBit_shiftRight, Nat.testBit_or, Nat.testBit_shiftLeft]
  by_cases hi : i < 64
  · have h0 : x.hdr.toNat.testBit (8 * 48 + i) = false := Nat.testBit_lt_two_pow (lt_of_lt_of_le h (Nat.pow_le_pow_right (by omega) (by omega)))
    have h2 : ¬ (448 ≤ 8 * 48 + i) := by omega
    have h3 : 8 * 48 + i - 384 = i := by omega
    simp [hi, h0, h2, h3]
  · have : (crc64 x.payload).toNat.testBit i = false :=
      Nat.testBit_lt_two_pow (lt_of_lt_of_le (crc64 x.payload).isLt (Nat.pow_le_pow_right (by omega) (by omega)))
    simp [hi, this]
theorem sealX_mac {x : Xfer} (h : x.hdr.toNat < 2 ^ 384) :
    (sealX x).num 56 4 = macOf 0 ((sealX x).hdr &&& BitVec.ofNat 512 (2 ^ 448 - 1)) := by
  have e : (sealX x).hdr &&& BitVec.ofNat 512 (2 ^ 448 - 1) = sealed384 x.hdr x.payload := by
    apply BitVec.eq_of_toNat_eq
    rw [BitVec.toNat_and, (sealX_toNat x).2, (sealX_toNat x).1, BitVec.toNat_ofNat, Nat.mod_eq_of_lt (by omega), Nat.and_two_pow_sub_one_eq_mod]
    apply Nat.eq_of_testBit_eq
    intro i
    simp only [Nat.testBit_mod_two_pow, Nat.testBit_or, Nat.testBit_shiftLeft]
    by_cases hi : i < 448
    · have h2 : ¬ (448 ≤ i) := by omega
      simp [hi, h2]
    · have h0 : x.hdr.toNat.testBit i = false := Nat.testBit_lt_two_pow (lt_of_lt_of_le h (Nat.pow_le_pow_right (by omega) (by omega)))
      have h1 : (crc64 x.payload).toNat.testBit (i - 384) = false :=
        Nat.testBit_lt_two_pow (lt_of_lt_of_le (crc64 x.payload).isLt (Nat.pow_le_pow_right (by omega) (by omega)))
      simp [hi, h0, h1]
  rw [e]
  unfold Xfer.num fld
  rw [(sealX_toNat x).2]
  apply Nat.eq_of_testBit_eq
  intro i
  have hm := macOf_lt 0 (sealed384 x.hdr x.payload)
  generalize macOf 0 (sealed384 x.hdr x.payload) = k at hm ⊢
  simp only [Nat.testBit_mod_two_pow, Nat.testBit_shiftRight, Nat.testBit_or, Nat.testBit_shiftLeft]
  by_cases hi : i < 32
  · have h0 : x.hdr.toNat.testBit (8 * 56 + i) = false := Nat.testBit_lt_two_pow (lt_of_lt_of_le h (Nat.pow_le_pow_right (by omega) (by omega)))
    have h1 : (crc64 x.payload).toNat.testBit (8 * 56 + i - 384) = false :=
      Nat.testBit_lt_two_pow (lt_of_lt_of_le (crc64 x.payload).isLt (Nat.pow_le_pow_right (by omega) (by omega)))
    have h3 : 8 * 56 + i - 448 = i := by omega
    simp [hi, h0, h1, h3]
  · have : k.testBit i = false :=
      Nat.testBit_lt_two_pow (lt_of_lt_of_le hm (Nat.pow_le_pow_right (by omega) (by omega)))
    simp [hi, this]
/-- A mask that lets bytes 48 to 59 through lets the sealed header through. -/
theorem sealX_mask {x : Xfer} (h : x.hdr.toNat < 2 ^ 384) (m : Nat) (hm : m &&& x.hdr.toNat = x.hdr.toNat)
    (ht : m >>> 384 % 2 ^ 96 = 2 ^ 96 - 1) : (sealX x).hdr.toNat &&& m = (sealX x).hdr.toNat := by
  rw [(sealX_toNat x).2]
  apply Nat.eq_of_testBit_eq
  intro i
  have hb := congrArg (fun n => n.testBit i) hm
  simp only [Nat.testBit_and] at hb
  simp only [Nat.testBit_and, Nat.testBit_or, Nat.testBit_shiftLeft]
  by_cases h1 : i < 384
  · have a : ¬ (384 ≤ i) := by omega
    have b : ¬ (448 ≤ i) := by omega
    simp only [a, b, decide_false, Bool.false_and, Bool.or_false]
    rw [Bool.and_comm]; exact hb
  · have h0 : x.hdr.toNat.testBit i = false := Nat.testBit_lt_two_pow (lt_of_lt_of_le h (Nat.pow_le_pow_right (by omega) (by omega)))
    by_cases h2 : i < 480
    · have := congrArg (fun n => n.testBit (i - 384)) ht
      simp only [Nat.testBit_mod_two_pow, Nat.testBit_shiftRight, Nat.testBit_two_pow_sub_one] at this
      have h3 : i - 384 < 96 := by omega
      have h4 : 384 + (i - 384) = i := by omega
      simp [h3, h4] at this
      simp [this]
    · have a : (crc64 x.payload).toNat.testBit (i - 384) = false :=
        Nat.testBit_lt_two_pow (lt_of_lt_of_le (crc64 x.payload).isLt (Nat.pow_le_pow_right (by omega) (by omega)))
      have hm := macOf_lt 0 (sealed384 x.hdr x.payload)
      generalize macOf 0 (sealed384 x.hdr x.payload) = k at hm ⊢
      have b : k.testBit (i - 448) = false :=
        Nat.testBit_lt_two_pow (lt_of_lt_of_le hm (Nat.pow_le_pow_right (by omega) (by omega)))
      simp [h0, a, b]


variable (x : Xfer)
theorem sealX_typ : (sealX x).typ = x.typ := sealX_num x _ _ (by omega)
theorem sealX_slot : (sealX x).slot = x.slot := congrArg (BitVec.ofNat 10) (sealX_fld x 16 10 (by omega))
theorem sealX_src : (sealX x).src = x.src := sealX_fld x _ _ (by omega)
theorem sealX_ctx : (sealX x).ctx = x.ctx := sealX_fld x _ _ (by omega)
theorem sealX_units : (sealX x).units = x.units := sealX_fld x _ _ (by omega)
theorem sealX_status : (sealX x).status = x.status := sealX_fld x _ _ (by omega)
theorem sealX_echo : (sealX x).echo = x.echo := sealX_num x _ _ (by omega)
theorem sealX_epoch : (sealX x).epoch = x.epoch := congrArg (BitVec.ofNat 8) (sealX_num x 40 1 (by omega))
theorem sealX_payload : (sealX x).payload = x.payload := rfl
theorem sealX_word (off : Nat) (h : off ≤ 40) : (sealX x).word off = x.word off := congrArg (BitVec.ofNat 64) (sealX_num x off 8 (by omega))
theorem sealX_batch : (sealX x).batch = x.batch := by
  simp only [Xfer.batch, sealX_typ, sealX_num x 8 4 (by omega)]
theorem sealX_sourceOk (y : Ctx) : y.sourceOk (sealX x) = y.sourceOk x := by
  simp only [Ctx.sourceOk, sealX_typ, sealX_src, sealX_resp, sealX_batch, sealX_num x 8 2 (by omega), sealX_num x 17 1 (by omega)]
theorem sealX_keptFor (y : Ctx) : y.keptFor (sealX x) = y.keptFor x := by
  simp only [Ctx.keptFor, sealX_batch, sealX_num x 16 1 (by omega), sealX_num x 17 1 (by omega)]

/-- What the checks of Table 15.4 ask of the rest of a sealed transfer, as one Bool. -/
def passesB (s : State) (x : Xfer) : Bool :=
  decide (x.hdr.toNat < 2 ^ 384) && decide (x.payload.length = 256 * x.units) && decide (x.units ≤ 16)
    && !untagged x.typ && typeValid x.typ && decide (headerMask x.typ x.resp &&& x.hdr.toNat = x.hdr.toNat)
    && decide (headerMask x.typ x.resp >>> 384 % 2 ^ 96 = 2 ^ 96 - 1) && !s.fencedAny x.src
    && decide ((s.ctx x.ctx).keys.keyAt x.epoch = some 0) && (s.ctx x.ctx).sourceOk x
    && (x.typ != 0x10 || x.resp || (s.ctx x.ctx).keptFor x)
theorem passes_of {s : State} {x : Xfer} (h : passesB s x = true) (peel : Nat) : (s.admitXfer peel (sealX x)).2 = true := by
  simp only [passesB, Bool.and_eq_true, decide_eq_true_eq, Bool.not_eq_true', Bool.or_eq_true, bne_iff_ne] at h
  obtain ⟨⟨⟨⟨⟨⟨⟨⟨⟨⟨h1, h2⟩, h3⟩, h4⟩, h5⟩, h6⟩, h7⟩, h8⟩, h9⟩, h10⟩, h11⟩ := h
  have c (w n : Nat) (t : State) : (t.count w n).ctxs = t.ctxs := by unfold State.count; split <;> rfl
  have ec (u : State) (e : u.ctxs = s.ctxs) (k : Nat) : u.ctx k = s.ctx k := by unfold State.ctx; rw [e]
  have ef (u : State) (e : u.ctxs = s.ctxs) (p : Nat) : u.fencedAny p = s.fencedAny p := by unfold State.fencedAny; rw [e]
  have eu : ((s.countPeel peel 2).countPeel peel 5 (sealX x).payload.length).ctxs = s.ctxs := by
    simp only [State.countPeel, c]
  have form : formOk (sealX x) = true := by
    simp only [formOk, sealX_typ, sealX_resp, sealX_units, h5, h4, sealX_mask h1 _ h6 h7, h3]
    simp
  have mac (u : State) (e : u.ctxs = s.ctxs) : (u.ctx x.ctx).macOk (sealX x) = true := by
    simp only [Ctx.macOk, ec u e, sealX_epoch, h9, sealX_mac h1, BEq.rfl]
  have crc : BitVec.ofNat 64 ((sealX x).num 48 8) = crc64 x.payload := by rw [sealX_crc h1, BitVec.ofNat_toNat, BitVec.setWidth_eq]
  unfold State.admitXfer
  dsimp only
  generalize (s.countPeel peel 2).countPeel peel 5 (sealX x).payload.length = u at eu
  simp only [sealX_ctx, sealX_typ, sealX_units, sealX_src, sealX_resp, sealX_sourceOk, sealX_keptFor, sealX_payload, form, crc,
    ec u eu, ef u eu, h2, h4, h8, h10]
  rw [if_neg (by omega), if_neg (by simp), if_neg (by simp), if_neg (by simp)]
  rw [mac s rfl, if_neg (by simp), if_neg (by simp), if_neg]
  rintro ⟨a, b, k⟩
  rcases h11 with (h11 | h11) | h11
  · exact h11 a
  · simp [h11] at b
  · simp [h11] at k
/-- Every other premise of State.Serves. -/
def servesB (s : State) (typ peel : Nat) (x : Xfer) : Bool :=
  s.up && decide (peel < s.peelsPresent) && decide (x.typ = typ) && !x.resp && passesB s x && !s.frozen && !s.stopped
theorem serves_of {s : State} {typ peel : Nat} {x : Xfer} (h : servesB s typ peel x = true) : s.Serves typ peel (sealX x) := by
  simp only [servesB, Bool.and_eq_true, decide_eq_true_eq, Bool.not_eq_true'] at h
  obtain ⟨⟨⟨⟨⟨⟨h1, h2⟩, h3⟩, h4⟩, h5⟩, h6⟩, h7⟩ := h
  exact ⟨h1, h2, (sealX_typ x).trans h3, (sealX_resp x).trans h4, passes_of h5 peel, h6, h7⟩

end Sys2Proof.Laws.Transfer
end

