-- ==== Sys2Proof/Tests/Slice0.lean ====
section
/-!
SUPPORT. Tests/Slice0.lean: for every statement with premises a concrete state and operands that meet them, an ill-formed command
for each check of WellFormed, and what the spec's tables and worked values give, one step each.
-/
namespace Sys2Proof.Tests
open Sys2Proof Sys2Proof.Machine Sys2Proof.Laws.Transfer

-- One proof at a time: theorems that the kernel evaluates wait for each other, each in a thread of its own.
set_option Elab.async false

/-! ### Small states -/

/-- In service, both rings enabled, every unit present, with tick lock. -/
def live : State := { State.reset with
  boot := { coldN := true, phase := .ready, bootFrz := false, fuses := List.replicate 16 0 },
  link := { cmdSize := 64, evSize := 64 }, frames := { lock := true } }
/-- The same with context 0 as given. -/
def ctx0 (x : Ctx) : State := { live with ctxs := [(0, x)] }
/-- A configuration of 4 positions, of which this member is 0. -/
def cfg : GroupCfg := { n := 4, k := 2, m := 2, safe := false, own := 0, members := 15, root := 0, bakeCtr := 100, opA := 0, word := 0 }
/-- An open context that knows its position, and one that has joined its group. -/
def plain : Ctx := { isOpen := true, group := { cfg := some cfg } }
def joined : Ctx := { plain with group := { cfg := some cfg, joined := true } }

/-- Every premise of State.Starts, as one Bool. -/
def startsB (s : State) (r : CmdRow) (c : Cmd) : Bool :=
  s.accepts && decide (c.len < 512) && s.fitsRing c.len && (s.adm? c.cid c.tag).isNone
    && ((s.taken c).headerBad (rowOf r.op) c).isNone && !((rowOf r.op).cnt.isSome && decide (c.n = 0))
    && ((s.taken c).bodyBad (rowOf r.op) r.fields r.chk r.bytes c).isNone
    && ((s.admitted r c).waitFor ((s.taken c).newAdm (rowOf r.op) c)).isNone
theorem starts_of {s : State} {r : CmdRow} {c : Cmd} (h : startsB s r c = true) : s.Starts r c := by
  simp only [startsB, Bool.and_eq_true, decide_eq_true_eq, Option.isNone_iff_eq_none, Bool.not_eq_true', Bool.and_eq_false_iff,
    decide_eq_false_iff_not] at h
  obtain ⟨⟨⟨⟨⟨⟨⟨h1, h2⟩, h3⟩, h4⟩, h5⟩, h6⟩, h7⟩, h8⟩ := h
  exact ⟨⟨⟨h1, h2, h3, h4⟩, h5, fun h => by rcases h6 with h6 | h6 <;> simp_all, h7⟩, h8⟩
/-- Every premise of State.Begins, as one Bool. -/
def beginsB (s : State) (i : Instr) : Bool :=
  match Instr.cmdRow? i with
  | some (r, c) => startsB s r c && s.unwatched c
  | none => false
theorem begins_of {s : State} {i : Instr} (h : beginsB s i = true) : s.Begins i := by
  unfold beginsB at h
  split at h
  · rename_i r c e
    exact ⟨r, c, e, starts_of (Bool.and_elim_left h), Bool.and_elim_right h⟩
  · cases h


/-! ### Premises that a concrete state meets, one theorem a statement (StepRunsTheFrontCommand: the state after reset) -/

theorem test_premises_step : State.reset.pending = [] ∧ State.reset.live = false := by decide +kernel

theorem live_sound : live.Sound :=
  ⟨⟨by decide, by decide, by decide, by decide⟩, rfl, rfl, rfl, rfl, rfl, rfl, rfl, rfl, rfl⟩
theorem test_premises_soundKept : live.Sound := live_sound

theorem test_premises_coldReset : State.reset.boot.coldN = false ∧ live.boot.coldN = true := by decide +kernel

/-- A state in a phase of start-up, with LYX_BOOT, LYX_PATCH_ADDR and a debug load as given. -/
def starting (ph : Phase) (boot : Word := 0) (debug : Bool := false) : State := { State.reset with
  boot := { coldN := true, phase := ph, fuses := List.replicate 16 0, debugLoad := debug }, win := { boot := boot } }
theorem test_premises_startUp :
    ({ State.reset with boot := { coldN := true } } : State).boot.fuses = []
    ∧ (starting .bootWait).boot.phase = .bootWait ∧ (1 : Word).getLsbD 0 = true
    ∧ (starting .load).boot.debugLoad = false ∧ (starting .load).patchOn = false
    ∧ (starting .load 0x102).patchOn = true ∧ (starting .load 0x102).patchOk = true
    ∧ (starting .load 0x102 true).patchOn = true ∧ (starting .load 0x102 true).patchOk = true ∧ (starting .load 0x102 true).boot.debugLoad = true
    ∧ (starting .load 0x2).patchOn = true ∧ (starting .load 0x2).patchOk = false
    ∧ (starting .load 0x0 true).patchOn = false
    ∧ (starting .selftest).boot.phase = .selftest := by decide +kernel

/-- Waiting for the first boundary with the rings set up. -/
def waitsTick : State := { starting .tickWait with link := { cmdSize := 64, evSize := 64 }, frames := { lock := true } }
theorem test_premises_engineReady :
    waitsTick.boot.phase = .tickWait ∧ waitsTick.frames.lock = true ∧ ringOk waitsTick.link.cmdSize = true ∧ ringOk waitsTick.link.evSize = true
    ∧ waitsTick.boot.fault = 0 ∧ waitsTick.link.mask = 0 ∧ waitsTick.link.evWaiting < Config.eventQueueMax
    ∧ ringOk ({ starting .ringWait with frames := { lock := true } } : State).link.cmdSize = false := by decide +kernel

theorem test_premises_warmReset :
    live.boot.phase ≠ .teardown ∧ live.boot.coldN = true ∧ live.boot.supply = true ∧ (starting .teardown).boot.phase = .teardown
    ∧ (starting .teardown).boot.supply = true ∧ 23 ∈ (starting .teardown).presentSlices := by decide +kernel

theorem test_premises_guard :
    live.boot.coldN = true ∧ live.boot.supply = true ∧ fld (0x3 : BitVec 32) 0 4 = 3 ∧ fld (0x3 : BitVec 32) 20 12 = 0
    ∧ live.boot.phase ≠ .teardown ∧ live.boot.guardFrz = false
    ∧ fld (0x1 : BitVec 32) 0 4 = 1 ∧ fld (0x2 : BitVec 32) 0 4 = 2 ∧ fld (0x17F05 : BitVec 32) 0 4 = 5
    ∧ fld (0xF : BitVec 32) 0 4 = 15 ∧ fld (0x6 : BitVec 32) 0 4 = 6 ∧ fld (0x0 : BitVec 32) 0 4 = 0
    ∧ fld (0x80000001 : BitVec 32) 20 12 ≠ 0 ∧ fld (0x100003 : BitVec 32) 20 12 ≠ 0 := by decide +kernel

theorem test_premises_guardReset :
    (fld (0x4004 : BitVec 32) 0 4 = 4 ∧ fld (0x4004 : BitVec 32) 14 6 ≠ 0)
    ∧ (fld (0x3004 : BitVec 32) 14 6 = 0 ∧ (0x3004 : BitVec 32).getLsbD 13 = true ∧ (0x3004 : BitVec 32).getLsbD 12 = true)
    ∧ ((0x2004 : BitVec 32).getLsbD 13 = true ∧ (0x2004 : BitVec 32).getLsbD 12 = false ∧ live.fieldLock = false)
    ∧ ((0x1F04 : BitVec 32).getLsbD 12 = true ∧ (0x1F04 : BitVec 32).getLsbD 13 = false ∧ fld (0x1F04 : BitVec 32) 8 4 = 15
      ∧ live.boot.fault = 0 ∧ live.boot.phase ≠ .teardown) := by decide +kernel
/-- FIELD_LOCK is read. -/
theorem test_fieldLock : ({ live with boot := { live.boot with fuses := [1] } } : State).fieldLock = true := by decide +kernel

theorem test_premises_window :
    live.readRaw (regOffset 0x0010) ≠ none ∧ live.readRaw (regOffset 0x7FF8) = none ∧ ringOk live.link.cmdSize = true
    ∧ ringOk live.link.evSize = true ∧ (0x800 : Word).getLsbD 11 = true ∧ live.boot.phase = .ready ∧ live.boot.bootFrz = false
    ∧ (starting .load).boot.phase ≠ .ready ∧ (starting .load).boot.phase ≠ .teardown := by decide +kernel

/-- One reply queued, and a ring that has room; the same with the ring full. -/
def oneReply : State := { live with link := { live.link with outq := [.reply ⟨1, 0, 0, 0, 0, 0, 0⟩] } }
def fullRing : State := { oneReply with link := { oneReply.link with evTail := 63 } }
theorem test_premises_eventRing : oneReply.link.evFree ≠ 0 ∧ fullRing.link.evFree = 0 ∧ live.link.outq = []
    ∧ oneReply.boot.phase = .ready := by decide +kernel

/-- The same with a NOP of context 3, tag 9 admitted. -/
def busy9 : State := { live with link := { live.link with admitted := [{ op := 0, c := { tag := 9, ctx := 3 } }] } }
theorem test_premises_malformed :
    live.accepts = true ∧ live.adm? 3 9 = none ∧ (busy9.adm? 3 9).isSome = true ∧ busy9.accepts = true
    ∧ live.fitsRing 511 = false ∧ live.fitsRing 1 = true ∧ flitsOf 1 = 2 ∧ opKnown 0x06 = false
    ∧ (starting .load).live = false ∧ (starting .load).boot.fault = 0 := by decide +kernel

theorem test_premises_begins : startsB live ⟨0x00, noFields, noCheck, noBytes, noTake, effNop⟩ { tag := 1 } = true := by decide +kernel
/-- Why a command that passes its checks would wait. -/
def waitB (s : State) (i : Instr) : Option Wait :=
  match Instr.cmdRow? i with
  | some (r, c) =>
    if (s.adm? c.cid c.tag).isNone && ((s.taken c).headerBad (rowOf r.op) c).isNone
        && ((s.taken c).bodyBad (rowOf r.op) r.fields r.chk r.bytes c).isNone then
      (s.admitted r c).waitFor ((s.taken c).newAdm (rowOf r.op) c) else none
  | none => none
/-- A map of one tile, and a region over it. -/
def oneTile (cls : Cover) : Ctx := { plain with n := 1, tiles := [(0, {})], regions := [(0, { first := 0, count := 1, cls := cls })] }
theorem test_premises_waits :
    waitB { ctx0 (oneTile .uncovered) with frames := {} } (.kneadPin { tag := 1, count := 1 }) = some .lock
    ∧ waitB { ctx0 joined with boot := { live.boot with guardFrz := true } } (.fenceMember { tag := 1, a := 2 }) = some .thaw
    ∧ waitB { busy9 with ctxs := [(3, plain)] } (.nop { tag := 1, ctx := 3, flags := 2 }) = some .order := by decide +kernel

theorem test_premises_refused :
    live.headerBad (rowOf 0x10) { ctx := 0, rsv := 1 } = some (0x0302, 5)
    ∧ (ctx0 plain).headerBad (rowOf 0x71) { a := 0 } = none ∧ (rowOf 0x71).cnt.isSome = true
    ∧ (live.taken { a := 1 }).bodyBad (rowOf 0x04) noFields noCheck noBytes { a := 0x10000 } = some (0x0302, 10)
    ∧ (live.adm? 0 0).isSome = false ∧ live.fitsRing 252 = false ∧ live.fitsRing 248 = true ∧ (starting .load).up = true := by decide +kernel

theorem test_premises_finish : live.live = true ∧ live.adm? 3 9 = none ∧ (busy9.adm? 3 9).isSome = true ∧ busy9.live = true
    ∧ busy9.link.admitted.all (fun b => !((b.op == 0xF0 || b.op == 0xF1) && b.c.ctx.toNat == 3 && b.work.contains 9)) = true := by decide +kernel

/-- A ring that is full, with 64 events behind it. -/
def fullQueue : State := { fullRing with link := { fullRing.link with outq := List.replicate 64 (.event ⟨0, 0, 0, 0, 0, 0⟩) } }
theorem test_premises_emit :
    (starting .load).live = false ∧ live.live = true ∧ (0x8 : BitVec 16).getLsbD (0x0031 / 16 % 16) = true ∧ live.link.evWaiting = 0
    ∧ 64 ≤ fullQueue.link.evWaiting ∧ fullQueue.live = true := by decide +kernel

theorem test_premises_engineCommands :
    beginsB live (.nop { tag := 1 }) && beginsB live (.ping { tag := 1, a := 7 }) && beginsB live (.setEventMask { tag := 1, a := 8, b := 1 })
      && beginsB (ctx0 plain) (.setEventMask { tag := 1, a := 8 }) && beginsB live (.powerEnvelope { tag := 1, a := 200 })
      && beginsB live (.riskWeights { tag := 1, params := [0, 0] }) && beginsB live (.healthMode { tag := 1, a := 1 })
      && beginsB live (.healthMode { tag := 1, a := 0 }) = true := by decide +kernel

theorem test_premises_trims :
    beginsB live (.calUserSet { tag := 1, a := 25, b := 0x7FFF }) = true ∧ beginsB live (.calUserSet { tag := 1, a := 55, b := 0xFFF0 }) = true
    ∧ reservedBits (26 : Word) (rowOf 0xA1).aMask 8 = [] ∧ (live.taken {}).headerBad (rowOf 0xA1) { a := 26 } = none
    ∧ (starting .teardown).boot.phase = .teardown := by decide +kernel

/-- One UNCOVERED tile: stack tile 0 of slice 0, where a result buffer may lie. -/
def buffer : State := ctx0 (oneTile .uncovered)
theorem test_premises_buffers :
    beginsB buffer (.queryCaps { tag := 1, a := 64 }) && beginsB buffer (.readCounters { tag := 1, count := 384, b := 0 })
      && beginsB buffer (.bakeStatus { tag := 1, a := 65472 }) && beginsB buffer (.rawRead { tag := 1, a := 0x17C0000, b := 0 }) = true := by decide +kernel

/-- The group's own commands: a joined context with a key; one that has its next key; one in a step, one with a clean verdict. -/
def keyed : Ctx := { joined with keys := { cur := some 0 } }
def opened : Step := { num := 5, ord := 0, vctr := 10, owner := 0, expected := 1, tag := 7 }
def inStep : Ctx := { plain with step := some opened, lastStep := some 5, ordinal := 1 }
/-- A RAW tile and its gradient tile. -/
def rawPair : Ctx := { inStep with
  n := 2, tiles := [(0, { word0 := 0x20000000000 }), (1, { stack := 1 })],
  regions := [(0, { first := 0, count := 1, cls := .delta }), (3, { first := 1, count := 1, cls := .uncovered })] }
def pgroup : List Word := 0x10000 :: List.replicate 9 0
theorem test_premises_context :
    beginsB live (.ctxOpen { tag := 1, ctx := 15, a := 1 }) = true ∧ beginsB (ctx0 plain) (.ctxSetSeed { tag := 1, a := 9 }) = true
    ∧ beginsB (ctx0 plain) (.groupConfig { tag := 1, a := 0x00020204, params := [0xF] }) = true
    ∧ beginsB (ctx0 plain) (.groupKey { tag := 1, params := [1, 2] }) = true
    ∧ beginsB (ctx0 { plain with keys := { nxt := some 1 } }) (.groupKey { tag := 1, a := 1 }) = true
    ∧ beginsB (ctx0 plain) (.progLoad { tag := 1, a := 7, count := 1, params := [1] }) = true
    ∧ beginsB (ctx0 plain) (.pgroupSet { tag := 1, a := 255, params := pgroup }) = true
    ∧ beginsB (ctx0 joined) (.cadenceSet { tag := 1, params := [0x0004000800100020, 0x0001000100010002] }) = true
    ∧ beginsB (ctx0 plain) (.kneadPolicy { tag := 1, params := [0x8000000000000] }) = true
    ∧ beginsB (ctx0 plain) (.kneadPolicy { tag := 1, params := [0x100] }) = true
    ∧ windowOf (0x8000000000000 : Word) = windowOf plain.knead.word ∧ windowOf (0x100 : Word) ≠ windowOf plain.knead.word := by decide +kernel

def locked : State := { live with boot := { live.boot with fuses := [1] } }
theorem test_premises_diagnostics :
    beginsB live (.gateForce { tag := 1, a := 23, b := 1 }) = true ∧ beginsB live (.gateForce { tag := 1, a := 23, b := 3 }) = true
    ∧ beginsB live (.checkbitWrite { tag := 1, a := 0x17C0FFF, b := 5, params := [0] }) = true
    ∧ locked.fieldLock = true ∧ locked.adm? 0 1 = none ∧ locked.accepts = true := by decide +kernel

theorem test_premises_stayAdmitted :
    beginsB (ctx0 plain) (.stepBegin { tag := 1, a := 6, b := 0x100000FFD }) = true
    ∧ beginsB (ctx0 inStep) (.stepLoss { tag := 1, a := 3, b := 5 }) = true
    ∧ beginsB (ctx0 rawPair) (.stepGradReady { tag := 1, a := 0, b := 0x100000003, count := 1 }) = true
    ∧ beginsB (ctx0 { inStep with targets := [(15, { words := [0, 0, 0, 1] })] }) (.stepPublish { tag := 1, a := 0xF, b := 5 }) = true
    ∧ beginsB (ctx0 joined) (.bakeSealNow { tag := 1 }) = true
    ∧ beginsB (ctx0 { plain with keys := { cur := some 0 }, group := { cfg := some { cfg with root := 1 } } }) (.groupJoin { tag := 1, a := 1 }) = true
    ∧ beginsB live (.setFrame { tag := 1, a := 4 }) = true ∧ live.frames.j = 3 := by decide +kernel

theorem test_premises_setFrame :
    beginsB live (.setFrame { tag := 1, a := 3 }) = true
    ∧ ({ live with frames := { lock := true, pending := some (0, 1, 4, 1000) } } : State).live = true ∧ live.frames.pending = none := by decide +kernel

theorem test_premises_regions :
    beginsB (ctx0 { plain with n := 32 }) (.regionDefine { tag := 1, a := 0xFF00000000, b := 3, count := 32 }) = true
    ∧ plain.bakes .uncovered .delta = false ∧ joined.bakes .uncovered .delta = true
    ∧ beginsB (ctx0 { joined with n := 32 }) (.regionDefine { tag := 1, a := 0, b := 0, count := 32 }) = true
    ∧ beginsB buffer (.regionSetClass { tag := 1, a := 0, b := 0 }) = true
    ∧ beginsB (ctx0 { oneTile .uncovered with group := joined.group }) (.regionSetClass { tag := 1, a := 0, b := 0 }) = true
    ∧ beginsB buffer (.regionRelease { tag := 1, a := 0 }) = true
    ∧ beginsB (ctx0 { oneTile .snapshot with group := joined.group }) (.regionRelease { tag := 1, a := 0 }) = true
    ∧ joined.bakes .snapshot .uncovered = true
    ∧ beginsB (ctx0 plain) (.poolSize { tag := 1, a := 3, count := 24 }) = true
    ∧ beginsB (ctx0 plain) (.ctxSetTilemap { tag := 1, a := 0, count := 1 }) = true ∧ plain.knead.size = 0
    ∧ beginsB (ctx0 plain) (.ctxClose { tag := 1 }) = true ∧ beginsB (ctx0 joined) (.groupLeave { tag := 1 }) = true := by decide +kernel
theorem test_premises_close : (ctx0 plain).Sound :=
  ⟨⟨by decide, by decide, by decide, by decide⟩, rfl, rfl, rfl, rfl, rfl, rfl, rfl, rfl, rfl⟩

/-- A replayed step of the ledger. -/
def replayed (r : Word) : Ctx := { plain with ledger := [{ step := 5, loss := 1, digest := 2, replay := some r }] }
theorem test_premises_lossScale :
    beginsB (ctx0 plain) (.lossScaleSet { tag := 1, a := 0xE0, b := 65536 }) = true
    ∧ beginsB (ctx0 (replayed 2)) (.replayCheck { tag := 1, a := 5, b := 1 }) = true
    ∧ beginsB (ctx0 (replayed 3)) (.replayCheck { tag := 1, a := 5, b := 1 }) = true := by decide +kernel

theorem test_premises_counterOp :
    mwf (ctx0 joined).pctr = true ∧ beginsB (ctx0 joined) (.counterOp { tag := 1, a := 0x0FFF, b := 1 }) = true
    ∧ beginsB (ctx0 joined) (.counterOp { tag := 1, a := 0x3FFF, b := 0 }) = true
    ∧ beginsB (ctx0 joined) (.counterOp { tag := 1, a := 0x13FFF, b := 0 }) = true
    ∧ (ctx0 joined).poison.contains 4095 = false ∧ mget (ctx0 joined).sram (iaOf 2 0x1F 4095) = none
    ∧ ({ ctx0 joined with poison := [4095] } : State).poison.contains 4095 = true
    ∧ beginsB { ctx0 joined with poison := [4095] } (.counterOp { tag := 1, a := 0x0FFF, b := 1 }) = true
    ∧ (joined.own ≠ 1 ∧ joined.keys.cur = none) := by decide +kernel

/-- A branch of the region, which holds no copies yet. -/
def branched : State := { buffer with branches := [(63, { ctx := 0, region := 0 })] }
def twoRegions : Ctx := { plain with
  n := 2, tiles := [(0, {}), (1, { stack := 1 })],
  regions := [(0, { first := 0, count := 1, cls := .uncovered }), (1, { first := 1, count := 1, cls := .uncovered })] }
def proofed : Ctx := { oneTile .uncovered with proof := { tiles := [(0, 9)], sized := true } }
theorem test_premises_branches :
    startsB (ctx0 proofed) ⟨0x90, fieldsBranchTake, chkBranchTake, noBytes, noTake, effBranchTake⟩ { tag := 1, b := 63 } = true
    ∧ (ctx0 proofed).branchShort 0 [0] = 0 ∧ (ctx0 proofed).holdsFree 0 [0] = true
    ∧ beginsB branched (.branchRestore { tag := 1, b := 63 }) = true ∧ (branched.branch? 0 63).isSome = true
    ∧ beginsB { ctx0 twoRegions with branches := branched.branches } (.branchFork { tag := 1, a := 63, b := 1 }) = true
    ∧ (ctx0 twoRegions).settled 0 1 = true ∧ (ctx0 twoRegions).holdsFree 0 [1] = true ∧ (ctx0 twoRegions).readable 0 [0] = true
    ∧ beginsB branched (.branchDrop { tag := 1, b := 63 }) = true := by decide +kernel

/-- A sealed bake with nothing left to ship or to keep. -/
def sealed : Ctx := { joined with bake := { committed := 3, sealed := 4 } }
theorem test_premises_groupCommands :
    beginsB (ctx0 sealed) (.bakeJobwide { tag := 1, a := 4 }) = true
    ∧ beginsB (ctx0 keyed) (.fenceMember { tag := 1, a := 1 }) = true
    ∧ beginsB (ctx0 { joined with fences := [(1, 0)] }) (.fenceMember { tag := 1, a := 1 }) = true
    ∧ beginsB (ctx0 { plain with keys := { cur := some 0 } }) (.adoptPosition { tag := 1, a := 1, b := 2 }) = true
    ∧ beginsB (ctx0 { joined with group := { joined.group with adopted := some 1 } }) (.rebuildStart { tag := 1, a := 1 }) = true
    ∧ beginsB { ctx0 { oneTile .uncovered with publish := { tiles := [(1, 0), (1, 1)], sized := true } } with sram := [] }
        (.publishTargets { tag := 1, a := 15, params := [0x100, 0, 0, 1] }) = true
    ∧ beginsB (ctx0 joined) (.publishTargets { tag := 1, a := 15, params := [0x121, 0, 0, 1] }) = true := by decide +kernel

theorem test_premises_knead :
    beginsB buffer (.kneadPin { tag := 1, count := 1, b := 3 }) = true
    ∧ beginsB (ctx0 (oneTile .delta)) (.kneadHint { tag := 1, count := 1, b := 1 }) = true ∧ (oneTile .delta).knead.size = 0
    ∧ beginsB (ctx0 { joined with bake := { committed := 3 } }) (.exportBegin { tag := 1, a := 3 }) = true
    ∧ beginsB (ctx0 joined) (.restoreBegin { tag := 1, params := [1, 2, 3, 4] }) = true
    ∧ beginsB buffer (.sampleRow { tag := 1, count := 16384, b := 0x3F800000 }) = true
    ∧ buffer.rowTiles 0 0 65536 = some [0] ∧ buffer.readable 0 [0] = true ∧ buffer.heldFor 0 0 .mend = false := by decide +kernel

/-- Two UNCOVERED tiles, room for one record. -/
def twoTiles : Ctx := { plain with
  n := 2, tiles := [(0, {}), (1, { stack := 1 })], regions := [(0, { first := 0, count := 2, cls := .uncovered })] }
def exporting : Ctx := { twoTiles with exp := { open? := some (1, 3, 0) } }
def restoring : Ctx := { twoTiles with rst := { open? := some (1, 0), holding := true } }
/-- An accumulator pair: a state tile of a set group, and its gradient tile. -/
def accPair : Ctx := { rawPair with tiles := [(0, {}), (1, { stack := 1 })], groups := [(0, pgroup)] }
theorem test_premises_working :
    beginsB (ctx0 accPair) (.stepAccumulate { tag := 1, a := 0, b := 0x100000003, count := 1 }) = true
    ∧ beginsB (ctx0 { oneTile .snapshot with group := joined.group }) (.mendTile { tag := 1, count := 1 }) = true
    ∧ beginsB (ctx0 { joined with bake := { committed := 3 } }) (.rollback { tag := 1, a := 3 }) = true
    ∧ beginsB (ctx0 exporting) (.exportNext { tag := 1, a := 1, count := 1 }) = true
    ∧ beginsB (ctx0 restoring) (.restoreNext { tag := 1, a := 1, count := 1 }) = true
    ∧ beginsB (ctx0 restoring) (.restoreCommit { tag := 1, a := 1 }) = true := by decide +kernel

/-- An admitted command of context 0 that may be cancelled. -/
def cancellable : State := { ctx0 plain with link := { live.link with admitted := [{ op := 0x65, c := { tag := 9, flags := 8 } }] } }
theorem test_premises_cancel :
    beginsB live (.cancelTag { tag := 1, a := 9 }) = true ∧ live.adm? 0 9 = none
    ∧ beginsB cancellable (.cancelTag { tag := 1, a := 9 }) = true ∧ (cancellable.adm? 0 9).isSome = true ∧ (cancellable.ctx 0).step = none
    ∧ beginsB live (.cancelContext { tag := 1 }) = true := by decide +kernel

/-- A step whose loss is taken and whose work is done, on its counters' owner; the same with another owner. -/
def closed : Step := { opened with loss := some 0, lossTag := some 8 }
def worked (st : Step) : State := ctx0 { inStep with
  step := some st, group := joined.group, bake := { risk := some (20, st.owner), riskNext := some (20, st.owner) } }
theorem test_premises_finding :
    mwf (worked closed).pctr = true ∧ (worked closed).running = true ∧ (worked closed).stepWorked 0 = true ∧ closed.awaitOnly = false
    ∧ closed.riskSent = false ∧ ((worked closed).ctx 0).own = closed.owner.toNat
    ∧ ((worked { closed with owner := 1 }).ctx 0).own ≠ 1 ∧ (worked { closed with riskDone := true }).awaits 0 (fun w => w == .riskRead) = false
    ∧ (worked { closed with riskDone := true }).poison.contains 10 = false
    ∧ mget (worked closed).sram (iaOf 2 0x1F 20) = none := by decide +kernel

/-- Every finding has come to the verdict counter; FINAL stands in it, clean or with an overflow. -/
def found : State := { worked { closed with sent := true } with pctr := [(10, 0x100000000)] }
def final (v : Word) : State := { worked { closed with sent := true, decided := true } with pctr := [(10, v)] }
theorem test_premises_verdict :
    (mwf found.pctr = true ∧ opened.expected.toNat * 2 ^ 32 ≤ (found.pc 10).toNat ∧ opened.decided = false ∧ found.poison.contains 10 = false
      ∧ mget found.sram (iaOf 2 0x1F 10) = none)
    ∧ ((final 0x8000000100000000).finalOf 0 = some 0x8000000100000000 ∧ (0x8000000100000000 : Word).getLsbD 62 = false
      ∧ (final 0x8000000100000000).stepQuiet 0 = true ∧ ((final 0x8000000100000000).ctx 0).sealWaits = false
      ∧ (final 0x8000000100000000).frames.lock = true
      ∧ ((final 0x8000000100000000).toRecast 0 closed).flatMap ((final 0x8000000100000000).recastTiles 0 true) = [])
    ∧ ((final 0xC000000100000001).finalOf 0 = some 0xC000000100000001 ∧ (0xC000000100000001 : Word).getLsbD 62 = true)
    ∧ ((worked { closed with unrisen := true }).canUnrise 0 = true
      ∧ ((worked { closed with unrisen := true }).ctx 0).tiles.any (fun e => e.2.damaged) = false) := by decide +kernel

/-- A publish to target 15 that has begun, its step's verdict clean. -/
def publishing : State := { ctx0 { plain with lastClean := some 5, targets := [(15, { words := [0x100, 0, 0, 1] })] } with
  link := { live.link with admitted := [{ op := 0x46, c := { tag := 9, a := 15, b := 5 }, begun := true }] } }
theorem test_premises_publish :
    (publishing.link.admitted.find? (fun b => b.op == 0x46 && b.c.cid == 0 && fld b.c.a 0 4 == 15 && b.begun && b.aux.isNone)).isSome = true
    ∧ publishing.running = true ∧ publishing.leasesOk (publishing.target 0 15) = true ∧ (publishing.target 0 15).remote = false
    ∧ publishing.readable 0 (publishing.publishReads 0 (publishing.target 0 15) 0) = true ∧ mwf publishing.pctr = true
    ∧ publishing.poison.contains (publishing.target 0 15).versionCtr = false := by decide +kernel

/-- Every member has one loaf of region 0; this member's is batch 0, slot 0, and it keeps batch 1, row 0. -/
def recs : List JoinRec := (List.range 4).map (fun p =>
  { position := BitVec.ofNat 5 p, opA := 0, word := 0, regions := [{ region := 0, cls := .delta, tiles := 32 }] })
def member : Ctx := { plain with
  n := 32, tiles := [(0, {}), (1, { stack := 1 })], regions := [(0, { first := 0, count := 32, cls := .delta })],
  group := { cfg := some cfg, joined := true, recs := recs }, keys := { cur := some 0 } }
def due : State := ctx0 { member with bake := { due := some 5 } }
def drains (r : TileRec) : State :=
  let s := ctx0 { member with tiles := [(0, r), (1, { stack := 1 })], bake := { sealed := 1, toShip := [0] } }
  { s with frames := { s.frames with
      planned := true, fabCredit := 10 ^ 9, pieces := [{ id := 0, cls := .k, slice := 0, tiles := [0], issued := true, aged := true }] } }
theorem test_premises_seal :
    (due.running = true ∧ due.published? 0 5 = true ∧ due.holdEntries 0 = true ∧ (due.ctx 0).bake.sealed = 0)
    ∧ ((drains {}).granted .k 0 none 0 = true ∧ (drains {}).frames.lock = true ∧ ((drains {}).ctx 0).cover 0 = .delta)
    ∧ ((drains {}).ctx 0).shipPlace 0 = some (0, 0, 0)
    ∧ ((drains {}).ctx 0).keepersOf 0 = [2, 3]
    ∧ (drains {}).agedWork .k 0 none 0 = true ∧ (drains {}).frames.agedOut = []
    ∧ (((drains {}).ctx 0).myKeepers.contains 2 = true
      ∧ (ctx0 { member with bake := { sealed := 1 } }).shippedAll 0 2 = true ∧ ({ member with bake := { sealed := 1 } } : Ctx).noticeBlocked 2 = false)
    ∧ (member.own = cfg.root.toNat ∧ member.commitTotal = 4
      ∧ member.commitTotal ≤ (({ live with pctr := [(100, 4)] } : State).pc 100).toNat) := by decide +kernel
/-- The last keeper of a tile with a sealed record: a piece that has aged leaves whatever its length. -/
theorem test_premises_lastKeeper (n : Nat) :
    ((drains { sb := some { delta := 1 } }).fabricFits .k 0 0 n ((drains { sb := some { delta := 1 } }).agedWork .k 0 none 0)).1 = true := by
  unfold State.fabricFits
  have h : (drains { sb := some { delta := 1 } }).agedWork .k 0 none 0 = true := by decide +kernel
  have h' : (drains { sb := some { delta := 1 } }).frames.agedOut = [] := by decide +kernel
  simp only [h, h']
  split <;> simp

/-! ### Premises about transfers -/

/-- A transfer from a position to this member under key 0 of epoch 0, before its CRC and tag (sealX adds both). The fields that
the premises below read lie in the bytes that sealX keeps (sealX_num). -/
def xfer (typ src : Nat) (body : List (Nat × Nat)) (payload : List Byte := []) (flags status slot : Nat := 0) : Xfer :=
  ⟨headerOf typ flags slot 0 src 0 0 1 (payload.length / 256) status body ||| pack [(328, 1)], payload⟩

/-- The member in its group. -/
def inGroup : State := ctx0 member
/-- The only unit of a crumb of 16 bytes of member 2, which keeps nothing back: batch 1, row 0, slot 0, offset 31. -/
def crumbX (bake : Nat) : Xfer :=
  xfer 0x10 2 [(8, 1), (12, bake), (16, 0), (17, 0), (18, 31), (20, 16), (24, 0)] (List.replicate 256 0)
def noticeX : Xfer := xfer 0x11 2 [(12, 1), (16, 32)]
theorem test_serves_crumb : servesB inGroup 0x10 0 (crumbX 1) = true := by decide +kernel
theorem test_premises_crumbs :
    servesB inGroup 0x10 0 (crumbX 0) = true ∧ member.early 1 = false ∧ (crumbX 0).num 12 4 = 0 ∧ member.forming = 1
    ∧ member.early 0 = false ∧ (member.crustOf 1 0).unbuilt = false ∧ (mgetD (member.crustOf 1 0).applied 31 0).getLsbD 0 = false
    ∧ (inGroup.slice (inGroup.homeSlice 0 1 0 1)).landing = [] ∧ descLen (BitVec.ofNat 21 ((crumbX 1).num 20 3)) ≤ 256 * (crumbX 1).units
    ∧ member.group.committed.contains 1 = false := by decide +kernel
/-- The same with the coding array of the crust's slice gated for the frame. -/
def gatedArray : State := inGroup.modSlice (inGroup.homeSlice 0 1 0 1) (fun sl => { sl with arrayGated := true })
theorem test_premises_gated : servesB gatedArray 0x10 0 (crumbX 0) = true
    ∧ (inGroup.slice (inGroup.homeSlice 0 1 0 1)).arrayGated = false ∧ (gatedArray.slice (inGroup.homeSlice 0 1 0 1)).arrayGated = true
    ∧ gatedArray.homeSlice 0 1 0 1 = inGroup.homeSlice 0 1 0 1
    ∧ (gatedArray.slice (inGroup.homeSlice 0 1 0 1)).landing = [] := by decide +kernel
/-- A crumb applied before. -/
def appliedOnce : Ctx := { member with group := { member.group with crust := [(crustKey 1 0, { applied := [(31, 1)] })] } }
theorem test_premises_again : servesB (ctx0 appliedOnce) 0x10 0 (crumbX 1) = true
    ∧ (mgetD (appliedOnce.crustOf 1 0).applied 31 0).getLsbD 0 = true := by decide +kernel
theorem test_premises_notice : servesB inGroup 0x11 0 noticeX = true ∧ noticeX.num 12 4 = 1 := by decide +kernel
/-- Frames since the first notice: LYX_MEMBER_CFG's seal wait, and twice that. -/
def waiting (n : Nat) (m : List (Nat × Bool)) : State :=
  { ctx0 { member with group := { member.group with firstNotice := some 0, missing := m } } with
    frames := { lock := true, frame := BitVec.ofNat 32 n } }
theorem test_premises_sealWait :
    fld (waiting 0 []).win.memberNow 32 16 = 1024 ∧ 1024 ≤ ((waiting 1024 []).frames.frame - 0).toNat
    ∧ member.holdsPos 2 = true ∧ mget member.group.notices 2 = none
    ∧ member.keptBatches.any (fun b => (member.sources cfg b).contains 2) = true
    ∧ 2 * 1024 ≤ ((waiting 2048 [(2, false)]).frames.frame - 0).toNat ∧ (waiting 1024 []).live = true := by decide +kernel

def counterX (op : Nat) : Xfer := xfer 0x03 1 ([(8, 4095 + 4096 * op), (16, 1)] ++ (if op = 3 then [(24, 1)] else []))
def probeX : Xfer := xfer 0x04 1 []
theorem test_premises_probe : servesB inGroup 0x04 0 probeX = true := by decide +kernel
theorem test_premises_counter0 : servesB inGroup 0x03 0 (counterX 0) = true ∧ (counterX 0).num 8 2 % 4096 = 4095
    ∧ mget inGroup.sram (iaOf 2 0x1F 4095) = none ∧ mwf inGroup.pctr = true ∧ inGroup.poison.contains 4095 = false := by decide +kernel
theorem test_premises_counter3 :
    servesB inGroup 0x03 0 (counterX 3) = true ∧ (inGroup.pc 4095).toNat < ((counterX 3).word 16).toNat
    ∧ ((counterX 3).word 16).toNat ≤ (({ inGroup with pctr := [(4095, 1)] } : State).pc 4095).toNat
    ∧ inGroup.fab.waiters.length < 512
    ∧ servesB { inGroup with poison := [4095] } 0x03 0 (counterX 0) = true := by decide +kernel
theorem test_premises_counterFull :
    servesB { inGroup with fab := { waiters := List.replicate 512 ⟨0, {}, 0, 0⟩ } } 0x03 0 (counterX 3) = true := by decide +kernel

/-- The three ends of the checks: a wrong tag, a frozen engine, a stopped clock. -/
def stoppedClock : State := { inGroup with power := { opReq := 3 } }
theorem test_premises_checks :
    (inGroup.admitXfer 0 { probeX with payload := [0] }).2 = false ∧ passesB inGroup (counterX 0) = true
    ∧ ({ inGroup with boot := { live.boot with guardFrz := true } } : State).frozen = true
    ∧ stoppedClock.frozen = false ∧ stoppedClock.stopped = true ∧ stoppedClock.up = true ∧ (counterX 0).resp = false
    ∧ ({ probeX with payload := [0] } : Xfer).typ = 0x04 := by decide +kernel

def decodeX (bake : Nat) : Xfer := xfer 0x12 1 [(8, 0), (12, bake), (16, 1), (17, 0), (18, 1), (20, 5)]
def partX : Xfer := xfer 0x13 1 [(8, 0), (12, 0), (16, 0), (17, 0), (20, 6), (24, 0)] (List.replicate 256 7)
theorem test_premises_decode :
    servesB inGroup 0x12 0 (decodeX 0) = true
    ∧ ((member.group.contributors cfg 0 (slotsOf 5)).find? (fun e => e.2 == member.own)) = some (0, 0)
    ∧ member.tileAt cfg 0 0 0 = some 0 ∧ inGroup.unavailable 0 0 false = false
    ∧ (drains { damaged := true }).unavailable 0 0 false = true ∧ servesB (drains { damaged := true }) 0x12 0 (decodeX 0) = true := by decide +kernel
theorem test_premises_decode3 : servesB inGroup 0x12 0 (decodeX 9) = true ∧ member.bake.committed ≠ 9 ∧ member.bake.sealed = 0 := by decide +kernel
theorem test_premises_part :
    servesB inGroup 0x13 0 partX = true ∧ inGroup.fab.jobs = [] ∧ inGroup.fab.sums = []
    ∧ servesB (ctx0 { member with group := { member.group with joined := false } }) 0x13 0 partX = true := by decide +kernel
def asked : DecodeJob := { id := 3, ctx := 0, why := .mend, tile := 0, batch := 0, lost := 0, offset := 0, bake := 0, avail := [1, 2] }
theorem test_premises_partMine :
    slotMask ((member.group.contributors cfg 0 asked.avail).map Prod.fst) = BitVec.ofNat 32 (partX.num 20 4)
    ∧ mget (mset asked.parts (partX.num 24 1) partX.payload) (16 * 1) = none
    ∧ servesB { inGroup with fab := { jobs := [asked] } } 0x13 0 partX = true := by decide +kernel

def recordX : Xfer := xfer 0x22 2 [(8, 2), (9, 1), (12, 0)] (List.replicate 256 1)
def bcastX (kind : Nat) : Xfer := xfer 0x20 1 [(8, kind), (9, 1), (10, 1), (12, 4)]
def upX : Xfer := xfer 0x21 2 [(8, 1), (12, 4), (16, 4)]
def told : Bcast := { kind := 1, orig := 1, gen := 4, parent := some 1, awaiting := [2, 3], mask := 1 }
def tree (b : List Bcast) (j : Option (BitVec 16 × BitVec 32 × Bool)) : State :=
  ctx0 { member with group := { member.group with bcasts := b, joining := j, joined := j.isNone } }
theorem test_premises_record : servesB inGroup 0x22 0 recordX = true ∧ cfg.heldMembers.contains 2 = true := by decide +kernel
theorem test_premises_bcast :
    servesB inGroup 0x20 0 (bcastX 3) = true ∧ servesB (tree [] (some (7, 4, false))) 0x20 0 (bcastX 1) = true
    ∧ servesB (tree [told] none) 0x20 0 (bcastX 1) = true ∧ ((tree [told] none).ctx 0).bcast? 1 1 = some told := by decide +kernel
theorem test_premises_up :
    servesB inGroup 0x21 0 upX = true ∧ servesB (tree [told] none) 0x21 0 upX = true
    ∧ ((tree [told] none).ctx 0).group.bcasts.filter (fun e => !e.upSent && e.awaiting.contains 2) = [told]
    ∧ (told.awaiting.filter (· != 2)).isEmpty = false ∧ (tree [told] none).live = true := by decide +kernel

/-- A request outstanding in slot 0 of peel 0, and a response to it. -/
def outstanding (why : Why) (typ : Byte) : State :=
  { worked closed with
    ctxs := [(0, { inStep with step := some closed, group := member.group, keys := member.keys })],
    fab := { reqs := [{ peel := 0, slot := 0, ctx := 0, cls := .u, typ := typ, dst := 1, seq := 77, why := why }] } }
def answerX (typ : Nat) (status : Nat) : Xfer := xfer typ 1 ([(32, 77)] ++ (if typ = 3 then [(16, 9)] else [])) [] 1 status
theorem test_premises_responses :
    passesB (outstanding .notice 0x11) (answerX 0x11 1) = true ∧ (answerX 0x11 1).status = 1 ∧ (answerX 0x11 1).resp = true
    ∧ ((outstanding .notice 0x11).reqAt 0 (answerX 0x11 1).slot).isSome = true
    ∧ ((outstanding .notice 0x11).reqAt 0 0).any (fun r => r.matches (answerX 0x11 1)) = true
    ∧ ((outstanding .notice 0x11).reqAt 0 0).any (fun r => r.matches (answerX 0x10 0)) = false
    ∧ passesB (outstanding .verdict 0x03) (answerX 0x03 0) = true
    ∧ ((outstanding .verdict 0x03).reqAt 0 0).any (fun r => r.matches (answerX 0x03 0)) = true
    ∧ passesB (outstanding .probe 0x04) (answerX 0x04 2) = true ∧ untagged 0x04 = false
    ∧ ((outstanding .probe 0x04).reqAt 0 0).any (fun r => r.matches (answerX 0x04 2)) = true
    ∧ (inGroup.admitXfer 0 { answerX 0x04 2 with payload := [0] }).2 = false ∧ (inGroup.reqAt 0 0) = none := by decide +kernel

theorem test_premises_timeouts :
    ((outstanding .notice 0x11).reqAt 0 0).isSome = true ∧ (outstanding .notice 0x11).unsent 0 0 = false ∧ (outstanding .notice 0x11).running = true
    ∧ (outstanding .notice 0x11).fencedAny 1 = false ∧ Why.gated (.decode 3) = true
    ∧ ({ outstanding (.decode 3) 0x12 with boot := { live.boot with guardFrz := true } } : State).live = true
    ∧ ({ outstanding .notice 0x11 with fab := { (outstanding .notice 0x11).fab with
        peels := [(0, { offered := [(false, .u, xfer 0x11 0 [])] })] } } : State).unsent 0 0 = true
    ∧ (counterX 3).src = 1 ∧ framePast (5 : BitVec 32) 6 = true ∧ framePast (7 : BitVec 32) 6 = false := by decide +kernel

theorem test_premises_peels :
    live.up = true ∧ 1 < live.peelsPresent ∧ live.stopped = false ∧ live.live = true ∧ stoppedClock.live = true
    ∧ passesB stoppedClock (counterX 0) = true ∧ (counterX 0).typ ≠ 0x04 ∧ (stoppedClock.peel 0).wake.length < 64
    ∧ passesB stoppedClock probeX = true ∧ probeX.typ = 0x04 ∧ probeX.resp = false ∧ stoppedClock.power.opReq = 3 := by decide +kernel

/-! ### Premises about the gate, storage, frames, power, rebuilding and moves -/

/-- Slice 0 as given, of a live engine and of one in its group. -/
def gated (sl : Slice) : State := { live with slices := [(0, sl)] }
/-- One state for each row of Table 3.4 after the first two, the request a write by source 1 to line 1024 (tile 1). -/
theorem test_premises_gate :
    live.up = true ∧ live.present 23 = true ∧ (mkeys live.sram).all (fun a => iaSlice a != 23) = true
    ∧ ((0 : BitVec 31).toNat / 1024 < 1098632 ∧ (0x7FFFFFFF : BitVec 31).toNat / 1024 ≥ 1098632)
    ∧ ((gated { remap := [(31, 1024)] }).slice 0).remap.find? (fun e => e.2.toNat == 1024) = some (31, 1024)
    ∧ ((gated { faultOnce := [1024] }).slice 0).faultOnce.any (fun l => l.toNat == 1024) = true
    ∧ ((gated { bitmap := [(1, .held)] }).slice 0).state 1 = .held
    ∧ ((gated { bitmap := [(1, .trapped)] }).slice 0).state 1 = .trapped ∧ ((gated { bitmap := [(1, .trapped)] }).slice 0).heldFor 1 .moving = false
    ∧ ((gated { ranges := [(0, { first := 1, last := 1, kind := 1 })] }).slice 0).protected 1 = true
    ∧ ((gated { ranges := [(0, { first := 1, last := 1, kind := 2 })] }).slice 0).regionHeld 1 = true := by decide +kernel

/-- A trapped tile of an UNCOVERED and of an owing SNAPSHOT region, with its copy running and with and without proof tiles. -/
def copying (x : Ctx) : State := { ctx0 x with slices := [(0, { bitmap := [(0, .held)], holds := [(0, 16)], copies := [{ tile := 0 }] })] }
def owing (k : Nat) (sealed : BitVec 32) : Ctx :=
  { oneTile .snapshot with tiles := [(0, { owesBake := true })], bake := { sealed := sealed }, proof := { tiles := List.replicate k (0, 9), sized := true } }
theorem test_premises_copies :
    (copying (owing 1 4)).running = true ∧ ((copying (owing 1 4)).slice 0).copies.any (fun j => j.tile == 0) = true
    ∧ ((copying (owing 1 4)).slice 0).heldFor 0 .mend = false ∧ ((copying (owing 1 4)).slice 0).heldFor 0 .mendFailed = false
    ∧ (copying (owing 1 4)).starved 0 0 = false ∧ (copying (owing 1 4)).owner 0 0 = some (0, 0)
    ∧ ((copying (owing 1 4)).tile 0 0).owesBake = true ∧ ((copying (owing 1 4)).ctx 0).bake.sealed ≠ 0
    ∧ ((copying (owing 1 0)).ctx 0).bake.sealed = 0 ∧ (copying (owing 1 0)).starved 0 0 = false
    ∧ (copying (owing 0 4)).starved 0 0 = true
    ∧ mwf (live.slice 23).spare = true ∧ (mkeys live.sram).all (fun a => iaSlice a != 0) = true := by decide +kernel
theorem test_sound_copies : (copying (owing 1 4)).Sound :=
  ⟨⟨by decide, by decide, by decide, by decide⟩, rfl, rfl, rfl, rfl, rfl, rfl, rfl, rfl, rfl⟩
theorem test_sound_copiesOld : (copying (owing 1 0)).Sound :=
  ⟨⟨by decide, by decide, by decide, by decide⟩, rfl, rfl, rfl, rfl, rfl, rfl, rfl, rfl, rfl⟩

theorem test_premises_errors :
    live.up = true ∧ live.present 0 = true ∧ ((gated { remap := [(31, 1024)] }).slice 0).remapOf 1024 = some 31
    ∧ (live.slice 0).remapOf 1024 = none ∧ (1124999167 : BitVec 31).toNat / 1024 < 1098632 ∧ (live.slice 0).corrected.length < 64
    ∧ (live.slice 0).corrected.all (fun e => e.1 != 1024) = true
    ∧ inGroup.owner 0 0 = some (0, 0) ∧ (inGroup.ctx 0).mendable 0 = true ∧ (inGroup.tile 0 0).tier1 = false
    ∧ (inGroup.slice 0).mended.contains 0 = false
    ∧ live.owner 0 1 = none ∧ (live.loseOwn 0 1 1024).isNone = true
    ∧ (live.slice 0).reads.find? (fun r => r.1 == 0) = none
    ∧ (((gated { reads := [(1023, 0)] }).slice 0).reads.find? (fun r => r.1 == 1023)).isSome = true := by decide +kernel

/-- A word of the spare lines, or of a gate table, written with chosen data and check bits. -/
def ecc (unit : Nat) (data : Word) (chk : BitVec 16) (was : Option Word := some 0) : State :=
  { live with sram := [(iaOf unit 0 0, { data := data, chk := chk, was := was })] }
def frozenEcc (unit : Nat) : State := { ecc unit 3 0 with boot := { live.boot with guardFrz := true } }
theorem test_premises_scrub :
    mget live.sram (iaOf 5 0 0) = none ∧ (mget (ecc 5 1 0).sram (iaOf 5 0 0)).isSome = true
    ∧ (BitVec.ofNat 32 (iaOf 5 0 0)).toNat = iaOf 5 0 0
    ∧ (ecc 5 1 0).unitWord (iaUnit (iaOf 5 0 0)) (iaSlice (iaOf 5 0 0)) (iaWord (iaOf 5 0 0)) = some 0
    ∧ corrected 1 0 = some 0 ∧ corrected 3 0 = none ∧ syndrome 0 0 = .clean ∧ syndrome 1 0 = .dataBit 0
    ∧ iaUnit (iaOf 6 0 0) = 6 ∧ (ecc 6 3 0).running = true ∧ (frozenEcc 8).running = false
    ∧ (ecc 6 3 0).unitWord 6 0 0 = some 0 ∧ iaUnit (iaOf 8 0 0) = 8
    ∧ (frozenEcc 8).unitWord 8 0 0 = some 0
    ∧ (ecc 5 1 0 (some 7)).unitWord 5 0 0 ≠ some 7 := by decide +kernel
theorem test_premises_checksOfTable12 :
    live.live = true ∧ 1024 ≤ ({ live with frames := { sinceDigest := 1024 } } : State).frames.sinceDigest
    ∧ live.boot.digest = 0 ∧ live.boot.digest ≠ 1 ∧ live.frames.planned = false ∧ live.frames.lock = true
    ∧ ({ live with frames := { lock := true, planned := true } } : State).frames.planned = true := by decide +kernel

def inp : FrameIn := { tick := 125000 * 8 * 7 }
theorem test_premises_plans :
    live.live = true ∧ live.frames.lock = true ∧ live.frames.planned = false ∧ inp.tablesOk = true
    ∧ ({ inp with tablesOk := false } : FrameIn).tablesOk = false ∧ live.frames.pending = none ∧ (drains {}).frames.planned = true
    ∧ (drains {}).live = true ∧ (starting .load).live = false ∧ ({ live with frames := {} } : State).frames.lock = false
    ∧ ({ live with frames := {} } : State).live = true ∧ 23 ∈ live.presentSlices := by decide +kernel

/-- A command whose deadline has passed: a mend, a step, a publish. -/
def missing (op : Byte) (x : Ctx) : State := { ctx0 x with
  frames := { lock := true, frame := 9 },
  link := { live.link with admitted := [{ op := op, c := { tag := 7, a := 15, b := 5, deadline := 8 } }] } }
def needy : Target := { words := [0xFF00, 0, 0, 1], next := 3 }
def agedPiece : State := { live with frames := { lock := true, frame := 9, pieces := [{ id := 4, cls := .d, slice := 0 }], ageLimit := 9 } }
theorem test_premises_deadlines :
    ((missing 0x65 plain).adm? 0 7).isSome = true ∧ (missing 0x65 plain).live = true ∧ (missing 0x65 plain).frames.lock = true
    ∧ framePast (8 : BitVec 32) 9 = true ∧ framePast (9 : BitVec 32) 9 = false ∧ ([0x42, 0x46, 0x70] : List Byte).contains 0x65 = false
    ∧ ((missing 0x42 inStep).ctx 0).step = some opened ∧ opened.tag = 7 ∧ opened.held = false ∧ opened.unrisen = false
    ∧ opened.awaitOnly = false ∧ (missing 0x42 inStep).finalOf 0 = none
    ∧ ((missing 0x46 { plain with lastClean := some 5, targets := [(15, needy)] }).ctx 0).lastClean = some 5
    ∧ (missing 0x46 { plain with lastClean := some 5, targets := [(15, needy)] }).leasesOk
        ((missing 0x46 { plain with lastClean := some 5, targets := [(15, needy)] }).target 0 (fld (15 : Word) 0 4)) = false
    ∧ agedPiece.live = true ∧ agedPiece.frames.pieces.any (fun p => p.id == 4 && !p.aged
        && decide (agedPiece.frames.ageLimit.toNat ≤ (agedPiece.frames.frame - p.born).toNat)) = true := by decide +kernel

theorem test_premises_power :
    (256 ≠ 0 ∧ 256 % 256 = 0 ∧ ({ live with health := { below := 256, level := 3 } } : State).health.level ≠ 0 ∧ live.health.fellAt ≠ some live.frames.frame)
    ∧ live.health.level = 0 ∧ live.power.capped = false
    ∧ ({ live with power := { uncapped := 5 } } : State).power.inForce.toNat < ({ live with power := { uncapped := 5 } } : State).power.uncapped
    ∧ live.power.uncapped ≤ live.power.inForce.toNat
    ∧ (64 ≤ ((gated { thermSame := 64 }).slice 0).thermSame ∧ ((gated { thermSame := 64 }).slice 0).sensorFailed = false)
    ∧ maxInt (({ live with slices := [(0, { thermSame := 64 }), (1, { therm := 8 })] } : State).otherReadings 0) = some 8
    ∧ (live.slice 0).thermSame < 64
    ∧ live.up = true ∧ live.power.opAck = false ∧ live.power.opReq ≠ 3 ∧ stoppedClock.power.opReq = 3 ∧ stoppedClock.power.opAck = false
    ∧ ({ live with power := { opAck := true } } : State).power.opAck = true ∧ live.present 0 = true
    ∧ ((gated { stackAck := true, stackState := 2 }).slice 0).stackAck = true := by decide +kernel

/-- Tiles to rebuild and to mend, in the group. -/
def unbuiltAt (cls : Cover) : State := ctx0 { member with
  regions := [(0, { first := 0, count := 32, cls := cls })], tiles := [(0, { unbuilt := true }), (1, { stack := 1 })],
  group := { member.group with adopted := some 1, rebuild := some (7, false) } }
def built : State := { ctx0 { member with group := { member.group with adopted := some 1, rebuild := some (7, false) } } with
  frames := { lock := true, frame := 128 } }
def mending (b : BitVec 32) : State := { ctx0 { member with bake := { committed := b } } with
  slices := [(0, { bitmap := [(0, .held)], holds := [(0, 1)] })] }
theorem test_premises_rebuild :
    (unbuiltAt .delta).owner 0 0 = some (0, 0) ∧ (unbuiltAt .delta).running = true ∧ (unbuiltAt .delta).frames.lock = true
    ∧ ((unbuiltAt .delta).tile 0 0).unbuilt = true ∧ ((unbuiltAt .delta).ctx 0).cover 0 = .delta
    ∧ (((unbuiltAt .delta).ctx 0).batchOfTile 0).isSome = true
    ∧ (((unbuiltAt .delta).ctx 0).loafTiles 0).all (fun u => ((unbuiltAt .delta).job? 0 .rebuild u).isNone) = true
    ∧ ((unbuiltAt .replica).ctx 0).cover 0 = .replica
    ∧ (built.ctx 0).group.adopted = some 1 ∧ (built.ctx 0).group.rebuild.isSome = true
    ∧ (built.frames.frame - (built.ctx 0).group.rebuildFrame).toNat = 128 ∧ built.live = true
    ∧ (built.ctx 0).group.rebuildData = false ∧ (built.ctx 0).tiles.all (fun e => !e.2.unbuilt) = true
    ∧ (built.ctx 0).group.rebuildCrust = false ∧ (built.ctx 0).builtCrust = true
    ∧ (mending 3).running = true ∧ (mending 3).frames.lock = true ∧ (mending 3).heldFor 0 0 .mend = true
    ∧ ((mending 3).ctx 0).group.joined = true ∧ ((mending 3).job? 0 .mend 0).isNone = true ∧ ((mending 3).ctx 0).cover 0 = .delta
    ∧ (mending 3).mendFails 0 0 = false ∧ (mending 0).mendFails 0 0 = true ∧ (((mending 3).ctx 0).batchOfTile 0).isSome = true := by decide +kernel

/-- An UNCOVERED tile with a pantry of 1 GiB, a move of it as given, and a plan that issues its piece. -/
def pantry (r : TileRec) (j : FMap KneadJob) (cls : Cls := .m) : State :=
  { ctx0 { oneTile .uncovered with tiles := [(0, r)], knead := { word := 0x8000800000000, jobs := j } } with
    frames := { lock := true, planned := true, pieces := [{ id := 0, cls := cls, slice := 0, tiles := [0], issued := true, aged := true }] } }
theorem test_premises_moves :
    (pantry { idle := 2 } []).running = true ∧ (pantry { idle := 2 } []).hasKnead = true ∧ (1 : Nat) * 2 ^ 30 = ((pantry {} []).ctx 0).knead.size
    ∧ ((pantry {} []).ctx 0).knead.idleLog = 1 ∧ ((pantry {} []).tile? 0 0).isSome = true ∧ (pantry { idle := 2 } []).kneadable 0 0 = true
    ∧ (pantry { idle := 2 } []).atHome 0 0 = true ∧ 2 ^ 1 ≤ ((pantry { idle := 2 } []).tile 0 0).idle.toNat
    ∧ ((pantry {} []).tile 0 0).idle.toNat < 2 ^ 1 ∧ (pantry {} []).kneadable 0 0 = true ∧ (pantry {} []).atHome 0 0 = true
    ∧ (pantry { pin1 := true } []).atHome 0 0 = true ∧ ((pantry { pin1 := true } []).tile 0 0).pin1 = true
    ∧ mget ((pantry { pin1 := true } []).ctx 0).knead.jobs 0 = none ∧ (pantry { pin1 := true } []).kneadable 0 0 = true
    ∧ (pantry { tier1 := true } [(0, { kind := 1 })] .d).granted .d 0 none 0 = true
    ∧ (pantry { tier1 := true } [(0, { kind := 1 })] .d).moveClass 0 { kind := 1 } = .d
    ∧ ((pantry { tier1 := true } [(0, { kind := 1 })] .d).tile 0 0).tier1 = true
    ∧ ((drains { p := some { delta := 1 } }).tile 0 0).p.isSome = true ∧ ((drains { p := some { delta := 1 } }).tile 0 0).f.isNone = true
    ∧ (drains { p := some { delta := 1 } }).running = true ∧ (drains { p := some { delta := 1 } }).frames.lock = true := by decide +kernel
theorem test_premises_demotion :
    (pantry {} [(0, { kind := 0 })]).kneadable 0 0 = true ∧ ((pantry {} [(0, { kind := 0 })]).slice 0).state 0 ≠ .held
    ∧ (pantry {} [(0, { kind := 0 })]).moveClass 0 { kind := 0 } = .m ∧ (pantry {} [(0, { kind := 0 })]).granted .m 0 none 0 = true
    ∧ ((pantry {} [(0, { kind := 0 })]).tile 0 0).tier1 = false
    ∧ ((pantry {} [(0, { kind := 0 })]).ctx 0).allocate 17 = some 1 := by decide +kernel
/-- The piece of the demotion has aged, so it leaves whatever its length. -/
theorem test_premises_demotionFits (n : Nat) :
    ((pantry {} [(0, { kind := 0 })]).fabricFits .m 0 1 n ((pantry {} [(0, { kind := 0 })]).agedWork .m 0 none 0)).1 = true := by
  unfold State.fabricFits
  have h : (pantry {} [(0, { kind := 0 })]).agedWork .m 0 none 0 = true := by decide +kernel
  have h' : (pantry {} [(0, { kind := 0 })]).frames.agedOut = [] := by decide +kernel
  simp only [h, h']
  split <;> simp

/-- A packed delta takes at least one line. -/
theorem lines_pos (d : Tile) (line : BitVec 32) : 0 < ({ crumbOf d 0 with line := line } : Crumb).lines := by
  have hb : 8 ≤ (packBody 1 d).length := by
    obtain ⟨b, l, e⟩ : ∃ b l, shuffle 1 (bytesOfTile d) = b :: l := ⟨_, _, rfl⟩
    have e' : chunks 64 1024 (b :: l) = (b :: l).take 64 :: chunks 64 1023 ((b :: l).drop 64) := rfl
    unfold packBody
    rw [e, e', List.flatMap_cons, List.length_append]
    have : 8 ≤ (packGroup ((b :: l).take 64)).length := by
      have h8 : ∀ n, (bytesOfNat 8 n).length = 8 := fun _ => rfl
      simp only [packGroup, List.length_append, h8]
      omega
    omega
  have e : packCrumb 0 d = if (packBody 1 d).length > 65536 then (bytesOfTile d, true) else (packBody 1 d, false) := rfl
  unfold Crumb.lines crumbOf
  rw [e]
  split
  · split <;> simp_all
  · simp only [Bool.false_eq_true, if_false]
    unfold ceilDiv
    omega
/-- The first byte of a tile at home. -/
theorem homeVal_low {s : State} {c t : Nat} {b : Byte} {l : List Byte}
    (h : s.readBytes (s.tile c t).slice ((s.tile c t).stack * 65536) 65536 = b :: l) : (s.homeVal c t).toNat % 256 = b.toNat := by
  have hb := b.isLt
  have e : natOfBytes (b :: l) = 256 * natOfBytes l + b.toNat := rfl
  unfold State.homeVal State.readTile tileOfBytes
  rw [h, BitVec.toNat_ofNat, e, Nat.mod_mod_of_dvd _ (Nat.pow_dvd_pow 2 (by omega : 8 ≤ 524288))]
  omega

/-- A covered-write of a RAW tile of the step: the tile lies in an UNCOVERED or a DELTA region, and the gradient tile differs
from it in its first byte. -/
def gradReady : Adm := { op := 0x43, c := { tag := 9, b := 0x100000003, count := 2 }, begun := true, work := [0, 1], inStep := true }
def updating (cls : Cover) : State := { ctx0 { rawPair with
    regions := [(0, { first := 0, count := 1, cls := cls }), (3, { first := 1, count := 1, cls := .uncovered })] } with
  mem := [(65536, 1)], link := { live.link with admitted := [gradReady] } }
theorem test_premises_update :
    (updating .delta).running = true ∧ (updating .delta).frames.lock = true
    ∧ (updating .delta).nextOn 0 ((updating .delta).tile 0 0).slice = some (gradReady, 0)
    ∧ ((updating .delta).tile 0 0).raw = true ∧ (updating .delta).adm? 0 9 = some gradReady ∧ gradReady.inStep = true := by decide +kernel
theorem test_premises_updateOpen :
    (updating .uncovered).running = true ∧ (updating .uncovered).frames.lock = true
    ∧ (updating .uncovered).nextOn 0 ((updating .uncovered).tile 0 0).slice = some (gradReady, 0)
    ∧ ((updating .uncovered).tile 0 0).raw = true ∧ (updating .uncovered).adm? 0 9 = some gradReady
    ∧ (gradReady.work.erase 0).isEmpty = false := by decide +kernel
/-- The streams are ready, and not ready where the tile lies in the pantry. -/
theorem test_premises_updateReady :
    (updating .uncovered).tileReady gradReady.c gradReady.h0 false 0 = true
    ∧ (updating .delta).tileReady gradReady.c gradReady.h0 false 0 = true := by
  constructor <;> rfl

/-- A tile whose region keeps no crumbs always has room. -/
theorem commit_some {s : State} {c t : Nat} {v : Tile} {p : BitVec 2} (h : ((s.ctx c).cover t).crumbed = false) :
    ∃ u, s.commitTiles c [(t, (v, p))] = some u := by
  have e : ∀ d line, (s.ctx c).recordUpd t d p line = id := fun d line => by unfold Ctx.recordUpd; simp [h]
  have g : (s.free.2).makeRoom c t id = some s.free.2 := by
    unfold State.makeRoom
    have : s.free.2.fits c t id = true := by unfold State.fits; simp
    rw [if_pos this]
  unfold State.commitTiles
  simp only [List.foldl_cons, List.foldl_nil]
  show ∃ u, (match s.free.2.makeRoom c t ((s.ctx c).recordUpd t (v ^^^ s.homeVal c t) p s.free.1) with
    | none => none
    | some s' => some ((((s'.fileCrumb c t (v ^^^ s.homeVal c t) p s.free.1).portWrite c t v).touch c t).noteU c)) = some u
  rw [e, g]
  exact ⟨_, rfl⟩
theorem commit_none {s : State} {c t : Nat} {v : Tile} {p : BitVec 2}
    (h : s.free.2.makeRoom c t ((s.ctx c).recordUpd t (v ^^^ s.homeVal c t) p s.free.1) = none) : s.commitTiles c [(t, (v, p))] = none := by
  unfold State.commitTiles
  simp only [List.foldl_cons, List.foldl_nil]
  show (match s.free.2.makeRoom c t ((s.ctx c).recordUpd t (v ^^^ s.homeVal c t) p s.free.1) with
    | none => none
    | some s' => some ((((s'.fileCrumb c t (v ^^^ s.homeVal c t) p s.free.1).portWrite c t v).touch c t).noteU c)) = none
  rw [h]
/-- A covered-write of a RAW tile completes in the UNCOVERED region, and finds no room in the DELTA region, whose pool has no tiles. -/
theorem test_premises_updateDone : ∃ u, (updating .uncovered).rawWrite 0 0 gradReady.c = some u :=
  commit_some (by decide +kernel)
/-- Reading from a stack whose memory lists one cell: the first byte. -/
theorem readBytes_first {s : State} {a n x : Nat} {v : Byte} (hm : s.mem = [(x, v)]) (hr : (s.slice 0).remapsOf (a / 65536) = [])
    (hx : a ≤ x) : ∃ l, s.readBytes 0 a (n + 1) = (if x = a then v else memDefault) :: l := by
  unfold State.readBytes readMem
  simp only [hr, hm]
  have e : 0 * 2 ^ 37 + a = a := by omega
  simp only [e, List.filter_cons, List.filter_nil, hx, decide_true, if_true, takeBytes]
  split
  · exact ⟨_, rfl⟩
  · exact ⟨_, rfl⟩
theorem updating_differs : (updating .delta).valOf 0 1 ^^^ (updating .delta).homeVal 0 0 ≠ 0 := by
  have hv : (updating .delta).valOf 0 1 = (updating .delta).homeVal 0 1 := by
    have h : ((updating .delta).tile 0 1).tier1 = false := by decide +kernel
    unfold State.valOf State.readVal
    rw [h]
    rfl
  have hm : (updating .delta).mem = [(65536, 1)] := rfl
  have r0 : ((updating .delta).slice 0).remapsOf (0 / 65536) = [] := by decide +kernel
  have r1 : ((updating .delta).slice 0).remapsOf (65536 / 65536) = [] := by decide +kernel
  have t0 : ((updating .delta).tile 0 0).slice = 0 ∧ ((updating .delta).tile 0 0).stack * 65536 = 0 := by decide +kernel
  have t1 : ((updating .delta).tile 0 1).slice = 0 ∧ ((updating .delta).tile 0 1).stack * 65536 = 65536 := by decide +kernel
  obtain ⟨l0, e0⟩ := readBytes_first (n := 65535) hm r0 (by omega)
  obtain ⟨l1, e1⟩ := readBytes_first (n := 65535) hm r1 (by omega)
  have h0 := homeVal_low (s := updating .delta) (c := 0) (t := 0) (by rw [t0.1, t0.2]; exact e0)
  have h1 := homeVal_low (s := updating .delta) (c := 0) (t := 1) (by rw [t1.1, t1.2]; exact e1)
  intro h
  rw [← hv, BitVec.xor_eq_zero_iff.mp h, h0] at h1
  exact absurd h1 (by decide)
theorem test_premises_updateHeld : (updating .delta).rawWrite 0 0 gradReady.c = none := by
  have hu : ∀ d line, (d : Tile) ≠ 0 → ((updating .delta).ctx 0).recordUpd 0 d 0 line = fun r => r.addFresh d 0 line := fun d line h0 => by
    have h1 : ((updating .delta).ctx 0).cover 0 = .delta := by decide +kernel
    have h2 : ((updating .delta).ctx 0).stepOpen = true := by decide +kernel
    unfold Ctx.recordUpd
    rw [h1, h2, show Cover.delta.crumbed = true from rfl, if_neg (by simpa using h0)]
    rfl
  have hm : ∀ d line, (d : Tile) ≠ 0 → (updating .delta).free.2.makeRoom 0 0 (fun r => r.addFresh d 0 line) = none := fun d line h0 => by
    have ht : (updating .delta).free.2.tile 0 0 = { word0 := 0x20000000000 } := by decide +kernel
    have hf : (updating .delta).free.2.freeLines 0 0 = 0 := by decide +kernel
    have hs : (updating .delta).free.2.spillable 0 0 = [] := by decide +kernel
    have hp := lines_pos d line
    have hfit : (updating .delta).free.2.fits 0 0 (fun r => r.addFresh d 0 line) = false := by
      unfold State.fits
      rw [ht]
      simp only
      rw [hf]
      rw [decide_eq_false_iff_not]
      have ha : addRec none d 0 line = some { crumbOf d 0 with line := line } := by
        unfold addRec deltaOf
        simp only [Option.map_none, Option.getD_none]
        rw [show (0 : Tile) ^^^ d = d from BitVec.zero_xor, if_neg h0]
      show ¬ (({ word0 := 0x20000000000, f := addRec none d 0 line } : TileRec).lines ≤ 0)
      rw [ha]
      show ¬ (0 + ({ crumbOf d 0 with line := line } : Crumb).lines ≤ 0)
      omega
    unfold State.makeRoom
    rw [hfit, ht]
    simp only
    rw [hs]
    rfl
  have hg : gradTile gradReady.c + (0 - firstTile gradReady.c) = 1 := by decide
  unfold State.rawWrite
  rw [hg]
  exact commit_none (by rw [hu _ _ updating_differs]; exact hm _ _ updating_differs)

/-- A master tile of a set group that has no companion streams, in the UNCOVERED region, with its step open. -/
def master : State := { ctx0 { accPair with
    regions := [(0, { first := 0, count := 1, cls := .uncovered }), (3, { first := 1, count := 1, cls := .uncovered })] } with
  link := { live.link with admitted := [gradReady] } }
theorem test_premises_master :
    master.running = true ∧ master.frames.lock = true ∧ master.nextOn 0 (master.tile 0 0).slice = some (gradReady, 0)
    ∧ (master.tile 0 0).raw = false ∧ master.adm? 0 9 = some gradReady ∧ (master.ctx 0).step = some opened
    ∧ (master.ctx 0).groupOf 0 = some pgroup ∧ (gradReady.work.erase 0).isEmpty = false := by decide +kernel
theorem test_premises_masterReady : master.tileReady gradReady.c gradReady.h0 false 0 = true := rfl
theorem ite_some {p : Prop} [Decidable p] {a b : Option State} (ha : ∃ u, a = some u) (hb : ∃ u, b = some u) :
    ∃ u, (if p then a else b) = some u := by
  split
  · exact ha
  · exact hb
/-- A master tile without companion streams, in a region that keeps no crumbs, is always done. -/
theorem updateTile_some {s : State} {c t : Nat} {cmd : Cmd} {h0 : Word} {busy : Bool} {st : Step} {g : List Word}
    (hs : (s.ctx c).step = some st) (hg : (s.ctx c).groupOf t = some g) (hc : ((s.ctx c).cover t).crumbed = false)
    (s1 : streamOf g .m1 = none) (s2 : streamOf g .m2 = none) (s3 : streamOf g .acc = none) :
    ∃ u, s.updateTile c t cmd h0 busy = some u := by
  unfold State.updateTile
  rw [hs, hg]
  simp only [s1, s2, s3, mset]
  obtain ⟨u, hu⟩ := commit_some (v := tileOfBytes _) (p := 2) hc
  rw [hu]
  exact ite_some (ite_some ⟨_, rfl⟩ ⟨_, rfl⟩) ⟨_, rfl⟩
theorem test_premises_masterDone : ∃ u, master.updateTile 0 0 gradReady.c gradReady.h0 false = some u :=
  updateTile_some test_premises_master.2.2.2.2.2.1 test_premises_master.2.2.2.2.2.2.1 (by decide +kernel) (by decide +kernel) (by decide +kernel)
    (by decide +kernel)
/-- Its streams are not ready while it lies in the pantry. -/
theorem test_premises_masterWaits :
    ({ master with ctxs := [(0, { accPair with tiles := [(0, { tier1 := true }), (1, { stack := 1 })] })] } : State).tileReady
      gradReady.c gradReady.h0 false 0 = false := by decide +kernel

/-! ### Ill-formed commands are refused by WellFormed, one for each of its checks -/

theorem test_ill_packet (l : List Word) (h : l.length = 65536) : (Instr.nop { params := l }).wf = false := by
  simp [Instr.wf, Cmd.wf, h]
theorem test_ill_transfer (l : List Byte) (h : l.length = 4097) : (Instr.crumb 0 { payload := l }).wf = false := by
  simp [Instr.wf, Xfer.wf, h]
theorem test_ill_long : (List.replicate 65536 (0 : Word)).length = 65536 ∧ (List.replicate 4097 (0 : Byte)).length = 4097 :=
  ⟨List.length_replicate, List.length_replicate⟩
theorem test_ill_numbers :
    (Instr.sensorStale 24).wf = false ∧ (Instr.proofCopyDone 0 1098632).wf = false ∧ (Instr.mend 0 (2 ^ 32)).wf = false
    ∧ (Instr.peelLinkUpChange 2 true).wf = false ∧ (Instr.fuseSenseDone []).wf = false ∧ (Instr.selftestDone [32]).wf = false
    ∧ (Instr.memReadResponse 0 0 (List.replicate 33 0) 0).wf = false ∧ (Instr.malformedTransfer 0 0).wf = false
    ∧ (Instr.malformedTransfer 0 4).wf = false ∧ (Instr.clockStopWake 2 none).wf = false := by decide +kernel
theorem test_ill_pins :
    ({ sat := [0, 0, 0] } : FrameIn).wf = false ∧ ({ therm := List.replicate 25 0 } : FrameIn).wf = false
    ∧ ({ refresh := List.replicate 25 0 } : FrameIn).wf = false ∧ ({ stackAck := List.replicate 25 false } : FrameIn).wf = false := by decide +kernel
/-- Commands at the ends of their ranges are well-formed. -/
theorem test_well_formed :
    (Instr.sensorStale 23).wf = true ∧ (Instr.proofCopyDone 23 1098631).wf = true ∧ (Instr.mend 15 (2 ^ 32 - 1)).wf = true
    ∧ (Instr.peelLinkUpChange 1 true).wf = true ∧ (Instr.selftestDone [31]).wf = true ∧ (Instr.malformedTransfer 1 3).wf = true
    ∧ (Instr.clockStopWake 0 none).wf = true := by decide +kernel

/-! ### No word spells a command -/

theorem test_decodeTableWord : decodeTableWord 8 0x01 = none ∧ (live.withFetchWord 8 0x01) = live := ⟨rfl, rfl⟩

/-! ### What the spec's tables give, one step each -/

/-- The state after a command, where it has one. -/
def after (s : State) (i : Instr) : State :=
  match exec i s with
  | .next t => t
  | _ => s

/-- R68, Table 3.4, rows 1 to 11 in order, and Table 2.2: the answer's code. -/
theorem test_gateRows :
    [((after live (.gateRequest 0 1024 false 6 0)).slice 0).ans, ((after live (.gateRequest 0 0x7FFFFFFF false 1 0)).slice 0).ans,
      ((after live (.gateRequest 0 1024 true 5 0)).slice 0).ans, ((after live (.gateRequest 0 1024 false 5 0)).slice 0).ans,
      ((after (gated { remap := [(31, 1024)] }) (.gateRequest 0 1024 true 0 0)).slice 0).ans,
      ((after (gated { faultOnce := [1024] }) (.gateRequest 0 1024 false 4 0)).slice 0).ans,
      ((after (gated { bitmap := [(1, .held)] }) (.gateRequest 0 1024 false 1 0)).slice 0).ans,
      ((after (gated { bitmap := [(1, .trapped)] }) (.gateRequest 0 1024 true 1 0)).slice 0).ans,
      ((after (gated { bitmap := [(1, .trapped)] }) (.gateRequest 0 1024 false 1 0)).slice 0).ans,
      ((after (gated { ranges := [(0, { first := 1, last := 1, kind := 1 })] }) (.gateRequest 0 1024 true 1 0)).slice 0).ans,
      ((after (gated { remap := [(31, 1024)] }) (.gateRequest 0 1024 false 1 0)).slice 0).ans,
      ((after live (.gateRequest 0 1024 false 1 0)).slice 0).ans]
      = [3, 3, 3, 0, 2, 3, 1, 1, 0, 3, 2, 0] := by decide +kernel
/-- R36: a passed write reaches the stack. -/
theorem test_gateWrite : (after live (.gateRequest 0 1024 true 1 0x2A)).mem = [(65536, 0x2A)] := by decide +kernel

/-- R87, Table 4.4: PING answers operand A[31:0]. -/
theorem test_ping : ((after live (.ping { tag := 5, ctx := 2, a := 0x9_12345678 })).link.outq.map (fun f => match f with
    | .reply r => (r.tag, r.status, r.detail) | .event _ => (0, 0, 0))) = [(5, 0, 0x12345678)] := by decide +kernel

/-- Table 19.1: no mismatch, one data bit, one check bit of a row, one of a column, two rows. -/
theorem test_syndrome :
    [syndrome 0 0, syndrome (1 <<< 19) 0, syndrome 0 1, syndrome 0 0x8000, syndrome 0 3]
      = [.clean, .dataBit 19, .checkBit 0, .checkBit 15, .bad] := by decide +kernel
/-- R431: each of the 80 bits flipped alone is corrected, and bits 19 and 20 together are found. -/
theorem test_selfTestWords :
    ([0, 0x0123456789ABCDEF] : List Word).all (fun d =>
      (List.range 64).all (fun i => corrected (d ^^^ BitVec.ofNat 64 (2 ^ i)) (checkBits d) == some d)
      && (List.range 16).all (fun i => corrected d (checkBits d ^^^ BitVec.ofNat 16 (2 ^ i)) == some d)
      && corrected (d ^^^ 0x180000) (checkBits d) == none) = true := by decide +kernel

/-- R389: the CRC-64 of the nine ASCII bytes 123456789. -/
theorem test_crc : crc64 [0x31, 0x32, 0x33, 0x34, 0x35, 0x36, 0x37, 0x38, 0x39] = 0x6C40DF5F0B497347 := by decide +kernel
/-- R236: multiplication modulo 0x11D. -/
theorem test_gf : gfMul 0x80 2 = 0x1D ∧ gfMul 1 0xFF = 0xFF ∧ gfMul (gfInv 0x53) 0x53 = 1 := by decide +kernel
/-- R164: rounding to nearest, ties to even: 1 + 2^-24 is 1, and 1 + 3 × 2^-24 is 1 + 2^-22. -/
theorem test_rounding : fadd 0x3F800000 0x33800000 = 0x3F800000 ∧ fadd 0x3F800000 0x34400000 = 0x3F800002 := by decide +kernel

end Sys2Proof.Tests
end

namespace Sys2Proof.Machine

variable {s : State}

/-! ### Every step keeps a sound state sound -/

/-- Taking the first command off the queue does not touch what soundness speaks of. -/
theorem State.Sound.withPending (h : s.Sound) (q : List Instr) : State.Sound { s with pending := q } :=
  ⟨h.legal, h.mem, h.slices, h.ctxs, h.branches, h.pctr, h.engCtr, h.slcCtr, h.ctxCtr, h.sram⟩

/-- With no command at hand the block keeps a sound state sound. -/
theorem State.Sound.idle (h : s.Sound) : s.idle.Sound :=
  have kept : Kept (fun _ => True) s s.idle := by apply Kept.idle (Kept.refl _ s) <;> trivial
  kept.sound h

/-- Settles O3: on an empty queue the block idles, else it runs the command at the front, and either keeps a sound state sound. -/
theorem everyStepKeepsSound : Obligations.EveryStepKeepsSound := by
  intro s
  cases hq : s.pending with
  | nil => exact ⟨s.idle, step_nil hq, State.Sound.idle⟩
  | cons i q =>
    obtain ⟨t, ht, hk⟩ := exec_kept i { s with pending := q }
    exact ⟨t, (step_cons hq).trans ht, fun h => hk.sound (h.withPending q)⟩

/-- Settles O5: every table is empty, so that a read of it at any key is its default. -/
theorem resetRegisterValues : Obligations.ResetRegisterValues :=
  ⟨rfl, rfl, rfl, rfl, by decide, by decide, by decide, by decide, fun _ => rfl, fun _ _ => rfl, fun _ => ⟨rfl, rfl, rfl⟩,
    fun _ => rfl, rfl, rfl, rfl, rfl⟩

/-! ### Raising an event -/

/-- The engine's mask or the mask of the event's context names the group of the event's code (R97). -/
def State.masks (s : State) (code : Nat) (x : Option Nat) : Bool :=
  s.link.mask.getLsbD (code / 16 % 16) || (match x with
    | some c => (s.ctx c).mask.getLsbD (code / 16 % 16)
    | none => false)

section
variable {code sev : Nat} {x : Option Nat} {pl : List (Nat × Nat)}

theorem State.emit_of_not_live (h : s.live = false) : s.emit code sev x pl = s := by
  unfold State.emit
  rw [if_pos (by simp [h])]

theorem State.emit_masked (hl : s.live = true) (hs : sev ≤ 2) (hm : s.masks code x = true) :
    s.emit code sev x pl = s.count 27 := by
  unfold State.emit
  rw [if_neg (by simp [hl])]
  refine if_pos ?_
  rw [decide_eq_true hs, Bool.true_and]
  exact hm

/-- An event that no mask suppresses takes a sequence number, whether it is queued or dropped. -/
theorem State.emit_unmasked (hl : s.live = true) (hm : sev ≤ 2 → s.masks code x = false) :
    s.emit code sev x pl = if 64 ≤ s.link.evWaiting then
        { s.count 26 with link := { s.link with evSeq := s.link.evSeq + 1, evDrop := true } }
      else { s with link := { s.link with
        evSeq := s.link.evSeq + 1,
        outq := s.link.outq ++ [.event (Event.mk (BitVec.ofNat 16 code) (BitVec.ofNat 8 sev) (BitVec.ofNat 8 (x.getD 0xFF))
          s.frames.tick (payload pl) s.link.evSeq)] } } := by
  have passes : ¬ (decide (sev ≤ 2) && s.masks code x) = true := by
    by_cases hs : sev ≤ 2
    · simp [hm hs]
    · simp [hs]
  unfold State.emit
  rw [if_neg (by simp [hl])]
  exact if_neg passes

end

/-- Settles O22: out of service, masked, and with the queue short of its 64 entries or full. -/
theorem eventsAreMaskedNumberedOrDropped : Obligations.EventsAreMaskedNumberedOrDropped := fun _ _ _ _ _ =>
  ⟨State.emit_of_not_live, State.emit_masked,
    fun hl hm hw => (State.emit_unmasked hl hm).trans (if_neg (Nat.not_le.mpr hw)),
    fun hl hm hw => (State.emit_unmasked hl hm).trans (if_pos hw)⟩

end Sys2Proof.Machine
namespace Sys2Proof.Machine

variable {s t : State}

/-! ### A table read after an erasure -/

theorem mget_of_mAbove {α : Type} {m : FMap α} {b i : Nat} (h : mAbove b m) (hi : i ≤ b) : mget m i = none := by
  induction m with
  | nil => rfl
  | cons e m ih =>
    have hb : b < e.1 := h e List.mem_cons_self
    rw [mget, if_neg (by omega), ih fun e he => h e (List.mem_cons_of_mem _ he)]

/-- In a table in canonical form a key stands once, so that its erasure leaves none. -/
theorem mget_merase_self {α : Type} {m : FMap α} (h : mwf m = true) (i : Nat) : mget (merase m i) i = none := by
  induction m with
  | nil => rfl
  | cons e m ih =>
    obtain ⟨k, v⟩ := e
    obtain ⟨above, wf⟩ := (mwf_cons k v m).mp h
    rw [merase]
    split
    · next hk => exact mget_of_mAbove above (Nat.le_of_eq hk.symm)
    · next hk => rw [mget, if_neg hk, ih wf]

theorem mget_merase_ne {α : Type} (m : FMap α) {i j : Nat} (h : i ≠ j) : mget (merase m i) j = mget m j := by
  induction m with
  | nil => rfl
  | cons e m ih =>
    obtain ⟨k, v⟩ := e
    rw [merase]
    split
    · next hk => rw [mget, if_neg (by omega)]
    · rw [mget, mget, ih]

/-! ### Proving counters -/

/-- What an operation other than COMPARE-WAIT leaves in a counter (R25): 0 is ADD, 1 is MAX, 2 is SET. -/
def ctrVal (op : Nat) (old v : Word) : Word :=
  if op = 0 then old + v else if op = 1 then (if old.toNat < v.toNat then v else old) else v

theorem State.setPc_pc_self (h : mwf s.pctr = true) (k : Nat) (v : Word) : (s.setPc k v).pc k = v := by
  unfold State.setPc State.pc mgetD
  dsimp only
  split
  · next hv => rw [mget_merase_self h, hv]; rfl
  · rw [mget_mset_self]; rfl

theorem State.setPc_pc_ne {k i : Nat} (v : Word) (h : i ≠ k) : (s.setPc k v).pc i = s.pc i := by
  unfold State.setPc State.pc mgetD
  dsimp only
  split
  · rw [mget_merase_ne _ (Ne.symm h)]
  · rw [mget_mset_ne _ _ (Ne.symm h)]

/-- A counter none of whose words has chosen check bits is read as it stands. -/
theorem State.checkCtr_of_none {k : Nat} (h : mget s.sram (iaOf 2 0x1F k) = none) : s.checkCtr k = s := by
  unfold State.checkCtr
  simp only [h]

/-- The parts that hold neither a counter's value nor its poison. -/
abbrev offCounters : Part → Prop := fun p => p ≠ .pctr ∧ p ≠ .poison

theorem Kept.pc_eq (h : Kept offCounters s t) (k : Nat) : t.pc k = s.pc k := by
  unfold State.pc
  rw [h.same .pctr (by decide)]

theorem Kept.poison_eq (h : Kept offCounters s t) : t.poison = s.poison := h.same .poison (by decide)

/-- The counter `k` of `s` has taken the value `w` and is not poisoned; every other counter holds what it held. -/
structure State.Wrote (s : State) (k : Nat) (w : Word) (t : State) : Prop where
  poison : t.poison.contains k = false
  value : t.pc k = w
  others : ∀ i, i ≠ k → t.pc i = s.pc i

theorem State.Wrote.kept {u : State} {k : Nat} {w : Word} (h : s.Wrote k w t) (hk : Kept offCounters t u) : s.Wrote k w u :=
  ⟨by rw [hk.poison_eq]; exact h.poison, (hk.pc_eq k).trans h.value, fun i hi => (hk.pc_eq i).trans (h.others i hi)⟩

theorem State.setPc_wrote (hw : mwf s.pctr = true) {k : Nat} (hp : s.poison.contains k = false) (w : Word) :
    s.Wrote k w (s.setPc k w) :=
  ⟨hp, State.setPc_pc_self hw k w, fun _ hi => State.setPc_pc_ne w hi⟩

/-- Waking the waiters of a counter changes no counter. -/
theorem State.Wrote.wakeWaiters {k : Nat} {w : Word} (h : s.Wrote k w t) : s.Wrote k w (t.wakeWaiters k) :=
  h.kept (by apply Kept.wakeWaiters (Kept.refl _ t) <;> decide)

/-- ADD, MAX and SET on a counter that is not poisoned, SET on any: the counter takes the value of the operation (R25, R422). -/
theorem State.ctrOp_wrote {k op : Nat} (hw : mwf s.pctr = true) (hr : mget s.sram (iaOf 2 0x1F k) = none) (hop : op < 3)
    (hp : op = 2 ∨ s.poison.contains k = false) (v : Word) : s.Wrote k (ctrVal op (s.pc k) v) (s.ctrOp k op v) := by
  unfold State.ctrOp
  by_cases h2 : op = 2
  · subst h2
    refine State.Wrote.wakeWaiters ⟨?_, State.setPc_pc_self hw k v, fun i hi => State.setPc_pc_ne v hi⟩
    simp
  · have hp := hp.resolve_left h2
    rw [if_neg h2, if_neg h2, State.checkCtr_of_none hr]
    rw [hp, if_neg (by decide)]
    have hv : (if op = 0 then s.pc k + v else if (s.pc k).toNat < v.toNat then v else s.pc k) = ctrVal op (s.pc k) v := by
      unfold ctrVal
      by_cases h0 : op = 0
      · rw [if_pos h0, if_pos h0]
      · rw [if_neg h0, if_neg h0, if_pos (show op = 1 by omega)]
    rw [hv]
    exact (State.setPc_wrote hw hp _).wakeWaiters

/-- A poison stops no SET. -/
theorem State.not_stopped_by_poison {k op : Nat} (hp : op = 2 ∨ s.poison.contains k = false) :
    ¬ (s.poison.contains k = true ∧ op ≠ 2) := by
  rintro ⟨h1, h2⟩
  rw [hp.resolve_left h2] at h1
  cases h1

/-- What an ADD notes of a barrier (R450) is no counter's. -/
theorem State.noteBarrier_kept (s : State) (op c k p : Nat) (old : Word) :
    Kept offCounters s (if op = 0 then s.noteBarrier c k p old else s) :=
  Kept.ite (fun _ => by apply Kept.noteBarrier (Kept.refl _ s) <;> decide) (fun _ => Kept.refl _ s)

/-! ### Requests that come in -/

/-- A transfer that passes its checks is counted, and nothing else changes. -/
theorem State.admitXfer_passes {peel : Nat} {x : Xfer} (h : (s.admitXfer peel x).2 = true) :
    (s.admitXfer peel x).1 = (s.countPeel peel 2).countPeel peel 5 x.payload.length := by
  revert h
  unfold State.admitXfer
  dsimp only
  split_ifs <;> simp

theorem State.arrived_eq {peel : Nat} {x : Xfer} (h : (s.admitXfer peel x).2 = true) :
    s.arrived peel x = { (s.countPeel peel 2).countPeel peel 5 x.payload.length with fab := { s.fab with rxNow := true } } := by
  unfold State.arrived
  dsimp only
  rw [State.admitXfer_passes h]
  simp only [State.countPeel, State.count_fab]

/-- A request that passes its checks outside a freeze is served at once, a PROBE also while clk_eng is stopped (R312, R439). -/
theorem State.inRequest_served {typ peel : Nat} {x : Xfer} (up : s.up = true) (port : peel < s.peelsPresent) (ht : x.typ = typ)
    (request : x.resp = false) (passes : (s.admitXfer peel x).2 = true) (thawed : s.frozen = false)
    (clock : s.stopped = true → typ = 4) (serve : State → State) :
    s.inRequest typ peel x serve = serve (s.arrived peel x) := by
  have addressed : ¬ (s.up = false ∨ peel ≥ s.peelsPresent ∨ x.typ ≠ typ ∨ x.resp = true) := by
    rintro (h | h | h | h)
    · rw [up] at h; cases h
    · omega
    · exact h ht
    · rw [request] at h; cases h
  unfold State.inRequest
  rw [if_neg addressed]
  dsimp only
  rw [if_neg (by simp [passes]), if_neg (by simp [thawed]), if_neg (fun h => h.2 (clock h.1))]
  rfl

theorem State.Serves.inRequest {typ peel : Nat} {x : Xfer} (h : s.Serves typ peel x) (serve : State → State) :
    s.inRequest typ peel x serve = serve (s.arrived peel x) :=
  State.inRequest_served h.up h.port h.typ h.request h.passes h.thawed (fun c => by rw [h.clock] at c; cases c) serve

section
variable {peel : Nat} {x : Xfer}

/-- ADD, MAX or SET by COUNTER. -/
theorem State.serveCounter_wrote (hw : mwf s.pctr = true) (hr : mget s.sram (iaOf 2 0x1F (x.num 8 2 % 4096)) = none)
    (h3 : x.num 8 2 / 4096 % 4 ≠ 3)
    (hp : x.num 8 2 / 4096 % 4 = 2 ∨ s.poison.contains (x.num 8 2 % 4096) = false) :
    s.Wrote (x.num 8 2 % 4096) (ctrVal (x.num 8 2 / 4096 % 4) (s.pc (x.num 8 2 % 4096)) (x.word 16)) (s.serveCounter peel x) := by
  have hop : x.num 8 2 / 4096 % 4 < 3 := by have := Nat.mod_lt (x.num 8 2 / 4096) (show 4 > 0 by decide); omega
  unfold State.serveCounter
  dsimp only
  generalize x.num 8 2 % 4096 = k at *
  generalize x.num 8 2 / 4096 % 4 = op at *
  rw [State.checkCtr_of_none hr, ite_self, if_neg (State.not_stopped_by_poison hp), if_neg h3]
  refine (State.ctrOp_wrote hw hr hop hp (x.word 16)).kept ?_
  exact (State.noteBarrier_kept _ _ _ _ _ _).respond (by decide) (by decide) (by decide) (by decide) _ _ _ _

/-- A poisoned counter answers nothing but SET (R422). -/
theorem State.serveCounter_poisoned (hr : mget s.sram (iaOf 2 0x1F (x.num 8 2 % 4096)) = none)
    (h2 : x.num 8 2 / 4096 % 4 ≠ 2) (hp : s.poison.contains (x.num 8 2 % 4096) = true) : s.serveCounter peel x = s := by
  unfold State.serveCounter
  dsimp only
  rw [State.checkCtr_of_none hr, ite_self, if_pos ⟨hp, h2⟩]

/-- COMPARE-WAIT by COUNTER: answered, refused or kept as a waiter (R363). -/
theorem State.serveCounter_wait (hr : mget s.sram (iaOf 2 0x1F (x.num 8 2 % 4096)) = none)
    (h3 : x.num 8 2 / 4096 % 4 = 3) (hp : s.poison.contains (x.num 8 2 % 4096) = false) :
    s.serveCounter peel x =
      if (x.word 16).toNat ≤ (s.pc (x.num 8 2 % 4096)).toNat then
        s.respond peel x 0 [(16, (s.pc (x.num 8 2 % 4096)).toNat)]
      else if 512 ≤ s.fab.waiters.length then (s.countPeel peel 22).respond peel x 1
      else { s with fab := { s.fab with waiters := s.fab.waiters ++ [⟨peel, x, BitVec.ofNat 12 (x.num 8 2 % 4096), x.word 16⟩] } } := by
  unfold State.serveCounter
  dsimp only
  rw [State.checkCtr_of_none hr, ite_self, if_neg (by rw [hp]; simp), if_pos h3]
  rfl

end

/-- What a counter operation reads of a state is as it was before the transfer arrived. -/
theorem State.arrived_counters {peel : Nat} {x : Xfer} (h : (s.admitXfer peel x).2 = true) :
    (s.arrived peel x).pctr = s.pctr ∧ (s.arrived peel x).poison = s.poison ∧ (s.arrived peel x).sram = s.sram
      ∧ (s.arrived peel x).fab.waiters = s.fab.waiters := by
  rw [State.arrived_eq h]
  simp only [State.countPeel, State.count_pctr, State.count_poison, State.count_sram, and_self]

/-- Settles O45: a request that the engine serves is its meaning on the state with the transfer counted, which holds the same
counters. -/
theorem probesAndCountersAreServed : Obligations.ProbesAndCountersAreServed := by
  intro s peel x u k op v
  refine ⟨fun up port typ request passes thawed =>
    congrArg Host.Outcome.next (State.inRequest_served up port typ request passes thawed (fun _ => rfl) _), fun hw hs hr => ?_⟩
  have run : exec (.counter peel x) s = .next (u.serveCounter peel x) := congrArg Host.Outcome.next (hs.inRequest _)
  obtain ⟨hpctr, hpoison, hsram, hwaiters⟩ := State.arrived_counters hs.passes
  have hpc : ∀ i, u.pc i = s.pc i := fun i => by unfold State.pc; rw [hpctr]
  rw [← hpctr] at hw
  rw [← hsram] at hr
  rw [← hpoison, ← hwaiters, ← hpc k, run]
  refine ⟨fun h3 hp => ?_, fun h2 hp => congrArg _ (State.serveCounter_poisoned hr h2 hp), fun h3 hp => ?_⟩
  · obtain ⟨poison, value, others⟩ := State.serveCounter_wrote (peel := peel) hw hr h3 hp
    exact ⟨_, rfl, poison, value, fun i hi => (others i hi).trans (hpc i)⟩
  · rw [State.serveCounter_wait hr h3 hp]
    refine ⟨fun h => congrArg _ (if_pos h), fun h hl => congrArg _ ?_, fun h hl => congrArg _ ?_⟩
    · exact (if_neg (Nat.not_le.mpr h)).trans (if_neg (Nat.not_le.mpr hl))
    · exact (if_neg (Nat.not_le.mpr h)).trans (if_pos hl)

end Sys2Proof.Machine
namespace Sys2Proof.Machine

variable {s : State} {r : CmdRow} {c : Cmd}

/-! ### Commands that begin at once -/

theorem State.taken_live (h : s.accepts = true) : (s.taken c).live = true :=
  (State.live_congr (s := s) (by unfold State.taken; simp)).symm.trans (State.live_of_accepts h)

theorem State.Offers.free_taken (h : s.Offers c) : (s.taken c).link.admitted.find? (Adm.isAt c.cid c.tag) = none := by
  rw [State.taken_admitted]
  exact h.free

theorem State.newBegun_isAt (u : State) (o : OpRow) (c : Cmd) (k : Nat) : Adm.isAt c.cid c.tag (u.newBegun o c k) = true :=
  Adm.isAt_new u o c

section
variable (ht : r.take = noTake) (h : s.Offers c)
include ht h

/-- A command whose row does nothing as it is taken begins with its flits taken and its own record last. -/
theorem State.begun_eq :
    s.begun r c = (s.taken c).withAdm ((s.taken c).link.admitted ++ [(s.taken c).newBegun (rowOf r.op) c 0]) := by
  unfold State.begun State.admitted
  rw [ht]
  unfold noTake State.modAdm State.withAdm
  dsimp only
  rw [replaceFirst_append h.free_taken (Adm.isAt_new _ _ _)]
  rfl

/-- Beside the link, the power manager and the engine's counters, a command begins on the state it found. -/
theorem State.begun_kept : Kept (fun p => p = .link ∨ p = .power ∨ p = .engCtr) s (s.begun r c) := by
  rw [State.begun_eq ht h]
  refine Kept.set_link ?_ (by decide) _
  exact ((Kept.refl _ s).wake (by decide) (by decide)).advanceHead (by decide) _

theorem State.begun_runs : (s.begun r c).Runs c := by
  refine ⟨(s.taken c).newBegun (rowOf r.op) c 0, ?_, rfl, rfl⟩
  rw [State.begun_eq ht h]
  unfold State.adm? State.withAdm
  dsimp only
  rw [List.find?_append, h.free_taken, Option.none_or, List.find?_cons_of_pos (State.newBegun_isAt _ _ _ _)]

end

/-- A command just begun is none that a cancel command waits for. -/
theorem State.unwatchedIn_begun (h : s.unwatched c = true) (o : OpRow) :
    unwatchedIn ((s.taken c).link.admitted ++ [(s.taken c).newBegun o c 0]) c.cid c.tag := by
  intro a ha
  rcases List.mem_append.mp ha with ha | ha
  · rw [State.taken_admitted] at ha
    exact (Bool.not_eq_true' _).mp (List.all_eq_true.mp h a ha)
  · cases List.mem_singleton.mp ha
    simp [State.newBegun, State.newAdm]

/-- ACCEPTED moves no command. -/
theorem State.ack_admitted (n : Nat) (o : OpRow) (c : Cmd) (est : BitVec 32) :
    (s.ack n o c est).link.admitted = s.link.admitted := by
  unfold State.ack
  split <;> rfl

/-- A command that begins at once has its effect; ACCEPTED changes only the link, and no admitted command. -/
theorem exec_begins {i : Instr} (hi : Instr.cmdRow? i = some (r, c)) (h : s.Starts r c) :
    ∃ t, exec i s = .next t ∧ Kept (· = .link) (r.eff c (s.begun r c)) t
      ∧ t.link.admitted = (r.eff c (s.begun r c)).link.admitted :=
  ⟨_, (exec_cmdRow hi s).trans (congrArg _ (State.runCmd_starts h)), Kept.ack (Kept.refl (· = .link) _) rfl _ _ _ _,
    State.ack_admitted _ _ _ _⟩

/-- A command whose whole effect is its final reply. -/
theorem exec_finishes {i : Instr} (hi : Instr.cmdRow? i = some (r, c)) (ho : (rowOf r.op).op = r.op) (ht : r.take = noTake)
    (h : s.Starts r c) (hu : s.unwatched c = true) {n d : Nat}
    (he : r.eff c (s.begun r c) = (s.begun r c).finish c.cid c.tag n d) :
    exec i s = .next ((s.taken c).answered r.op c n d) := by
  have live : (s.taken c).live = true := State.taken_live h.accepts
  have final : (s.begun r c).finish c.cid c.tag n d = (s.taken c).answered r.op c n d := by
    rw [State.begun_eq ht h.toOffers, State.finish_last n d live h.free_taken (State.newBegun_isAt _ _ _ _)
      (State.unwatchedIn_begun hu _)]
    unfold State.reply State.withAdm State.answered
    rw [if_neg (by simp [live])]
    simp only [State.newBegun, State.newAdm, ho]
  have gone : ((s.taken c).answered r.op c n d).adm? c.cid c.tag = none := h.free_taken
  rw [exec_cmdRow hi, State.runCmd_starts h, he, final]
  unfold State.ack
  rw [gone, if_neg (by simp)]

/-! ### COUNTER_OP -/

section
variable (own : (s.ctx c.cid).own = opPosition c) (raw : mget s.sram (iaOf 2 0x1F (fld c.a 0 12)) = none)
include own raw

/-- ADD, MAX or SET on a counter of the own position. -/
theorem effCounterOp_wrote (hw : mwf s.pctr = true) (h3 : fld c.a 12 2 ≠ 3)
    (hp : fld c.a 12 2 = 2 ∨ s.poison.contains (fld c.a 0 12) = false) :
    s.Wrote (fld c.a 0 12) (ctrVal (fld c.a 12 2) (s.pc (fld c.a 0 12)) c.b) (effCounterOp c s) := by
  have hop : fld c.a 12 2 < 3 := by
    have : fld c.a 12 2 < 2 ^ 2 := Nat.mod_lt _ (by decide)
    omega
  unfold effCounterOp
  dsimp only
  generalize fld c.a 0 12 = k at *
  generalize fld c.a 12 2 = op at *
  rw [if_pos own, State.checkCtr_of_none raw, ite_self, if_neg (State.not_stopped_by_poison hp), if_neg h3]
  refine (State.ctrOp_wrote hw raw hop hp c.b).kept ?_
  exact (State.noteBarrier_kept _ _ _ _ _ _).finish (by decide) _ _ _ _

theorem effCounterOp_poisoned (h2 : fld c.a 12 2 ≠ 2) (hp : s.poison.contains (fld c.a 0 12) = true) :
    effCounterOp c s = s.finish c.cid c.tag 0x0600 0xFFFFFFFF := by
  unfold effCounterOp
  dsimp only
  rw [if_pos own, State.checkCtr_of_none raw, ite_self, if_pos ⟨hp, h2⟩]

/-- COMPARE-WAIT on a counter of the own position (R493). -/
theorem effCounterOp_wait (h3 : fld c.a 12 2 = 3) (hp : s.poison.contains (fld c.a 0 12) = false) :
    effCounterOp c s =
      if c.b.toNat ≤ (s.pc (fld c.a 0 12)).toNat then s.finish c.cid c.tag 0 (fld (s.pc (fld c.a 0 12)) 0 32)
      else { s with fab := { s.fab with
        locals := s.fab.locals ++ [⟨c.ctx, c.tag, BitVec.ofNat 12 (fld c.a 0 12), c.b, .command⟩] } } := by
  unfold effCounterOp
  dsimp only
  rw [if_pos own, State.checkCtr_of_none raw, ite_self, if_neg (by rw [hp]; simp), if_pos h3]
  rfl

end

/-- No operation leaves for another position without a current key. -/
theorem effCounterOp_no_key (other : (s.ctx c.cid).own ≠ opPosition c) (key : (s.ctx c.cid).keys.cur = none) :
    effCounterOp c s = s.finish c.cid c.tag 0x0501 (s.ctx c.cid).own := by
  unfold effCounterOp
  dsimp only
  rw [if_neg other, key]
  rfl

/-- The row of COUNTER_OP (Table 4.4). -/
def counterRow : CmdRow := ⟨0xB1, noFields, chkCounterOp, noBytes, noTake, effCounterOp⟩

/-- Settles O32: COUNTER_OP begins on the counters, poisons and contexts that it found, and each case of its effect there is one
lemma. -/
theorem counterOpsOfTheOwnPosition : Obligations.CounterOpsOfTheOwnPosition := by
  intro s c hw ⟨r, c', hi, hs, hu⟩ j op u
  cases hi
  have kept := State.begun_kept (r := counterRow) rfl hs.toOffers
  have runs := State.begun_runs (r := counterRow) rfl hs.toOffers
  obtain ⟨t, run, acked, admitted⟩ := exec_begins (i := .counterOp c) (r := counterRow) rfl hs
  have finishes : ∀ {n d : Nat}, effCounterOp c (s.begun counterRow c) = (s.begun counterRow c).finish c.cid c.tag n d →
      exec (.counterOp c) s = .next (u.answered 0xB1 c n d) := exec_finishes (r := counterRow) rfl (by decide) rfl hs hu
  generalize s.begun counterRow c = b at *
  have hpctr : b.pctr = s.pctr := kept.same .pctr (by decide)
  have hpc : b.pc j = s.pc j := by unfold State.pc; rw [hpctr]
  have hctx : b.ctx c.cid = s.ctx c.cid := by unfold State.ctx; rw [kept.same .ctxs (by decide)]
  rw [← hctx, ← hpc, ← hpctr, ← kept.same .poison (by decide), ← kept.same .sram (by decide), ← kept.same .fab (by decide)]
  rw [← hpctr] at hw
  refine ⟨fun own raw => ⟨fun h3 hp => ?_, fun h3 hp hv => ?_, fun h3 hp hv => ?_, fun h2 hp => ?_⟩, fun other key => ?_⟩
  · have wrote := (effCounterOp_wrote own raw hw h3 hp).kept (acked.mono (by rintro _ rfl; decide))
    exact ⟨t, run, wrote.poison, wrote.value⟩
  · exact finishes ((effCounterOp_wait own raw h3 hp).trans (if_pos hv))
  · change Kept _ (effCounterOp c b) t at acked
    change t.link.admitted = (effCounterOp c b).link.admitted at admitted
    rw [(effCounterOp_wait own raw h3 hp).trans (if_neg (Nat.not_le.mpr hv))] at acked admitted
    refine ⟨t, run, ?_, acked.same .pctr (by decide), acked.same .fab (by decide)⟩
    unfold State.Runs State.adm?
    rw [admitted]
    exact runs
  · exact finishes (effCounterOp_poisoned own raw h2 hp)
  · exact finishes (effCounterOp_no_key other key)

end Sys2Proof.Machine
namespace Sys2Proof.Machine

variable {s t : State}

/-! ### A fault freeze ends every admitted command -/

/-- Context and tag of an admitted command. -/
def Adm.key (a : Adm) : Nat × BitVec 16 := (a.c.ctx.toNat, a.c.tag)

/-- The contexts and tags of the admitted commands, in order. -/
def State.keys (s : State) : List (Nat × BitVec 16) := s.link.admitted.map Adm.key

theorem Adm.isAt_iff {x : Nat} {g : BitVec 16} {a : Adm} : Adm.isAt x g a = true ↔ a.key = (x, g) := by
  unfold Adm.isAt Adm.key
  simp

@[simp] theorem Adm.note_key (x : Nat) (g : BitVec 16) (n : Nat) (a : Adm) : (Adm.note x g n a).key = a.key := by
  unfold Adm.note
  split <;> rfl

theorem dropFirst_isAt_keys (x : Nat) (g : BitVec 16) (l : List Adm) :
    (dropFirst (Adm.isAt x g) l).map Adm.key = (l.map Adm.key).erase (x, g) := by
  induction l with
  | nil => rfl
  | cons a l ih =>
    rw [dropFirst]
    by_cases h : a.key = (x, g)
    · rw [if_pos (Adm.isAt_iff.mpr h), List.map_cons, h, List.erase_cons_head]
    · rw [if_neg (fun e => h (Adm.isAt_iff.mp e)), List.map_cons, List.map_cons, List.erase_cons_tail (by simpa using h), ih]

theorem State.not_mem_keys {x : Nat} {g : BitVec 16} (h : s.adm? x g = none) : (x, g) ∉ s.keys := by
  intro hm
  obtain ⟨a, ha, hk⟩ := List.mem_map.mp hm
  exact (List.find?_eq_none.mp h) a ha (Adm.isAt_iff.mpr hk)

/-- A final reply moves no command. -/
theorem State.reply_admitted (op : Byte) (x : Nat) (g : BitVec 16) (n d k : Nat) :
    (s.reply op x g n d k).link.admitted = s.link.admitted := by
  unfold State.reply
  split <;> rfl

/-- The command that a final reply ends leaves. -/
theorem State.settle_keys (x : Nat) (g : BitVec 16) (n d : Nat) : (s.settle x g n d).keys = s.keys.erase (x, g) := by
  unfold State.settle
  split
  · next h => rw [List.erase_of_not_mem (State.not_mem_keys h)]
  · unfold State.keys
    dsimp only
    rw [dropFirst_isAt_keys, State.reply_admitted]

theorem State.keys_foldl_sublist {α : Type} {f : State → α → State} (hf : ∀ s a, ((f s a).keys).Sublist s.keys) (l : List α)
    (s : State) : ((l.foldl f s).keys).Sublist s.keys := by
  induction l generalizing s with
  | nil => exact List.Sublist.refl _
  | cons a l ih => exact (ih (f s a)).trans (hf s a)

/-- With it leave only the cancel commands that waited for it alone. -/
theorem State.finish_keys (x : Nat) (g : BitVec 16) (n d : Nat) : ((s.finish x g n d).keys).Sublist (s.keys.erase (x, g)) := by
  unfold State.finish
  split
  · next h => rw [List.erase_of_not_mem (State.not_mem_keys (Option.isNone_iff_eq_none.mp h))]
  · refine (State.keys_foldl_sublist (fun u g => ?_) _ _).trans ?_
    · split
      · rw [State.settle_keys]
        exact List.erase_sublist
      · exact List.Sublist.refl _
    · rw [← State.settle_keys x g n d]
      unfold State.keys
      simp only [List.map_map, Function.comp_def, Adm.note_key]
      exact List.Sublist.refl _

/-- One final reply for each of a list of commands that holds every admitted one, and none is left. -/
theorem State.finish_all {l : List Adm} {n d : Nat} (h : s.keys.Subperm (l.map Adm.key)) :
    (l.foldl (fun s a => s.finish a.c.ctx.toNat a.c.tag n d) s).link.admitted = [] := by
  induction l generalizing s with
  | nil => exact List.map_eq_nil_iff.mp (List.subperm_nil.mp h)
  | cons a l ih =>
    refine ih ((State.finish_keys _ _ n d).subperm.trans ?_)
    have := h.erase a.key
    rwa [List.map_cons, List.erase_cons_head] at this

/-- The check that fires: its code stands, the engine is frozen and no command is admitted (R22). -/
theorem State.faultFreeze_live (h : s.live = true) {code : Nat} (hc : BitVec.ofNat 2 code ≠ 0) :
    (s.faultFreeze code).boot.fault = BitVec.ofNat 2 code ∧ (s.faultFreeze code).frozen = true
      ∧ (s.faultFreeze code).link.admitted = [] := by
  have sound : s.boot.fault = 0 := by
    unfold State.live at h
    simp only [Bool.and_eq_true, decide_eq_true_eq] at h
    exact h.2
  have quiet : ¬ (s.boot.fault ≠ 0 ∨ s.live = false) := by simp [sound, h]
  unfold State.faultFreeze
  rw [if_neg quiet]
  dsimp only
  refine ⟨rfl, ?_, ?_⟩
  · unfold State.frozen State.countGuard
    simp only [decide_eq_true hc, Bool.or_true]
  · rw [State.countGuard_link]
    exact State.finish_all (List.Subperm.refl _)

/-- A fault freeze changes the boot state and the link alone. -/
theorem State.faultFreeze_kept (s : State) (code : Nat) :
    Kept (fun p => p = .boot ∨ p = .link) s (s.faultFreeze code) :=
  Kept.faultFreeze (Kept.refl _ s) (by decide) (by decide) code

/-! ### Scrubs and checks -/

section
variable {a : Nat} {r : RawWord} (scrub : Bool)

theorem State.checkWord_of_none (h : mget s.sram a = none) : s.checkWord a scrub = s := by
  unfold State.checkWord
  simp only [h]

variable (raw : mget s.sram a = some r)
include raw

/-- A write of the word by its unit stands: the scrub abandons its write-back and counts it (R423). -/
theorem State.checkWord_written (h : s.unitWord (iaUnit a) (iaSlice a) (iaWord a) ≠ r.was) :
    s.checkWord a scrub = State.count { s with sram := merase s.sram a } 92 (bit scrub) := by
  unfold State.checkWord
  simp only [raw]
  exact if_pos h

variable (same : s.unitWord (iaUnit a) (iaSlice a) (iaWord a) = r.was)
include same

/-- An uncorrectable word is treated by Table 19.2; one of a gate table waits until the sequencer runs (R422). -/
theorem State.checkWord_uncorrectable (bad : corrected r.data r.chk = none) :
    s.checkWord a scrub =
      if gateTable (iaUnit a) && !s.running then s else State.treatWord { s with sram := merase s.sram a } a := by
  unfold State.checkWord
  simp only [raw, bad]
  exact if_neg (not_not_intro same)

/-- A word that Table 19.1 gives a value takes it; a correction is counted. -/
theorem State.checkWord_corrected {v : Word} (good : corrected r.data r.chk = some v) :
    s.checkWord a scrub =
      if syndrome r.data r.chk = .clean then
        State.setUnitWord { s with sram := merase s.sram a } (iaUnit a) (iaSlice a) (iaWord a) v
      else (State.setUnitWord { s with sram := merase s.sram a } (iaUnit a) (iaSlice a) (iaWord a) v).noteCorrected a scrub := by
  unfold State.checkWord
  simp only [raw, good]
  exact if_neg (not_not_intro same)

end

/-- A word of a gate table waits while the sequencer does not run. -/
theorem gateTable_waits_iff (u : Nat) (s : State) :
    (gateTable u && !s.running) = true ↔ (6 ≤ u ∧ u ≤ 8) ∧ s.running = false := by
  unfold gateTable
  simp

theorem execStorageScrub_up (h : s.up = true) (a : BitVec 32) : exec (.storageScrub a) s = .next (s.checkWord a.toNat true) :=
  congrArg Host.Outcome.next (if_pos h)

theorem execFirmwareDigestCheck_due (live : s.live = true) (due : 1024 ≤ s.frames.sinceDigest) (d : BitVec 256) :
    exec (.firmwareDigestCheck d) s = .next (if d = s.boot.digest then { s with frames := { s.frames with sinceDigest := 0 } }
      else State.faultFreeze { s with frames := { s.frames with sinceDigest := 0 } } 3) := by
  refine (if_neg ?_ : execFirmwareDigestCheck d s = _)
  rintro (h | h)
  · rw [live] at h; cases h
  · omega

/-- Settles O54: a scrub is the check of its word, and a check of Table 1.2 that fires is a fault freeze. -/
theorem scrubsAndChecks : Obligations.ScrubsAndChecks := by
  intro s
  refine ⟨fun a up unset => ?_, fun a r up raw => ?_, fun d live due => ?_, fun live planned lock => ?_, fun idle => ?_⟩
  · rw [execStorageScrub_up up, State.checkWord_of_none true unset]
  · rw [execStorageScrub_up up]
    refine ⟨fun written => ?_, fun same bad runs => ?_, fun same bad low high stays => ?_, fun v same good => ?_⟩
    · exact congrArg _ (State.checkWord_written true raw written)
    · refine congrArg _ ((State.checkWord_uncorrectable true raw same bad).trans (if_neg fun waits => ?_))
      obtain ⟨⟨low, high⟩, stays⟩ := (gateTable_waits_iff _ s).mp waits
      rw [runs low high] at stays
      cases stays
    · exact congrArg _ ((State.checkWord_uncorrectable true raw same bad).trans
        (if_pos ((gateTable_waits_iff _ s).mpr ⟨⟨low, high⟩, stays⟩)))
    · exact congrArg _ (State.checkWord_corrected true raw same good)
  · rw [execFirmwareDigestCheck_due live due]
    refine ⟨fun hd => congrArg _ (if_pos hd), fun hd => ⟨_, congrArg _ (if_neg hd), ?_⟩⟩
    exact State.faultFreeze_live (s := { s with frames := { s.frames with sinceDigest := 0 } }) (code := 3) live (by decide)
  · have kept := State.faultFreeze_kept s 1
    obtain ⟨fault, frozen, admitted⟩ := State.faultFreeze_live live (code := 1) (by decide)
    exact ⟨s.faultFreeze 1, if_pos ⟨planned, lock⟩, fault, frozen, admitted, kept.same .ctxs (by decide), kept.same .mem (by decide)⟩
  · exact if_neg fun h => by rw [idle] at h; cases h.1

end Sys2Proof.Machine
namespace Sys2Proof.Machine

variable {s s₀ t u : State}

/-! ### What the work of a plan leaves of the frame -/

/-- The same frame: its number, its tick and its period, and whether a plan is in force. -/
structure State.SameFrame (s t : State) : Prop where
  planned : t.frames.planned = s.frames.planned
  tick : t.frames.tick = s.frames.tick
  frame : t.frames.frame = s.frames.frame
  j : t.frames.j = s.frames.j

/-- Every part but the frames. -/
abbrev offFrames : Part → Prop := (· ≠ .frames)

theorem State.SameFrame.refl (s : State) : s.SameFrame s := ⟨rfl, rfl, rfl, rfl⟩

theorem State.SameFrame.trans (h : s.SameFrame t) (g : t.SameFrame u) : s.SameFrame u :=
  ⟨g.planned.trans h.planned, g.tick.trans h.tick, g.frame.trans h.frame, g.j.trans h.j⟩

/-- A step that leaves the frames alone. -/
theorem State.SameFrame.kept (k : Kept offFrames t u) (h : s.SameFrame t) : s.SameFrame u := by
  have e : u.frames = t.frames := k.same .frames (by decide)
  exact h.trans ⟨by rw [e], by rw [e], by rw [e], by rw [e]⟩

theorem State.SameFrame.ite {c : Prop} [Decidable c] (h : s₀.SameFrame s) (g : s₀.SameFrame t) :
    s₀.SameFrame (if c then s else t) := by
  split
  · exact h
  · exact g

theorem State.SameFrame.each {α : Type} {l : List α} {f : State → α → State} (h : s₀.SameFrame s)
    (hf : ∀ t x, s₀.SameFrame t → s₀.SameFrame (f t x)) : s₀.SameFrame (s.each l f) := by
  unfold State.each
  induction l generalizing s with
  | nil => exact h
  | cons x l ih => exact ih (hf s x h)

/-- A piece charged to the fabric changes what the frame has used of its credit. -/
theorem State.SameFrame.chargeFabric (h : s₀.SameFrame s) (w : Cls) (lvl n : Nat) (aged : Bool) :
    s₀.SameFrame (s.chargeFabric w lvl n aged) := by
  refine h.trans ?_
  unfold State.chargeFabric
  constructor <;> simp

theorem State.SameFrame.shipTo (h : s₀.SameFrame s) (c t : Nat) (k : Crumb) (erased every : Bool) :
    s₀.SameFrame (s.shipTo c t k erased every) := by
  unfold State.shipTo
  dsimp only
  split
  · exact h.kept ((Kept.refl _ _).shipDone (by decide) _ _)
  · refine State.SameFrame.ite (State.SameFrame.kept ((Kept.refl _ _).shipDone (by decide) _ _) ?_) ?_
    all_goals
      refine h.each fun v e hv => State.SameFrame.ite hv (State.SameFrame.ite ?_ ?_)
      · exact hv.kept ((Kept.refl _ v).modCtx (by decide) _ _)
      · apply State.SameFrame.kept
        · apply Kept.shipOne (Kept.refl _ _) <;> decide
        · exact (hv.kept ((Kept.refl _ v).modCtx (by decide) _ _)).chargeFabric _ _ _ _

theorem State.SameFrame.drainDecoded (h : s₀.SameFrame s) (c t : Nat) (v : Option Tile) :
    s₀.SameFrame (s.drainDecoded c t v) := by
  have done := h.kept ((Kept.refl _ s).shipDone (by decide) c t)
  unfold State.drainDecoded
  dsimp only
  refine State.SameFrame.ite h ?_
  split
  · unfold State.ship
    exact State.SameFrame.ite done (h.shipTo _ _ _ _ _)
  · split
    · exact done
    · exact done.kept (((Kept.refl _ _).modCtx (by decide) _ _).emit (by decide) (by decide) _ _ _ _)

theorem State.SameFrame.finishJob (h : s₀.SameFrame s) (j : DecodeJob) (v : Option Tile) :
    s₀.SameFrame (s.finishJob j v) := by
  have dropped := h.kept ((Kept.refl _ s).dropJobs (by decide) (fun k => k.id == j.id))
  unfold State.finishJob
  dsimp only
  cases j.why with
  | drain => exact dropped.drainDecoded _ _ _
  | mend => exact dropped.kept (by apply Kept.mendDone (Kept.refl _ _) <;> decide)
  | rebuild => exact dropped.kept (by apply Kept.rebuildDecoded (Kept.refl _ _) <;> decide)
  | crust => exact dropped.kept (by apply Kept.crustDecoded (Kept.refl _ _) <;> decide)
  | exporting => exact dropped.kept (by apply Kept.exportDecoded (Kept.refl _ _) <;> decide)
  | promote => exact dropped.kept (by apply Kept.promoteDecoded (Kept.refl _ _) <;> decide)
  | rollback =>
    dsimp only
    split
    · apply State.SameFrame.kept
      · apply Kept.runRollback (Kept.refl _ _) <;> decide
      · exact dropped.kept (by apply Kept.rollbackDecoded (Kept.refl _ _) <;> decide)
    · exact dropped

theorem State.SameFrame.sendDecode (h : s₀.SameFrame s) (j : DecodeJob) : s₀.SameFrame (s.sendDecode j) := by
  unfold State.sendDecode
  dsimp only
  split
  · exact h
  · refine State.SameFrame.ite (h.finishJob _ _) (State.SameFrame.ite (h.finishJob _ _) (h.kept ?_))
    refine (((Kept.refl _ s).modDecode (by decide) _ _).countCtx (by decide) _ _ _).each fun t e ht => ?_
    apply Kept.issue ht <;> decide

theorem State.SameFrame.pumpJobs (h : s₀.SameFrame s) : s₀.SameFrame s.pumpJobs := by
  unfold State.pumpJobs
  refine h.each fun t j ht => ?_
  split
  · exact ht
  · exact State.SameFrame.ite (ht.sendDecode _) ht

theorem State.SameFrame.queue (h : s₀.SameFrame s) : s₀.SameFrame s.queue := h.trans ⟨rfl, rfl, rfl, rfl⟩

/-- The pieces are marked as issued or not. -/
theorem State.SameFrame.issuePieces (h : s₀.SameFrame s) : s₀.SameFrame s.issuePieces := by
  unfold State.issuePieces
  dsimp only
  refine State.SameFrame.each (State.SameFrame.each (h.trans ⟨rfl, rfl, rfl, rfl⟩) fun t p ht => ?_) fun t a ht => ?_
  · exact ht.kept ((Kept.refl _ t).countSlice (by decide) _ _ _)
  · exact ht.kept ((Kept.refl _ t).deferWork (by decide) _)

/-- The plan is in force, in the frame that it was made for. -/
theorem State.makePlan_sameFrame (s : State) (inp : FrameIn) :
    State.SameFrame { s with frames := { s.frames with planned := true } } (s.makePlan inp) := by
  have power : s.SameFrame ((s.queue).planPower inp.envelope) :=
    (State.SameFrame.refl s).queue.kept (by apply Kept.planPower (Kept.refl _ _) <;> decide)
  unfold State.makePlan
  dsimp only
  apply State.SameFrame.kept
  · apply Kept.pushSums (Kept.refl _ _) <;> decide
  refine State.SameFrame.each ?_ fun t i ht => ht.kept (by apply Kept.applyLanded (Kept.refl _ t) <;> decide)
  refine State.SameFrame.pumpJobs (State.SameFrame.issuePieces ?_)
  generalize hv : State.each (State.count _ 10 _) _ _ = v
  have fresh : s.SameFrame v := by
    rw [← hv]
    refine State.SameFrame.each ?_ fun t i ht => ht.kept ((Kept.refl _ t).modSlice (by decide) i Slice.fresh)
    exact power.kept (((Kept.refl _ _).count (by decide) 9 _).count (by decide) 10 _)
  exact ⟨rfl, fresh.tick, fresh.frame, fresh.j⟩

/-! ### The boundary of a frame -/

/-- Every part but the frames and the window. -/
abbrev offWindow : Part → Prop := fun p => p ≠ .frames ∧ p ≠ .win

/-- A boundary numbers the frame by the period in force, and the registers written since the last one govern (R102, R315). -/
theorem State.openFrame_opens (s : State) (inp : FrameIn) :
    (s.openFrame inp).frames = { s.frames with
      tick := inp.tick, frame := frameAt inp.tick s.frames.j, sinceDigest := s.frames.sinceDigest + 1 }
    ∧ (s.openFrame inp).win = { s.win with memberNow := s.win.member, fabricNow := s.win.fabric } := by
  have closed : Kept offWindow s (s.each s.presentSlices (fun s i => s.closeSlice inp i)) :=
    (Kept.refl _ s).each fun t i ht => by apply Kept.closeSlice ht <;> decide
  have opened : ∃ v, v.frames = { s.frames with
        tick := inp.tick, frame := frameAt inp.tick s.frames.j, sinceDigest := s.frames.sinceDigest + 1 }
      ∧ v.win = { s.win with memberNow := s.win.member, fabricNow := s.win.fabric } ∧ Kept offWindow v (s.openFrame inp) := by
    unfold State.openFrame
    dsimp only
    generalize s.each s.presentSlices (fun s i => s.closeSlice inp i) = w at closed
    refine ⟨_, ?_, ?_, Kept.each (Kept.set_ctxs (Kept.judgeRisk (Kept.judgeSigns (Kept.each (Kept.each (Kept.refl _ _)
      fun t p ht => ht.modPeel (by decide) _ _) fun t i ht => ht.judgeTemp (by decide) (by decide) (by decide) (by decide) i)
      (by decide) (by decide) (by decide) (by decide)) (by decide) (by decide) (by decide) _) (by decide) fun h => mwf_mmap h _)
      fun t i ht => ht.each fun v c hv => hv.holdFrame (by decide) (by decide) (by decide) (by decide) c i⟩
    · rw [← closed.same .frames (by decide)]
    · rw [← closed.same .win (by decide)]
  obtain ⟨v, hf, hw, kept⟩ := opened
  exact ⟨(kept.same .frames (by decide)).trans hf, (kept.same .win (by decide)).trans hw⟩

end Sys2Proof.Machine
namespace Sys2Proof.Machine

variable {s s₀ t u : State}

/-! ### FRAME_PLAN_BUILD -/

theorem State.switchPeriod_of_none (h : s.frames.pending = none) (tick : Word) : s.switchPeriod tick = s := by
  unfold State.switchPeriod
  simp only [h]

/-- In service and with lock a plan build is the watchdog's, the self-check's, or a plan (R20, R105). -/
theorem execFramePlanBuild_locked (live : s.live = true) (lock : s.frames.lock = true) (inp : FrameIn) :
    exec (.framePlanBuild inp) s =
      if s.frames.planned then .next (s.faultFreeze 1)
      else if !inp.tablesOk then .next (s.faultFreeze 3)
      else .next (State.makePlan (State.letOut
        (if ((s.switchPeriod inp.tick).openFrame inp).buildBound < inp.buildNs.toNat then
          (((s.switchPeriod inp.tick).openFrame inp).count 2).emit 0x0011 2 none
            [(0, ((s.switchPeriod inp.tick).openFrame inp).frames.frame.toNat), (4, inp.buildNs.toNat)]
        else (s.switchPeriod inp.tick).openFrame inp)) inp) :=
  if_neg (by simp [live, lock])

/-- What is sent between the boundary and the plan changes neither the frame nor the window. -/
theorem State.letOut_kept (s : State) (inp : FrameIn) :
    Kept offWindow s (State.letOut (if s.buildBound < inp.buildNs.toNat then
      (s.count 2).emit 0x0011 2 none [(0, s.frames.frame.toNat), (4, inp.buildNs.toNat)] else s)) := by
  have refl := Kept.refl offWindow s
  refine Kept.letOut (Kept.ite (fun _ => ?_) (fun _ => refl)) ?_ ?_ ?_ ?_ ?_ ?_
  · exact (refl.count (by decide) _ _).emit (by decide) (by decide) _ _ _ _
  all_goals decide

/-- A plan is in force from its boundary on, in the frame that the period in force numbers. -/
theorem execFramePlanBuild_plans (live : s.live = true) (lock : s.frames.lock = true) (idle : s.frames.planned = false)
    {inp : FrameIn} (sound : inp.tablesOk = true) : ∃ t, exec (.framePlanBuild inp) s = .next t
      ∧ t.frames.planned = true ∧ t.frames.tick = inp.tick
      ∧ t.frames.frame = BitVec.ofNat 32 (inp.tick.toNat / (125000 * 2 ^ t.frames.j.toNat))
      ∧ t.frames.j = (s.switchPeriod inp.tick).frames.j
      ∧ t.win = { s.win with memberNow := s.win.member, fabricNow := s.win.fabric } := by
  have switched : (s.switchPeriod inp.tick).win = s.win :=
    Kept.same (W := (· ≠ .win)) (by apply Kept.switchPeriod (Kept.refl _ s) <;> decide) .win (by decide)
  rw [execFramePlanBuild_locked live lock, idle, sound]
  refine ⟨_, rfl, ?_⟩
  generalize s.switchPeriod inp.tick = p at *
  obtain ⟨frames, win⟩ := State.openFrame_opens p inp
  have sent := State.letOut_kept (p.openFrame inp) inp
  generalize State.letOut _ = v at *
  have vframes := (sent.same .frames (by decide)).trans frames
  have vwin := (sent.same .win (by decide)).trans win
  have made := State.makePlan_sameFrame v inp
  have kept : (v.makePlan inp).win = v.win :=
    Kept.same (W := (· ≠ .win)) (by apply Kept.makePlan (Kept.refl _ v) <;> decide) .win (by decide)
  have hj : (v.makePlan inp).frames.j = p.frames.j := made.j.trans (by rw [vframes])
  refine ⟨made.planned, made.tick.trans (by rw [vframes]), ?_, hj, ?_⟩
  · rw [hj]
    exact made.frame.trans (by rw [vframes]; rfl)
  · rw [kept, vwin, switched]

/-! ### PLAN_CUTOFF -/

/-- The frame with its plan retired: no piece of it is issued any more. -/
def Frames.retired (f : Frames) : Frames :=
  { f with planned := false, pieces := f.pieces.map (fun p => { p with issued := false }) }

/-- The pieces that the plan served or did not serve are counted, and go back to the queue. -/
theorem State.countPieces_frames (s : State) :
    s.countPieces.frames = { s.frames with pieces := s.frames.pieces.map (fun p => { p with issued := false }) } := by
  unfold State.countPieces
  dsimp only
  generalize hv : State.each _ _ _ = v
  have counted : Kept offFrames s v := by
    rw [← hv]
    exact (Kept.refl _ s).each fun t p ht =>
      Kept.ite (fun _ => ht.countSlice (by decide) _ _ _) (fun _ => ht.count (by decide) _ _)
  rw [← counted.same .frames (by decide)]

/-- The last work of a frame leaves its number and its plan. -/
theorem State.retire_frames (s : State) : s.retire.frames = s.frames.retired := by
  unfold State.retire
  dsimp only
  generalize hv : State.each s s.presentSlices _ = v
  generalize hw : State.each v.countPieces _ _ = w
  have rewritten : Kept offFrames s v := by
    rw [← hv]
    exact (Kept.refl _ s).each fun t i ht => (ht.serve (by decide) (by decide) _ _ _).modSlice (by decide) _ _
  have charged : Kept offFrames v.countPieces w := by
    rw [← hw]
    exact (Kept.refl _ _).each fun t i ht => ht.chargeSlice (by decide) (by decide) _
  generalize hu : State.each w _ _ = u
  have sent : Kept offFrames w u := by
    rw [← hu]
    refine (Kept.refl _ w).each fun t c ht => Kept.ite (fun _ => ?_) (fun _ => ht)
    refine Kept.countGoodput (Kept.raiseSparse ?_ (by decide) (by decide) (by decide) _ _) (by decide) (by decide) _
    apply Kept.sendCommits ht <;> decide
  rw [sent.same .frames (by decide), charged.same .frames (by decide), State.countPieces_frames,
    rewritten.same .frames (by decide)]
  rfl

/-! ### Lines queued for rewrite -/

/-- Every slice has the same lines queued for rewrite. -/
def State.SameRewrites (s t : State) : Prop := ∀ i, (t.slice i).rewrites = (s.slice i).rewrites

/-- Every part but the slices. -/
abbrev offSlices : Part → Prop := (· ≠ .slices)

theorem State.SameRewrites.trans (h : s.SameRewrites t) (g : t.SameRewrites u) : s.SameRewrites u := fun i => (g i).trans (h i)

theorem Kept.sameRewrites (h : Kept offSlices s t) : s.SameRewrites t := fun i => by
  unfold State.slice
  rw [h.same .slices (by decide)]

theorem State.SameRewrites.kept (h : s.SameRewrites t) (k : Kept offSlices t u) : s.SameRewrites u := h.trans k.sameRewrites

theorem State.SameRewrites.ite {c : Prop} [Decidable c] (h : s₀.SameRewrites s) (g : s₀.SameRewrites t) :
    s₀.SameRewrites (if c then s else t) := by
  split
  · exact h
  · exact g

theorem State.SameRewrites.each {α : Type} {l : List α} {f : State → α → State} (h : s₀.SameRewrites s)
    (hf : ∀ (t : State) x, t.SameRewrites (f t x)) : s₀.SameRewrites (s.each l f) := by
  unfold State.each
  induction l generalizing s with
  | nil => exact h
  | cons x l ih => exact ih (h.trans (hf s x))

theorem State.modSlice_sameRewrites (s : State) (i : Nat) {f : Slice → Slice} (hf : ∀ x, (f x).rewrites = x.rewrites) :
    s.SameRewrites (s.modSlice i f) := fun j => by
  by_cases h : i = j
  · subst h
    rw [State.modSlice_slice_self, hf]
  · rw [State.modSlice_slice_ne s f h]

theorem State.noteCorrected_sameRewrites (s : State) (a : Nat) (scrub : Bool) : s.SameRewrites (s.noteCorrected a scrub) := by
  have counted : s.SameRewrites ((s.countUnit (iaUnit a) (iaSlice a) (if scrub then 0 else 1)).risk 4 1) :=
    (((Kept.refl offSlices s).countUnit (by decide) (by decide) _ _ _).risk (by decide) _ _).sameRewrites
  unfold State.noteCorrected
  dsimp only
  generalize State.risk _ 4 1 = v at *
  have noted : ∀ n m, s.SameRewrites (if unitEngine (iaUnit a) then
      { v with health := { v.health with corrNow := mset v.health.corrNow (iaUnit a) n } }
      else v.modSlice (iaSlice a) (fun sl => { sl with corrNow := mset sl.corrNow (iaUnit a) m })) := fun n m =>
    State.SameRewrites.ite (counted.kept ((Kept.refl _ v).set_health (by decide) _))
      (counted.trans (v.modSlice_sameRewrites _ fun _ => rfl))
  exact State.SameRewrites.ite ((noted _ _).kept ((Kept.refl _ _).emit (by decide) (by decide) _ _ _ _)) (noted _ _)

theorem State.checkCtr_sameRewrites (s : State) (k : Nat) : s.SameRewrites (s.checkCtr k) := by
  have refl : s.SameRewrites s := fun _ => rfl
  unfold State.checkCtr
  dsimp only
  split
  · exact refl
  · next r _ =>
    have erased : s.SameRewrites { s with sram := merase s.sram (iaOf 2 0x1F k) } := fun _ => rfl
    refine State.SameRewrites.ite erased ?_
    split
    · exact erased.kept ((((Kept.refl _ _).countUnit (by decide) (by decide) _ _ _).emit (by decide) (by decide) _ _ _ _).poisonCtr
        (by decide) _)
    · next v _ =>
      have written : s.SameRewrites (State.setUnitWord { s with sram := merase s.sram (iaOf 2 0x1F k) } 2 0x1F k v) := fun _ => rfl
      exact State.SameRewrites.ite written (written.trans (State.noteCorrected_sameRewrites _ _ _))

theorem State.ctrOp_sameRewrites (s : State) (k op : Nat) (v : Word) : s.SameRewrites (s.ctrOp k op v) := by
  have woken : ∀ t : State, t.SameRewrites (t.wakeWaiters k) := fun t => by
    apply Kept.sameRewrites
    apply Kept.wakeWaiters (Kept.refl _ t) <;> decide
  unfold State.ctrOp
  by_cases h2 : op = 2
  · rw [if_pos h2, if_pos h2]
    refine State.SameRewrites.trans (Kept.sameRewrites ?_) (woken _)
    exact ((Kept.set_sram (Kept.refl _ s) (by decide) fun h => mwf_merase h _).setPc (by decide) k v).set_poison (by decide) _
  · have checked := State.checkCtr_sameRewrites s k
    rw [if_neg h2, if_neg h2]
    exact State.SameRewrites.ite checked
      ((checked.kept ((Kept.refl _ _).setPc (by decide) _ _)).trans (woken _))

theorem State.counterAt_sameRewrites (s : State) (c owner k op : Nat) (v : Word) (w : Cls) (why : Why) (tag : BitVec 16)
    (flags : Nat) : s.SameRewrites (s.counterAt c owner k op v w why tag flags) := by
  have applied := State.ctrOp_sameRewrites s k op v
  unfold State.counterAt
  dsimp only
  refine State.SameRewrites.ite (State.SameRewrites.ite (applied.kept ?_) applied) ?_
  · apply Kept.noteBarrier (Kept.refl _ _) <;> decide
  · apply Kept.sameRewrites
    apply Kept.issue (Kept.refl _ s) <;> decide

theorem State.sendCommits_sameRewrites (s : State) (c : Nat) : s.SameRewrites (s.sendCommits c) := by
  unfold State.sendCommits
  dsimp only
  split
  · exact fun _ => rfl
  · refine State.SameRewrites.ite (fun _ => rfl) (State.SameRewrites.trans ?_ (State.counterAt_sameRewrites _ _ _ _ _ _ _ _ _ _))
    exact (((Kept.refl _ s).modCtx (by decide) _ _).countCtx (by decide) _ _ _).sameRewrites

/-- An update that empties one slice's list and leaves every other's, done for each slice of a list. -/
theorem State.each_empties_rewrites {l : List Nat} {f : State → Nat → State} (own : ∀ s i, ((f s i).slice i).rewrites = [])
    (other : ∀ s i j, i ≠ j → ((f s i).slice j).rewrites = (s.slice j).rewrites) {j : Nat}
    (h : j ∈ l ∨ (s.slice j).rewrites = []) : ((s.each l f).slice j).rewrites = [] := by
  unfold State.each
  induction l generalizing s with
  | nil => exact h.resolve_left List.not_mem_nil
  | cons i l ih =>
    refine ih ?_
    by_cases hij : i = j
    · exact .inr (hij ▸ own s i)
    · rw [other s i j hij]
      exact h.imp_left fun hm => (List.mem_cons.mp hm).resolve_left (Ne.symm hij)

/-- Lines queued for rewrite have been rewritten by the cutoff, and nothing after it queues more (R37). -/
theorem State.retire_rewrites {i : Nat} (hi : i ∈ s.presentSlices) : (s.retire.slice i).rewrites = [] := by
  unfold State.retire
  dsimp only
  generalize hv : State.each s s.presentSlices _ = v
  have emptied : (v.slice i).rewrites = [] := by
    rw [← hv]
    refine State.each_empties_rewrites (fun t j => by rw [State.modSlice_slice_self]) (fun t j k hjk => ?_) (.inl hi)
    rw [State.modSlice_slice_ne _ _ hjk]
    unfold State.serve
    rw [State.modSlice_slice_ne _ _ hjk]
    unfold State.slice
    rw [State.countSlice_slices]
  have counted : v.SameRewrites v.countPieces := by
    apply Kept.sameRewrites
    apply Kept.countPieces (Kept.refl _ v) <;> decide
  have charged : v.SameRewrites (v.countPieces.each v.countPieces.presentSlices (fun s i => s.chargeSlice i)) :=
    counted.each fun t j => State.SameRewrites.trans ((Kept.refl offSlices t).count (by decide) _ _).sameRewrites
      (State.modSlice_sameRewrites _ _ fun _ => rfl)
  generalize State.each v.countPieces _ _ = w at *
  refine (?_ : v.SameRewrites _) i |>.trans emptied
  refine State.SameRewrites.kept (charged.each fun t c => State.SameRewrites.ite ?_ fun _ => rfl) ((Kept.refl _ _).set_frames (by decide) _)
  refine (State.sendCommits_sameRewrites t c).kept ?_
  exact ((Kept.refl _ _).raiseSparse (by decide) (by decide) (by decide) _ _).countGoodput (by decide) (by decide) _

/-! ### Tick lock -/

theorem State.count_engCtr_self (s : State) (w n : Nat) :
    mgetD (s.count w n).engCtr w 0 = mgetD s.engCtr w 0 + BitVec.ofNat 64 n := by
  unfold State.count
  by_cases h : n = 0
  · rw [if_pos h, h]
    simp
  · rw [if_neg h, mgetD_mset_self]

/-- Losing lock retires the plan in force (R122). -/
theorem execTickLockLoss_locked (up : s.up = true) (lock : s.frames.lock = true) :
    ∃ t, exec .tickLockLoss s = .next t ∧ t.frames.lock = false ∧ t.frames.planned = false :=
  ⟨_, if_neg (by simp [up, lock]), rfl, rfl⟩

/-- Regaining lock numbers the frame by the tick, and in service counts the frames without lock (R53). -/
theorem execTickLockRegained_unlocked (up : s.up = true) (lock : s.frames.lock = false) (tick : Word) :
    ∃ t, exec (.tickLockRegained tick) s = .next t
      ∧ t.frames = { s.frames with lock := true, tick := tick, frame := frameAt tick s.frames.j }
      ∧ (s.live = true → mgetD t.engCtr 4 0 = mgetD s.engCtr 4 0 + BitVec.ofNat 64 (t.frames.frame - s.frames.frame).toNat) := by
  refine ⟨_, if_neg (by simp [up, lock]), ?_, fun live => ?_⟩
  · dsimp only
    split
    · rw [State.count_frames]
    · rfl
  · dsimp only
    rw [if_pos live]
    exact State.count_engCtr_self s 4 _

/-- Settles O55: each command in the mode it needs is one lemma, and elsewhere it changes nothing. -/
theorem plansAreBuiltAndRetired : Obligations.PlansAreBuiltAndRetired := by
  intro s
  refine ⟨fun inp live lock => ⟨fun idle sound => ?_, fun planned => ?_, fun idle bad => ?_⟩, fun inp h => ?_, fun live planned => ?_,
    fun live idle => ?_, execTickLockLoss_locked, fun tick up lock => execTickLockRegained_unlocked up lock tick⟩
  · obtain ⟨t, run, planned, tick, frame, j, win⟩ := execFramePlanBuild_plans live lock idle sound
    exact ⟨t, run, planned, tick, frame, fun h => j.trans (by rw [State.switchPeriod_of_none h]), win⟩
  · rw [execFramePlanBuild_locked live lock, planned]
    exact ⟨_, rfl, (State.faultFreeze_live live (code := 1) (by decide)).1, (State.faultFreeze_kept s 1).same .frames (by decide)⟩
  · rw [execFramePlanBuild_locked live lock, idle, bad]
    exact ⟨_, rfl, (State.faultFreeze_live live (code := 3) (by decide)).1, (State.faultFreeze_kept s 3).same .frames (by decide)⟩
  · exact if_pos (by rcases h with h | h <;> simp [h])
  · have frames := State.retire_frames s
    refine ⟨s.retire, if_neg (by simp [live, planned]), by rw [frames]; rfl, ?_, ?_, fun i hi => State.retire_rewrites hi⟩
    · rw [frames]
      intro p hp
      obtain ⟨q, _, rfl⟩ := List.mem_map.mp hp
      rfl
    · rw [frames]
      exact List.length_map _
  · exact if_pos (by simp [idle])

end Sys2Proof.Machine
namespace Sys2Proof.Machine

variable {s : State}

/-! ### The front of the queue -/

/-- Out of service the block takes up nothing. -/
theorem State.idle_of_not_live (h : s.live = false) : s.idle = s := if_pos (by simp [h])

/-- Settles O1: the two equations of a step, and what idling does outside service. -/
theorem stepRunsTheFrontCommand : Obligations.StepRunsTheFrontCommand :=
  ⟨fun _ _ _ => step_cons rfl, fun _ h => ⟨step_nil h, State.idle_of_not_live⟩⟩

/-! ### Start-up -/

theorem State.up_of (cold : s.boot.coldN = true) (supply : s.boot.supply = true) : s.up = true := by
  unfold State.up
  rw [cold, supply]
  rfl

/-- A count writes the engine's bank alone, whatever the boot state is. -/
theorem State.count_withBoot (b : Boot) (w n : Nat) :
    State.count { s with boot := b } w n = { s with boot := b, engCtr := (s.count w n).engCtr } := by
  unfold State.count
  split <;> rfl

/-- The boot state once the 16 pages are kept, the unprogrammed fuses 0 (R54), and the calibration is merged. -/
def State.sensedBoot (s : State) (pages : List (BitVec 1024)) : Boot :=
  let fuses := pages.take 16 ++ List.replicate (16 - pages.length) 0
  { s.boot with
    fuses := fuses, defaulted := State.calDefaulted { s with boot := { s.boot with fuses := fuses } }, phase := .bootWait }

theorem execFuseSenseDone_fuse (pages : List (BitVec 1024)) (cold : s.boot.coldN = true) (supply : s.boot.supply = true)
    (blank : s.boot.fuses = []) (fuse : s.boot.phase = .fuse) :
    exec (.fuseSenseDone pages) s = .next { s with
      boot := s.sensedBoot pages, engCtr := (s.count 103 (s.sensedBoot pages).defaulted).engCtr } := by
  have unsensed : ¬ (s.up = false ∨ s.sensed = true) := by
    simp [State.up_of cold supply, State.sensed, blank]
  refine (if_neg unsensed : execFuseSenseDone pages s = _).trans (congrArg Host.Outcome.next ?_)
  dsimp only
  rw [State.count_withBoot]
  exact if_pos fuse

/-- A write access out of cold reset (R51, R474). -/
theorem State.writeReg_up (up : s.up = true) (a : BitVec 16) (v : Word) :
    s.writeReg a v =
      let ok : State := { s with win := { s.win with err := (s.readRaw (regOffset a)).isNone } }
      if s.boot.phase = .teardown then ok else ok.writeRaw (regOffset a) v :=
  if_neg (by simp [up])

theorem execImageAuthenticated_image (load : s.boot.phase = .load) (p : Bool) (debug : s.boot.debugLoad = true → s.patchOn = true)
    (patch : s.patchOn = true → s.patchOk = true ∧ p = false) :
    exec (.imageAuthenticated p) s = .next (if s.boot.debugLoad then s.authenticated 0 (sha256Val s.image)
      else (s.authSlot? (sha256Val s.image)).elim (s.failBoot 1 0) (s.authenticated · (sha256Val s.image))) := by
  have patched : ¬ (s.boot.debugLoad = true ∧ s.patchOn = false) := fun ⟨h, g⟩ => by rw [debug h] at g; cases g
  have good : ¬ (s.patchOn = true ∧ (s.patchOk = false ∨ p = true)) := by
    rintro ⟨h, g⟩
    obtain ⟨ok, clean⟩ := patch h
    simp [ok, clean] at g
  refine (if_neg (not_not_intro load) : execImageAuthenticated p s = _).trans
    ((if_neg patched).trans ((if_neg good).trans ?_))
  dsimp only
  split
  · rfl
  · cases s.authSlot? (sha256Val s.image) <;> rfl

/-- Settles O7: each command in its phase is one lemma or the branch of its meaning that the phase selects. -/
theorem startUpToSelfTest : Obligations.StartUpToSelfTest := by
  intro s
  refine ⟨fun pages cold supply blank fuse => ?_, fun v cold supply wait go => ?_, fun p load real patch => ?_,
    fun p load debug on ok clean => ?_, fun p load on bad => ?_, fun p load debug off => ?_,
    fun i d => ⟨rfl, rfl, rfl, rfl, rfl, rfl⟩, fun i j => rfl, fun self => ?_, fun u us self => ?_⟩
  · exact ⟨_, execFuseSenseDone_fuse pages cold supply blank fuse, rfl, rfl, rfl, rfl⟩
  · have write : execBootGo v s = .next (State.writeRaw { s with win := { s.win with err := false } } 0x30 v) := by
      refine congrArg Host.Outcome.next ((State.writeReg_up (State.up_of cold supply) _ _).trans (if_neg ?_))
      rw [wait]
      decide
    refine write.trans (congrArg Host.Outcome.next ((if_pos wait).trans (if_pos go)))
  · refine (execImageAuthenticated_image load p (fun h => by rw [real] at h; cases h) patch).trans ?_
    rw [if_neg (by simp [real])]
    cases s.authSlot? (sha256Val s.image) <;> rfl
  · exact (execImageAuthenticated_image load p (fun _ => on) (fun _ => ⟨ok, clean⟩)).trans (congrArg _ (if_pos debug))
  · have on' : ¬ (s.boot.debugLoad = true ∧ s.patchOn = false) := fun h => by rw [on] at h; cases h.2
    exact (if_neg (not_not_intro load)).trans ((if_neg on').trans (if_pos ⟨on, bad⟩))
  · exact (if_neg (not_not_intro load)).trans (if_pos ⟨debug, off⟩)
  · exact if_neg (not_not_intro self)
  · exact if_neg (not_not_intro self)

end Sys2Proof.Machine
namespace Sys2Proof.Machine

variable {s : State}

/-! ### Warm reset -/

theorem execWarmReset_up (up : s.up = true) : exec .warmReset s = .next (s.beginWarm false false) := if_pos up

theorem State.presentSlices_nodup (s : State) : s.presentSlices.Nodup := List.nodup_range.filter _

/-- Every request that a slice holds back is released: the strobe names tile 0x1F_FFFF (R464). -/
def Slice.releaseAll (sl : Slice) : Slice := { sl with released := sl.released ++ [0x1FFFFF] }

/-- The state that TEARDOWN_DONE leaves: warm, with tile 0x1F_FFFF released on every slice of the die (R463, R464). -/
theorem execTeardownDone_teardown (h : s.boot.phase = .teardown) :
    ∃ l, exec .teardownDone s = .next { s.warmed .bootWait with slices := l }
      ∧ ∀ i ∈ s.presentSlices, mgetD l i {} = { released := [0x1FFFFF] } := by
  refine ⟨((s.warmed .bootWait).each s.presentSlices (fun s i => s.modSlice i Slice.releaseAll)).slices, ?_, fun i hi => ?_⟩
  · refine (if_neg (not_not_intro h) : execTeardownDone s = _).trans (congrArg Host.Outcome.next ?_)
    exact State.each_modSlice (s.warmed .bootWait) s.presentSlices Slice.releaseAll
  · exact (State.slice_each (s.warmed .bootWait) _ s.presentSlices_nodup i Slice.releaseAll).trans (if_pos hi)

/-- Settles O9: what a warm reset and its teardown keep is what `State.warmed` copies. -/
theorem warmResetTearsDown : Obligations.WarmResetTearsDown := by
  intro s
  refine ⟨fun cold supply calm => ?_, fun cold supply torn => ?_, fun torn => ?_⟩
  · exact (execWarmReset_up (State.up_of cold supply)).trans (congrArg Host.Outcome.next (if_neg calm))
  · refine (execWarmReset_up (State.up_of cold supply)).trans (congrArg Host.Outcome.next ((if_pos torn).trans ?_))
    rw [Bool.or_false]
  · obtain ⟨l, run, released⟩ := execTeardownDone_teardown torn
    refine ⟨_, run, rfl, rfl, rfl, rfl, rfl, rfl, rfl, rfl, rfl, rfl, rfl, rfl, rfl, rfl, rfl, rfl, rfl, fun i hi => ?_⟩
    have slice : State.slice { s.warmed .bootWait with slices := l } i = { released := [0x1FFFFF] } := released i hi
    rw [slice]
    exact ⟨rfl, rfl, rfl, rfl, rfl, rfl, rfl⟩

end Sys2Proof.Machine
namespace Sys2Proof.Machine

variable {s t : State}

/-! ### Writes of the configuration window -/

/-- A write to an offset at which no register exists has no effect; which offsets those are does not hang on the state. -/
theorem State.writeRaw_absent {o : Nat} (h : s.readRaw o = none) (v : Word) : t.writeRaw o v = t := by
  have untrimmed : trimAt o = none := by
    unfold State.readRaw at h
    dsimp only at h
    split at h
    all_goals try cases h
    split_ifs at h
    all_goals exact Option.map_eq_none_iff.mp h
  unfold State.writeRaw
  split
  case h_19 => rw [untrimmed]
  all_goals cases h

/-- A write of the window out of cold reset (R474). -/
theorem execRegisterWrite_up (up : s.up = true) (a : BitVec 16) (v : Word) :
    exec (.registerWrite a v) s = .next (
      let ok : State := { s with win := { s.win with err := (s.readRaw (regOffset a)).isNone } }
      if s.boot.phase = .teardown then ok else ok.writeRaw (regOffset a) v) :=
  congrArg Host.Outcome.next (State.writeReg_up up a v)

/-- Settles O14: an absent offset and a read-only one take no write, and every other is its arm of `State.writeRaw`. -/
theorem registerWritesOfTheWindow : Obligations.RegisterWritesOfTheWindow := by
  intro s a v cold supply ok
  have run := fun a => execRegisterWrite_up (State.up_of cold supply) a v
  refine ⟨fun absent => ?_, fun torn => ?_, fun readOnly => ?_, fun calm => ⟨?_, fun ring => ?_, ?_, fun clear => ?_⟩⟩
  · rw [run, absent]
    exact congrArg Host.Outcome.next (ite_eq_left_iff.mpr fun _ => State.writeRaw_absent absent v)
  · exact (run a).trans (congrArg _ (if_pos torn))
  · rw [run]
    rcases readOnly with rfl | rfl | rfl | rfl
    all_goals exact congrArg Host.Outcome.next (ite_self _)
  · exact (run _).trans (congrArg _ (if_neg calm))
  · refine (run _).trans (congrArg _ ((if_neg calm).trans ?_))
    refine congrArg (fun i => { ok false with link := { s.link with cmdTail := i } }) ?_
    exact if_pos ring
  · refine (run _).trans (congrArg _ ((if_neg calm).trans ?_))
    refine ite_congr (eq_iff_iff.mpr decide_eq_true_iff) (fun _ => rfl) (fun _ => rfl)
  · refine (run _).trans (congrArg _ ((if_neg calm).trans ?_))
    refine congrArg (fun b => { ok false with link := { s.link with evDrop := b } }) ?_
    rw [clear]
    exact Bool.and_false _

end Sys2Proof.Machine
namespace Sys2Proof.Machine

variable {s : State}

/-! ### MALFORMED_COMMAND -/

/-- A reply in service, without progress. -/
theorem State.reply_live (live : s.live = true) (op : Byte) (x : BitVec 4) (g : BitVec 16) (n d : Nat) :
    s.reply op x.toNat g n d = { s with link := { s.link with outq := s.link.outq ++ [.reply
      (Reply.mk g (BitVec.ofNat 16 n) (BitVec.ofNat 32 d) s.frames.frame 0 op x)] } } := by
  unfold State.reply
  rw [if_neg (by simp [live])]
  simp only [BitVec.ofNat_toNat, BitVec.setWidth_eq]
  rfl

/-- The command is whole: its flits end where its length says, and it fits the ring (R49, R82). -/
def State.wholeCmd (s : State) (len n : Nat) : Bool := decide (len < 512) && s.fitsRing len && decide (n = flitsOf len)

theorem State.wholeCmd_iff (len n : Nat) : s.wholeCmd len n = true ↔ len < 512 ∧ s.fitsRing len = true ∧ n = flitsOf len := by
  unfold State.wholeCmd
  simp only [Bool.and_eq_true, decide_eq_true_eq, and_assoc]

/-- The state once CMDQ_HEAD has moved past the flits of a malformed command. -/
def State.discarded (s : State) (len n : Nat) : State := s.wake.advanceHead (if s.fitsRing len then n else 1)

section
variable (op : Byte) (tag : BitVec 16) (ctx : BitVec 4) (len : BitVec 16) (n : Nat)

theorem execMalformedCommand_accepts (accepts : s.accepts = true) (bad : s.wholeCmd len.toNat n = true → opKnown op = false) :
    exec (.malformedCommand op tag ctx len n) s = .next (
      if (s.adm? ctx.toNat tag).isSome then (s.discarded len.toNat n).count 24
      else if s.wholeCmd len.toNat n then (s.discarded len.toNat n).reply op ctx.toNat tag 0x0300 op.toNat
      else (s.discarded len.toNat n).reply op ctx.toNat tag 0x0301 len.toNat) := by
  have live := State.live_of_accepts accepts
  have known : ¬ (!s.accepts || (s.wholeCmd len.toNat n && opKnown op)) = true := by
    rw [accepts]
    cases h : s.wholeCmd len.toNat n
    · simp
    · simp [bad h]
  have admitted : (s.discarded len.toNat n).adm? ctx.toNat tag = s.adm? ctx.toNat tag := by
    unfold State.adm? State.discarded State.advanceHead
    rw [State.wake_link]
  rw [← admitted]
  exact (if_neg (by simp [live]) : execMalformedCommand op tag ctx len n s = _).trans (if_neg known)

/-- The one reply of a malformed command. -/
theorem State.discarded_reply (live : s.live = true) (st d : Nat) :
    (s.discarded len.toNat n).reply op ctx.toNat tag st d = { s.discarded len.toNat n with
      link := { (s.discarded len.toNat n).link with outq := s.link.outq ++ [.reply
        (Reply.mk tag (BitVec.ofNat 16 st) (BitVec.ofNat 32 d) s.frames.frame 0 op ctx)] } } := by
  have alive : (s.discarded len.toNat n).live = true := by
    rw [← live]
    exact State.live_congr (by unfold State.discarded; simp)
  have queue : (s.discarded len.toNat n).link.outq = s.link.outq := by unfold State.discarded State.advanceHead; simp
  have frame : (s.discarded len.toNat n).frames.frame = s.frames.frame := by unfold State.discarded; simp
  rw [State.reply_live alive, queue, frame]

end

/-- Settles O17: while the engine takes commands the command is one of three kinds, and else its flits are counted. -/
theorem malformedCommandIsAnsweredOnce : Obligations.MalformedCommandIsAnsweredOnce := by
  intro s op tag ctx len n whole moved rep
  refine ⟨fun accepts free broken => ?_, fun accepts free h unknown => ?_, fun accepts used bad => ?_,
    fun cold supply out quiet => ?_⟩
  · have broken' : s.wholeCmd len.toNat n ≠ true := fun h => broken ((State.wholeCmd_iff _ _).mp h)
    rw [execMalformedCommand_accepts op tag ctx len n accepts (fun h => absurd h broken'), if_neg (by simp [free]),
      if_neg broken', State.discarded_reply op tag ctx len n (State.live_of_accepts accepts)]
    rfl
  · rw [execMalformedCommand_accepts op tag ctx len n accepts (fun _ => unknown), if_neg (by simp [free]),
      if_pos ((State.wholeCmd_iff _ _).mpr h), State.discarded_reply op tag ctx len n (State.live_of_accepts accepts)]
    rfl
  · rw [execMalformedCommand_accepts op tag ctx len n accepts (fun h => bad ((State.wholeCmd_iff _ _).mp h)), if_pos used]
    rfl
  · refine (if_pos (by simp [out]) : execMalformedCommand op tag ctx len n s = _).trans (congrArg _ (if_pos ?_))
    simp [State.up_of cold supply, quiet]

end Sys2Proof.Machine
namespace Sys2Proof.Machine

variable {s : State}

/-! ### The peels -/

@[simp] theorem State.modPeel_peel_self (p : Nat) (f : Peel → Peel) : (s.modPeel p f).peel p = f (s.peel p) :=
  mgetD_mset_self s.fab.peels p _ _

/-- What leaves on a peel is queued at the endpoint, in order, and touches nothing else of the fabric but the bytes sent. -/
theorem State.leave_fab (peel : Nat) (rack : Bool) (w : Cls) (x : Xfer) :
    (s.leave peel rack w x).fab = { s.fab with
      tx := s.fab.tx ++ [(peel, rack, x)], sentNow := s.fab.sentNow + x.payload.length } := by
  unfold State.leave State.countPeel
  simp

theorem State.each_leave (peel : Nat) (l : List (Bool × Cls × Xfer)) (s : State) :
    (s.each l (fun s o => s.leave peel o.1 o.2.1 o.2.2)).fab.peels = s.fab.peels
      ∧ (s.each l (fun s o => s.leave peel o.1 o.2.1 o.2.2)).fab.tx = s.fab.tx ++ l.map (fun o => (peel, o.1, o.2.2)) := by
  unfold State.each
  induction l generalizing s with
  | nil => exact ⟨rfl, (List.append_nil _).symm⟩
  | cons o l ih =>
    obtain ⟨peels, tx⟩ := ih (s.leave peel o.1 o.2.1 o.2.2)
    rw [List.foldl_cons, peels, tx, State.leave_fab, List.map_cons, List.append_assoc]
    exact ⟨rfl, rfl⟩

section
variable (up : s.up = true) {peel : Nat} (port : peel < 2)
include up port

theorem execPeelLinkUpChange_falls :
    exec (.peelLinkUpChange peel false) s = .next (s.modPeel peel (fun p => { p with linkUp := false })) :=
  if_neg (by simp [up, port])

theorem execPeelLinkUpChange_rises :
    exec (.peelLinkUpChange peel true) s = .next ((s.modPeel peel (fun p => { p with linkUp := true, offered := [] })).each
      (s.peel peel).offered (fun s o => s.leave peel o.1 o.2.1 o.2.2)) :=
  if_neg (by simp [up, port])

end

/-- A counter that a count does not name stands. -/
theorem State.count_engCtr_ne {w i : Nat} (n : Nat) (h : w ≠ i) : mgetD (s.count w n).engCtr i 0 = mgetD s.engCtr i 0 := by
  unfold State.count
  split
  · rfl
  · exact mgetD_mset_ne _ _ _ h

/-- A count writes the engine's bank alone. -/
theorem State.count_eq (s : State) (w n : Nat) : s.count w n = { s with engCtr := (s.count w n).engCtr } :=
  State.count_withBoot s.boot w n

/-- A transfer counted as received and dropped at one of the first three checks, with a link retry (R360, R446). -/
theorem execMalformedTransfer_early (up : s.up = true) {peel check : Nat} (port : peel < s.peelsPresent) (low : 1 ≤ check)
    (high : check ≤ 3) :
    exec (.malformedTransfer peel check) s = .next (((s.countPeel peel 2).countPeel peel (5 + check)).risk 2 1) := by
  have early : ¬ (s.up = false ∨ peel ≥ s.peelsPresent ∨ check = 0 ∨ 3 < check) := by
    rw [up]
    simp only [Bool.true_eq_false, false_or]
    omega
  exact (if_neg early : execMalformedTransfer peel check s = _).trans (congrArg _ (if_pos high))

theorem execClockStopWake_stopped (live : s.live = true) (stopped : s.stopped = true) {peel : Nat} {x : Xfer}
    (port : peel < s.peelsPresent) (passes : (s.admitXfer peel x).2 = true) (thawed : s.frozen = false) :
    exec (.clockStopWake peel (some x)) s = .next (
      if !x.resp ∧ x.typ = 4 then (s.admitXfer peel x).1.respond peel x 0 else (s.admitXfer peel x).1.holdWake peel x) := by
  refine (if_neg (by simp [live, stopped]) : execClockStopWake peel (some x) s = _).trans ?_
  dsimp only
  rw [if_neg (Nat.not_le.mpr port), if_neg (by simp [passes]), if_neg (by simp [thawed])]
  split <;> rfl

/-- A clock that is stopped asks for 0.55 GHz, once (R439). -/
theorem State.wake_power (s : State) :
    s.wake.power = if s.power.opReq = 3 then { s.power with opReq := 2, opOld := 3, opAck := false } else s.power := by
  unfold State.wake
  split <;> rfl

theorem State.wake_opReq_ne : s.wake.power.opReq ≠ 3 := by
  rw [State.wake_power]
  split
  · simp
  · next h => exact h

/-- A wake buffer with room takes the transfer. -/
theorem State.holdWake_room {peel : Nat} (x : Xfer) (room : (s.peel peel).wake.length < 64) :
    (s.holdWake peel x).peel peel = { s.peel peel with wake := (s.peel peel).wake ++ [x] }
      ∧ (s.holdWake peel x).power.opReq ≠ 3 := by
  have same : s.wake.peel peel = s.peel peel := by unfold State.peel; rw [State.wake_fab]
  have held : s.holdWake peel x = s.wake.modPeel peel (fun p => { p with wake := p.wake ++ [x] }) :=
    if_pos (by rw [same]; exact room)
  rw [held, State.modPeel_peel_self, same]
  exact ⟨rfl, State.wake_opReq_ne⟩

theorem State.admitXfer_passes_peel {peel : Nat} {x : Xfer} (h : (s.admitXfer peel x).2 = true) (p : Nat) :
    (s.admitXfer peel x).1.peel p = s.peel p := by
  unfold State.peel
  rw [State.admitXfer_passes h]
  simp only [State.countPeel, State.count_fab]

/-- Settles O50: a link that rises lets its offers leave; a transfer that is dropped is two counts and a link retry; a stopped
clock wakes for a flit, holds a transfer and answers a PROBE. -/
theorem peelEventsTakeEffect : Obligations.PeelEventsTakeEffect := by
  intro s peel
  refine ⟨fun up port => ⟨?_, ?_⟩, fun check up port low high => ?_, fun x live runs => ?_, fun live asked => ?_,
    fun x live stopped port passes thawed => ⟨fun kind room => ?_, fun request probe => ?_⟩⟩
  · exact ⟨_, execPeelLinkUpChange_falls up port, rfl, State.modPeel_peel_self _ _⟩
  · obtain ⟨peels, tx⟩ := State.each_leave peel (s.peel peel).offered
      (s.modPeel peel (fun p => { p with linkUp := true, offered := [] }))
    refine ⟨_, execPeelLinkUpChange_rises up port, ?_, tx⟩
    rw [State.peel, peels]
    exact State.modPeel_peel_self _ _
  · refine ⟨_, execMalformedTransfer_early up port low high, ?_⟩
    have drop : 32 + 24 * peel + (5 + check) ≠ 32 + 24 * peel + 2 := by omega
    have place : 32 + 24 * peel + 5 + check = 32 + 24 * peel + (5 + check) := by omega
    unfold State.countPeel State.risk
    refine ⟨?_, ?_, ?_⟩
    · rw [State.count_eq, State.count_eq s]
    · dsimp only
      rw [place, State.count_engCtr_self, State.count_engCtr_ne 1 drop.symm]
      rfl
    · dsimp only
      rw [State.count_engCtr_ne 1 drop, State.count_engCtr_self]
      rfl
  · exact if_pos (by simp [runs])
  · have stopped : s.stopped = true := by simp [State.stopped, asked]
    refine ⟨s.wake, if_neg (by simp [live, stopped]), ?_, State.wake_fab _⟩
    rw [State.wake_power, if_pos asked]
  · have held := State.holdWake_room (s := (s.admitXfer peel x).1) (peel := peel) x
    rw [State.admitXfer_passes_peel passes] at held
    refine ⟨_, (execClockStopWake_stopped live stopped port passes thawed).trans (congrArg _ (if_neg ?_)), held room⟩
    rintro ⟨h, g⟩
    rcases kind with kind | kind
    · simp [kind] at h
    · exact kind g
  · exact (execClockStopWake_stopped live stopped port passes thawed).trans (congrArg _ (if_pos ⟨by simp [request], probe⟩))

end Sys2Proof.Machine
namespace Sys2Proof.Machine

variable {s t u v : State}

/-! ### What follows an answer leaves the answer, and what a held tile shows -/

/-- Tile `k` still shows in `b` what it showed in `a`, and the answer driven last and the fault-once list stand; where the tile
moves between tiers its hold may end. -/
structure Slice.Stands (k : Nat) (a b : Slice) : Prop where
  ans : b.ans = a.ans
  redir : b.redir = a.redir
  faultOnce : b.faultOnce = a.faultOnce
  still : a.heldFor k .moving = false → b.heldFor k .moving = false
  held : a.heldFor k .moving = false → b.state k = a.state k ∧ b.overflow = a.overflow ∧ (k ∈ a.parked → k ∈ b.parked)

theorem Slice.Stands.refl (k : Nat) (a : Slice) : a.Stands k a := ⟨rfl, rfl, rfl, id, fun _ => ⟨rfl, rfl, id⟩⟩

theorem Slice.Stands.trans {k : Nat} {a b c : Slice} (h : a.Stands k b) (g : b.Stands k c) : a.Stands k c := by
  refine ⟨g.ans.trans h.ans, g.redir.trans h.redir, g.faultOnce.trans h.faultOnce, g.still ∘ h.still, fun still => ?_⟩
  obtain ⟨state, overflow, parked⟩ := h.held still
  obtain ⟨state', overflow', parked'⟩ := g.held (h.still still)
  exact ⟨state'.trans state, overflow'.trans overflow, parked' ∘ parked⟩

/-- A tile that clears leaves the parked set; the overflow flag and every other tile stay. -/
theorem Slice.settle_stands (a : Slice) {k j : Nat} (h : j ≠ k) : a.Stands k (a.settle j) := by
  unfold Slice.settle Slice.release
  split_ifs
  · exact Slice.Stands.refl k a
  · exact ⟨rfl, rfl, rfl, id, fun _ => ⟨rfl, rfl, (List.mem_erase_of_ne h.symm).mpr⟩⟩
  · exact Slice.Stands.refl k a

theorem Slice.settle_shows (a : Slice) (j : Nat) :
    (a.settle j).ans = a.ans ∧ (a.settle j).redir = a.redir ∧ (a.settle j).faultOnce = a.faultOnce := by
  unfold Slice.settle Slice.release
  split_ifs <;> exact ⟨rfl, rfl, rfl⟩

theorem Slice.state_setState_ne (a : Slice) {k j : Nat} (st : TileState) (h : j ≠ k) :
    (a.setState j st).state k = a.state k := by
  unfold Slice.setState Slice.state mgetD
  dsimp only
  split
  · rw [mget_merase_ne _ h]
  · rw [mget_mset_ne _ _ h]

theorem Slice.state_setState_self (a : Slice) {k : Nat} {st : TileState} (h : st ≠ .normal) :
    (a.setState k st).state k = st := by
  unfold Slice.setState Slice.state
  rw [if_neg h]
  exact mgetD_mset_self _ _ _ _

theorem Slice.hold_state (a : Slice) (k : Nat) (why : HoldWhy) : (a.hold k why).state k = .held :=
  a.state_setState_self (k := k) (st := .held) (by decide)

/-- The end of a move touches the tile that moved alone. -/
theorem Slice.unhold_stands (a : Slice) {k j : Nat} (ret : TileState) (moves : a.heldFor j .moving = true) :
    a.Stands k (a.unhold j .moving ret) := by
  unfold Slice.unhold
  dsimp only
  by_cases h : j = k
  · subst h
    have vacuous {p : Prop} (still : a.heldFor j .moving = false) : p := by rw [moves] at still; cases still
    split
    · obtain ⟨ans, redir, faultOnce⟩ := Slice.settle_shows (Slice.setState { a with holds := merase a.holds j } j ret) j
      exact ⟨ans, redir, faultOnce, vacuous, vacuous⟩
    · exact ⟨rfl, rfl, rfl, vacuous, vacuous⟩
  · split
    · refine Slice.Stands.trans (b := Slice.setState { a with holds := merase a.holds j } j ret) ?_ (Slice.settle_stands _ h)
      refine ⟨rfl, rfl, rfl, fun still => Eq.trans ?_ still, fun _ => ⟨Slice.state_setState_ne _ _ h, rfl, id⟩⟩
      unfold Slice.heldFor Slice.setState mgetD
      dsimp only
      rw [mget_merase_ne _ h]
    · refine ⟨rfl, rfl, rfl, fun still => Eq.trans ?_ still, fun _ => ⟨rfl, rfl, id⟩⟩
      unfold Slice.heldFor
      dsimp only
      rw [mgetD_mset_ne _ _ _ h]

/-- The same of slice `i` in two states. -/
def State.Stands (i k : Nat) (s t : State) : Prop := (s.slice i).Stands k (t.slice i)

section
variable {i k : Nat}

theorem State.Stands.refl (s : State) : State.Stands i k s s := Slice.Stands.refl k _

theorem State.Stands.trans (h : State.Stands i k s t) (g : State.Stands i k t u) : State.Stands i k s u := Slice.Stands.trans h g

theorem Kept.stands (h : Kept offSlices s t) : State.Stands i k s t := by
  unfold State.Stands State.slice
  rw [h.same .slices (by decide)]
  exact Slice.Stands.refl k _

theorem State.modSlice_stands (s : State) (j : Nat) {f : Slice → Slice} (hf : (s.slice j).Stands k (f (s.slice j))) :
    State.Stands i k s (s.modSlice j f) := by
  unfold State.Stands
  by_cases h : j = i
  · subst h
    rwa [State.modSlice_slice_self]
  · rw [State.modSlice_slice_ne _ _ h]
    exact Slice.Stands.refl k _

theorem State.unholdTile_stands (s : State) (c l : Nat) : State.Stands i k s (s.unholdTile c l .moving) := by
  unfold State.unholdTile State.unhold
  split
  · next h => exact State.modSlice_stands s _ (Slice.unhold_stands _ _ h)
  · exact State.Stands.refl s

theorem State.abandonDemotion_stands (s : State) (c l : Nat) : State.Stands i k s (s.abandonDemotion c l) := by
  unfold State.abandonDemotion
  split
  · exact State.Stands.refl s
  · split_ifs
    · exact State.Stands.refl s
    · exact ((Kept.refl offSlices s).setJob (by decide) _ _ _).stands
    · have freed := (((Kept.refl offSlices s).setJob (by decide) c l none).modTile (by decide) c l
        (fun r => { r with busy := false })).countCtx (by decide) c 98 1
      exact freed.stands.trans (State.unholdTile_stands _ _ _)

theorem State.askPromotion_stands (s : State) (c l cause : Nat) (tag : Option (BitVec 16)) (deadline : BitVec 32) :
    State.Stands i k s (s.askPromotion c l cause tag deadline) := by
  unfold State.askPromotion
  refine (State.abandonDemotion_stands s c l).trans ?_
  dsimp only
  generalize s.abandonDemotion c l = u
  have asked (j : Option KneadJob) : State.Stands i k u (u.setJob c l j) :=
    ((Kept.refl offSlices u).setJob (by decide) _ _ _).stands
  split
  · exact State.Stands.refl u
  · split
    · split
      · exact asked _
      · exact State.Stands.refl u
    · exact asked _

theorem State.holdDemand_stands (s : State) (j l : Nat) (write : Bool) : State.Stands i k s (s.holdDemand j l write) := by
  unfold State.holdDemand
  split
  · exact State.Stands.refl s
  · split_ifs
    · exact State.askPromotion_stands _ _ _ _ _ _
    · exact State.abandonDemotion_stands _ _ _
    · exact State.Stands.refl s

end

/-! ### The answer -/

/-- A request at the gate of slice `i` none of whose words was written with chosen check bits finds its tables as they are. -/
def State.unwritten (s : State) (i : Nat) : Prop := (mkeys s.sram).all (fun a => iaSlice a != i) = true

section
variable {i : Nat} (h : s.unwritten i)
include h

theorem State.unwritten.slice_ne {a : Nat} (ha : a ∈ mkeys s.sram) : (iaSlice a == i) = false := by
  simpa using List.all_eq_true.mp h a ha

theorem State.readTables_unwritten : s.readTables i = s := by
  have none_read : (mkeys s.sram).filter (fun a => iaSlice a == i && decide (6 ≤ iaUnit a) && decide (iaUnit a ≤ 10)
      && (decide (9 ≤ iaUnit a) || !s.wordBad (iaUnit a) i (iaWord a))) = [] :=
    List.filter_eq_nil_iff.mpr fun a ha => by simp [h.slice_ne ha]
  unfold State.readTables
  rw [none_read]
  rfl

theorem State.tableStall_unwritten (k : Nat) : s.tableStall i k = false :=
  List.any_eq_false.mpr fun a ha => by simp [h.slice_ne ha]

theorem State.rewriteTables_unwritten : s.rewriteTables i = s := by
  have none_bad : (mkeys s.sram).filter (fun a => iaSlice a == i && decide (6 ≤ iaUnit a) && decide (iaUnit a ≤ 8)) = [] :=
    List.filter_eq_nil_iff.mpr fun a ha => by simp [h.slice_ne ha]
  unfold State.rewriteTables
  rw [none_bad]
  exact ite_self _

end

theorem State.unwritten.congr {i : Nat} (h : s.unwritten i) (hs : t.sram = s.sram) : t.unwritten i := by
  unfold State.unwritten
  rwa [hs]

/-- The tile that a stack tile is the home of has been used in this frame (R384). -/
def State.touchOwner (s : State) (i k : Nat) : State :=
  match s.owner i k with
  | some (c, l) => s.touch c l
  | none => s

theorem State.touchOwner_kept (s : State) (i k : Nat) : Kept (· = .ctxs) s (s.touchOwner i k) := by
  unfold State.touchOwner State.touch
  split
  · exact (Kept.refl (· = .ctxs) s).modTile rfl _ _ _
  · exact Kept.refl _ s

/-- What a request does once its row of Table 3.4 is found. -/
def State.gateRow (s : State) (i line src : Nat) (write : Bool) (wdata : LineData) (row : Nat) : State :=
  (((s.touchOwner i (lineTile line)).answer i line src write row).follow i line write wdata row).noteStall i (lineTile line) src row

theorem State.gateRow_sram (s : State) (i line src : Nat) (write : Bool) (wdata : LineData) (row : Nat) :
    (s.gateRow i line src write wdata row).sram = s.sram := by
  have kept : Kept (· ≠ .sram) s (s.gateRow i line src write wdata row) := by
    unfold State.gateRow
    have touched : Kept (· ≠ .sram) s (s.touchOwner i (lineTile line)) :=
      (s.touchOwner_kept _ _).mono fun p hp => by subst hp; decide
    apply Kept.noteStall (Kept.follow (Kept.answer touched _ _ _ _ _ _ _) _ _ _ _ _ _ _ _ _ _) <;> decide
  exact kept.same .sram (by simp)

theorem execGateRequest_unwritten {i : Nat} (up : s.up = true) (present : s.present i = true) (clean : s.unwritten i)
    (line : BitVec 31) (write : Bool) (src : BitVec 4) (wdata : LineData) :
    exec (.gateRequest i line write src wdata) s = .next
      (s.gateRow i line.toNat src.toNat write wdata ((s.slice i).row line.toNat src.toNat write false)) := by
  have after := State.rewriteTables_unwritten (clean.congr (s.gateRow_sram i line.toNat src.toNat write wdata
    ((s.slice i).row line.toNat src.toNat write false)))
  refine (if_neg (by simp [up, present]) : execGateRequest i line write src wdata s = _).trans ?_
  dsimp only
  rw [State.readTables_unwritten clean, State.tableStall_unwritten clean]
  exact congrArg _ after


section
variable (s : State) (i line src : Nat) (write : Bool) (wdata : LineData) (row : Nat)

/-- The answer is driven at the slice's pins, and counted there (R35, R40). -/
theorem State.answer_slice :
    ∃ sl, (s.answer i line src write row).slice i = sl ∧ sl.ans = (answerOf row write).code
      ∧ sl.redir = (if answerOf row write = .redirect then redirOf (((s.slice i).remapOf line).getD 0) else 0)
      ∧ sl.faultOnce = (s.slice i).faultOnce ∧ sl.parked = (s.slice i).parked ∧ sl.overflow = (s.slice i).overflow
      ∧ sl.holds = (s.slice i).holds ∧ sl.bitmap = (s.slice i).bitmap := by
  unfold State.answer
  dsimp only
  rw [State.modSlice_slice_self]
  have counted (u : State) (hu : u.slices = s.slices) : u.slice i = s.slice i := by unfold State.slice; rw [hu]
  split
  · rw [counted _ (State.countSlice_slices ..)]
    exact ⟨_, rfl, rfl, rfl, rfl, rfl, rfl, rfl, rfl⟩
  · exact ⟨_, rfl, rfl, rfl, rfl, rfl, rfl, rfl, rfl⟩

end

/-- The code of the row that applies, as Table 3.4 lists the rows. -/
theorem Slice.row_code (sl : Slice) (line src : Nat) (write : Bool) :
    (answerOf (sl.row line src write false) write).code =
      if 6 ≤ src ∨ 1098632 ≤ lineTile line then 3
      else if src = 5 then (if write then 3 else 0)
      else if src = 0 then (if (sl.remapOf line).isSome then 2 else 0)
      else if sl.faultOnce.any (fun l => l.toNat == line) then 3
      else if (sl.state (lineTile line) = .held ∨ sl.regionHeld (lineTile line) = true)
        ∨ (write = true ∧ sl.state (lineTile line) = .trapped) then 1
      else if write = true ∧ sl.protected (lineTile line) = true ∧ sl.state (lineTile line) ≠ .exempt then 3
      else if (sl.remapOf line).isSome then 2 else 0 := by
  have code_ite (p : Prop) [Decidable p] (a b : Nat) :
      (answerOf (if p then a else b) write).code = if p then (answerOf a write).code else (answerOf b write).code :=
    apply_ite (fun r => (answerOf r write).code) p a b
  unfold Slice.row
  simp only [code_ite, ite_or, Bool.false_eq_true, or_false]
  cases write <;> rfl

section
variable (sl : Slice) {line src : Nat} (write : Bool)

/-- Sources 0x0 and from 0x5 on, and tiles beyond the stack, are answered by the first five rows. -/
theorem Slice.row_inner (h : ¬ (1 ≤ src ∧ src ≤ 4 ∧ lineTile line < 1098632)) : sl.row line src write false ≤ 5 := by
  unfold Slice.row
  dsimp only
  by_cases high : 6 ≤ src
  · simp [high]
  by_cases far : Config.stackTiles ≤ lineTile line
  · simp [high, far]
  by_cases five : src = 5
  · simp [far, five]
  have zero : src = 0 := by
    have : Config.stackTiles = 1098632 := rfl
    omega
  rw [if_neg high, if_neg far, if_neg five, if_pos zero]
  split <;> decide

variable (low : 1 ≤ src) (high : src ≤ 4) (near : lineTile line < 1098632)
include low high near

/-- The rows of the sources 0x1 to 0x4 on a tile of the stack. -/
theorem Slice.row_outer :
    sl.row line src write false =
      if sl.faultOnce.any (fun l => l.toNat == line) then 6
      else if sl.state (lineTile line) = .held ∨ sl.regionHeld (lineTile line) = true then 7
      else if write = true ∧ sl.state (lineTile line) = .trapped then 8
      else if write = true ∧ sl.protected (lineTile line) = true ∧ sl.state (lineTile line) ≠ .exempt then 9
      else if (sl.remapOf line).isSome then 10 else 11 := by
  have stack : ¬ Config.stackTiles ≤ lineTile line := Nat.not_le.mpr near
  unfold Slice.row
  dsimp only
  rw [if_neg (by omega), if_neg stack, if_neg (by omega), if_neg (by omega)]
  simp only [Bool.false_eq_true, or_false]

end

/-! ### What follows the answer -/

theorem State.parkTile_slice (s : State) (i k : Nat) : (s.parkTile i k).slice i = ((s.slice i).park k).1 := by
  unfold State.parkTile
  dsimp only
  rw [State.slice, State.countSlice_slices]
  exact State.modSlice_slice_self _ _ _

theorem mem_insertAsc_self (l : List Nat) (k : Nat) : k ∈ insertAsc l k := by
  induction l with
  | nil => exact List.mem_singleton_self k
  | cons j l ih =>
    rw [insertAsc]
    split_ifs with h g
    · exact List.mem_cons_self
    · exact g ▸ List.mem_cons_self
    · exact List.mem_cons_of_mem _ ih

/-- A tile for which HOLD is answered is in the parked set, or the overflow flag is set; nothing else changes (R71, R73). -/
theorem Slice.park_records (a : Slice) (k : Nat) :
    ∃ l b, (a.park k).1 = { a with parked := l, overflow := b } ∧ (k ∈ l ∨ b = true) := by
  unfold Slice.park
  split
  · next h => exact ⟨a.parked, a.overflow, rfl, .inl (List.contains_iff_mem.mp h)⟩
  · split
    · exact ⟨a.parked, true, rfl, .inr rfl⟩
    · exact ⟨_, a.overflow, rfl, .inl (mem_insertAsc_self _ k)⟩

theorem State.startCopies_slice (s : State) (i f : Nat) :
    ∃ q c r, (s.startCopies i f).slice i = { s.slice i with copyQ := q, copies := c, reads := r } := by
  induction f generalizing s with
  | zero => exact ⟨_, _, _, rfl⟩
  | succ f ih =>
    rw [State.startCopies]
    dsimp only
    split
    · exact ⟨_, _, _, rfl⟩
    · split
      · exact ⟨_, _, _, rfl⟩
      · obtain ⟨q, c, r, h⟩ := ih _
        rw [h, State.slice, State.countSlice_slices]
        exact ⟨q, c, r, congrArg (fun sl : Slice => { sl with copyQ := q, copies := c, reads := r })
          (State.modSlice_slice_self _ _ _)⟩

/-- A trapped write holds its tile (R75). -/
theorem State.queueCopy_slice (s : State) (i k : Nat) :
    ∃ q c r, (s.queueCopy i k).slice i = { (s.slice i).hold k .copy with copyQ := q, copies := c, reads := r } := by
  unfold State.queueCopy
  obtain ⟨q, c, r, h⟩ := State.startCopies_slice
    ((s.hold i k .copy).modSlice i (fun sl => { sl with copyQ := sl.copyQ ++ [{ tile := k }] })) i Config.copiesMax
  refine ⟨q, c, r, h.trans ?_⟩
  rw [State.modSlice_slice_self, State.hold, State.modSlice_slice_self]

theorem State.noteStall_slice (s : State) (i k src row : Nat) :
    ∃ l, (s.noteStall i k src row).slice i = { s.slice i with outer := l } := by
  have noted : (s.modSlice i (fun sl => { sl with outer := insertAsc sl.outer k })).slice i
      = { s.slice i with outer := insertAsc (s.slice i).outer k } := State.modSlice_slice_self _ _ _
  unfold State.noteStall
  split
  · refine ⟨insertAsc (s.slice i).outer k, ?_⟩
    dsimp only
    split
    · split
      · exact noted
      · exact noted
    · exact noted
  · exact ⟨_, rfl⟩


/-- The answer driven last and the fault-once list stand. -/
structure Slice.Shows (a b : Slice) : Prop where
  ans : b.ans = a.ans
  redir : b.redir = a.redir
  faultOnce : b.faultOnce = a.faultOnce

theorem Slice.Stands.shows {k : Nat} {a b : Slice} (h : a.Stands k b) : a.Shows b := ⟨h.ans, h.redir, h.faultOnce⟩

section
variable (s : State) (i line src : Nat) (write : Bool) (wdata : LineData) {row : Nat}

/-- A held tile is recorded before the sequencer acts on its hold. -/
theorem State.follow_held (h : row = 7) :
    ∃ l b, (l.contains (lineTile line) = true ∨ b = true)
      ∧ Slice.Stands (lineTile line) { s.slice i with parked := l, overflow := b }
        ((s.follow i line write wdata row).slice i) := by
  obtain ⟨l, b, parked, recorded⟩ := (s.slice i).park_records (lineTile line)
  refine ⟨l, b, recorded.imp_left List.contains_iff_mem.mpr, ?_⟩
  rw [← parked, ← State.parkTile_slice, h]
  exact State.holdDemand_stands _ _ _ _

/-- A trapped write records its tile and holds it. -/
theorem State.follow_trapped (h : row = 8) :
    ∃ l b, (l.contains (lineTile line) = true ∨ b = true) ∧ ∃ q c r, (s.follow i line write wdata row).slice i =
      { Slice.hold { s.slice i with parked := l, overflow := b } (lineTile line) .copy with copyQ := q, copies := c, reads := r } := by
  obtain ⟨l, b, parked, recorded⟩ := (s.slice i).park_records (lineTile line)
  refine ⟨l, b, recorded.imp_left List.contains_iff_mem.mpr, ?_⟩
  rw [← parked, ← State.parkTile_slice, h]
  exact State.queueCopy_slice _ _ _

theorem State.follow_shows (h : row ≠ 6) : (s.slice i).Shows ((s.follow i line write wdata row).slice i) := by
  by_cases h7 : row = 7
  · obtain ⟨l, b, -, stands⟩ := s.follow_held i line write wdata h7
    exact ⟨stands.ans, stands.redir, stands.faultOnce⟩
  by_cases h8 : row = 8
  · obtain ⟨l, b, -, q, c, r, slice⟩ := s.follow_trapped i line write wdata h8
    rw [slice]
    exact ⟨rfl, rfl, rfl⟩
  unfold State.follow
  dsimp only
  split
  · exact absurd rfl h
  · exact absurd rfl h7
  · exact absurd rfl h8
  · split <;> exact ⟨rfl, rfl, rfl⟩
  · exact ⟨rfl, rfl, rfl⟩

/-- Only a passed write of row 11 reaches the stack (R36). -/
theorem State.follow_mem : (s.follow i line write wdata row).mem =
    if row = 11 ∧ write = true then writeMem s.mem (i * 2 ^ 37 + line * 64) (bytesOfLine wdata) else s.mem := by
  have kept : Kept (· ≠ .mem) s (s.parkTile i (lineTile line)) := by apply (Kept.refl _ s).parkTile <;> decide
  unfold State.follow
  dsimp only
  split
  · rfl
  · have all : Kept (· ≠ .mem) s ((s.parkTile i (lineTile line)).holdDemand i (lineTile line) write) := by
      apply kept.holdDemand <;> decide
    exact all.same .mem (by simp)
  · have all : Kept (· ≠ .mem) s ((s.parkTile i (lineTile line)).queueCopy i (lineTile line)) := by
      apply kept.queueCopy <;> decide
    exact all.same .mem (by simp)
  · cases write <;> rfl
  · next other => exact (if_neg fun h => other h.1).symm

end

theorem Slice.Shows.trans {a b c : Slice} (h : a.Shows b) (g : b.Shows c) : a.Shows c :=
  ⟨g.ans.trans h.ans, g.redir.trans h.redir, g.faultOnce.trans h.faultOnce⟩

theorem State.slice_of_slices (h : t.slices = s.slices) (i : Nat) : t.slice i = s.slice i := by
  unfold State.slice
  rw [h]

/-- Where a line of a fault-once entry was answered FAULT, the entry goes (R35). -/
theorem State.follow_faultOnce (s : State) (i line : Nat) (write : Bool) (wdata : LineData) :
    (s.follow i line write wdata 6).slice i
      = { s.slice i with faultOnce := (s.slice i).faultOnce.filter (fun l => l.toNat != line) } :=
  State.modSlice_slice_self _ _ _

section
variable (s : State) (i line src : Nat) (write : Bool) (wdata : LineData) {row : Nat}

theorem State.noteStall_shows (k : Nat) : (s.slice i).Shows ((s.noteStall i k src row).slice i) := by
  obtain ⟨l, slice⟩ := s.noteStall_slice i k src row
  rw [slice]
  exact ⟨rfl, rfl, rfl⟩

/-- The answer stands at the slice's pins to the end of the request. -/
theorem State.gateRow_shows : ((s.gateRow i line src write wdata row).slice i).ans = (answerOf row write).code
    ∧ ((s.gateRow i line src write wdata row).slice i).redir
      = (if answerOf row write = .redirect then redirOf (((s.slice i).remapOf line).getD 0) else 0)
    ∧ ((s.gateRow i line src write wdata row).slice i).faultOnce
      = (if row = 6 then (s.slice i).faultOnce.filter (fun l => l.toNat != line) else (s.slice i).faultOnce) := by
  obtain ⟨sl, answered, ans, redir, faultOnce, -⟩ := (s.touchOwner i (lineTile line)).answer_slice i line src write row
  have touched := State.slice_of_slices ((s.touchOwner_kept i (lineTile line)).same .slices (by decide)) i
  rw [touched] at redir faultOnce
  unfold State.gateRow
  generalize (s.touchOwner i (lineTile line)).answer i line src write row = u at answered
  have noted := (u.follow i line write wdata row).noteStall_shows i src (row := row) (lineTile line)
  rw [noted.ans, noted.redir, noted.faultOnce]
  by_cases h : row = 6
  · rw [if_pos h, h, State.follow_faultOnce, ← h, answered, ← faultOnce]
    exact ⟨ans, redir, rfl⟩
  · have stood := u.follow_shows i line write wdata h
    rw [if_neg h, stood.ans, stood.redir, stood.faultOnce, answered]
    exact ⟨ans, redir, faultOnce⟩

theorem State.gateRow_mem : (s.gateRow i line src write wdata row).mem =
    if row = 11 ∧ write = true then writeMem s.mem (i * 2 ^ 37 + line * 64) (bytesOfLine wdata) else s.mem := by
  have noted (u : State) : (u.noteStall i (lineTile line) src row).mem = u.mem := by
    have kept : Kept (· ≠ .mem) u (u.noteStall i (lineTile line) src row) := by
      apply Kept.noteStall (Kept.refl _ u) <;> decide
    exact kept.same .mem (by simp)
  have answered : Kept (· ≠ .mem) s ((s.touchOwner i (lineTile line)).answer i line src write row) := by
    apply Kept.answer ((s.touchOwner_kept _ _).mono fun p hp => by subst hp; decide) <;> decide
  unfold State.gateRow
  rw [noted, State.follow_mem, answered.same .mem (by simp)]

/-- A request that is held finds its tile recorded and still held. -/
theorem State.gateRow_held (still : (s.slice i).heldFor (lineTile line) .moving = false) (h : row = 7 ∨ row = 8) :
    (((s.gateRow i line src write wdata row).slice i).parked.contains (lineTile line) = true
        ∨ ((s.gateRow i line src write wdata row).slice i).overflow = true)
      ∧ ((s.gateRow i line src write wdata row).slice i).state (lineTile line)
        = (if row = 7 then (s.slice i).state (lineTile line) else .held) := by
  obtain ⟨sl, answered, -, -, -, -, -, holds, bitmap⟩ := (s.touchOwner i (lineTile line)).answer_slice i line src write row
  have touched := State.slice_of_slices ((s.touchOwner_kept i (lineTile line)).same .slices (by decide)) i
  rw [touched] at holds bitmap
  unfold State.gateRow
  generalize (s.touchOwner i (lineTile line)).answer i line src write row = u at answered
  obtain ⟨l, noted⟩ := (u.follow i line write wdata row).noteStall_slice i (lineTile line) src row
  rw [noted]
  obtain rfl | rfl := h
  · obtain ⟨parked, overflow, recorded, stands⟩ := u.follow_held i line write wdata rfl
    have unmoved : (u.slice i).heldFor (lineTile line) .moving = false := by
      rw [answered]; unfold Slice.heldFor; rw [holds]; exact still
    obtain ⟨state, flag, member⟩ := stands.held unmoved
    refine ⟨recorded.imp (fun c => List.contains_iff_mem.mpr (member (List.contains_iff_mem.mp c))) flag.trans, state.trans ?_⟩
    rw [answered]
    unfold Slice.state
    exact congrArg (mgetD · (lineTile line) .normal) bitmap
  · obtain ⟨parked, overflow, recorded, q, c, r, slice⟩ := u.follow_trapped i line write wdata rfl
    rw [slice]
    refine ⟨recorded, Eq.trans ?_ (if_neg (by decide)).symm⟩
    exact Slice.hold_state _ _ .copy

end

theorem Answer.code_eq_two (a : Answer) : a.code = 2 ↔ a = .redirect := by cases a <;> decide

theorem answerOf_hold (row : Nat) (write : Bool) : (answerOf row write).code = 1 ↔ row = 7 ∨ row = 8 := by
  unfold answerOf
  split_ifs <;> simp_all [Answer.code]
  omega

theorem answerOf_write_pass (row : Nat) : (answerOf row true).code = 0 ↔ row = 5 ∨ row = 11 := by
  unfold answerOf
  split_ifs <;> simp_all [Answer.code] <;> omega

section
variable (sl : Slice) (write : Bool) {line src : Nat}

/-- The rows from 6 on are those of the sources 0x1 to 0x4 on a tile of the stack. -/
theorem Slice.six_le_row (line src : Nat) : 6 ≤ sl.row line src write false ↔ 1 ≤ src ∧ src ≤ 4 ∧ lineTile line < 1098632 := by
  by_cases outer : 1 ≤ src ∧ src ≤ 4 ∧ lineTile line < 1098632
  · refine iff_of_true ?_ outer
    rw [sl.row_outer write outer.1 outer.2.1 outer.2.2]
    split_ifs <;> decide
  · exact iff_of_false (Nat.not_le.mpr (Nat.lt_succ_of_le (sl.row_inner write outer))) outer

/-- Row 6 is the row of a fault-once line that one of the sources 0x1 to 0x4 asks for. -/
theorem Slice.row_eq_six : sl.row line src write false = 6 ↔
    (1 ≤ src ∧ src ≤ 4 ∧ lineTile line < 1098632) ∧ sl.faultOnce.any (fun l => l.toNat == line) = true := by
  rw [← sl.six_le_row write line src]
  by_cases outer : 6 ≤ sl.row line src write false
  · obtain ⟨low, high, near⟩ := (sl.six_le_row write line src).mp outer
    rw [sl.row_outer write low high near]
    split_ifs <;> simp_all
  · omega

/-- Row 7 is the row of a held tile. -/
theorem Slice.held_of_row (h : sl.row line src write false = 7) :
    sl.state (lineTile line) = .held ∨ sl.regionHeld (lineTile line) = true := by
  obtain ⟨low, high, near⟩ := (sl.six_le_row write line src).mp (by omega)
  rw [sl.row_outer write low high near] at h
  by_contra free
  rw [if_neg free] at h
  split_ifs at h <;> omega

/-- A write is performed on the stack where row 11 answers it. -/
theorem Slice.row_eq_eleven : sl.row line src true false = 11 ↔
    (1 ≤ src ∧ src ≤ 4 ∧ lineTile line < 1098632 ∧ sl.faultOnce.any (fun l => l.toNat == line) = false)
      ∧ (answerOf (sl.row line src true false) true).code = 0 := by
  have outer := sl.six_le_row true line src
  have six := sl.row_eq_six (line := line) (src := src) true
  rw [answerOf_write_pass]
  constructor
  · intro h
    obtain ⟨low, high, near⟩ := outer.mp (by omega)
    refine ⟨⟨low, high, near, Bool.eq_false_iff.mpr fun named => ?_⟩, .inr h⟩
    exact absurd (h.symm.trans (six.mpr ⟨⟨low, high, near⟩, named⟩)) (by decide)
  · rintro ⟨⟨low, high, near, -⟩, h | h⟩
    · exact absurd (outer.mpr ⟨low, high, near⟩) (by omega)
    · exact h

end

/-- Settles O51: nothing of the slice's tables waits to be read or rewritten, so the answer is that of the first row of Table 3.4,
and what follows it (a parking, a copy, a demand) leaves the pins alone. -/
theorem gateAnswersByTheFirstRow : Obligations.GateAnswersByTheFirstRow := by
  unfold Obligations.GateAnswersByTheFirstRow
  intro s i line write src wdata sl tile k named outer held up present clean
  have code := sl.row_code line.toNat src.toNat write
  have six := sl.row_eq_six (line := line.toNat) (src := src.toNat) write
  have hold := answerOf_hold (sl.row line.toNat src.toNat write false) write
  have remapped : sl.remapOf line.toNat = k.map Prod.fst := rfl
  have heldRow := sl.held_of_row (line := line.toNat) (src := src.toNat) write
  have passRow := sl.row_eq_eleven (line := line.toNat) (src := src.toNat)
  refine ⟨_, execGateRequest_unwritten up present clean line write src wdata, ?_⟩
  generalize hrow : (s.slice i).row line.toNat src.toNat write false = row
  change sl.row line.toNat src.toNat write false = row at hrow
  obtain ⟨ans, redir, faultOnce⟩ := s.gateRow_shows i line.toNat src.toNat write wdata (row := row)
  have recorded := s.gateRow_held i line.toNat src.toNat write wdata (row := row)
  rw [hrow] at code six hold heldRow
  rw [ans, s.gateRow_mem]
  refine ⟨?_, fun two e he => ?_, fun two => ?_, fun one still => ?_, ?_, ?_⟩
  · rw [code, remapped, Option.isSome_map]
    rfl
  · rw [redir, if_pos ((Answer.code_eq_two _).mp two)]
    change redirOf ((sl.remapOf line.toNat).getD 0) = _
    rw [remapped, he]
    rfl
  · exact redir.trans (if_neg (two ∘ (Answer.code_eq_two _).mpr))
  · obtain ⟨parked, state⟩ := recorded still (hold.mp one)
    refine ⟨parked, ?_⟩
    by_cases h : row = 7
    · rw [if_pos h] at state
      exact (heldRow h).imp_left state.trans
    · exact .inl (state.trans (if_neg h))
  · rw [faultOnce]
    by_cases h : row = 6
    · exact (if_pos h).trans (if_pos (six.mp h).1).symm
    · rw [if_neg h]
      split
      · next inner =>
        refine (List.filter_eq_self.mpr fun l hl => ?_).symm
        have unnamed := mt (fun n => six.mpr ⟨inner, n⟩) h
        simpa using List.any_eq_false.mp (Bool.eq_false_iff.mpr unnamed) l hl
      · rfl
  · cases write with
    | false => simp
    | true =>
      rw [hrow] at passRow
      refine if_congr ⟨fun h => ?_, fun h => ⟨passRow.mpr ⟨h.1, h.2.2⟩, rfl⟩⟩ rfl rfl
      obtain ⟨asked, passes⟩ := passRow.mp h.1
      exact ⟨asked, rfl, passes⟩

end Sys2Proof.Machine
namespace Sys2Proof.Machine

variable {s t : State}

/-! ### Tables by their entries -/

theorem mget_of_mem {α : Type} {m : FMap α} (h : mwf m = true) {e : Nat × α} (he : e ∈ m) : mget m e.1 = some e.2 := by
  induction m with
  | nil => cases he
  | cons d m ih =>
    obtain ⟨above, wf⟩ := (mwf_cons d.1 d.2 m).mp h
    rw [mget]
    rcases List.mem_cons.mp he with rfl | he
    · exact if_pos rfl
    · rw [if_neg (Nat.ne_of_lt (above e he)), ih wf he]

theorem mget_isSome_iff {α : Type} (m : FMap α) (i : Nat) : (mget m i).isSome = true ↔ i ∈ mkeys m := by
  induction m with
  | nil => simp [mget, mkeys]
  | cons d m ih =>
    rw [mget]
    split
    · next h => exact iff_of_true rfl (h ▸ List.mem_cons_self)
    · next h => rw [ih]; exact ⟨List.mem_cons_of_mem _, fun k => (List.mem_cons.mp k).resolve_left (Ne.symm h)⟩

/-! ### Bytes of a line -/

/-- A byte of the number that a list of bytes stands for. -/
theorem natOfBytes_byte (l : List Byte) (k : Nat) : natOfBytes l / 2 ^ (8 * k) % 2 ^ 8 = (l.getD k 0).toNat := by
  induction l generalizing k with
  | nil => simp [natOfBytes]
  | cons b l ih =>
    have cons : natOfBytes (b :: l) = 256 * natOfBytes l + b.toNat := rfl
    have byte := b.isLt
    cases k with
    | zero => rw [cons, List.getD_cons_zero]; omega
    | succ k =>
      have split : (256 * natOfBytes l + b.toNat) / 2 ^ (8 * (k + 1)) = natOfBytes l / 2 ^ (8 * k) := by
        rw [show 8 * (k + 1) = 8 + 8 * k by omega, pow_add, ← Nat.div_div_eq_div_mul]
        congr 1
        omega
      rw [cons, split, List.getD_cons_succ, ih]

theorem bytesOfNat_getD {n k : Nat} (x : Nat) (h : k < n) : (bytesOfNat n x).getD k 0 = BitVec.ofNat 8 (x / 2 ^ (8 * k)) := by
  induction n generalizing k x with
  | zero => omega
  | succ n ih =>
    rw [bytesOfNat]
    cases k with
    | zero => simp
    | succ k =>
      rw [List.getD_cons_succ, ih _ (by omega), Nat.div_div_eq_div_mul, show 8 * (k + 1) = 8 + 8 * k by omega, pow_add]
      rfl

theorem fld_lineOfBytes {l : List Byte} (h : l.length = 64) (k : Nat) : fld (lineOfBytes l) (8 * k) 8 = (l.getD k 0).toNat := by
  have small := Laws.Transfer.natOfBytes_lt l
  rw [h] at small
  unfold fld lineOfBytes
  rw [BitVec.toNat_ofNat, Nat.mod_eq_of_lt small, Nat.shiftRight_eq_div_pow, natOfBytes_byte]

theorem bytesOfLine_getD (v : LineData) {k : Nat} (h : k < 64) : ((bytesOfLine v).getD k 0).toNat = fld v (8 * k) 8 := by
  unfold fld bytesOfLine
  rw [bytesOfNat_getD _ h, BitVec.toNat_ofNat, Nat.shiftRight_eq_div_pow]

/-- Byte k of the line is the new one where the mask enables it. -/
theorem fld_maskLine (old new : LineData) (mask : BitVec 64) {k : Nat} (h : k < 64) :
    fld (maskLine old new mask) (8 * k) 8 = if mask.getLsbD k then fld new (8 * k) 8 else fld old (8 * k) 8 := by
  unfold maskLine
  rw [fld_lineOfBytes (by simp), List.getD_eq_getElem _ _ (by simpa using h)]
  simp only [List.getElem_map, List.getElem_range]
  split
  · exact bytesOfLine_getD new h
  · exact bytesOfLine_getD old h

/-! ### A tile's record through a write -/

theorem State.tile?_congr (h : t.ctxs = s.ctxs) (c i : Nat) : t.tile? c i = s.tile? c i := by
  unfold State.tile? State.ctx
  rw [h]

theorem State.tile_eq {c i : Nat} {r : TileRec} (h : s.tile? c i = some r) : s.tile c i = r := by
  unfold State.tile
  rw [h]
  rfl

theorem State.modTile_tile? {c i : Nat} {r : TileRec} (h : s.tile? c i = some r) (f : TileRec → TileRec) :
    (s.modTile c i f).tile? c i = some (f r) := by
  unfold State.modTile
  rw [h]
  change mget ((s.modCtx c _).ctx c).tiles i = _
  rw [State.modCtx_ctx_self]
  exact mget_mset_self _ _ _

/-- In a sound state the tile whose home a stack tile is stands in its context's map. -/
theorem State.tile?_of_owner (wf : mwf s.ctxs = true) {j k c i : Nat} (h : s.owner j k = some (c, i)) :
    ∃ r, s.tile? c i = some r := by
  obtain ⟨e, he, found⟩ := List.exists_of_findSome?_eq_some h
  obtain ⟨r, hr, key⟩ := Option.map_eq_some_iff.mp found
  obtain ⟨rfl, rfl⟩ := Prod.mk.inj key
  apply Option.isSome_iff_exists.mp
  unfold State.tile? State.ctx mgetD
  rw [mget_of_mem wf he, mget_isSome_iff]
  exact List.mem_map_of_mem (List.mem_of_find?_eq_some hr)

section
variable {c i : Nat} {r : TileRec} (listed : s.tile? c i = some r)
include listed

/-- The copy for the bake that the tile owed (R297). -/
theorem State.bakeCopy_tile? (v : Tile) : ∃ r', (s.bakeCopy c i v).tile? c i = some r' ∧ r'.owesBake = false
    ∧ (r.owesBake = true → (s.ctx c).bake.sealed ≠ 0 → r'.proofNew = some v)
    ∧ (r.owesBake = true → (s.ctx c).bake.sealed = 0 → r'.proofOld = some v) := by
  unfold State.bakeCopy
  rw [State.tile_eq listed]
  cases owes : r.owesBake with
  | false => exact ⟨r, listed, owes, nofun, nofun⟩
  | true =>
    have counted (u : State) (n : Nat) : ((u.countCtx c 55).peakCtx c 56 n).tile? c i = u.tile? c i := by
      have kept := ((Kept.refl (· = .ctxCtr) u).countCtx rfl c 55 1).peakCtx rfl c 56 n
      exact State.tile?_congr (kept.same .ctxs (by decide)) c i
    refine ⟨_, (counted _ _).trans (State.modTile_tile? listed _), ?_⟩
    by_cases h : (s.ctx c).bake.sealed = 0
    · simp [h]
    · have named : (s.ctx c).bake.sealed ≠ 0#32 := h
      simp [named]

theorem State.setReturn_tile? (st : TileState) : (s.setReturn c i st).tile? c i = some { r with ret := st } := by
  have written := State.modTile_tile? listed (fun r => { r with ret := st })
  unfold State.setReturn
  dsimp only
  split
  · exact written
  · exact written

theorem State.untrap_tile? : ∃ st, (s.untrap c i).tile? c i = some { r with ret := st } := by
  unfold State.untrap
  split
  · exact ⟨_, State.setReturn_tile? listed _⟩
  · exact ⟨r.ret, listed⟩

/-- Every copy the tile owes is made from its value, and it owes nothing more (R75). -/
theorem State.makeCopies_tile? : ∃ r', (s.makeCopies c i).tile? c i = some r' ∧ r'.owesBake = false ∧ r'.owed = 0
    ∧ (r.owesBake = true → (s.ctx c).bake.sealed ≠ 0 → r'.proofNew = some (s.homeVal c i))
    ∧ (r.owesBake = true → (s.ctx c).bake.sealed = 0 → r'.proofOld = some (s.homeVal c i)) := by
  unfold State.makeCopies
  rw [State.tile_eq listed]
  split
  · next h =>
    have none : r.owesBake = false ∧ r.owed = 0 := by simpa [TileRec.owes] using h
    exact ⟨r, listed, none.1, none.2, fun owes => absurd (none.1.symm.trans owes) (by decide),
      fun owes => absurd (none.1.symm.trans owes) (by decide)⟩
  · obtain ⟨r', copied, owes, newer, older⟩ := State.bakeCopy_tile? listed (s.homeVal c i)
    dsimp only
    generalize s.homeVal c i = v at copied newer older ⊢
    generalize s.bakeCopy c i v = u at copied
    have branches : Kept (fun p => p = .branches ∨ p = .ctxCtr) u (u.each r.owedBranches (fun s b =>
        (s.modBranch b (fun x => { x with copies := mset x.copies i v })).countCtx c 128)) :=
      (Kept.refl _ u).each fun t b kept => (kept.modBranch (.inl rfl) _ _).countCtx (.inr rfl) _ _ _
    have stands := (State.tile?_congr (branches.same .ctxs (by decide)) c i).trans copied
    obtain ⟨st, final⟩ := State.untrap_tile? (State.modTile_tile? stands (fun r => { r with owed := 0 }))
    exact ⟨_, final, owes, rfl, newer, older⟩

end

/-! ### What a served slice still shows -/

theorem State.readBytes_congr {j : Nat} (mem : t.mem = s.mem) (remap : (t.slice j).remap = (s.slice j).remap)
    (spare : (t.slice j).spare = (s.slice j).spare) (byte n : Nat) : t.readBytes j byte n = s.readBytes j byte n := by
  unfold State.readBytes Slice.remapsOf Slice.spareLine
  dsimp only
  rw [mem, remap, spare]

/-- Served bytes are counted; the home's value stays. -/
theorem State.serve_homeVal (s : State) (j : Nat) (w : Cls) (n c i : Nat) : (s.serve j w n).homeVal c i = s.homeVal c i := by
  have kept := (Kept.refl (fun p => p = .slices ∨ p = .slcCtr) s).serve (.inl rfl) (.inr rfl) j w n
  have tables (k : Nat) : ((s.serve j w n).slice k).remap = (s.slice k).remap ∧ ((s.serve j w n).slice k).spare = (s.slice k).spare := by
    have counted := State.slice_of_slices (State.countSlice_slices (s := s) j (20 + w.idx) n) k
    unfold State.serve
    by_cases h : j = k
    · subst h
      rw [State.modSlice_slice_self, counted]
      exact ⟨rfl, rfl⟩
    · rw [State.modSlice_slice_ne _ _ h, counted]
      exact ⟨rfl, rfl⟩
  have tile : (s.serve j w n).tile c i = s.tile c i := by
    unfold State.tile
    rw [State.tile?_congr (kept.same .ctxs (by decide))]
  unfold State.homeVal State.readTile
  rw [tile, State.readBytes_congr (kept.same .mem (by decide)) (tables _).1 (tables _).2]

/-! ### The two instructions -/

section
variable {j k : Nat} (running : s.running = true) (mine : (s.slice j).copies.any (fun x => x.tile == k) = true)
  (whole : (s.slice j).heldFor k .mend = false) (heals : (s.slice j).heldFor k .mendFailed = false)
include running mine whole heals

theorem execProofCopyDone_starved (starved : s.starved j k = true) :
    ∃ n, exec (.proofCopyDone j k) s = .next ((s.modSlice j (fun sl => { sl with
      copies := replaceFirst (fun x => x.tile == k) (fun x => { x with stalled := true }) sl.copies })).countSlice j 7 n) :=
  ⟨bit ((s.slice j).copies.any (fun x => x.tile == k && !x.stalled)),
    (if_neg (by simp [running, mine, whole, heals]) : execProofCopyDone j k s = _).trans (if_pos starved)⟩

theorem execProofCopyDone_owned (fed : s.starved j k = false) {c i : Nat} (owned : s.owner j k = some (c, i)) :
    ∃ n t, exec (.proofCopyDone j k) s = .next t
      ∧ t.ctxs = (((s.serve j .d n).makeCopies c i).modTile c i (fun r => { r with dirty := true })).ctxs := by
  refine ⟨65536 * (1 + (bit (s.tile c i).owesBake + (s.tile c i).owedBranches.length)), _,
    (if_neg (by simp [running, mine, whole, heals]) : execProofCopyDone j k s = _).trans
      (if_neg (by rw [fed]; decide)), ?_⟩
  rw [owned]
  refine Kept.same (W := fun p => p = .slices ∨ p = .slcCtr) ?_ .ctxs (by decide)
  exact (((Kept.refl _ _).modSlice (.inl rfl) _ _).unhold (.inl rfl) _ _ _).startCopies (.inl rfl) (.inr rfl) _ _

end

theorem replaceFirst_any {α : Type} {p q : α → Bool} {f : α → α} (hf : ∀ a, p a = true → q (f a) = true) {l : List α}
    (h : l.any p = true) : (replaceFirst p f l).any q = true := by
  induction l with
  | nil => cases h
  | cons a l ih =>
    rw [replaceFirst]
    split
    · next pa => rw [List.any_cons, hf a pa, Bool.true_or]
    · next pa => rw [List.any_cons, ih (by simpa [pa] using h), Bool.or_true]

/-- A word of a slice of which nothing was written with chosen check bits reads as it is. -/
theorem State.checkWord_unwritten {j : Nat} (h : s.unwritten j) {a : Nat} (ha : iaSlice a = j) (scrub : Bool) :
    s.checkWord a scrub = s := by
  refine State.checkWord_of_none scrub (Option.not_isSome_iff_eq_none.mp fun found => ?_)
  have other := h.slice_ne ((mget_isSome_iff _ _).mp found)
  rw [ha] at other
  simp at other

theorem State.present_lt {j : Nat} (h : s.present j = true) : j < 24 := by
  unfold State.present State.slicesOfPart at h
  have below : j < (if s.partS then Config.slicesS else Config.slicesL) := by simp_all
  split at below
  · exact Nat.lt_of_lt_of_le below (by decide)
  · exact Nat.lt_of_lt_of_le below (by decide)

/-- The eight words of a spare line are words of its slice. -/
theorem iaSlice_spare {j k w : Nat} (hj : j < 24) (hk : k < 32) (hw : w < 8) : iaSlice (iaOf 5 j (8 * k + w)) = j := by
  unfold iaSlice iaOf
  omega

theorem State.each_same {α : Type} {l : List α} {f : State → α → State} (h : ∀ a ∈ l, f s a = s) : s.each l f = s := by
  unfold State.each
  induction l with
  | nil => rfl
  | cons a l ih => rw [List.foldl_cons, h a List.mem_cons_self, ih fun b hb => h b (List.mem_cons_of_mem _ hb)]

/-- A spare line that is all zero is not listed. -/
theorem spare_written {m : FMap LineData} (wf : mwf m = true) (k : Nat) (v : LineData) (n : Nat) :
    mgetD (if v = 0 then merase m k else mset m k v) n 0 = if n = k then v else mgetD m n 0 := by
  unfold mgetD
  split_ifs with zero same same
  · rw [same, mget_merase_self wf, zero]; rfl
  · rw [mget_merase_ne _ (Ne.symm same)]
  · rw [same, mget_mset_self]; rfl
  · rw [mget_mset_ne _ _ (Ne.symm same)]

/-- Settles O52: the owner of a stack tile stands in its context's map (the tables of a sound state are canonical), so its record
is written, and what follows the copies touches slices alone. -/
theorem proofCopiesAndSpareLines : Obligations.ProofCopiesAndSpareLines := by
  unfold Obligations.ProofCopiesAndSpareLines
  intro s j
  refine ⟨fun k c i sound running mine whole heals fed owned => ?_, fun k running mine whole heals starved => ?_,
    fun idx wdata wmask up present => ⟨fun wf => ?_, fun clean => ?_⟩⟩
  · obtain ⟨r, listed⟩ := State.tile?_of_owner sound.ctxs owned
    obtain ⟨n, t, run, ctxs⟩ := execProofCopyDone_owned running mine whole heals fed owned
    have served : (s.serve j .d n).ctxs = s.ctxs :=
      ((Kept.refl (fun p => p = .slices ∨ p = .slcCtr) s).serve (.inl rfl) (.inr rfl) j .d n).same .ctxs (by decide)
    have ctx : (s.serve j .d n).ctx c = s.ctx c := by unfold State.ctx; rw [served]
    obtain ⟨r', copied, owesBake, owed, newer, older⟩ :=
      State.makeCopies_tile? ((State.tile?_congr served c i).trans listed)
    have final := State.tile_eq ((State.tile?_congr ctxs c i).trans (State.modTile_tile? copied (fun r => { r with dirty := true })))
    rw [ctx, State.serve_homeVal] at newer older
    refine ⟨t, run, ?_⟩
    rw [final, State.tile_eq listed]
    exact ⟨owesBake, owed, rfl, newer, older⟩
  · obtain ⟨n, run⟩ := execProofCopyDone_starved running mine whole heals starved
    have kept (f : Slice → Slice) :=
      ((Kept.refl (fun p => p = .slices ∨ p = .slcCtr) s).modSlice (.inl rfl) j f).countSlice (.inr rfl) j 7 n
    have slice (f : Slice → Slice) : ((s.modSlice j f).countSlice j 7 n).slice j = f (s.slice j) :=
      (State.slice_of_slices (State.countSlice_slices ..) j).trans (State.modSlice_slice_self _ _ _)
    refine ⟨_, run, (kept _).same .ctxs (by decide), (kept _).same .mem (by decide), ?_, ?_⟩
    · rw [slice]
      exact replaceFirst_any (fun x hx => by simpa using hx) mine
    · rw [slice]
  · have guard : ¬ ((!s.up || !s.present j) = true) := by simp [up, present]
    refine ⟨_, (if_neg guard : execSpareLineAccess j true idx wdata wmask s = _).trans (if_pos rfl), rfl, ?_⟩
    unfold Slice.spareLine
    rw [State.modSlice_slice_self]
    simp only [spare_written wf]
    exact ⟨fun k hk => (congrArg (fld · _ _) (if_pos trivial)).trans (fld_maskLine _ _ _ hk), fun k hk => if_neg hk⟩
  · have guard : ¬ ((!s.up || !s.present j) = true) := by simp [up, present]
    have read : s.each ((List.range 8).map (fun w => iaOf 5 j (8 * idx.toNat + w))) (fun s a => s.checkWord a false) = s := by
      refine State.each_same fun a ha => ?_
      obtain ⟨w, hw, rfl⟩ := List.mem_map.mp ha
      exact State.checkWord_unwritten clean (iaSlice_spare (State.present_lt present) idx.isLt (List.mem_range.mp hw)) false
    refine ⟨_, (if_neg guard : execSpareLineAccess j false idx wdata wmask s = _).trans (if_neg (by decide)), ?_⟩
    rw [read]
    exact ⟨State.modSlice_slice_self _ _ _, rfl⟩

end Sys2Proof.Machine
namespace Sys2Proof.Machine

variable {s t : State}

/-! ### Operations that leave the fabric as it is

What the parts of each operation are is said once under Laws; here it is read for the fabric alone. -/

theorem fab_of_kept (h : Kept (· ≠ .fab) s t) : t.fab = s.fab := h.same .fab (by simp)

@[simp] theorem State.countPeel_fab (p off n) : (s.countPeel p off n).fab = s.fab :=
  fab_of_kept ((Kept.refl _ s).countPeel (by decide) _ _ _)
@[simp] theorem State.emit_fab (code sev ctx pl) : (s.emit code sev ctx pl).fab = s.fab :=
  fab_of_kept (by apply Kept.emit (Kept.refl _ s) <;> decide)
@[simp] theorem State.finish_fab (ctx tag status detail) : (s.finish ctx tag status detail).fab = s.fab :=
  fab_of_kept ((Kept.refl _ s).finish (by decide) _ _ _ _)
@[simp] theorem State.setJob_fab (c t j) : (s.setJob c t j).fab = s.fab :=
  fab_of_kept ((Kept.refl _ s).setJob (by decide) _ _ _)
@[simp] theorem State.modBcast_fab (c kind orig f) : (s.modBcast c kind orig f).fab = s.fab :=
  fab_of_kept ((Kept.refl _ s).modBcast (by decide) _ _ _ _)
@[simp] theorem State.askPromotion_fab (c t cause tag deadline) : (s.askPromotion c t cause tag deadline).fab = s.fab :=
  fab_of_kept (by apply Kept.askPromotion (Kept.refl _ s) <;> decide)
@[simp] theorem State.drop_fab (peel k) : (s.drop peel k).fab = s.fab :=
  fab_of_kept (by apply Kept.drop (Kept.refl _ s) <;> decide)
@[simp] theorem State.risk_fab (i n) : (s.risk i n).fab = s.fab :=
  fab_of_kept ((Kept.refl _ s).risk (by decide) _ _)
@[simp] theorem State.holdTile_fab (c t w) : (s.holdTile c t w).fab = s.fab :=
  fab_of_kept ((Kept.refl _ s).holdTile (by decide) _ _ _)
@[simp] theorem State.unholdTile_fab (c t w) : (s.unholdTile c t w).fab = s.fab :=
  fab_of_kept ((Kept.refl _ s).unholdTile (by decide) _ _ _)
@[simp] theorem State.serveTile_fab (c t w n) : (s.serveTile c t w n).fab = s.fab :=
  fab_of_kept (by apply Kept.serveTile (Kept.refl _ s) <;> decide)
@[simp] theorem State.setHome_fab (c t v) : (s.setHome c t v).fab = s.fab :=
  fab_of_kept (by apply Kept.setHome (Kept.refl _ s) <;> decide)
@[simp] theorem State.trap_fab (c t) : (s.trap c t).fab = s.fab :=
  fab_of_kept (by apply Kept.trap (Kept.refl _ s) <;> decide)
@[simp] theorem State.untrap_fab (c t) : (s.untrap c t).fab = s.fab :=
  fab_of_kept (by apply Kept.untrap (Kept.refl _ s) <;> decide)
@[simp] theorem State.relieveAll_fab (c) : (s.relieveAll c).fab = s.fab :=
  fab_of_kept ((Kept.refl _ s).relieveAll (by decide) _)
@[simp] theorem State.rewrite_fab (c t tag v known) : (s.rewrite c t tag v known).fab = s.fab :=
  fab_of_kept (by apply Kept.rewrite (Kept.refl _ s) <;> decide)
@[simp] theorem State.shipDone_fab (c t) : (s.shipDone c t).fab = s.fab :=
  fab_of_kept ((Kept.refl _ s).shipDone (by decide) _ _)
@[simp] theorem State.joinFailed_fab (c status detail) : (s.joinFailed c status detail).fab = s.fab :=
  fab_of_kept (by apply Kept.joinFailed (Kept.refl _ s) <;> decide)
@[simp] theorem State.checkCtr_fab (k) : (s.checkCtr k).fab = s.fab :=
  fab_of_kept (by apply Kept.checkCtr (Kept.refl _ s) <;> decide)
@[simp] theorem State.setPc_fab (k v) : (s.setPc k v).fab = s.fab :=
  fab_of_kept ((Kept.refl _ s).setPc (by decide) _ _)
@[simp] theorem State.endAdopt_fab (c status detail) : (s.endAdopt c status detail).fab = s.fab :=
  fab_of_kept (by apply Kept.endAdopt (Kept.refl _ s) <;> decide)
@[simp] theorem State.giveUp_fab (c t j) : (s.giveUp c t j).fab = s.fab :=
  fab_of_kept (by apply Kept.giveUp (Kept.refl _ s) <;> decide)
@[simp] theorem State.moved_fab (c j) : (s.moved c j).fab = s.fab :=
  fab_of_kept ((Kept.refl _ s).moved (by decide) _ _)
@[simp] theorem State.countGranules_fab (c) : (s.countGranules c).fab = s.fab :=
  fab_of_kept ((Kept.refl _ s).countGranules (by decide) _)
@[simp] theorem State.modStep_fab (c f) : (s.modStep c f).fab = s.fab :=
  fab_of_kept ((Kept.refl _ s).modStep (by decide) _ _)
@[simp] theorem State.applyDefault_fab (c k) : (s.applyDefault c k).fab = s.fab :=
  fab_of_kept ((Kept.refl _ s).applyDefault (by decide) _ _)
@[simp] theorem State.changeSeal_fab (c) : (s.changeSeal c).fab = s.fab :=
  fab_of_kept (by apply Kept.changeSeal (Kept.refl _ s) <;> decide)
@[simp] theorem State.adoptInstall_fab (c map regs pools bake ledger) : (s.adoptInstall c map regs pools bake ledger).fab = s.fab :=
  fab_of_kept (by apply Kept.adoptInstall (Kept.refl _ s) <;> decide)
@[simp] theorem State.mendDone_fab (c t v) : (s.mendDone c t v).fab = s.fab :=
  fab_of_kept (by apply Kept.mendDone (Kept.refl _ s) <;> decide)
@[simp] theorem State.rebuildDecoded_fab (c t v) : (s.rebuildDecoded c t v).fab = s.fab :=
  fab_of_kept (by apply Kept.rebuildDecoded (Kept.refl _ s) <;> decide)
@[simp] theorem State.crustDecoded_fab (c b row o v) : (s.crustDecoded c b row o v).fab = s.fab :=
  fab_of_kept (by apply Kept.crustDecoded (Kept.refl _ s) <;> decide)
@[simp] theorem State.rollbackDecoded_fab (c t tag v) : (s.rollbackDecoded c t tag v).fab = s.fab :=
  fab_of_kept (by apply Kept.rollbackDecoded (Kept.refl _ s) <;> decide)
@[simp] theorem State.revertCrust_fab (c) : (s.revertCrust c).fab = s.fab :=
  fab_of_kept (by apply Kept.revertCrust (Kept.refl _ s) <;> decide)
@[simp] theorem State.judgeExport_fab (c) : (s.judgeExport c).fab = s.fab :=
  fab_of_kept (by apply Kept.judgeExport (Kept.refl _ s) <;> decide)
@[simp] theorem State.chargeFabric_fab (w lvl n asAged) : (s.chargeFabric w lvl n asAged).fab = s.fab :=
  fab_of_kept (by apply Kept.chargeFabric (Kept.refl _ s) <;> decide)
@[simp] theorem State.commandBack_fab (r e) : (s.commandBack r e).fab = s.fab :=
  fab_of_kept ((Kept.refl _ s).commandBack (by decide) _ _)
@[simp] theorem State.storeEnds_fab (r target v e) : (s.storeEnds r target v e).fab = s.fab :=
  fab_of_kept (by apply Kept.storeEnds (Kept.refl _ s) <;> decide)
@[simp] theorem State.findingEnds_fab (r e) : (s.findingEnds r e).fab = s.fab :=
  fab_of_kept (by apply Kept.findingEnds (Kept.refl _ s) <;> decide)
@[simp] theorem State.flagEnds_fab (r target v e) : (s.flagEnds r target v e).fab = s.fab :=
  fab_of_kept (by apply Kept.flagEnds (Kept.refl _ s) <;> decide)
@[simp] theorem State.commitReady_fab (c) : (s.commitReady c).fab = s.fab :=
  fab_of_kept (by apply Kept.commitReady (Kept.refl _ s) <;> decide)
@[simp] theorem State.putBcast_fab (c b) : (s.putBcast c b).fab = s.fab :=
  fab_of_kept ((Kept.refl _ s).putBcast (by decide) _ _)
@[simp] theorem State.landPiece_fab (i l at_ payload) : (s.landPiece i l at_ payload).fab = s.fab :=
  fab_of_kept (by apply Kept.landPiece (Kept.refl _ s) <;> decide)

theorem State.sealXfer_fab {c : Nat} {h : BitVec 512} {l : List Byte} {x : Xfer} (e : s.sealXfer c h l = some (t, x)) :
    t.fab = s.fab :=
  fab_of_kept (by apply Kept.sealXfer (Kept.refl _ s) (e := e) <;> decide)

@[simp] theorem State.freeTile_fab : s.freeTile.2.fab = s.fab := rfl

@[simp] theorem State.recast_fab (c t step ver) : (s.recast c t step ver).1.fab = s.fab :=
  fab_of_kept (by apply Kept.recast (Kept.refl _ s) <;> decide)

end Sys2Proof.Machine
namespace Sys2Proof.Machine

variable {s t : State}

/-! ### What the wake buffers hold -/

/-- What each peel's wake buffer holds (R439). -/
def Fabric.wakes (f : Fabric) (p : Nat) : List Xfer := (mgetD f.peels p {}).wake

/-! The other tables of the fabric hold no transfer that waits for the clock. -/
section
variable (f : Fabric)

@[simp] theorem Fabric.wakes_tx (l n) : ({ f with tx := l, sentNow := n }).wakes = f.wakes := rfl
@[simp] theorem Fabric.wakes_reqs (l) : ({ f with reqs := l }).wakes = f.wakes := rfl
@[simp] theorem Fabric.wakes_retries (l) : ({ f with retries := l }).wakes = f.wakes := rfl
@[simp] theorem Fabric.wakes_signs (l) : ({ f with signs := l }).wakes = f.wakes := rfl
@[simp] theorem Fabric.wakes_waiters (l) : ({ f with waiters := l }).wakes = f.wakes := rfl
@[simp] theorem Fabric.wakes_locals (l) : ({ f with locals := l }).wakes = f.wakes := rfl
@[simp] theorem Fabric.wakes_jobs (l n) : ({ f with jobs := l, nextJob := n }).wakes = f.wakes := rfl
@[simp] theorem Fabric.wakes_sums (l) : ({ f with sums := l }).wakes = f.wakes := rfl
@[simp] theorem Fabric.wakes_held (l) : ({ f with held := l }).wakes = f.wakes := rfl
@[simp] theorem Fabric.wakes_lateness (l) : ({ f with lateness := l }).wakes = f.wakes := rfl
@[simp] theorem Fabric.wakes_rxNow (b) : ({ f with rxNow := b }).wakes = f.wakes := rfl

end

@[simp] theorem State.ite_wakes {c : Prop} [Decidable c] (a b : State) :
    (if c then a else b).fab.wakes = if c then a.fab.wakes else b.fab.wakes := by
  split <;> rfl

@[simp] theorem State.each_wakes {α : Type} (s : State) (l : List α) {f : State → α → State}
    (h : ∀ t x, (f t x).fab.wakes = t.fab.wakes) : (s.each l f).fab.wakes = s.fab.wakes := by
  unfold State.each
  induction l generalizing s with
  | nil => rfl
  | cons x l ih => rw [List.foldl_cons, ih, h]

/-! #### Transfers -/

/-- A peel whose wake buffer stays. -/
@[simp] theorem State.modPeel_wakes (s : State) (p : Nat) {f : Peel → Peel} (h : ∀ q, (f q).wake = q.wake) :
    (s.modPeel p f).fab.wakes = s.fab.wakes := by
  funext k
  unfold Fabric.wakes State.modPeel
  dsimp only
  by_cases e : p = k
  · subst e
    rw [mgetD_mset_self]
    exact h _
  · rw [mgetD_mset_ne _ _ _ e]

@[simp] theorem State.leave_wakes (peel rack cls x) : (s.leave peel rack cls x).fab.wakes = s.fab.wakes := by
  unfold State.leave
  simp

@[simp] theorem State.send_wakes (peel rack cls x) : (s.send peel rack cls x).fab.wakes = s.fab.wakes := by
  unfold State.send
  split
  · simp
  · exact s.modPeel_wakes _ fun _ => rfl

@[simp] theorem State.issueWith_wakes (r flags) : (s.issueWith r flags).fab.wakes = s.fab.wakes := by
  unfold State.issueWith
  dsimp only
  split
  · rfl
  · split
    · simp
    · split
      · simp
      · split
        · simp
        · next i _ t x sealed =>
          have fab : t.fab = s.fab := by
            split at sealed
            · cases sealed; rfl
            · exact State.sealXfer_fab sealed
          simp [fab]

@[simp] theorem State.issue_wakes (c cls typ dst body payload why tag flags) :
    (s.issue c cls typ dst body payload why tag flags).fab.wakes = s.fab.wakes := State.issueWith_wakes _ _

@[simp] theorem State.respond_wakes (peel x status body) : (s.respond peel x status body).fab.wakes = s.fab.wakes := by
  unfold State.respond
  dsimp only
  split
  · rfl
  · split
    · rfl
    · next e => simp [State.sealXfer_fab e]

/-! #### Signs of a lost member -/

@[simp] theorem State.modSign_wakes (c p f) : (s.modSign c p f).fab.wakes = s.fab.wakes := rfl

@[simp] theorem State.raiseSuspect_wakes (c p reason n) : (s.raiseSuspect c p reason n).fab.wakes = s.fab.wakes := by
  unfold State.raiseSuspect
  simp

@[simp] theorem State.suspectIn_wakes (c p reason) : (s.suspectIn c p reason).fab.wakes = s.fab.wakes := by
  unfold State.suspectIn
  simp

@[simp] theorem State.lostIn_wakes (c p reason) : (s.lostIn c p reason).fab.wakes = s.fab.wakes := by
  unfold State.lostIn
  simp

@[simp] theorem State.lost_wakes (p reason) : (s.lost p reason).fab.wakes = s.fab.wakes := by
  unfold State.lost
  simp

@[simp] theorem State.reject_wakes (peel k c p reason batch) : (s.reject peel k c p reason batch).fab.wakes = s.fab.wakes := by
  unfold State.reject
  simp

@[simp] theorem State.noteReply_wakes (p) : (s.noteReply p).fab.wakes = s.fab.wakes :=
  State.each_wakes _ _ fun t c => t.modSign_wakes c p _

/-! #### Proving counters -/

@[simp] theorem State.wakeWaiters_wakes (k) : (s.wakeWaiters k).fab.wakes = s.fab.wakes := by
  unfold State.wakeWaiters
  simp

@[simp] theorem State.ctrOp_wakes (k op v) : (s.ctrOp k op v).fab.wakes = s.fab.wakes := by
  unfold State.ctrOp
  simp

@[simp] theorem State.setCtr_wakes (k v) : (s.setCtr k v).fab.wakes = s.fab.wakes := State.ctrOp_wakes _ _ _

@[simp] theorem State.noteBarrier_wakes (c k p old) : (s.noteBarrier c k p old).fab.wakes = s.fab.wakes := by
  unfold State.noteBarrier
  dsimp only
  split
  · rfl
  · simp

@[simp] theorem State.serveCounter_wakes (peel x) : (s.serveCounter peel x).fab.wakes = s.fab.wakes := by
  unfold State.serveCounter
  simp

@[simp] theorem State.zeroCounters_wakes (c) : (s.zeroCounters c).fab.wakes = s.fab.wakes := by
  unfold State.zeroCounters
  dsimp only
  repeat' split
  all_goals simp

/-! #### Records of a member -/

@[simp] theorem State.sendPart_wakes (c dst member part odd l cls) :
    (s.sendPart c dst member part odd l cls).fab.wakes = s.fab.wakes := by
  unfold State.sendPart
  simp

@[simp] theorem State.shareRecord_wakes (c part odd l) : (s.shareRecord c part odd l).fab.wakes = s.fab.wakes := by
  unfold State.shareRecord
  dsimp only
  split <;> simp

@[simp] theorem State.shareRegions_wakes (c) : (s.shareRegions c).fab.wakes = s.fab.wakes := State.shareRecord_wakes _ _ _ _

@[simp] theorem State.sharePools_wakes (c) : (s.sharePools c).fab.wakes = s.fab.wakes := State.shareRecord_wakes _ _ _ _

@[simp] theorem State.shareBake_wakes (c f) : (s.shareBake c f).fab.wakes = s.fab.wakes := State.shareRecord_wakes _ _ _ _

@[simp] theorem State.shareLedger_wakes (c) : (s.shareLedger c).fab.wakes = s.fab.wakes := State.shareRecord_wakes _ _ _ _

@[simp] theorem State.shareAll_wakes (c) : (s.shareAll c).fab.wakes = s.fab.wakes := by
  unfold State.shareAll
  simp

@[simp] theorem State.keepPiece_wakes (c member part idx l) : (s.keepPiece c member part idx l).fab.wakes = s.fab.wakes := rfl

@[simp] theorem State.sendHeld_wakes (c member dst) : (s.sendHeld c member dst).fab.wakes = s.fab.wakes := by
  unfold State.sendHeld
  simp

@[simp] theorem State.loadExtent_wakes (c t cls) : (s.loadExtent c t cls).fab.wakes = s.fab.wakes := by
  unfold State.loadExtent
  simp

@[simp] theorem State.storeDir_wakes (c t w cls why tag) : (s.storeDir c t w cls why tag).fab.wakes = s.fab.wakes :=
  State.issue_wakes _ _ _ _ _ _ _ _ _

@[simp] theorem State.askRead_wakes (c t cls deadline) : (s.askRead c t cls deadline).fab.wakes = s.fab.wakes := by
  unfold State.askRead
  split
  · rfl
  · split
    · simp
    · split <;> simp

/-! #### Sums and decodes -/

@[simp] theorem State.modSum_wakes (p f) : (s.modSum p f).fab.wakes = s.fab.wakes := rfl

@[simp] theorem State.dropSum_wakes (p) : (s.dropSum p).fab.wakes = s.fab.wakes := rfl

@[simp] theorem State.dropJobs_wakes (f) : (s.dropJobs f).fab.wakes = s.fab.wakes := rfl

@[simp] theorem State.modDecode_wakes (id f) : (s.modDecode id f).fab.wakes = s.fab.wakes := rfl

@[simp] theorem State.sendSum_wakes (p dst) : (s.sendSum p dst).fab.wakes = s.fab.wakes := by
  unfold State.sendSum
  simp

@[simp] theorem State.pushSum_wakes (p) : (s.pushSum p).fab.wakes = s.fab.wakes := by
  unfold State.pushSum
  dsimp only
  split
  · rfl
  · split
    · exact State.dropSum_wakes _
    · split
      · rfl
      · split
        · rfl
        · generalize Option.map Prod.fst _ = mine
          generalize (match mine with | none => some p | some y => _ : Option PartSum) = whole
          split
          · split
            · exact State.askRead_wakes _ _ _ _
            · rfl
          · split
            · exact (State.dropSum_wakes _).trans (State.sendSum_wakes _ _)
            · exact State.modSum_wakes _ _

@[simp] theorem State.pushSums_wakes : s.pushSums.fab.wakes = s.fab.wakes := by
  unfold State.pushSums
  simp

@[simp] theorem State.sumAt_wakes (c b bake y o) : (s.sumAt c b bake y o).1.fab.wakes = s.fab.wakes := by
  unfold State.sumAt
  split <;> simp

@[simp] theorem State.askDecode_wakes (c why t b lost o bake cls tag) :
    (s.askDecode c why t b lost o bake cls tag).fab.wakes = s.fab.wakes := by
  unfold State.askDecode
  simp

@[simp] theorem State.askOwn_wakes (c why t cls tag) : (s.askOwn c why t cls tag).fab.wakes = s.fab.wakes := by
  unfold State.askOwn
  split <;> simp

@[simp] theorem State.askCrust_wakes (c b j offs cls) : (s.askCrust c b j offs cls).fab.wakes = s.fab.wakes := by
  unfold State.askCrust
  split <;> simp

@[simp] theorem State.takePart_wakes (c b bake y o mask piece l) :
    (s.takePart c b bake y o mask piece l).fab.wakes = s.fab.wakes := by
  unfold State.takePart
  dsimp only
  split
  · rw [State.pushSum_wakes, State.modSum_wakes, State.sumAt_wakes]
  · rw [State.modSum_wakes, State.sumAt_wakes]

@[simp] theorem State.serveDecodeReq_wakes (peel x) : (s.serveDecodeReq peel x).fab.wakes = s.fab.wakes := by
  unfold State.serveDecodeReq
  dsimp only
  repeat' split
  all_goals simp only [State.respond_wakes, State.each_wakes, implies_true, State.countCtx_fab, State.pushSum_wakes, State.modSum_wakes,
    State.sumAt_wakes]

@[simp] theorem State.serveCrumb_wakes (peel x) : (s.serveCrumb peel x).fab.wakes = s.fab.wakes := by
  unfold State.serveCrumb
  dsimp only
  repeat' split
  all_goals simp

@[simp] theorem State.serveNotice_wakes (peel x) : (s.serveNotice peel x).fab.wakes = s.fab.wakes := by
  unfold State.serveNotice
  simp

/-! #### Bakes and their crumbs -/

@[simp] theorem State.sealBake_wakes (c f step full) : (s.sealBake c f step full).fab.wakes = s.fab.wakes := by
  unfold State.sealBake
  simp

@[simp] theorem State.shipOne_wakes (c t b i o d body keeper row) : (s.shipOne c t b i o d body keeper row).fab.wakes = s.fab.wakes := by
  unfold State.shipOne
  simp

@[simp] theorem State.shipTo_wakes (c t k erased every) : (s.shipTo c t k erased every).fab.wakes = s.fab.wakes := by
  unfold State.shipTo
  dsimp only
  split <;> simp

@[simp] theorem State.ship_wakes (c t d planes erased) : (s.ship c t d planes erased).fab.wakes = s.fab.wakes := by
  unfold State.ship
  split <;> simp only [State.shipDone_fab, State.shipTo_wakes]

@[simp] theorem State.drainDecoded_wakes (c t v) : (s.drainDecoded c t v).fab.wakes = s.fab.wakes := by
  unfold State.drainDecoded
  dsimp only
  repeat' split
  all_goals simp

/-! #### Broadcasts -/

@[simp] theorem State.sendBcast_wakes (c dst b phase pl) : (s.sendBcast c dst b phase pl).fab.wakes = s.fab.wakes :=
  State.issue_wakes _ _ _ _ _ _ _ _ _

@[simp] theorem State.sendUp_wakes (c dst b pos mask pl) : (s.sendUp c dst b pos mask pl).fab.wakes = s.fab.wakes :=
  State.issue_wakes _ _ _ _ _ _ _ _ _

@[simp] theorem State.spread_wakes (c b pl) : (s.spread c b pl).fab.wakes = s.fab.wakes := by
  unfold State.spread
  dsimp only
  split <;> simp

@[simp] theorem State.joinNow_wakes (c recs detail) : (s.joinNow c recs detail).fab.wakes = s.fab.wakes := by
  unfold State.joinNow
  dsimp only
  repeat' split
  all_goals simp

@[simp] theorem State.rootDone_wakes (c b) : (s.rootDone c b).fab.wakes = s.fab.wakes := by
  unfold State.rootDone
  dsimp only
  split <;> simp

@[simp] theorem State.bcastReady_wakes (c kind orig) : (s.bcastReady c kind orig).fab.wakes = s.fab.wakes := by
  unfold State.bcastReady
  dsimp only
  repeat' split
  all_goals simp

@[simp] theorem State.skipChild_wakes (c kind orig child report) : (s.skipChild c kind orig child report).fab.wakes = s.fab.wakes := by
  unfold State.skipChild
  dsimp only
  repeat' split
  all_goals simp

@[simp] theorem State.skipIn_wakes (c child gen report) : (s.skipIn c child gen report).fab.wakes = s.fab.wakes := by
  unfold State.skipIn
  simp

@[simp] theorem State.liftFence_wakes (c p tray) : (s.liftFence c p tray).fab.wakes = s.fab.wakes := by
  unfold State.liftFence
  simp

@[simp] theorem State.takePhase2_wakes (c b pl) : (s.takePhase2 c b pl).fab.wakes = s.fab.wakes := by
  unfold State.takePhase2
  simp

@[simp] theorem State.newBcast_wakes (peel t c kind orig phase gen p tray) :
    (s.newBcast peel t c kind orig phase gen p tray).fab.wakes = s.fab.wakes := by
  unfold State.newBcast
  simp

@[simp] theorem State.serveBcast_wakes (peel x) : (s.serveBcast peel x).fab.wakes = s.fab.wakes := by
  unfold State.serveBcast
  dsimp only
  repeat' split
  all_goals simp

@[simp] theorem State.serveUp_wakes (peel x) : (s.serveUp peel x).fab.wakes = s.fab.wakes := by
  unfold State.serveUp
  dsimp only
  repeat' split
  all_goals simp

/-! #### Rollback and adoption -/

@[simp] theorem State.restoreUnknown_wakes (c t tag) : (s.restoreUnknown c t tag).fab.wakes = s.fab.wakes := by
  unfold State.restoreUnknown
  dsimp only
  repeat' split
  all_goals simp

@[simp] theorem State.restoreTiles_wakes (c tag) : (s.restoreTiles c tag).fab.wakes = s.fab.wakes := by
  unfold State.restoreTiles
  dsimp only
  rw [State.relieveAll_fab, State.modCtx_fab]
  refine State.each_wakes _ _ fun u i => ?_
  split
  · simp
  · split <;> simp

@[simp] theorem State.endRollback_wakes (c tag) : (s.endRollback c tag).fab.wakes = s.fab.wakes := by
  unfold State.endRollback
  dsimp only
  split
  · simp
    split <;> simp
  · split <;> simp <;> split <;> simp

@[simp] theorem State.runRollback_wakes (c tag) : (s.runRollback c tag).fab.wakes = s.fab.wakes := by
  unfold State.runRollback
  dsimp only
  repeat' split
  all_goals simp

@[simp] theorem State.adoptNext_wakes (c) : (s.adoptNext c).fab.wakes = s.fab.wakes := by
  unfold State.adoptNext
  dsimp only
  repeat' split
  all_goals simp

@[simp] theorem State.adoptStep_wakes (c) : (s.adoptStep c).fab.wakes = s.fab.wakes := by
  unfold State.adoptStep
  dsimp only
  repeat' split
  all_goals simp

@[simp] theorem State.serveRecord_wakes (peel x) : (s.serveRecord peel x).fab.wakes = s.fab.wakes := by
  unfold State.serveRecord
  dsimp only
  repeat' split
  all_goals simp

/-! #### Moves between the tiers, and exports -/

@[simp] theorem State.demoteStored_wakes (c t ok) : (s.demoteStored c t ok).fab.wakes = s.fab.wakes := by
  unfold State.demoteStored
  dsimp only
  repeat' split
  all_goals simp

@[simp] theorem State.directoryDone_wakes (c t ok) : (s.directoryDone c t ok).fab.wakes = s.fab.wakes := by
  unfold State.directoryDone
  dsimp only
  repeat' split
  all_goals simp

@[simp] theorem State.writeHome_wakes (c t j v) : (s.writeHome c t j v).fab.wakes = s.fab.wakes := by
  unfold State.writeHome
  simp

@[simp] theorem State.loadFailed_wakes (c t j) : (s.loadFailed c t j).fab.wakes = s.fab.wakes := by
  unfold State.loadFailed
  dsimp only
  split
  · simp
  · split <;> rw [State.writeHome_wakes] <;> simp only [State.emit_fab, State.countCtx_fab, State.freeTile_fab]

@[simp] theorem State.promoteDecoded_wakes (c t v) : (s.promoteDecoded c t v).fab.wakes = s.fab.wakes := by
  unfold State.promoteDecoded
  dsimp only
  repeat' split
  all_goals simp

@[simp] theorem State.extentLoaded_wakes (c t piece l) : (s.extentLoaded c t piece l).fab.wakes = s.fab.wakes := by
  unfold State.extentLoaded
  dsimp only
  repeat' split
  all_goals simp

@[simp] theorem State.abandonExport_wakes (c) : (s.abandonExport c).fab.wakes = s.fab.wakes := by
  unfold State.abandonExport
  simp

@[simp] theorem State.exportBegun_wakes (c tag) : (s.exportBegun c tag).fab.wakes = s.fab.wakes := by
  unfold State.exportBegun
  repeat' split
  all_goals simp

@[simp] theorem State.exportDecoded_wakes (c t tag v) : (s.exportDecoded c t tag v).fab.wakes = s.fab.wakes := by
  unfold State.exportDecoded
  repeat' split
  all_goals simp

/-! #### Decodes that end -/

@[simp] theorem State.finishJob_wakes (j v) : (s.finishJob j v).fab.wakes = s.fab.wakes := by
  unfold State.finishJob
  dsimp only
  repeat' split
  all_goals simp

@[simp] theorem State.decodeAnswered_wakes (id from_ status) : (s.decodeAnswered id from_ status).fab.wakes = s.fab.wakes := by
  unfold State.decodeAnswered
  dsimp only
  split <;> simp

@[simp] theorem State.decodeTimedOut_wakes (id) : (s.decodeTimedOut id).fab.wakes = s.fab.wakes := by
  unfold State.decodeTimedOut
  simp

@[simp] theorem State.takeResult_wakes (j mask piece l) : (s.takeResult j mask piece l).fab.wakes = s.fab.wakes := by
  unfold State.takeResult
  dsimp only
  split <;> simp

@[simp] theorem State.serveDecodePart_wakes (peel x) : (s.serveDecodePart peel x).fab.wakes = s.fab.wakes := by
  unfold State.serveDecodePart
  dsimp only
  split
  · simp
  · split
    · simp
    · refine (State.each_wakes _ _ fun t j => ?_).trans (State.respond_wakes _ _ _ _)
      split <;> simp

/-! #### Requests that end -/

@[simp] theorem State.freeReq_wakes (r) : (s.freeReq r).fab.wakes = s.fab.wakes := rfl

@[simp] theorem State.retryLater_wakes (r) : (s.retryLater r).fab.wakes = s.fab.wakes := rfl

@[simp] theorem State.reissue_wakes (r) : (s.reissue r).fab.wakes = s.fab.wakes := by
  unfold State.reissue
  simp

@[simp] theorem State.verdictEnds_wakes (r e) : (s.verdictEnds r e).fab.wakes = s.fab.wakes := by
  unfold State.verdictEnds
  dsimp only
  repeat' split
  all_goals simp

@[simp] theorem State.riskEnds_wakes (r e) : (s.riskEnds r e).fab.wakes = s.fab.wakes := by
  unfold State.riskEnds
  dsimp only
  repeat' split
  all_goals simp

@[simp] theorem State.commitEnds_wakes (r e) : (s.commitEnds r e).fab.wakes = s.fab.wakes := by
  unfold State.commitEnds
  simp

@[simp] theorem State.adoptEnds_wakes (r e) : (s.adoptEnds r e).fab.wakes = s.fab.wakes := by
  unfold State.adoptEnds
  dsimp only
  repeat' split
  all_goals simp

@[simp] theorem State.endReq_wakes (r e) : (s.endReq r e).fab.wakes = s.fab.wakes := by
  unfold State.endReq
  dsimp only
  repeat' split
  all_goals simp

@[simp] theorem State.lateArrival_wakes (peel x) : (s.lateArrival peel x).fab.wakes = s.fab.wakes := by
  unfold State.lateArrival
  simp

@[simp] theorem State.takeResponse_wakes (peel r x) : (s.takeResponse peel r x).fab.wakes = s.fab.wakes := by
  unfold State.takeResponse
  simp

@[simp] theorem State.serveHeld_wakes (peel x) : (s.serveHeld peel x).fab.wakes = s.fab.wakes := by
  unfold State.serveHeld
  dsimp only
  repeat' split
  all_goals simp

end Sys2Proof.Machine
namespace Sys2Proof.Machine

variable {s t : State}

/-! ### Heat -/

section
variable {i : Nat}

/-- A stack whose sensor failed takes the hottest other reading, with the margin and its own offset (R60). -/
theorem State.tempOf_failed {m : Int} (failed : (s.slice i).sensorFailed = true) (hottest : maxInt (s.otherReadings i) = some m) :
    s.tempOf i = (s, m + s.sensorMargin + s.sensorOffset i) := by
  unfold State.tempOf
  dsimp only
  rw [if_pos failed, hottest]

/-- The other stacks' readings are of the other slices. -/
theorem State.otherReadings_congr (boot : t.boot = s.boot) (others : ∀ k, k ≠ i → t.slice k = s.slice k) :
    t.otherReadings i = s.otherReadings i := by
  have present : t.presentSlices = s.presentSlices := by
    unfold State.presentSlices State.present State.sensed State.slicesOfPart State.partS State.page
    rw [boot]
  have reads (k : Nat) : (k != i && !(t.slice k).sensorFailed && decide ((t.slice k).therm ≠ 0x200))
      = (k != i && !(s.slice k).sensorFailed && decide ((s.slice k).therm ≠ 0x200)) := by
    by_cases h : k = i
    · simp [h]
    · rw [others k h]
  unfold State.otherReadings
  rw [present]
  simp only [reads]
  refine List.map_congr_left fun k hk => ?_
  have other : k ≠ i := by
    have := (List.mem_filter.mp hk).2
    simp_all
  rw [others k other]

/-- An event is sent or counted, and nothing else changes. -/
theorem State.emit_kept (s : State) (code sev : Nat) (x : Option Nat) (pl : List (Nat × Nat)) :
    Kept (fun p => p = .link ∨ p = .engCtr) s (s.emit code sev x pl) :=
  (Kept.refl _ s).emit (.inl rfl) (.inr rfl) _ _ _ _

theorem State.emit_slice (s : State) (code sev : Nat) (x : Option Nat) (pl : List (Nat × Nat)) (k : Nat) :
    (s.emit code sev x pl).slice k = s.slice k :=
  State.slice_of_slices ((s.emit_kept code sev x pl).same .slices (by decide)) k

theorem State.tempOf_slice (s : State) (k : Nat) : (s.tempOf i).1.slice k = s.slice k :=
  State.slice_of_slices (((Kept.refl (· = .freeIdx) s).tempOf rfl i).same .slices (by decide)) k

/-- The stack's sensor counts as failed. -/
def State.markFailed (s : State) (i : Nat) : State := s.modSlice i (fun sl => { sl with sensorFailed := true })

theorem State.markFailed_failed (s : State) (i : Nat) : ((s.markFailed i).slice i).sensorFailed = true := by
  unfold State.markFailed
  rw [State.modSlice_slice_self]

theorem State.markFailed_slice_ne (s : State) {k : Nat} (h : k ≠ i) : (s.markFailed i).slice k = s.slice k :=
  State.modSlice_slice_ne _ _ h.symm

theorem State.failSensor_eq (s : State) (i : Nat) : s.failSensor i = ((s.markFailed i).tempOf i).1.emit 0x0061 2 none
    [(0, i), (1, 1), (2, (BitVec.ofInt 16 ((s.markFailed i).tempOf i).2).toNat)] := rfl

theorem State.failSensor_slice (s : State) (i k : Nat) : (s.failSensor i).slice k = (s.markFailed i).slice k := by
  rw [State.failSensor_eq, State.emit_slice, State.tempOf_slice]

/-- A stack that is judged takes the temperature found for it. -/
theorem State.judgeTemp_slice (s : State) (i : Nat) : ∃ cap hot, (s.judgeTemp i).slice i =
    { s.slice i with effTemp := BitVec.ofInt 16 (s.tempOf i).2, capped := cap, thermHot := hot } := by
  unfold State.judgeTemp
  dsimp only
  split
  all_goals try rw [State.emit_slice]
  all_goals rw [State.modSlice_slice_self, State.tempOf_slice]; exact ⟨_, _, rfl⟩

theorem State.judgeTemp_freeIdx (s : State) (i : Nat) : (s.judgeTemp i).freeIdx = (s.tempOf i).1.freeIdx := by
  have noted (u : State) (f : Slice → Slice) (code sev : Nat) (x : Option Nat) (pl : List (Nat × Nat)) :
      ((u.modSlice i f).emit code sev x pl).freeIdx = u.freeIdx := ((u.modSlice i f).emit_kept code sev x pl).same .freeIdx (by decide)
  unfold State.judgeTemp
  dsimp only
  split
  · exact noted _ _ _ _ _ _
  · rfl

/-- The sensor that stands still counts as failed. -/
theorem sensorStale_slice (s : State) (i : Nat) : (((s.failSensor i).judgeTemp i).slice i).sensorFailed = true := by
  obtain ⟨cap, hot, judged⟩ := (s.failSensor i).judgeTemp_slice i
  rw [judged]
  dsimp only
  rw [State.failSensor_slice, State.markFailed_failed]

/-- Where another sensor reads, the stack takes its reading and no free value. -/
theorem sensorStale_hottest {m : Int} (hottest : maxInt (s.otherReadings i) = some m) :
    (((s.failSensor i).judgeTemp i).slice i).effTemp = BitVec.ofInt 16 (m + s.sensorMargin + s.sensorOffset i)
      ∧ ((s.failSensor i).judgeTemp i).freeIdx = s.freeIdx := by
  have first := State.tempOf_failed (s.markFailed_failed i)
    ((congrArg maxInt (State.otherReadings_congr (s := s) (t := s.markFailed i) rfl fun k => s.markFailed_slice_ne)).trans hottest)
  have kept : Kept (fun p => p = .link ∨ p = .engCtr) (s.markFailed i) (s.failSensor i) := by
    rw [State.failSensor_eq, first]
    exact State.emit_kept _ _ _ _ _
  have boot : (s.failSensor i).boot = s.boot := kept.same .boot (by decide)
  have win : (s.failSensor i).win = s.win := kept.same .win (by decide)
  have others : maxInt ((s.failSensor i).otherReadings i) = some m := by
    refine (congrArg maxInt (State.otherReadings_congr boot fun k hk => ?_)).trans hottest
    rw [State.failSensor_slice, State.markFailed_slice_ne _ hk]
  have second := State.tempOf_failed (by rw [State.failSensor_slice]; exact s.markFailed_failed i) others
  have margin : (s.failSensor i).sensorMargin = s.sensorMargin := by
    unfold State.sensorMargin CalField.value CalField.raw State.page
    rw [boot]
  have offset : (s.failSensor i).sensorOffset i = s.sensorOffset i := by
    unfold State.sensorOffset State.trim CalField.value CalField.raw State.page
    rw [boot, win]
  obtain ⟨cap, hot, judged⟩ := (s.failSensor i).judgeTemp_slice i
  rw [judged, State.judgeTemp_freeIdx, second, margin, offset]
  exact ⟨rfl, kept.same .freeIdx (by decide)⟩

end

/-! ### Power and risk -/

/-- A change of the risk level is counted, whatever becomes of its event (R448). -/
theorem State.riskEvent_counted (s : State) (new old score : Nat) :
    mgetD (s.riskEvent new old score).engCtr 105 0 = mgetD s.engCtr 105 0 + 1 := by
  have uncounted (u : State) (code sev : Nat) (x : Option Nat) (pl : List (Nat × Nat)) :
      mgetD (u.emit code sev x pl).engCtr 105 0 = mgetD u.engCtr 105 0 := by
    unfold State.emit
    dsimp only
    split_ifs
    · rfl
    · exact State.count_engCtr_ne 1 (by decide)
    · exact State.count_engCtr_ne 1 (by decide)
    · rfl
  unfold State.riskEvent
  rw [uncounted]
  exact State.count_engCtr_self _ _ _

/-- The requested operating point is in force. -/
def State.acked (s : State) : State := { s with power := { s.power with opAck := true, opOld := s.power.opReq } }

theorem State.acked_stopped (s : State) : s.acked.stopped = decide (s.power.opReq = 3) := by
  unfold State.stopped State.acked
  dsimp only
  rw [Bool.not_true, Bool.and_false, Bool.or_false]

/-- What the wake buffers hold is served, peel by peel. -/
def State.drainWake (s : State) (p : Nat) : State :=
  (s.modPeel p (fun q => { q with wake := [] })).each (s.peel p).wake (fun s x => s.serveHeld p x)

theorem execPowerStateAck_unacked (up : s.up = true) (waits : s.power.opAck = false) :
    exec .powerStateAck s = .next (if s.power.opReq = 3 then s.acked else (s.acked.drainWake 0).drainWake 1) := by
  refine (if_neg (by simp [up, waits]) : execPowerStateAck s = _).trans ?_
  change (if s.acked.stopped = true then _ else _) = _
  rw [State.acked_stopped]
  by_cases stops : s.power.opReq = 3
  · rw [if_pos (decide_eq_true stops), if_pos stops]
    rfl
  · rw [if_neg (by simpa using stops), if_neg stops]
    rfl

/-- What a buffer held has been served, and serving it fills none. -/
theorem State.drainWake_wakes (s : State) (p q : Nat) : (s.drainWake p).fab.wakes q = if q = p then [] else s.fab.wakes q := by
  unfold State.drainWake
  rw [State.each_wakes _ _ fun t x => t.serveHeld_wakes p x]
  unfold Fabric.wakes State.modPeel
  dsimp only
  split
  · next h => rw [h, mgetD_mset_self]
  · next h => rw [mgetD_mset_ne _ _ _ (Ne.symm h)]

theorem State.drainWake_power (s : State) (p : Nat) : (s.drainWake p).power = s.power := by
  have kept : Kept (· ≠ .power) s (s.drainWake p) := by
    unfold State.drainWake
    refine Kept.each ((Kept.refl _ s).modPeel (by decide) _ _) fun t x kept => ?_
    apply kept.serveHeld <;> decide
  exact kept.same .power (by simp)

/-- The counters of a slice's bank. -/
theorem State.countSlice_self (s : State) (i b : Nat) :
    mgetD (s.countSlice i b).slcCtr (80 * i + b) 0 = mgetD s.slcCtr (80 * i + b) 0 + 1 := by
  rw [Nat.mul_comm 80 i]
  exact mgetD_mset_self _ _ _ _

theorem State.countSlice_ne (s : State) (i : Nat) {a b : Nat} (n : Nat) (h : a ≠ b) :
    mgetD (s.countSlice i a n).slcCtr (80 * i + b) 0 = mgetD s.slcCtr (80 * i + b) 0 := by
  unfold State.countSlice
  split
  · rfl
  · exact mgetD_mset_ne _ _ _ (by omega)

/-- Settles O57: each event is its own branch of the model; a wake buffer that was drained stays empty, for what is served fills none. -/
theorem powerHeatAndRiskEvents : Obligations.PowerHeatAndRiskEvents := by
  unfold Obligations.PowerHeatAndRiskEvents
  intro s
  refine ⟨fun live below due high fresh => ?_, fun idle => ?_, fun live above first => ?_, fun idle => ?_,
    fun i live present reads still => ?_, fun i idle => ?_, fun up unacked => ?_, fun acked => ?_, fun i up present asked => ?_⟩
  · have raised : ¬ s.health.level = 0#3 := high
    have kept (u : State) (new old score : Nat) : Kept (fun p => p = .link ∨ p = .engCtr) u (u.riskEvent new old score) :=
      (Kept.refl _ u).riskEvent (.inl rfl) (.inr rfl) _ _ _
    exact ⟨_, if_neg (by simp [live, below, due, raised, fresh]), (kept _ _ _ _).same .health (by decide),
      State.riskEvent_counted _ _ _ _⟩
  · exact if_pos (by obtain h | h := idle <;> simp [h])
  · exact ⟨_, if_neg (by obtain h | h := first <;> simp [live, above, h]), (State.emit_kept _ _ _ _ _).same .power (by decide)⟩
  · exact if_pos (by obtain h | h := idle <;> simp [h])
  · exact ⟨_, if_pos (by simp [live, present, reads, still]), sensorStale_slice s i, fun m hottest => sensorStale_hottest hottest⟩
  · exact if_neg (by obtain h | h := idle <;> simp [h])
  · refine ⟨_, execPowerStateAck_unacked up unacked, ?_, fun running p hp => ?_, fun stops => ?_⟩
    · split
      · rfl
      · rw [State.drainWake_power, State.drainWake_power]; rfl
    · rw [if_neg running]
      change Fabric.wakes _ p = []
      rw [State.drainWake_wakes, State.drainWake_wakes]
      split
      · rfl
      · exact if_pos (by omega)
    · rw [if_pos stops]; rfl
  · exact if_pos (by simp [acked])
  · refine ⟨_, if_neg (by simp [up, present, asked]), ?_, ?_⟩
    · rw [State.slice_of_slices (State.countSlice_slices ..), State.slice_of_slices (State.countSlice_slices ..),
        State.modSlice_slice_self]
      simp only [decide_eq_true_eq]
    · rw [State.countSlice_ne _ _ _ (by decide), State.countSlice_self]
      rfl

end Sys2Proof.Machine
namespace Sys2Proof.Machine

variable {s : State} {r : CmdRow} {c : Cmd}

/-! ### Commands answered as they are taken -/

theorem State.reply_answered (live : s.live = true) (op : Byte) (c : Cmd) (n d : Nat) :
    s.reply op c.cid c.tag n d = s.answered op c n d := if_neg (by simp [live])

theorem State.taken_fieldLock (s : State) (c : Cmd) : (s.taken c).fieldLock = s.fieldLock := by
  unfold State.fieldLock State.page State.taken
  simp

theorem State.taken_slices (s : State) (c : Cmd) : (s.taken c).slices = s.slices := by
  unfold State.taken
  simp

/-- A command that fails a check of its header is answered with that check's status and detail, and has no effect (R95). -/
theorem exec_badHeader {i : Instr} (hi : Instr.cmdRow? i = some (r, c)) (ho : (rowOf r.op).op = r.op) (h : s.Offers c) {e : Bad}
    (bad : (s.taken c).headerBad (rowOf r.op) c = some e) : exec i s = .next ((s.taken c).answered r.op c e.1 e.2) := by
  rw [exec_cmdRow hi, State.runCmd_offers h h.free_taken, bad]
  dsimp only
  unfold State.refuse
  rw [ho, State.reply_answered (State.taken_live h.accepts)]

/-- CHECKBIT_WRITE, RAW_READ and GATE_FORCE are diagnostics that a field-locked die refuses (Table 4.4). -/
def Diagnostic (op : Byte) : Prop := op = 0xC0 ∨ op = 0xC1 ∨ op = 0xC2

theorem Diagnostic.rowOf_op {op : Byte} (h : Diagnostic op) : (rowOf op).op = op := by
  obtain rfl | rfl | rfl := h <;> decide

/-- No diagnostic is a knead opcode, so none is missing from a die. -/
theorem Diagnostic.opAbsent {op : Byte} (h : Diagnostic op) : s.opAbsent op = false := by
  unfold State.opAbsent
  obtain rfl | rfl | rfl := h <;> rfl

/-- The first check that a well-formed diagnostic meets on a field-locked die is the lock. -/
theorem State.headerBad_locked {op : Byte} (hop : Diagnostic op) (lock : s.fieldLock = true) (len : c.len = lenOf op c)
    (count : c.n ≠ 0xFFFFFFFF) : s.headerBad (rowOf op) c = some (0x0F00, 0) := by
  have count' : c.count ≠ BitVec.allOnes 32 := fun h => count (by unfold Cmd.n; rw [h]; rfl)
  unfold State.headerBad
  rw [hop.rowOf_op, hop.opAbsent, if_neg (by decide), if_neg (not_not_intro len), if_neg count']
  exact if_pos ⟨lock, hop⟩

/-! ### Commands that answer after their work -/

/-- The parts that a final reply neither writes nor reads. -/
abbrev offReply : Part → Prop := fun p => p ≠ .boot ∧ p ≠ .link ∧ p ≠ .frames

/-- A command that works on other parts of the state than a reply speaks of, and is then done: its work stands, and the link is
as its answer leaves it. -/
theorem exec_finishes_after {i : Instr} (hi : Instr.cmdRow? i = some (r, c)) (ho : (rowOf r.op).op = r.op) (ht : r.take = noTake)
    (h : s.Starts r c) (hu : s.unwatched c = true) {v : State} {n d : Nat} (work : Kept offReply (s.begun r c) v)
    (he : r.eff c (s.begun r c) = v.finish c.cid c.tag n d) :
    exec i s = .next { v with link := ((s.taken c).answered r.op c n d).link } := by
  rw [State.begun_eq ht h.toOffers] at work
  have link : v.link = { (s.taken c).link with
      admitted := (s.taken c).link.admitted ++ [(s.taken c).newBegun (rowOf r.op) c 0] } := work.same .link (by decide)
  have frames : v.frames = (s.taken c).frames := work.same .frames (by decide)
  have live : v.live = true :=
    (State.live_congr (t := s.taken c) (work.same .boot (by decide))).trans (State.taken_live h.accepts)
  have admitted : v.withAdm ((s.taken c).link.admitted ++ [(s.taken c).newBegun (rowOf r.op) c 0]) = v := by
    unfold State.withAdm
    rw [link]
    exact congrArg (fun l => { v with link := l }) link.symm
  have final : v.finish c.cid c.tag n d = { v with link := ((s.taken c).answered r.op c n d).link } := by
    rw [← admitted, State.finish_last n d live h.free_taken (State.newBegun_isAt _ _ _ _) (State.unwatchedIn_begun hu _)]
    unfold State.reply State.withAdm State.answered
    rw [if_neg (by simp [live])]
    simp only [State.newBegun, State.newAdm, ho, link, frames]
  have gone : State.adm? { v with link := ((s.taken c).answered r.op c n d).link } c.cid c.tag = none := h.free_taken
  rw [exec_cmdRow hi, State.runCmd_starts h, he, final]
  unfold State.ack
  rw [gone, if_neg (by simp)]

/-! ### GATE_FORCE, CHECKBIT_WRITE and RAW_READ -/

/-- The rows of the three in Table 4.4. -/
def gateForceRow : CmdRow := ⟨0xC2, noFields, chkGateForce, noBytes, noTake, effGateForce⟩
def checkbitRow : CmdRow := ⟨0xC0, fieldsCheckbit, chkCheckbit, noBytes, noTake, effCheckbit⟩
def rawReadRow : CmdRow := ⟨0xC1, fieldsRawRead, chkRawRead, noBytes, noTake, effRawRead⟩

theorem TileState.ofCode_eq_held_iff (n : Nat) : TileState.ofCode n = .held ↔ n % 4 = 1 := by
  unfold TileState.ofCode
  split <;> simp_all

/-- The two-bit field of GATE_FORCE names HELD by code 1 (R62). -/
theorem TileState.ofCode_fld_eq_held_iff (x : Word) : TileState.ofCode (fld x 0 2) = .held ↔ fld x 0 2 = 1 := by
  have below : fld x 0 2 < 4 := Nat.mod_lt _ (by decide)
  rw [TileState.ofCode_eq_held_iff, Nat.mod_eq_of_lt below]

/-- The tile is held for the reasons `left` alone and takes the state given; it clears if nothing holds it (R72, R74). -/
def Slice.force (sl : Slice) (t : Nat) (left : BitVec 8) (st : TileState) : Slice :=
  ({ sl with holds := mput sl.holds t (if left = 0 then none else some left) }.setState t st).settle t

/-- What GATE_FORCE does to the slice that it names: the forced reason begins, or ends with the state given. -/
def gateForced (c : Cmd) (sl : Slice) : Slice :=
  let t := fld c.a 16 21
  if fld c.b 0 2 = 1 then sl.hold t .forced else sl.force t (mgetD sl.holds t 0 &&& 0x7F) (TileState.ofCode (fld c.b 0 2))

/-- An update of a slice counts by what it makes of that slice. -/
theorem State.modSlice_congr {i : Nat} {f g : Slice → Slice} (h : f (s.slice i) = g (s.slice i)) :
    s.modSlice i f = s.modSlice i g := by
  unfold State.modSlice
  rw [h]

theorem effGateForce_eq (c : Cmd) (s : State) :
    effGateForce c s = (s.modSlice (fld c.a 0 5) (gateForced c)).finish c.cid c.tag 0
      (((s.slice (fld c.a 0 5)).state (fld c.a 16 21)).code) := by
  unfold effGateForce gateForced
  simp only [TileState.ofCode_fld_eq_held_iff]
  split
  · rfl
  · rfl

/-- GATE_FORCE changes its slice and is DONE with the state that the tile had. -/
theorem exec_gateForce (hs : s.Starts gateForceRow c) (hu : s.unwatched c = true) :
    exec (.gateForce c) s = .next (((s.taken c).modSlice (fld c.a 0 5) (gateForced c)).answered 0xC2 c 0
      (((s.slice (fld c.a 0 5)).state (fld c.a 16 21)).code)) := by
  have run := exec_finishes_after (i := .gateForce c) (r := gateForceRow) rfl (by decide) rfl hs hu
    ((Kept.refl offReply _).modSlice (by decide) (fld c.a 0 5) (gateForced c)) (effGateForce_eq c _)
  have found : (s.begun gateForceRow c).slice (fld c.a 0 5) = s.slice (fld c.a 0 5) :=
    State.slice_of_slices ((State.begun_kept (r := gateForceRow) rfl hs.toOffers).same .slices (by decide)) _
  rw [run, found, State.begun_eq rfl hs.toOffers]
  rfl

/-- CHECKBIT_WRITE records the word at its internal address. -/
theorem exec_checkbitWrite (hs : s.Starts checkbitRow c) (hu : s.unwatched c = true) :
    ∃ w : RawWord, w.data = c.b ∧ w.chk = BitVec.ofNat 16 (fld (c.param 0) 0 16)
      ∧ exec (.checkbitWrite c) s = .next (State.answered { s.taken c with sram := mset s.sram (fld c.a 0 28) w } 0xC0 c 0 0) := by
  have kept := State.begun_kept (r := checkbitRow) rfl hs.toOffers
  refine ⟨⟨c.b, _, (s.begun checkbitRow c).unitWord (iaUnit (fld c.a 0 28)) (iaSlice (fld c.a 0 28)) (iaWord (fld c.a 0 28))⟩,
    rfl, rfl, ?_⟩
  have run := exec_finishes_after (i := .checkbitWrite c) (r := checkbitRow) rfl (by decide) rfl hs hu
    ((Kept.refl offReply _).set_sram (by decide) fun h => mwf_mset h _ _) rfl
  rw [run, kept.same .sram (by decide), State.begun_eq rfl hs.toOffers]
  rfl

/-- The 64 bytes that RAW_READ returns: the stored data, its check bits, its valid bit and zeros (R430). -/
def rawLine (e : State × Word × BitVec 16 × Bool) : List Byte :=
  bytesOfWord e.2.1 ++ bytesOfNat 2 e.2.2.1.toNat ++ [if e.2.2.2 then 1 else 0] ++ List.replicate 53 0

/-- RAW_READ writes its line at its buffer and is DONE with the check bits. -/
theorem exec_rawRead (hs : s.Starts rawReadRow c) (hu : s.unwatched c = true) :
    let e := (s.begun rawReadRow c).rawWord (fld c.a 0 28)
    exec (.rawRead c) s = .next { e.1.portDie c.b.toNat (rawLine e) with
      link := ((s.taken c).answered 0xC1 c 0 e.2.2.1.toNat).link } := by
  intro e
  have read : Kept offReply (s.begun rawReadRow c) e.1 := (Kept.refl offReply _).rawWord (by decide) _
  have wrote : Kept offReply (s.begun rawReadRow c) (e.1.portDie c.b.toNat (rawLine e)) :=
    read.portDie (by decide) (by decide) (by decide) (by decide) (by decide) _ _
  exact exec_finishes_after (i := .rawRead c) (r := rawReadRow) rfl (by decide) rfl hs hu wrote rfl

/-- Settles O27: each of the three works on parts of the state that no reply speaks of and is then done; the lock is the first
check that a well-formed one of them meets. -/
theorem gateAndStorageCommandsComplete : Obligations.GateAndStorageCommandsComplete := by
  intro s c u
  have found : u.slice (fld c.a 0 5) = s.slice (fld c.a 0 5) := State.slice_of_slices (State.taken_slices s c) _
  refine ⟨fun ⟨_, _, hi, hs, hu⟩ held => ?_, fun ⟨_, _, hi, hs, hu⟩ other => ?_, fun ⟨_, _, hi, hs, hu⟩ => ?_,
    fun r hi hs hu => ?_, fun i r hop hi offers lock len count => ?_⟩
  · cases hi
    have hold : gateForced c (u.slice (fld c.a 0 5)) = (u.slice (fld c.a 0 5)).hold (fld c.a 16 21) .forced := if_pos held
    rw [exec_gateForce hs hu, State.modSlice_congr (g := fun sl => sl.hold (fld c.a 16 21) .forced) hold]
  · cases hi
    intro left
    have force : gateForced c (u.slice (fld c.a 0 5)) =
        (u.slice (fld c.a 0 5)).force (fld c.a 16 21) left (TileState.ofCode (fld c.b 0 2)) := by
      rw [found]
      exact if_neg other
    rw [exec_gateForce hs hu,
      State.modSlice_congr (g := fun sl => sl.force (fld c.a 16 21) left (TileState.ofCode (fld c.b 0 2))) force]
    rfl
  · cases hi
    exact exec_checkbitWrite hs hu
  · cases hi
    exact exec_rawRead hs hu
  · have diagnostic : Diagnostic r.op := by
      obtain rfl | rfl | rfl := hop <;> cases hi
      · exact .inr (.inr rfl)
      · exact .inl rfl
      · exact .inr (.inl rfl)
    exact exec_badHeader hi diagnostic.rowOf_op offers
      (State.headerBad_locked diagnostic ((State.taken_fieldLock s c).trans lock) len count)

end Sys2Proof.Machine
namespace Sys2Proof.Machine

variable {s : State} {r : CmdRow} {c : Cmd}

/-! ### Frames -/

/-- Settles O4: `exec_kept` says it of every command, with the parts that `Instr.parts` lists. -/
theorem everyCommandChangesOnlyItsParts : Obligations.EveryCommandChangesOnlyItsParts := fun i s =>
  have ⟨t, run, kept⟩ := exec_kept i s
  ⟨t, run, kept.queue, kept.same⟩

/-! ### ENGINE_READY -/

/-- With no mask set and room in the queue, EV_READY is queued with the next sequence number. -/
theorem State.emit_ready {pl : List (Nat × Nat)} (live : s.live = true) (mask : s.link.mask = 0)
    (room : s.link.evWaiting < Config.eventQueueMax) :
    s.emit 0x0010 0 none pl = { s with link := { s.link with
      evSeq := s.link.evSeq + 1,
      outq := s.link.outq ++ [.event (Event.mk 0x0010 0 0xFF s.frames.tick (payload pl) s.link.evSeq)] } } := by
  have unmasked : s.masks 0x0010 none = false := by
    unfold State.masks
    rw [mask]
    exact Bool.or_false _
  rw [State.emit_unmasked live (fun _ => unmasked)]
  exact if_neg (Nat.not_le.mpr room)

/-- The state that ENGINE_READY thaws, before EV_READY is sent (R81, R102, R461). -/
def State.thawed (s : State) (tick : Word) : State :=
  { s with
    boot := { s.boot with phase := .ready, bootFrz := false },
    frames := { s.frames with tick := tick, j := 3, frame := frameAt tick 3 },
    link := { s.link with fetchTo := s.link.cmdTail, bell := false } }

theorem State.thawed_live (calm : s.boot.fault = 0) (tick : Word) : (s.thawed tick).live = true := decide_eq_true calm

theorem State.makeReady_eq (s : State) (tick : Word) : s.makeReady tick = (s.thawed tick).emit 0x0010 0 none
    [(0, s.boot.version.toNat), (4, fld s.lyxCaps 8 24), (7, s.peelsPresent), (8, fld (s.page 0) 64 64)] := rfl

/-- Settles O8: the thawed state is live and its link as before, so that EV_READY goes out; a ring disabled is the other branch. -/
theorem engineReadyThaws : Obligations.EngineReadyThaws := by
  intro s tick waits lock
  have ready : execEngineReady tick s = if ringOk s.link.cmdSize && ringOk s.link.evSize then .next (s.makeReady tick)
      else .next { s with boot := { s.boot with phase := .ringWait } } := if_pos ⟨waits, lock⟩
  refine ⟨fun cmd ev calm mask room => ?_, fun off => ready.trans (if_neg ?_)⟩
  · refine ready.trans ((if_pos (by rw [cmd, ev]; rfl)).trans (congrArg Host.Outcome.next ?_))
    exact (State.makeReady_eq s tick).trans (State.emit_ready (State.thawed_live calm tick) mask room)
  · rcases off with off | off <;> simp [off]

/-! ### The doorbell and the event ring -/

/-- A write of a register that exists, on an engine out of cold reset and not in teardown. -/
theorem State.writeReg_present (up : s.up = true) (calm : s.boot.phase ≠ .teardown) {a : BitVec 16}
    (present : (s.readRaw (regOffset a)).isNone = false) (v : Word) :
    s.writeReg a v = State.writeRaw { s with win := { s.win with err := false } } (regOffset a) v := by
  rw [State.writeReg_up up, present]
  exact if_neg calm

/-- What the request for 0.55 GHz writes (R439). -/
theorem State.wake_eq (s : State) :
    s.wake = { s with
      power := if s.power.opReq = 3 then { s.power with opReq := 2, opOld := 3, opAck := false } else s.power,
      engCtr := if s.power.opReq = 3 then mset s.engCtr 97 (mgetD s.engCtr 97 0 + 1) else s.engCtr } := by
  unfold State.wake
  split <;> rfl

/-- Settles O15: each is a write of one register that exists; a doorbell in service is the fetch and the request for a clock. -/
theorem doorbellAndHeadWrites : Obligations.DoorbellAndHeadWrites := by
  intro s v cold supply calm ok
  have write := fun a present => State.writeReg_present (a := a) (State.up_of cold supply) calm present v
  have bell : exec (.cmdDoorbell v) s = .next ok.doorbell := congrArg Host.Outcome.next (write 0x0040 rfl)
  refine ⟨fun ready thawed => ?_, fun early => ?_, fun ring => ?_⟩
  · refine bell.trans (congrArg Host.Outcome.next ((if_pos ⟨ready, thawed⟩).trans ?_))
    exact State.wake_eq _
  · exact bell.trans (congrArg Host.Outcome.next (if_neg fun h => early h.1))
  · refine congrArg Host.Outcome.next ((write 0x0090 rfl).trans ?_)
    exact congrArg (fun i => { ok with link := { s.link with evHead := i } }) (if_pos ring)

end Sys2Proof.Machine
namespace Sys2Proof.Machine

variable {s : State}

/-! ### Fields of a packed word -/

theorem fld_ofNat {n x lo w : Nat} (h : lo + w ≤ n) : fld (BitVec.ofNat n x) lo w = (x >>> lo) % 2 ^ w := by
  refine Nat.eq_of_testBit_eq fun i => ?_
  unfold fld
  rw [BitVec.toNat_ofNat, Nat.testBit_mod_two_pow, Nat.testBit_mod_two_pow, Nat.testBit_shiftRight, Nat.testBit_shiftRight,
    Nat.testBit_mod_two_pow]
  by_cases hi : i < w
  · simp [hi, show lo + i < n by omega]
  · simp [hi]

/-- The bits of a field of a packed word are those that the values laid there have in common with it. -/
theorem fld_pack {n lo w : Nat} (h : lo + w ≤ n) (fs : List (Nat × Nat)) :
    fld (pack fs : BitVec n) lo w = fs.foldl (fun a f => a ||| (f.2 <<< f.1 >>> lo) % 2 ^ w) 0 := by
  have cut : ∀ (fs : List (Nat × Nat)) (a : Nat),
      (fs.foldl (fun a f => a ||| (f.2 <<< f.1)) a >>> lo) % 2 ^ w
        = fs.foldl (fun a f => a ||| (f.2 <<< f.1 >>> lo) % 2 ^ w) ((a >>> lo) % 2 ^ w) := by
    intro fs
    induction fs with
    | nil => exact fun _ => rfl
    | cons f fs ih => exact fun a => (ih _).trans (by rw [Nat.shiftRight_or_distrib, Nat.or_mod_two_pow]; rfl)
  unfold pack
  rw [fld_ofNat h, cut, Nat.zero_shiftRight, Nat.zero_mod]

section
variable {lo w p k : Nat}

/-- A value laid above a field has no bit in it. -/
theorem shl_above (h : lo + w ≤ p) (v : Nat) : (v <<< p >>> lo) % 2 ^ w = 0 := by
  obtain ⟨k, rfl⟩ := Nat.exists_eq_add_of_le h
  rw [show lo + w + k = k + w + lo by omega, Nat.shiftLeft_add, Nat.shiftLeft_shiftRight, Nat.shiftLeft_add,
    Nat.shiftLeft_eq _ w, Nat.mul_mod_left]

/-- A value that ends below a field has no bit in it. -/
theorem shl_below (v : BitVec k) (h : p + k ≤ lo) : (v.toNat <<< p >>> lo) % 2 ^ w = 0 := by
  have small : v.toNat <<< p < 2 ^ lo := by
    rw [Nat.shiftLeft_eq]
    calc v.toNat * 2 ^ p < 2 ^ k * 2 ^ p := Nat.mul_lt_mul_of_pos_right v.isLt (by positivity)
      _ = 2 ^ (p + k) := by rw [Nat.add_comm, Nat.pow_add]
      _ ≤ 2 ^ lo := Nat.pow_le_pow_right (by decide) h
  rw [Nat.shiftRight_eq_div_pow, Nat.div_eq_of_lt small, Nat.zero_mod]

/-- A value that fits its field reads as itself. -/
theorem shl_self (v : BitVec k) (h : k ≤ w) : (v.toNat <<< lo >>> lo) % 2 ^ w = v.toNat := by
  rw [Nat.shiftLeft_shiftRight, Nat.mod_eq_of_lt (v.isLt.trans_le (Nat.pow_le_pow_right (by decide) h))]

end

/-! ### Flits -/

/-- The layout of a reply's flit (Table 4.10). -/
theorem Reply.flit_fields (r : Reply) :
    fld r.flit 0 16 = r.tag.toNat ∧ fld r.flit 16 16 = r.status.toNat ∧ fld r.flit 32 32 = r.detail.toNat
      ∧ fld r.flit 64 32 = r.frame.toNat ∧ fld r.flit 96 16 = r.progress.toNat ∧ fld r.flit 112 8 = r.opcode.toNat
      ∧ fld r.flit 120 8 = r.ctx.toNat ∧ fld r.flit 128 128 = 0 := by
  unfold Reply.flit
  refine ⟨?_, ?_, ?_, ?_, ?_, ?_, ?_, ?_⟩
  all_goals
    rw [fld_pack (by decide)]
    simp (disch := omega) only [List.foldl, shl_above, shl_below, shl_self, Nat.or_zero, Nat.zero_or]

/-- Byte 31 of an event's flit names its kind (R82). -/
theorem Event.flit_kind (e : Event) : fld e.flit 248 8 = 1 := by
  unfold Event.flit
  rw [fld_pack (by decide)]
  simp (disch := omega) only [List.foldl, shl_below, Nat.or_zero, Nat.zero_or]
  rfl

/-- EVENT_RING_WRITE with a flit queued. -/
theorem execEventRingWrite_cons {f : Flit} {q : List Flit} (queued : s.link.outq = f :: q) :
    exec .eventRingWrite s = if s.link.evFree = 0 ∨ s.boot.phase ≠ .ready ∨ s.boot.bootFrz then .next s
      else .next { s with link := { s.link with
        outq := q, ring := mset s.link.ring s.link.evTail.toNat f.word,
        evTail := BitVec.ofNat 16 ((s.link.evTail.toNat + 1) % s.link.evSize.toNat) } } := by
  unfold exec execEventRingWrite
  rw [queued]

theorem execEventRingWrite_nil (empty : s.link.outq = []) : exec .eventRingWrite s = .next s := by
  unfold exec execEventRingWrite
  rw [empty]

/-- Settles O16: the write by whether a flit is queued and a slot free, and the flits by their layouts. -/
theorem eventRingWriteMovesOneFlit : Obligations.EventRingWriteMovesOneFlit := by
  refine ⟨fun s f q queued ready thawed => ⟨fun room => ?_, fun full => ?_⟩, fun s => execEventRingWrite_nil,
    Reply.flit_fields, Event.flit_kind⟩
  · exact (execEventRingWrite_cons queued).trans (if_neg (by simp [room, ready, thawed]))
  · exact (execEventRingWrite_cons queued).trans (if_pos (.inl full))

end Sys2Proof.Machine
namespace Sys2Proof.Machine

variable {s : State} {r : CmdRow} {c : Cmd}

/-! ### What the engine does with a command that it takes -/

/-- A command that passes its checks is admitted, and begins or waits. -/
theorem State.runCmd_admits (h : s.Admits r c) :
    s.runCmd r.op r.fields r.chk r.bytes r.take r.eff c
      = ((s.admitted r c).beginOrWait ((s.taken c).newAdm (rowOf r.op) c) r.eff).ack (s.taken c).link.outq.length (rowOf r.op) c
        (s.estimated r c) := by
  rw [State.runCmd_offers h.toOffers h.free_taken, h.head]
  dsimp only
  rw [if_neg h.count, h.body]
  rfl

/-- A command that waits for lock or for a freeze to end is deferred (R90, R122, R467). -/
theorem State.beginOrWait_waits {a : Adm} {w : Wait} (eff : Cmd → State → State) (h : s.waitFor a = some w) :
    s.beginOrWait a eff = if w = .lock ∨ w = .thaw then s.defer a.c.cid a.c.tag 0xFFFFFFFF else s := by
  unfold State.beginOrWait
  rw [h]
  cases w <;> rfl

/-- Settles O18: `State.runCmd_starts`, for every row at once. -/
theorem commandBeginsAtOnce : Obligations.CommandBeginsAtOnce := fun _ _ _ s hi h =>
  (exec_cmdRow hi s).trans (congrArg _ (State.runCmd_starts h))

/-- Settles O19: the command is admitted by its checks, and what keeps it from beginning says whether it is deferred. -/
theorem commandWaitsItsTurn : Obligations.CommandWaitsItsTurn := by
  intro i r c s w hi h wait
  rw [exec_cmdRow hi, State.runCmd_admits h, State.beginOrWait_waits r.eff wait]
  rfl

/-! ### Commands that are not admitted -/

theorem exec_refused {i : Instr} (hi : Instr.cmdRow? i = some (r, c)) (h : s.Offers c) {e : Bad}
    (bad : (s.taken c).headerBad (rowOf r.op) c = some e ∨ (s.taken c).headerBad (rowOf r.op) c = none ∧
      ((rowOf r.op).cnt.isSome = true → c.n ≠ 0) ∧
      (s.taken c).bodyBad (rowOf r.op) r.fields r.chk r.bytes c = some e) :
    exec i s = .next ((s.taken c).answered (rowOf r.op).op c e.1 e.2) := by
  have answer : (s.taken c).refuse (rowOf r.op) c e = (s.taken c).answered (rowOf r.op).op c e.1 e.2 :=
    State.reply_answered (State.taken_live h.accepts) _ _ _ _
  rw [exec_cmdRow hi, State.runCmd_offers h h.free_taken, ← answer]
  obtain head | ⟨head, count, body⟩ := bad
  · rw [head]
  · rw [head]
    dsimp only
    rw [if_neg (fun h => count h.1 h.2), body]

/-- A COUNT of 0 is DONE at once. -/
theorem exec_countZero {i : Instr} (hi : Instr.cmdRow? i = some (r, c)) (h : s.Offers c)
    (head : (s.taken c).headerBad (rowOf r.op) c = none) (counts : (rowOf r.op).cnt.isSome = true) (zero : c.n = 0) :
    exec i s = .next ((s.taken c).answered r.op c 0 0) := by
  rw [exec_cmdRow hi, State.runCmd_offers h h.free_taken, head]
  dsimp only
  rw [if_pos ⟨counts, zero⟩, State.reply_answered (State.taken_live h.accepts)]

/-- A command that the engine takes while its tag is in use, or whose length is bad: nothing of it is checked (R88, R95). -/
theorem exec_unchecked {i : Instr} (hi : Instr.cmdRow? i = some (r, c)) (accepts : s.accepts = true) :
    (c.len < 512 → s.fitsRing c.len = true → (s.adm? c.cid c.tag).isSome = true → exec i s = .next ((s.taken c).count 24))
    ∧ (512 ≤ c.len ∨ s.fitsRing c.len = false →
      exec i s = .next (if (s.adm? c.cid c.tag).isSome then (s.discarded c.len (flitsOf c.len)).count 24
        else (s.discarded c.len (flitsOf c.len)).answered r.op c 0x0301 c.len)) := by
  have live := State.live_of_accepts accepts
  have run : exec i s = .next (s.runCmd r.op r.fields r.chk r.bytes r.take r.eff c) := exec_cmdRow hi s
  refine ⟨fun short fits used => run.trans (congrArg _ ?_), fun bad => run.trans (congrArg _ ?_)⟩
  · have good : ¬ (c.len ≥ 512 ∨ s.fitsRing c.len = false) := by rw [fits]; simp [short]
    unfold State.runCmd
    rw [if_neg (by simp [live]), if_neg (by simp [accepts]), if_neg good]
    exact if_pos (by rw [← State.taken_adm?] at used; exact used)
  · unfold State.runCmd
    rw [if_neg (by simp [live]), if_neg (by simp [accepts]), if_pos bad]
    have admitted : (s.discarded c.len (flitsOf c.len)).adm? c.cid c.tag = s.adm? c.cid c.tag := by
      unfold State.adm? State.discarded State.advanceHead
      rw [State.wake_link]
    have alive : (s.discarded c.len (flitsOf c.len)).live = true := by
      rw [← live]
      exact State.live_congr (by unfold State.discarded State.advanceHead; simp)
    rw [← admitted, ← State.reply_answered alive]
    rfl

/-- Out of service a command's flits are dropped, and counted unless a fault froze the engine. -/
theorem exec_outOfService {i : Instr} (hi : Instr.cmdRow? i = some (r, c)) (out : s.live = false) :
    exec i s = .next (if s.up && decide (s.boot.fault = 0) then s.count 25 (flitsOf c.len) else s) := by
  rw [exec_cmdRow hi]
  exact congrArg _ (if_pos (by simp [out]))

/-- Settles O20: the refusals in the order in which a command meets them. -/
theorem commandRefusedHasNoEffect : Obligations.CommandRefusedHasNoEffect := fun _ _ _ _ hi =>
  ⟨fun h _ head => exec_refused hi h (.inl head),
    exec_countZero hi,
    fun h head count _ body => exec_refused hi h (.inr ⟨head, count, body⟩),
    fun accepts => (exec_unchecked hi accepts).1,
    fun accepts => (exec_unchecked hi accepts).2,
    exec_outOfService hi⟩

/-! ### A final reply -/

theorem dropFirst_sublist {α : Type} (p : α → Bool) (l : List α) : (dropFirst p l).Sublist l := by
  induction l with
  | nil => exact List.Sublist.refl _
  | cons a l ih =>
    rw [dropFirst]
    split
    · exact List.sublist_cons_self a l
    · exact ih.cons_cons a

/-- An admitted command leaves with its final reply (R88 to R90). -/
theorem State.settle_found {x : Nat} {g : BitVec 16} {a : Adm} (live : s.live = true) (found : s.adm? x g = some a) (n d : Nat) :
    s.settle x g n d = { s with link := { s.link with
      outq := s.link.outq ++ [.reply (Reply.mk g (BitVec.ofNat 16 n) (BitVec.ofNat 32 d) s.frames.frame (progressOf a.done) a.op
        (BitVec.ofNat 4 x))],
      admitted := dropFirst (Adm.isAt x g) s.link.admitted } } := by
  unfold State.settle State.reply
  rw [found]
  dsimp only
  rw [if_neg (by simp [live])]

/-- A final reply for which no cancel command waits. -/
theorem State.finish_unwatched {x : Nat} {g : BitVec 16} {a : Adm} (live : s.live = true) (found : s.adm? x g = some a)
    (quiet : unwatchedIn s.link.admitted x g) (n d : Nat) : s.finish x g n d = s.settle x g n d := by
  have left : unwatchedIn (s.settle x g n d).link.admitted x g := by
    rw [State.settle_found live found]
    exact fun b hb => quiet b ((dropFirst_sublist _ _).subset hb)
  unfold State.finish
  rw [if_neg (by simp [found]), waiting_unwatched quiet]
  change State.withAdm (s.settle x g n d) ((s.settle x g n d).link.admitted.map (Adm.note x g n)) = _
  rw [Adm.note_unwatched left]
  rfl

/-- Settles O21: with no cancel command waiting for the tag, a final reply is `State.settle`. -/
theorem finalReplyEndsACommand : Obligations.FinalReplyEndsACommand := by
  intro s x g n d live
  refine ⟨fun gone => if_pos (by simp [gone]), fun a found quiet => ?_⟩
  have unwatched : unwatchedIn s.link.admitted x g := fun b hb => (Bool.not_eq_true' _).mp (List.all_eq_true.mp quiet b hb)
  rw [State.finish_unwatched live found unwatched, State.settle_found live found]
  have units : progressOf a.done = BitVec.ofNat 16 (min (ceilDiv a.done 64) 0xFFFF) := rfl
  rw [units]

end Sys2Proof.Machine
namespace Sys2Proof.Machine

variable {s : State} {r : CmdRow} {c : Cmd}

/-! ### Commands that are done at once -/

theorem Adm.done_zero {a : Adm} (units : a.done = 0) : { a with done := 0 } = a := by
  cases a
  cases units
  rfl

/-- A command that does nothing as it is taken, and is DONE once it has done `E`. -/
theorem Immediate.of_eff {E : State → State} {D : State → Nat} (take : r.take = noTake)
    (eff : ∀ u l, r.eff c (State.withAdm u l) = ((E u).withAdm l).finish c.cid c.tag 0 (D u))
    (live : ∀ u, (E u).live = u.live) (adm : ∀ u, (E u).link.admitted = u.link.admitted) : Immediate r c id E D 0 where
  take u l := by rw [take]; rfl
  eff u l a _ _ units := by rw [eff, Adm.done_zero units]
  live := live
  adm := adm

/-- A command whose whole effect is what it does as it is taken. -/
theorem Immediate.of_take {T : State → State} (eff : r.eff = effDone0) (take : ∀ u l, r.take c (State.withAdm u l) = (T u).withAdm l)
    (live : ∀ u, (T u).live = u.live) (adm : ∀ u, (T u).link.admitted = u.link.admitted) : Immediate r c T id (fun _ => 0) 0 where
  take := take
  eff u l a _ _ units := by rw [eff, Adm.done_zero units]; rfl
  live := live
  adm := adm

section
variable {i : Instr} (hi : Instr.cmdRow? i = some (r, c)) (ho : (rowOf r.op).op = r.op) (h : s.Begins i)
include hi h

theorem State.Begins.starts : s.Starts r c ∧ s.unwatched c = true := by
  obtain ⟨r', c', hi', starts, unwatched⟩ := h
  cases hi.symm.trans hi'
  exact ⟨starts, unwatched⟩

include ho

theorem exec_of_eff {E : State → State} {D : State → Nat} (take : r.take = noTake)
    (eff : ∀ u l, r.eff c (State.withAdm u l) = ((E u).withAdm l).finish c.cid c.tag 0 (D u))
    (live : ∀ u, (E u).live = u.live) (adm : ∀ u, (E u).link.admitted = u.link.admitted) :
    exec i s = .next ((E (s.taken c)).answered r.op c 0 (D (s.taken c))) :=
  have ⟨starts, unwatched⟩ := State.Begins.starts hi h
  exec_immediate hi (Immediate.of_eff take eff live adm) ho starts unwatched

theorem exec_of_take {T : State → State} (eff : r.eff = effDone0)
    (take : ∀ u l, r.take c (State.withAdm u l) = (T u).withAdm l)
    (live : ∀ u, (T u).live = u.live) (adm : ∀ u, (T u).link.admitted = u.link.admitted) :
    exec i s = .next ((T (s.taken c)).answered r.op c 0 0) :=
  have ⟨starts, unwatched⟩ := State.Begins.starts hi h
  exec_immediate hi (Immediate.of_take eff take live adm) ho starts unwatched

end

theorem State.taken_health (s : State) (c : Cmd) : (s.taken c).health = s.health := by
  unfold State.taken
  simp [State.advanceHead]
theorem State.taken_fab (s : State) (c : Cmd) : (s.taken c).fab = s.fab := by
  unfold State.taken
  simp [State.advanceHead]
theorem State.taken_ctxs (s : State) (c : Cmd) : (s.taken c).ctxs = s.ctxs := by
  unfold State.taken
  simp [State.advanceHead]
theorem State.ctx_of_ctxs {s t : State} (h : t.ctxs = s.ctxs) (k : Nat) : t.ctx k = s.ctx k := by
  unfold State.ctx
  rw [h]
theorem State.taken_ctx (s : State) (c : Cmd) (k : Nat) : (s.taken c).ctx k = s.ctx k :=
  State.ctx_of_ctxs (State.taken_ctxs s c) k
theorem State.taken_mask (s : State) (c : Cmd) : (s.taken c).link.mask = s.link.mask := by
  unfold State.taken State.advanceHead
  simp
theorem State.taken_envelope (s : State) (c : Cmd) : (s.taken c).power.envelope = s.power.envelope := by
  unfold State.taken State.advanceHead
  rw [State.wake_power]
  split <;> rfl

/-- The state with a mask replaced (R97). -/
def State.masked (c : Cmd) (s : State) : State :=
  let m := BitVec.ofNat 16 (fld c.a 0 16)
  if c.b.getLsbD 0 then { s with link := { s.link with mask := m } } else s.modCtx c.cid (fun x => { x with mask := m })
/-- The mask that SET_EVENT_MASK replaces. -/
def State.oldMask (c : Cmd) (s : State) : Nat := if c.b.getLsbD 0 then s.link.mask.toNat else (s.ctx c.cid).mask.toNat

theorem effSetEventMask_eq (c : Cmd) (u : State) (l : List Adm) :
    effSetEventMask c (u.withAdm l) = ((u.masked c).withAdm l).finish c.cid c.tag 0 (u.oldMask c) := by
  unfold effSetEventMask State.masked State.oldMask
  split <;> rfl
theorem State.masked_live (c : Cmd) (s : State) : (s.masked c).live = s.live := by unfold State.masked; split <;> rfl
theorem State.masked_admitted (c : Cmd) (s : State) : (s.masked c).link.admitted = s.link.admitted := by
  unfold State.masked; split <;> rfl

/-- The state with the driver's envelope (R58). -/
def State.enveloped (c : Cmd) (s : State) : State :=
  { s with power := { s.power with envelope := BitVec.ofNat 16 (fld c.a 0 16) } }

/-- The state with the weights, the thresholds unless all are zero, and the decay unless zero (R449). -/
def State.weighed (c : Cmd) (s : State) : State :=
  let th := (List.range 7).map (fun i => BitVec.ofNat 8 (fld (c.param 1) (8 * i) 8))
  { s with health := { s.health with
    weights := (List.range 8).map (fun i => BitVec.ofNat 8 (fld (c.param 0) (8 * i) 8)),
    thresholds := if th.all (· == 0) then s.health.thresholds else some th,
    decay := if fld (c.param 1) 56 4 = 0 then s.health.decay else BitVec.ofNat 4 (fld (c.param 1) 56 4) } }

/-- The state in another mode, every history of the old one cleared (R450). -/
def State.switchMode (c : Cmd) (s : State) : State :=
  { s with
    health := { s.health with mode := BitVec.ofNat 2 (fld c.a 0 2), a := s.health.a.take 7 ++ [0] },
    fab := { s.fab with lateness := [] } }
/-- The state in the mode that HEALTH_MODE names. -/
def State.inMode (c : Cmd) (s : State) : State :=
  if BitVec.ofNat 2 (fld c.a 0 2) = s.health.mode then s else s.switchMode c

theorem effHealthMode_eq (c : Cmd) (u : State) (l : List Adm) :
    effHealthMode c (u.withAdm l) = ((u.inMode c).withAdm l).finish c.cid c.tag 0 u.health.mode.toNat := by
  have inMode : (u.withAdm l).inMode c = (u.inMode c).withAdm l := by
    by_cases h : BitVec.ofNat 2 (fld c.a 0 2) = u.health.mode
    · exact (if_pos h).trans (congrArg (State.withAdm · l) (if_pos h).symm)
    · exact (if_neg h).trans (congrArg (State.withAdm · l) (if_neg h : u.inMode c = u.switchMode c).symm)
  rw [← inMode]
  rfl
theorem State.inMode_live (c : Cmd) (s : State) : (s.inMode c).live = s.live := by
  unfold State.inMode; split <;> rfl
theorem State.inMode_admitted (c : Cmd) (s : State) : (s.inMode c).link.admitted = s.link.admitted := by
  unfold State.inMode; split <;> rfl

/-- Settles O23: each command is DONE with what its own register held, and writes that register alone. -/
theorem engineCommandsComplete : Obligations.EngineCommandsComplete := by
  intro s c u
  have health : u.health = s.health := State.taken_health s c
  have fab : u.fab = s.fab := State.taken_fab s c
  refine ⟨fun h => ?_, fun h => ?_, fun h => ?_, fun h => ?_, fun h => ?_, fun h => ?_⟩
  · exact exec_of_eff (E := id) rfl (by decide) h rfl (fun _ _ => rfl) (fun _ => rfl) (fun _ => rfl)
  · exact exec_of_eff (E := id) rfl (by decide) h rfl (fun _ _ => rfl) (fun _ => rfl) (fun _ => rfl)
  · rw [exec_of_eff rfl (by decide) h rfl (effSetEventMask_eq c) (State.masked_live c) (State.masked_admitted c)]
    unfold State.masked State.oldMask
    rw [State.taken_mask, State.taken_ctx]
    split <;> rfl
  · rw [← State.taken_envelope s c]
    exact exec_of_eff (E := State.enveloped c) (D := fun s => s.power.envelope.toNat) rfl (by decide) h rfl (fun _ _ => rfl) (fun _ => rfl) (fun _ => rfl)
  · rw [← health]
    exact exec_of_eff (E := State.weighed c) (D := fun _ => 0) rfl (by decide) h rfl (fun _ _ => rfl) (fun _ => rfl) (fun _ => rfl)
  · rw [← health, ← fab]
    exact exec_of_eff rfl (by decide) h rfl (effHealthMode_eq c) (State.inMode_live c) (State.inMode_admitted c)

/-! ### Commands that set a context's values -/

theorem State.taken_frames (s : State) (c : Cmd) : (s.taken c).frames = s.frames := by
  unfold State.taken
  simp [State.advanceHead]

theorem takeGroupKey_eq (c : Cmd) (u : State) (l : List Adm) :
    takeGroupKey c (u.withAdm l) = (takeGroupKey c u).withAdm l := by unfold takeGroupKey; split <;> rfl
theorem takeGroupKey_live (c : Cmd) (s : State) : (takeGroupKey c s).live = s.live := by unfold takeGroupKey; split <;> rfl
theorem takeGroupKey_admitted (c : Cmd) (s : State) : (takeGroupKey c s).link.admitted = s.link.admitted := by
  unfold takeGroupKey; split <;> rfl

/-- The state with a policy word whose window stays (R376). -/
def State.policy (c : Cmd) (s : State) : State := s.modCtx c.cid (fun x => { x with knead := { x.knead with word := c.param 0 } })
/-- The state with a policy word that moves the window: its directory is to be cleared, its granules are those of the map (R376). -/
def State.policyMoved (c : Cmd) (s : State) : State :=
  let v := s.modCtx c.cid (fun x => { x with
    knead := { x.knead with word := c.param 0, fresh := decide ((windowOf (c.param 0)).2 ≠ 0) } })
  v.setCtxValue c.cid 105 (v.ctx c.cid).granulesUsed
/-- KNEAD_POLICY's effect, by whether the window moves. -/
def State.policed (c : Cmd) (s : State) : State :=
  if windowOf (c.param 0) = windowOf (s.ctx c.cid).knead.word then s.policy c else s.policyMoved c

theorem effPolicy_eq (c : Cmd) (u : State) (l : List Adm) :
    effPolicy c (u.withAdm l) = ((u.policed c).withAdm l).finish c.cid c.tag 0 0 := by
  have ctx : (u.withAdm l).ctx c.cid = u.ctx c.cid := rfl
  unfold effPolicy State.policed
  dsimp only
  rw [ctx]
  by_cases h : windowOf (c.param 0) = windowOf (u.ctx c.cid).knead.word
  · have stays : decide (windowOf (c.param 0) ≠ windowOf (u.ctx c.cid).knead.word) = false := decide_eq_false (not_not_intro h)
    simp only [stays, if_pos h, Bool.false_eq_true, if_false]
    rfl
  · have moves : decide (windowOf (c.param 0) ≠ windowOf (u.ctx c.cid).knead.word) = true := decide_eq_true h
    simp only [moves, if_neg h, if_true]
    rfl
theorem State.policed_live (c : Cmd) (s : State) : (s.policed c).live = s.live := by unfold State.policed; split <;> rfl
theorem State.policed_admitted (c : Cmd) (s : State) : (s.policed c).link.admitted = s.link.admitted := by
  unfold State.policed; split <;> rfl

/-- Settles O26: seven commands write their context as they are taken, and KNEAD_POLICY as it begins. -/
theorem contextCommandsComplete : Obligations.ContextCommandsComplete := by
  intro s c u
  refine ⟨fun h => ?_, fun h => ?_, fun h => ?_, fun h set => ?_, fun h adv => ?_, fun h => ?_, fun h => ?_, fun h => ?_,
    fun h stays => ?_, fun h moves => ?_⟩
  · exact exec_of_take (T := takeCtxOpen c) rfl (by decide) h rfl (fun _ _ => rfl) (fun _ => rfl) (fun _ => rfl)
  · exact exec_of_take (T := takeCtxSetSeed c) rfl (by decide) h rfl (fun _ _ => rfl) (fun _ => rfl) (fun _ => rfl)
  · exact exec_of_take (T := takeGroupConfig c) rfl (by decide) h rfl (fun _ _ => rfl) (fun _ => rfl) (fun _ => rfl)
  · rw [exec_of_take rfl (by decide) h rfl (takeGroupKey_eq c) (takeGroupKey_live c) (takeGroupKey_admitted c)]
    exact congrArg (fun t => Host.Outcome.next (State.answered t 0x32 c 0 0)) (if_neg (by rw [set]; decide))
  · rw [exec_of_take rfl (by decide) h rfl (takeGroupKey_eq c) (takeGroupKey_live c) (takeGroupKey_admitted c),
      ← State.taken_frames s c]
    exact congrArg (fun t => Host.Outcome.next (State.answered t 0x32 c 0 0)) (if_pos adv)
  · exact exec_of_take (T := takeProgLoad c) rfl (by decide) h rfl (fun _ _ => rfl) (fun _ => rfl) (fun _ => rfl)
  · exact exec_of_take (T := takePgroupSet c) rfl (by decide) h rfl (fun _ _ => rfl) (fun _ => rfl) (fun _ => rfl)
  · exact exec_of_take (T := takeCadence c) rfl (by decide) h rfl (fun _ _ => rfl) (fun _ => rfl) (fun _ => rfl)
  · rw [← State.taken_ctx s c] at stays
    rw [exec_of_eff rfl (by decide) h rfl (effPolicy_eq c) (State.policed_live c) (State.policed_admitted c)]
    exact congrArg (fun t => Host.Outcome.next (State.answered t 0x72 c 0 0)) (if_pos stays)
  · rw [← State.taken_ctx s c] at moves
    rw [exec_of_eff rfl (by decide) h rfl (effPolicy_eq c) (State.policed_live c) (State.policed_admitted c)]
    exact congrArg (fun t => Host.Outcome.next (State.answered t 0x72 c 0 0)) (if_neg moves)

end Sys2Proof.Machine
namespace Sys2Proof.Machine

variable {s t : State} {r : CmdRow} {c : Cmd}

/-! ### Commands that count their units -/

/-- An update of a command's record that sets the units done, and of the rest only what no reply reads. -/
structure Adm.Counts (f : Adm → Adm) (k : Nat) : Prop where
  packet : ∀ a, (f a).c = a.c
  op : ∀ a, (f a).op = a.op
  work : ∀ a, (f a).work = a.work
  units : ∀ a, (f a).done = k

/-- `exec_finishes_after` for a command that counts its units. -/
theorem exec_finishes_units {i : Instr} (hi : Instr.cmdRow? i = some (r, c)) (ho : (rowOf r.op).op = r.op) (ht : r.take = noTake)
    (h : s.Starts r c) (hu : s.unwatched c = true) {v : State} {f : Adm → Adm} {n d k : Nat}
    (work : Kept offReply (s.begun r c) v) (counts : Adm.Counts f k)
    (he : r.eff c (s.begun r c) = (v.modAdm c.cid c.tag f).finish c.cid c.tag n d) :
    exec i s = .next { v with link := ((s.taken c).answered r.op c n d k).link } := by
  rw [State.begun_eq ht h.toOffers] at work
  have link : v.link = { (s.taken c).link with
      admitted := (s.taken c).link.admitted ++ [(s.taken c).newBegun (rowOf r.op) c 0] } := work.same .link (by decide)
  have frames : v.frames = (s.taken c).frames := work.same .frames (by decide)
  have live : v.live = true :=
    (State.live_congr (t := s.taken c) (work.same .boot (by decide))).trans (State.taken_live h.accepts)
  have isAt : Adm.isAt c.cid c.tag (f ((s.taken c).newBegun (rowOf r.op) c 0)) = true := by
    unfold Adm.isAt
    rw [counts.packet]
    exact State.newBegun_isAt _ _ _ _
  have admitted : v.modAdm c.cid c.tag f
      = v.withAdm ((s.taken c).link.admitted ++ [f ((s.taken c).newBegun (rowOf r.op) c 0)]) := by
    unfold State.modAdm State.withAdm
    rw [link]
    dsimp only
    rw [replaceFirst_append h.free_taken (State.newBegun_isAt _ _ _ _)]
  have quiet : unwatchedIn ((s.taken c).link.admitted ++ [f ((s.taken c).newBegun (rowOf r.op) c 0)]) c.cid c.tag := by
    intro a ha
    rcases List.mem_append.mp ha with ha | ha
    · exact State.unwatchedIn_begun hu (rowOf r.op) a (List.mem_append_left _ ha)
    · cases List.mem_singleton.mp ha
      simp [counts.work, State.newBegun, State.newAdm]
  have final : (v.modAdm c.cid c.tag f).finish c.cid c.tag n d = { v with link := ((s.taken c).answered r.op c n d k).link } := by
    rw [admitted, State.finish_last n d live h.free_taken isAt quiet]
    unfold State.reply State.withAdm State.answered
    rw [if_neg (by simp [live])]
    simp only [counts.op, counts.units, State.newBegun, State.newAdm, ho, link, frames]
  have gone : State.adm? { v with link := ((s.taken c).answered r.op c n d k).link } c.cid c.tag = none := h.free_taken
  rw [exec_cmdRow hi, State.runCmd_starts h, he, final]
  unfold State.ack
  rw [gone, if_neg (by simp)]

/-! ### Result buffers -/

/-- A write through the engine's own port changes nothing that a reply speaks of. -/
theorem State.portDie_kept (s : State) (a : Nat) (l : List Byte) : Kept offReply s (s.portDie a l) :=
  (Kept.refl _ s).portDie (by decide) (by decide) (by decide) (by decide) (by decide) a l

/-- The registers that QUERY_CAPS returns are read off the fuses and the boot state (Tables 22.2 to 22.5). -/
theorem State.identity_congr {s t : State} (h : t.boot = s.boot) :
    t.lyxCaps = s.lyxCaps ∧ t.lyxId = s.lyxId ∧ t.lyxFw = s.lyxFw ∧ t.lyxFuse = s.lyxFuse := by
  cases s
  cases h
  exact ⟨rfl, rfl, rfl, rfl⟩

/-- Settles O25: each command writes its buffer on the state in which it began, and is then done. -/
theorem engineResultBuffers : Obligations.EngineResultBuffers := by
  intro s c r starts quiet b
  refine ⟨fun hi => ?_, fun hi => ?_, fun hi => ?_⟩
  · cases hi
    have kept : Kept _ s b := State.begun_kept rfl starts.toOffers
    obtain ⟨caps, id, fw, fuse⟩ := State.identity_congr (kept.same .boot (by decide))
    rw [← caps, ← id, ← fw, ← fuse]
    exact exec_finishes_after (i := .queryCaps c) rfl (by decide) rfl starts quiet (State.portDie_kept b _ _) rfl
  · cases hi
    exact exec_finishes_units (i := .readCounters c) rfl (by decide) rfl starts quiet (State.portDie_kept b _ _)
      (f := fun a => { a with done := c.n }) ⟨fun _ => rfl, fun _ => rfl, fun _ => rfl, fun _ => rfl⟩ rfl
  · cases hi
    have kept : Kept _ s b := State.begun_kept rfl starts.toOffers
    have ctx : b.ctx c.cid = s.ctx c.cid := State.ctx_of_ctxs (kept.same .ctxs (by decide)) _
    rw [← ctx]
    exact exec_finishes_after (i := .bakeStatus c) rfl (by decide) rfl starts quiet (State.portDie_kept b _ _) rfl

end Sys2Proof.Machine
namespace Sys2Proof.Machine

variable {s s₀ t : State} {c : Cmd}

/-! ### What an operation leaves of every context, and of the admitted commands -/

/-- From `s` to `t` every context keeps what `p` reads of it, and no command is admitted. -/
structure State.Keeps {α : Type} (p : Ctx → α) (s t : State) : Prop where
  ctx : ∀ k, p (t.ctx k) = p (s.ctx k)
  keys : t.keys.Sublist s.keys

namespace State.Keeps

variable {α : Type} {p : Ctx → α}

theorem refl (p : Ctx → α) (s : State) : State.Keeps p s s := ⟨fun _ => rfl, List.Sublist.refl _⟩
theorem trans {u : State} (h : State.Keeps p s t) (g : State.Keeps p t u) : State.Keeps p s u :=
  ⟨fun k => (g.ctx k).trans (h.ctx k), g.keys.trans h.keys⟩
/-- What is read of what is kept is kept. -/
theorem map {β : Type} (h : State.Keeps p s t) (q : α → β) : State.Keeps (fun x => q (p x)) s t :=
  ⟨fun k => congrArg q (h.ctx k), h.keys⟩
theorem of_eq (ctxs : t.ctxs = s.ctxs) (link : t.link = s.link) : State.Keeps p s t :=
  ⟨fun k => congrArg p (State.ctx_of_ctxs ctxs k), by unfold State.keys; rw [link]⟩
/-- An operation that writes neither the contexts nor the link. -/
theorem of_kept (h : State.Keeps p s₀ s) (k : Kept (fun q => q ≠ .ctxs ∧ q ≠ .link) s t) : State.Keeps p s₀ t :=
  h.trans (of_eq (k.same .ctxs (by decide)) (k.same .link (by decide)))
theorem ite {b : Prop} [Decidable b] (h : b → State.Keeps p s₀ s) (g : ¬ b → State.Keeps p s₀ t) :
    State.Keeps p s₀ (if b then s else t) := by
  split
  · exact h ‹_›
  · exact g ‹_›
theorem each {β : Type} {l : List β} {f : State → β → State} (h : State.Keeps p s₀ s)
    (hf : ∀ t x, State.Keeps p s₀ t → State.Keeps p s₀ (f t x)) : State.Keeps p s₀ (s.each l f) := by
  unfold State.each
  induction l generalizing s with
  | nil => exact h
  | cons x l ih => exact ih (hf s x h)
theorem foldl_fst {β γ : Type} {l : List γ} {f : State × β → γ → State × β} {q : State × β} (h : State.Keeps p s₀ q.1)
    (hf : ∀ q x, State.Keeps p s₀ q.1 → State.Keeps p s₀ (f q x).1) : State.Keeps p s₀ (l.foldl f q).1 := by
  induction l generalizing q with
  | nil => exact h
  | cons x l ih => exact ih (hf q x h)
theorem modCtx {k : Nat} {f : Ctx → Ctx} (h : State.Keeps p s₀ s) (hf : p (f (s.ctx k)) = p (s.ctx k)) :
    State.Keeps p s₀ (s.modCtx k f) := by
  refine h.trans ⟨fun j => ?_, List.Sublist.refl _⟩
  by_cases e : k = j
  · subst e
    rw [State.modCtx_ctx_self, hf]
  · rw [State.modCtx_ctx_ne _ _ e]
theorem modSlice (h : State.Keeps p s₀ s) (i : Nat) (f : Slice → Slice) : State.Keeps p s₀ (s.modSlice i f) := h.trans (of_eq rfl rfl)
theorem finish (h : State.Keeps p s₀ s) (x : Nat) (g : BitVec 16) (n d : Nat) : State.Keeps p s₀ (s.finish x g n d) :=
  h.trans ⟨fun k => congrArg p (State.ctx_of_ctxs (((Kept.refl (· = .link) s).finish rfl x g n d).same .ctxs (by decide)) k),
    (State.finish_keys x g n d).trans List.erase_sublist⟩

end State.Keeps

/-! ### Regions and pools -/

/-- A context without its tiles and without the pools that follow them. -/
def Ctx.shape (x : Ctx) : Ctx :=
  { x with tiles := [], crumb := {}, proof := {}, crustPool := if x.group.joined then {} else x.crustPool }

/-- `t` has the contexts of `s₀` but for their tiles and the pools that follow these. -/
abbrev State.Shaped (s t : State) : Prop := State.Keeps Ctx.shape s t

namespace State.Shaped

theorem modTile (h : s₀.Shaped s) (k n : Nat) (f : TileRec → TileRec) : s₀.Shaped (s.modTile k n f) := by
  unfold State.modTile
  split
  · exact h
  · exact h.modCtx rfl
theorem exemptStack (h : s₀.Shaped s) (i n : Nat) : s₀.Shaped (s.exemptStack i n) := by
  have owner : s₀.Shaped (match s.owner i n with
      | some (k, l) => s.modTile k l (fun r => { r with exempt := true, ret := if r.ret = .normal then .exempt else r.ret })
      | none => s) := by
    split
    · exact modTile h _ _ _
    · exact h
  exact Keeps.ite (fun _ => owner.modSlice _ _) (fun _ => owner)
theorem normalTile (h : s₀.Shaped s) (k n : Nat) : s₀.Shaped (s.normalTile k n) :=
  Keeps.ite (fun _ => (modTile h _ _ _).modSlice _ _) (fun _ => modTile h _ _ _)
theorem setReturn (h : s₀.Shaped s) (k n : Nat) (st : TileState) : s₀.Shaped (s.setReturn k n st) :=
  Keeps.ite (fun _ => modTile h _ _ _) (fun _ => (modTile h _ _ _).modSlice _ _)
theorem untrap (h : s₀.Shaped s) (k n : Nat) : s₀.Shaped (s.untrap k n) := Keeps.ite (fun _ => setReturn h _ _ _) (fun _ => h)
theorem relieveAll (h : s₀.Shaped s) (k : Nat) : s₀.Shaped (s.relieveAll k) := h.of_kept ((Kept.refl _ s).relieveAll (by decide) k)
theorem dropCrumbs (h : s₀.Shaped s) (k : Nat) (ts : List Nat) : s₀.Shaped (s.dropCrumbs k ts) :=
  relieveAll (h.each fun _ _ g => modTile g _ _ _) k
theorem unprotect (h : s₀.Shaped s) (k : Nat) (ts : List Nat) : s₀.Shaped (s.unprotect k ts) :=
  h.each fun _ _ g => g.each fun _ _ g => Keeps.ite (fun _ => g.each fun _ _ g => exemptStack g _ _) (fun _ => g.modSlice _ _)
theorem mergeOne (h : s₀.Shaped s) (i : Nat) : s₀.Shaped (s.mergeOne i) := by
  unfold State.mergeOne
  split
  · exact h
  · exact (h.each fun _ _ g => exemptStack g _ _).modSlice _ _
theorem coarsen (h : s₀.Shaped s) (i need f : Nat) : s₀.Shaped (s.coarsen i need f) := by
  induction f generalizing s with
  | zero => exact h
  | succ f ih => exact Keeps.ite (fun _ => h) (fun _ => ih (mergeOne h i))
theorem noteCoarse (h : s₀.Shaped s) (i : Nat) : s₀.Shaped (s.noteCoarse i) :=
  h.of_kept ((Kept.refl _ s).noteCoarse (by decide) (by decide) i)
theorem installRun (h : s₀.Shaped s) (k i : Nat) (r : Nat × Nat) : s₀.Shaped (s.installRun k i r) := by
  have room : s₀.Shaped (if (s.slice i).freeGeneral.isNone then s.mergeOne i else s) :=
    Keeps.ite (fun _ => mergeOne h i) (fun _ => h)
  unfold State.installRun
  dsimp only
  split
  · exact room
  · exact room.modSlice _ _
theorem protect (h : s₀.Shaped s) (k : Nat) (ts : List Nat) : s₀.Shaped (s.protect k ts).1 := by
  unfold State.protect
  refine Keeps.each (Keeps.foldl_fst h fun q i g => ?_) fun _ _ g => normalTile g _ _
  exact Keeps.each (Keeps.ite (fun _ => coarsen (noteCoarse g i) i _ _) (fun _ => g)) fun _ _ g => installRun g _ _ _

/-- The crumb pool and the proof pool follow the tiles, and in a group the crust pool too. -/
def Follows (s : State) (k j : Nat) : Prop := j = 0 ∨ j = 1 ∨ j = 2 ∧ (s.ctx k).group.joined = true

theorem placePool {k j : Nat} (h : s₀.Shaped s) (follows : Follows s k j) (shares : List (Nat × Nat)) :
    s₀.Shaped (s.placePool k j shares) := by
  unfold State.placePool
  refine h.modCtx ?_
  obtain rfl | rfl | ⟨rfl, joined⟩ := follows
  · rfl
  · rfl
  · unfold Ctx.shape Ctx.setPool
    simp [joined]
theorem applyDefault {k j : Nat} (h : s₀.Shaped s) (follows : Follows s k j) : s₀.Shaped (s.applyDefault k j) :=
  Keeps.ite (fun _ => placePool h follows _) (fun _ => h)
theorem regionPools (h : s₀.Shaped s) (k : Nat) : s₀.Shaped (s.regionPools k) := by
  have one (j : Nat) (hj : j = 0 ∨ j = 1) {t : State} (g : s₀.Shaped t) :
      s₀.Shaped (if ((t.ctx k).pool j).tiles.isEmpty then t else t.applyDefault k j) :=
    Keeps.ite (fun _ => g) (fun _ => applyDefault g (hj.imp_right .inl))
  have both : s₀.Shaped (s.each [0, 1] (fun s j => if ((s.ctx k).pool j).tiles.isEmpty then s else s.applyDefault k j)) :=
    one 1 (.inr rfl) (one 0 (.inl rfl) h)
  exact Keeps.ite (fun joined => applyDefault both (.inr (.inr ⟨rfl, joined⟩))) (fun _ => both)

end State.Shaped

/-- A change of class that takes effect writes the region, and of the contexts beside it only tiles and their pools. -/
theorem State.changeNow_shaped (s : State) (k n : Nat) (old new : Option Region) :
    (s.withRegion k n new).Shaped (s.changeNow k n old new).1 := by
  have region := Keeps.refl Ctx.shape (s.withRegion k n new)
  unfold State.changeNow
  dsimp only
  refine Shaped.regionPools ?_ k
  have before := fun (b : Prop) [Decidable b] ts => Keeps.ite (b := b) (fun _ => Shaped.dropCrumbs region k ts) (fun _ => region)
  have freed := fun (b d : Prop) [Decidable b] [Decidable d] ts =>
    Keeps.ite (b := d) (fun _ => Shaped.unprotect (before b ts) k ts) (fun _ => before b ts)
  split
  · exact Shaped.protect (freed _ _ _) k _
  · exact freed _ _ _

theorem State.withRegion_regions (s : State) (k n : Nat) (r : Option Region) :
    ((s.withRegion k n r).ctx k).regions = mput (s.ctx k).regions n r := by
  unfold State.withRegion
  rw [State.modCtx_ctx_self]

theorem State.Shaped.regions (h : s.Shaped t) (k : Nat) : (t.ctx k).regions = (s.ctx k).regions :=
  (congrArg Ctx.regions (h.ctx k) : (t.ctx k).shape.regions = _)

end Sys2Proof.Machine
namespace Sys2Proof.Machine

variable {s t v : State} {r : CmdRow} {c : Cmd}

/-! ### Commands that are done after their work, and commands that run on -/

/-- An answer that follows work on other parts of the state than a reply speaks of is the command's last flit. -/
theorem State.Replied.of_answered (free : s.adm? c.cid c.tag = none) (frames : v.frames = (s.taken c).frames) (op : Byte)
    (n d k : Nat) : State.Replied { v with link := ((s.taken c).answered op c n d k).link } op c n d k := by
  refine ⟨(State.taken_adm? (c := c) c.cid c.tag).trans free, ?_⟩
  unfold State.answered
  dsimp only
  rw [List.getLast?_concat, Cmd.ofNat_cid, frames]

section
variable {i : Instr} (hi : Instr.cmdRow? i = some (r, c)) (ho : (rowOf r.op).op = r.op) (ht : r.take = noTake)
include hi ho ht

/-- `exec_finishes_after`, said of the reply and of the contexts. -/
theorem exec_replies (h : s.Begins i) {n d : Nat} (work : Kept offReply (s.begun r c) v)
    (he : r.eff c (s.begun r c) = v.finish c.cid c.tag n d) :
    ∃ t, exec i s = .next t ∧ t.Replied r.op c n d ∧ t.ctxs = v.ctxs := by
  obtain ⟨starts, quiet⟩ := State.Begins.starts hi h
  refine ⟨_, exec_finishes_after hi ho ht starts quiet work he, State.Replied.of_answered starts.free ?_ _ _ _ _, rfl⟩
  rw [work.same .frames (by decide), State.begun_eq ht starts.toOffers]
  rfl

theorem exec_replies_units (h : s.Begins i) {f : Adm → Adm} {n d k : Nat} (work : Kept offReply (s.begun r c) v)
    (counts : Adm.Counts f k) (he : r.eff c (s.begun r c) = (v.modAdm c.cid c.tag f).finish c.cid c.tag n d) :
    ∃ t, exec i s = .next t ∧ t.Replied r.op c n d k ∧ t.ctxs = v.ctxs := by
  obtain ⟨starts, quiet⟩ := State.Begins.starts hi h
  refine ⟨_, exec_finishes_units hi ho ht starts quiet work counts he, State.Replied.of_answered starts.free ?_ _ _ _ _, rfl⟩
  rw [work.same .frames (by decide), State.begun_eq ht starts.toOffers]
  rfl

end

theorem State.Runs.congr (h : s.Runs c) (admitted : t.link.admitted = s.link.admitted) : t.Runs c := by
  unfold State.Runs State.adm?
  rw [admitted]
  exact h

theorem find?_replaceFirst {α : Type} {p : α → Bool} {f : α → α} (hf : ∀ a, p a = true → p (f a) = true) (l : List α) :
    (replaceFirst p f l).find? p = (l.find? p).map f := by
  induction l with
  | nil => rfl
  | cons a l ih =>
    rw [replaceFirst]
    by_cases h : p a = true
    · rw [if_pos h, List.find?_cons_of_pos (hf a h), List.find?_cons_of_pos h]
      rfl
    · rw [if_neg h, List.find?_cons_of_neg h, List.find?_cons_of_neg h, ih]

/-- A command runs on whatever its record keeps beside its packet. -/
theorem State.Runs.modAdm (h : s.Runs c) {f : Adm → Adm} (packet : ∀ a, (f a).c = a.c) (begun : ∀ a, (f a).begun = a.begun) :
    (s.modAdm c.cid c.tag f).Runs c := by
  obtain ⟨a, found, ha, hb⟩ := h
  refine ⟨f a, ?_, (packet a).trans ha, (begun a).trans hb⟩
  refine (find?_replaceFirst (fun b hb => ?_) s.link.admitted).trans (congrArg (Option.map f) found)
  unfold Adm.isAt
  rw [packet]
  exact hb

theorem State.Runs.defer (h : s.Runs c) (f : BitVec 32) : (s.defer c.cid c.tag f).Runs c := by
  obtain ⟨a, found, _⟩ := id h
  have either (later : Bool) : State.Runs (if later then (s.reply a.op c.cid c.tag 0x0100 f.toNat a.done).modAdm c.cid c.tag
      (fun a => { a with deferred := some f }) else s) c := by
    cases later
    · exact h
    · exact State.Runs.modAdm (h.congr (State.reply_admitted ..)) (fun _ => rfl) (fun _ => rfl)
  unfold State.defer
  rw [found]
  exact either _

/-- A command that runs on: what its effect leaves admitted stays, and so do the contexts. -/
theorem exec_runs {i : Instr} (hi : Instr.cmdRow? i = some (r, c)) (h : s.Begins i) (runs : (r.eff c (s.begun r c)).Runs c) :
    ∃ t, exec i s = .next t ∧ t.Runs c ∧ t.ctxs = (r.eff c (s.begun r c)).ctxs := by
  obtain ⟨t, run, kept, admitted⟩ := exec_begins hi (State.Begins.starts hi h).1
  exact ⟨t, run, runs.congr admitted, kept.same .ctxs (by decide)⟩

/-! ### The region commands -/

/-- A change that waits for its seal: its goal is kept with the region, and the command runs on (R137). -/
theorem State.awaitSeal_runs (h : s.Runs c) (n : Nat) (g : Region) (goal : Option Cover) (w : Word) :
    (s.awaitSeal c n g goal w).Runs c
      ∧ ((s.awaitSeal c n g goal w).ctx c.cid).regions
        = mput (s.ctx c.cid).regions n (some { g with change := some { goal := goal, word := w, tag := c.tag } }) := by
  unfold State.awaitSeal
  extract_lets after pools u v p q
  have marked : v.Runs c ∧ (v.ctx c.cid).regions
      = mput (s.ctx c.cid).regions n (some { g with change := some { goal := goal, word := w, tag := c.tag } }) := by
    refine ⟨h.congr rfl, ?_⟩
    exact (congrArg Ctx.regions (State.modCtx_ctx_self u c.cid _)).trans (State.withRegion_regions s c.cid n _)
  have entered : p.1.link = v.link ∧ v.Shaped p.1 := by
    unfold p
    split
    · exact ⟨((Kept.refl (· ≠ .link) v).protect (by decide) (by decide) (by decide) _ _).same .link (by decide),
        State.Shaped.protect (State.Keeps.refl _ v) _ _⟩
    · exact ⟨rfl, State.Keeps.refl _ v⟩
  obtain ⟨link, shaped⟩ := entered
  have runs : p.1.Runs c := marked.1.congr (congrArg Link.admitted link)
  refine ⟨State.Runs.defer (State.Runs.modAdm (f := fun a => { a with aux := some p.2 }) runs (fun _ => rfl) fun _ => rfl) _, ?_⟩
  have deferred : (q.defer c.cid c.tag (BitVec.allOnes 32)).ctxs = p.1.ctxs :=
    ((Kept.refl (· = .link) q).defer rfl c.cid c.tag (BitVec.allOnes 32)).same .ctxs (by decide)
  rw [State.ctx_of_ctxs deferred, shaped.regions, marked.2]

/-- A change that takes effect at once changes no part of the state that a reply speaks of, and leaves the region as given. -/
theorem State.changeNow_done (s : State) (k n : Nat) (old new : Option Region) :
    Kept offReply s (s.changeNow k n old new).1 ∧ ((s.changeNow k n old new).1.ctx k).regions = mput (s.ctx k).regions n new :=
  ⟨(Kept.refl _ s).changeNow (by decide) (by decide) (by decide) k n old new,
    ((s.changeNow_shaped k n old new).regions k).trans (s.withRegion_regions k n new)⟩

/-- The rows of the region commands in Table 4.4. -/
def regionDefineRow : CmdRow := ⟨0x20, fieldsRegionDefine, chkRegionDefine, noBytes, noTake, effRegionDefine⟩
def regionSetClassRow : CmdRow := ⟨0x21, fieldsRegionSetClass, chkRegionSetClass, noBytes, noTake, effRegionSetClass⟩
def regionReleaseRow : CmdRow := ⟨0x22, fieldsRegionRelease, chkRegionRelease, noBytes, noTake, effRegionRelease⟩

section
variable {i : Instr} (hi : Instr.cmdRow? i = some (r, c)) (ht : r.take = noTake) (h : s.Begins i) {n : Nat}
include hi ht h

theorem begun_ctx (k : Nat) : (s.begun r c).ctx k = s.ctx k :=
  State.ctx_of_ctxs ((State.begun_kept ht (State.Begins.starts hi h).1.toOffers).same .ctxs (by decide)) k

/-- A region command whose change takes effect at once. -/
theorem exec_changes (ho : (rowOf r.op).op = r.op) {old new : Option Region} {d : Nat}
    (he : r.eff c (s.begun r c) = ((s.begun r c).changeNow c.cid n old new).1.finish c.cid c.tag 0 d) :
    ∃ t, exec i s = .next t ∧ t.Replied r.op c 0 d ∧ (t.ctx c.cid).regions = mput (s.ctx c.cid).regions n new := by
  obtain ⟨work, regions⟩ := (s.begun r c).changeNow_done c.cid n old new
  obtain ⟨t, run, replied, ctxs⟩ := exec_replies hi ho ht h work he
  exact ⟨t, run, replied, by rw [State.ctx_of_ctxs ctxs, regions, begun_ctx hi ht h]⟩

/-- A region command whose change waits for its seal. -/
theorem exec_awaitsSeal {g : Region} {goal : Option Cover} {w : Word}
    (he : r.eff c (s.begun r c) = (s.begun r c).awaitSeal c n g goal w) :
    ∃ t, exec i s = .next t ∧ t.Runs c ∧ (t.ctx c.cid).regions
      = mput (s.ctx c.cid).regions n (some { g with change := some { goal := goal, word := w, tag := c.tag } }) := by
  obtain ⟨runs, regions⟩ := State.awaitSeal_runs (State.begun_runs ht (State.Begins.starts hi h).1.toOffers) n g goal w
  rw [← he] at runs regions
  obtain ⟨t, run, runs, ctxs⟩ := exec_runs hi h runs
  exact ⟨t, run, runs, by rw [State.ctx_of_ctxs ctxs, regions, begun_ctx hi ht h]⟩

end

theorem exec_regionDefine (h : s.Begins (.regionDefine c)) :
    ((s.ctx c.cid).bakes .uncovered (newRegion c).cls = false → ∃ t d, exec (.regionDefine c) s = .next t
        ∧ t.Replied 0x20 c 0 d ∧ (t.ctx c.cid).regions = mput (s.ctx c.cid).regions (regionNo c) (some (newRegion c)))
    ∧ ((s.ctx c.cid).bakes .uncovered (newRegion c).cls = true → ∃ t, exec (.regionDefine c) s = .next t
        ∧ t.Runs c ∧ (t.ctx c.cid).regions = mput (s.ctx c.cid).regions (regionNo c) (some { newRegion c with
          cls := .uncovered, change := some { goal := some (newRegion c).cls, word := c.param 0, tag := c.tag } })) := by
  have hi : Instr.cmdRow? (.regionDefine c) = some (regionDefineRow, c) := rfl
  have ctx := begun_ctx hi rfl h c.cid
  refine ⟨fun now => ?_, fun bakes => ?_⟩
  · obtain ⟨t, run, replied, regions⟩ := exec_changes hi rfl h (by decide) (if_neg (by rw [ctx, now]; decide))
    exact ⟨t, _, run, replied, regions⟩
  · exact exec_awaitsSeal hi rfl h (if_pos (by rw [ctx, bakes]))

theorem exec_regionSetClass (h : s.Begins (.regionSetClass c)) :
    let n := fld c.a 0 8
    let g := coverOf (fld c.b 0 2)
    ((s.ctx c.cid).bakes (s.region c.cid n).cls g = false → ∃ t, exec (.regionSetClass c) s = .next t
        ∧ t.Replied 0x21 c 0 0 ∧ (t.ctx c.cid).regions
          = mput (s.ctx c.cid).regions n (some { s.region c.cid n with cls := g, replica := c.param 0 }))
    ∧ ((s.ctx c.cid).bakes (s.region c.cid n).cls g = true → ∃ t, exec (.regionSetClass c) s = .next t
        ∧ t.Runs c ∧ (t.ctx c.cid).regions = mput (s.ctx c.cid).regions n (some { s.region c.cid n with
          change := some { goal := some g, word := c.param 0, tag := c.tag } })) := by
  have hi : Instr.cmdRow? (.regionSetClass c) = some (regionSetClassRow, c) := rfl
  have ctx := begun_ctx hi rfl h c.cid
  have region : (s.begun regionSetClassRow c).region c.cid (fld c.a 0 8) = s.region c.cid (fld c.a 0 8) := by
    unfold State.region
    rw [ctx]
  refine ⟨fun now => ?_, fun bakes => ?_⟩
  · rw [← region]
    exact exec_changes hi rfl h (by decide) (if_neg (by rw [ctx, region, now]; decide))
  · rw [← region]
    exact exec_awaitsSeal hi rfl h (if_pos (by rw [ctx, region, bakes]))

theorem exec_regionRelease (h : s.Begins (.regionRelease c)) :
    let n := fld c.a 0 8
    ((s.ctx c.cid).bakes (s.region c.cid n).cls .uncovered = false → ∃ t, exec (.regionRelease c) s = .next t
        ∧ t.Replied 0x22 c 0 (s.region c.cid n).count ∧ (t.ctx c.cid).regions = mput (s.ctx c.cid).regions n none)
    ∧ ((s.ctx c.cid).bakes (s.region c.cid n).cls .uncovered = true → ∃ t, exec (.regionRelease c) s = .next t
        ∧ t.Runs c ∧ (t.ctx c.cid).regions = mput (s.ctx c.cid).regions n (some { s.region c.cid n with
          change := some { goal := none, word := 0, tag := c.tag } })) := by
  have hi : Instr.cmdRow? (.regionRelease c) = some (regionReleaseRow, c) := rfl
  have ctx := begun_ctx hi rfl h c.cid
  have region : (s.begun regionReleaseRow c).region c.cid (fld c.a 0 8) = s.region c.cid (fld c.a 0 8) := by
    unfold State.region
    rw [ctx]
  refine ⟨fun now => ?_, fun bakes => ?_⟩
  · rw [← region]
    exact exec_changes hi rfl h (by decide) (if_neg (by rw [ctx, region, now]; decide))
  · rw [← region]
    exact exec_awaitsSeal hi rfl h (if_pos (by rw [ctx, region, bakes]))

end Sys2Proof.Machine
namespace Sys2Proof.Machine

variable {s s₀ t v : State} {r : CmdRow} {c : Cmd}

/-! ### What a request that leaves writes of a context -/

/-- A context without its keys and the sequence number that they stamp. -/
def Ctx.unkeyed (x : Ctx) : Ctx := { x with keys := {} }

/-- `t` has the contexts of `s` but for their keys. -/
abbrev State.Unkeyed (s t : State) : Prop := State.Keeps Ctx.unkeyed s t

namespace State.Unkeyed

theorem sealXfer (h : s₀.Unkeyed s) {k hdr : Nat} {pl : List Byte} {e : State × Xfer} (sent : s.sealXfer k hdr pl = some e) :
    s₀.Unkeyed e.1 := by
  unfold State.sealXfer at sent
  dsimp only at sent
  split at sent
  · cases sent
  · cases sent
    have counted := h.modCtx (k := k) (f := fun x => { x with keys := { x.keys with seq := x.keys.seq + 1 } }) rfl
    exact counted.of_kept ((Kept.refl _ _).countCtx (by decide) k 83 1)

theorem issueWith (h : s₀.Unkeyed s) (q : Req) (flags : Nat) : s₀.Unkeyed (s.issueWith q flags) := by
  have keep : s₀.Unkeyed { s with fab := { s.fab with retries := s.fab.retries ++ [⟨q⟩] } } := h.trans (Keeps.of_eq rfl rfl)
  unfold State.issueWith
  dsimp only
  refine Keeps.ite (fun _ => h) fun _ => Keeps.ite (fun _ => keep) fun _ => ?_
  split
  · exact keep
  · split
    · exact keep
    · next sent =>
      refine (Keeps.of_kept ?_ ((Kept.refl _ _).send (by decide) (by decide) _ _ _ _)).trans (Keeps.of_eq rfl rfl)
      split at sent
      · cases sent
        exact h
      · exact sealXfer h sent

theorem issue (h : s₀.Unkeyed s) (k : Nat) (cls : Cls) (typ dst : Nat) (body : List (Nat × Nat)) (pl : List Byte) (why : Why)
    (tag : BitVec 16) (flags : Nat) : s₀.Unkeyed (s.issue k cls typ dst body pl why tag flags) := issueWith h _ _

theorem sendPart (h : s₀.Unkeyed s) (k dst member part : Nat) (odd : Bool) (l : List Byte) (cls : Cls) :
    s₀.Unkeyed (s.sendPart k dst member part odd l cls) := h.each fun _ _ g => issue g ..
theorem shareRecord (h : s₀.Unkeyed s) (k part : Nat) (odd : Bool) (l : List Nat) : s₀.Unkeyed (s.shareRecord k part odd l) := by
  unfold State.shareRecord
  dsimp only
  split
  · exact h
  · exact Keeps.ite (fun _ => h) (fun _ => h.each fun _ _ g => sendPart g ..)

end State.Unkeyed

end Sys2Proof.Machine
namespace Sys2Proof.Machine

variable {s s₀ t v : State} {r : CmdRow} {c : Cmd}

/-! ### POOL_SIZE -/

theorem Ctx.setPool_pool (x : Ctx) (j : Nat) (p : Pool) : (x.setPool j p).pool j = p := by
  unfold Ctx.setPool
  split
  · rfl
  · rfl
  · rfl
  · next h0 h1 h2 =>
    unfold Ctx.pool
    split
    · exact absurd rfl h0
    · exact absurd rfl h1
    · exact absurd rfl h2
    · rfl

theorem State.Unkeyed.pool (h : s.Unkeyed t) (k j : Nat) : (t.ctx k).pool j = (s.ctx k).pool j :=
  (congrArg (fun x => Ctx.pool x j) (h.ctx k) : (t.ctx k).unkeyed.pool j = _)

theorem State.Unkeyed.sharePools (h : s₀.Unkeyed s) (k : Nat) : s₀.Unkeyed (s.sharePools k) := shareRecord h _ _ _ _

/-- A context whose pool has been sized, with the floor or the reserve that came with it. -/
def Ctx.sizedPool (c : Cmd) (x : Ctx) : Ctx :=
  let j := fld c.a 0 2
  let x := x.setPool j { x.pool j with sized := true }
  if j = 0 then { x with floor := fld c.b 0 3 } else if j = 1 then { x with reserve := fld c.b 0 32 } else x

theorem Ctx.sizedPool_sized (c : Cmd) (x : Ctx) : ((x.sizedPool c).pool (fld c.a 0 2)).sized = true := by
  have set := x.setPool_pool (fld c.a 0 2) { x.pool (fld c.a 0 2) with sized := true }
  unfold Ctx.sizedPool
  dsimp only
  split
  · exact congrArg Pool.sized set
  · split
    · exact congrArg Pool.sized set
    · exact congrArg Pool.sized set

/-- What POOL_SIZE does before it is done. -/
def State.poolSized (s : State) (c : Cmd) : State :=
  (((s.placePool c.cid (fld c.a 0 2) (s.poolShares c.cid (fld c.a 0 2) c.n)).modCtx c.cid (Ctx.sizedPool c)).relieveAll c.cid).sharePools c.cid

theorem State.poolSized_done (s : State) (c : Cmd) :
    Kept offReply s (s.poolSized c) ∧ (((s.poolSized c).ctx c.cid).pool (fld c.a 0 2)).sized = true := by
  let p := s.placePool c.cid (fld c.a 0 2) (s.poolShares c.cid (fld c.a 0 2) c.n)
  have placed : Kept offReply s p := (Kept.refl _ s).placePool (by decide) _ _ _
  have sized : Kept offReply s (p.modCtx c.cid (Ctx.sizedPool c)) := placed.modCtx (by decide) _ _
  refine ⟨(sized.relieveAll (by decide) c.cid).sharePools (by decide) (by decide) (by decide) (by decide) c.cid, ?_⟩
  have relieved := State.Keeps.of_kept (State.Keeps.refl Ctx.unkeyed (p.modCtx c.cid (Ctx.sizedPool c)))
    ((Kept.refl _ _).relieveAll (by decide) c.cid)
  have shared := State.Unkeyed.sharePools relieved c.cid
  refine (congrArg Pool.sized (shared.pool c.cid (fld c.a 0 2))).trans ?_
  rw [State.modCtx_ctx_self]
  exact Ctx.sizedPool_sized c _

def poolSizeRow : CmdRow := ⟨0x23, fieldsPoolSize, chkPoolSize, noBytes, noTake, effPoolSize⟩

theorem exec_poolSize (h : s.Begins (.poolSize c)) : ∃ t, exec (.poolSize c) s = .next t
    ∧ ((t.ctx c.cid).pool (fld c.a 0 2)).sized = true
    ∧ t.Replied 0x23 c 0 (min ((s.ctx c.cid).pool (fld c.a 0 2)).tiles.length 0xFFFFFFFF) := by
  have hi : Instr.cmdRow? (.poolSize c) = some (poolSizeRow, c) := rfl
  obtain ⟨work, sized⟩ := (s.begun poolSizeRow c).poolSized_done c
  obtain ⟨t, run, replied, ctxs⟩ := exec_replies hi rfl rfl h work
    (d := min ((s.ctx c.cid).pool (fld c.a 0 2)).tiles.length 0xFFFFFFFF) (by rw [← begun_ctx hi rfl h]; rfl)
  exact ⟨t, run, by rw [State.ctx_of_ctxs ctxs, sized], replied⟩

/-! ### CTX_SET_TILEMAP -/

def ctxSetTilemapRow : CmdRow := ⟨0x12, noFields, chkCtxSetTilemap, noBytes, noTake, effCtxSetTilemap⟩

theorem firstBad_none {l : List (Option Bad)} (h : firstBad l = none) {e : Option Bad} (he : e ∈ l) : e = none :=
  List.findSome?_eq_none_iff.mp h e he

/-- A command that passes its checks passes those of its own row. -/
theorem State.Admits.chk (h : s.Admits r c) : r.chk (s.taken c) c = none := by
  have body := h.body
  unfold State.bodyBad at body
  split at body
  · cases body
  · exact firstBad_none body (List.mem_cons_self ..)

/-- A command that passes the checks of a map finds the map's tiles a place. -/
theorem State.planMap_of_chk (h : chkSetTilemap s c = none) :
    ∃ ps st, s.planMap c.cid (c.b.getLsbD 0) c.a.toNat c.n = .ok (s.mapWords c.a.toNat c.n, ps, st) := by
  have plan := firstBad_none h (List.mem_cons_of_mem _ (List.mem_cons_self ..))
  generalize e : s.planMap c.cid (c.b.getLsbD 0) c.a.toNat c.n = m at plan
  cases m with
  | error => cases plan
  | ok p =>
    unfold State.planMap State.planWords at e
    dsimp only at e
    split at e
    · cases e
    · split at e
      · cases e
      · cases e
        exact ⟨_, _, rfl⟩

/-- The map that a command loads has the entries of its COUNT. -/
theorem State.setTilemap_n (h : chkSetTilemap s c = none) :
    ((s.setTilemap c).ctx c.cid).n = c.n := by
  obtain ⟨ps, st, plan⟩ := State.planMap_of_chk h
  unfold State.setTilemap
  rw [plan]
  dsimp only
  unfold State.loadMap
  rw [State.modCtx_ctx_self]
  unfold State.mapWords
  simp

theorem chkSetTilemap_withAdm (s : State) (l : List Adm) : chkSetTilemap (s.withAdm l) c = chkSetTilemap s c := rfl

/-- What CTX_SET_TILEMAP does before it is done. -/
def State.mapLoaded (s : State) (c : Cmd) : State :=
  (s.setTilemap c).modCtx c.cid (fun x => { x with knead := { x.knead with fresh := false, jobs := [] } })

theorem State.mapLoaded_n (h : chkSetTilemap s c = none) : ((s.mapLoaded c).ctx c.cid).n = c.n := by
  unfold State.mapLoaded
  rw [State.modCtx_ctx_self]
  exact State.setTilemap_n h

theorem State.mapLoaded_jobs (s : State) (c : Cmd) : ((s.mapLoaded c).ctx c.cid).knead.jobs = [] := by
  unfold State.mapLoaded
  rw [State.modCtx_ctx_self]

/-- The record of a command whose units are all done, and whose detail is known. -/
def Adm.loaded (n : Nat) (a : Adm) : Adm := { a with done := n, aux := some n }

/-- Without a pantry window there is no directory to clear. -/
theorem effCtxSetTilemap_eq (window : (s.ctx c.cid).knead.size = 0) (h : chkSetTilemap s c = none) :
    effCtxSetTilemap c s = ((s.mapLoaded c).modAdm c.cid c.tag (Adm.loaded c.n)).finish c.cid c.tag 0 c.n := by
  have count : (((s.mapLoaded c).modAdm c.cid c.tag (Adm.loaded c.n)).ctx c.cid).n = c.n := State.mapLoaded_n h
  have fits : sat32 c.n = c.n := Nat.min_eq_left (Nat.le_of_lt_succ c.count.isLt)
  have record : (fun a : Adm => { a with done := c.n, aux := some ((s.mapLoaded c).ctx c.cid).n }) = Adm.loaded c.n := by
    rw [State.mapLoaded_n h]
    rfl
  unfold effCtxSetTilemap
  dsimp only
  rw [if_neg (by simp [window])]
  change (((s.mapLoaded c).modAdm c.cid c.tag (fun a : Adm => { a with done := c.n, aux := some ((s.mapLoaded c).ctx c.cid).n })).done c
    (sat32 (((s.mapLoaded c).modAdm c.cid c.tag
      (fun a : Adm => { a with done := c.n, aux := some ((s.mapLoaded c).ctx c.cid).n })).ctx c.cid).n)) = _
  rw [record, count, fits]
  rfl

theorem exec_ctxSetTilemap (h : s.Begins (.ctxSetTilemap c)) (window : (s.ctx c.cid).knead.size = 0) :
    ∃ t, exec (.ctxSetTilemap c) s = .next t ∧ t.Replied 0x12 c 0 c.n c.n ∧ (t.ctx c.cid).knead.jobs = [] ∧ (t.ctx c.cid).n = c.n := by
  have hi : Instr.cmdRow? (.ctxSetTilemap c) = some (ctxSetTilemapRow, c) := rfl
  have starts := (State.Begins.starts hi h).1
  have passes : chkSetTilemap (s.begun ctxSetTilemapRow c) c = none := by
    rw [State.begun_eq rfl starts.toOffers, chkSetTilemap_withAdm]
    exact firstBad_none starts.toAdmits.chk (List.mem_cons_self ..)
  have work : Kept offReply (s.begun ctxSetTilemapRow c) ((s.begun ctxSetTilemapRow c).mapLoaded c) :=
    ((Kept.refl offReply _).setTilemap (by decide) (by decide) c).modCtx (by decide) _ _
  have counts : Adm.Counts (Adm.loaded c.n) c.n := ⟨fun _ => rfl, fun _ => rfl, fun _ => rfl, fun _ => rfl⟩
  obtain ⟨t, run, replied, ctxs⟩ := exec_replies_units hi rfl rfl h work counts
    (effCtxSetTilemap_eq (by rw [begun_ctx hi rfl h]; exact window) passes)
  refine ⟨t, run, replied, ?_, ?_⟩
  · rw [State.ctx_of_ctxs ctxs]
    exact State.mapLoaded_jobs _ c
  · rw [State.ctx_of_ctxs ctxs]
    exact State.mapLoaded_n passes

end Sys2Proof.Machine
namespace Sys2Proof.Machine

variable {s s₀ t v : State} {r : CmdRow} {c : Cmd}

/-! ### CTX_CLOSE -/

/-- A context given up is as none was ever opened. -/
theorem State.vacate_ctx (wf : mwf s.ctxs = true) (k : Nat) : (s.vacate k).ctx k = {} := by
  have drop : (s.dropOf k).ctxs = s.ctxs :=
    ((Kept.refl (· ≠ .ctxs) s).dropOf (by decide) (by decide) (by decide) k).same .ctxs (by decide)
  unfold State.ctx State.vacate mgetD
  dsimp only
  rw [drop, mget_merase_self wf]
  rfl

/-- The end of a CTX_CLOSE writes of the contexts only the keys that its stores are sealed with. -/
theorem effCtxClose_unkeyed (s : State) (c : Cmd) : s.Unkeyed (effCtxClose c s) := by
  have freed (l : List (Nat × Nat)) : s.Unkeyed (s.freeStacks l) :=
    (State.Keeps.refl _ s).of_kept ((Kept.refl _ s).freeStacks (by decide) (by decide) l)
  unfold effCtxClose
  exact State.Keeps.ite (fun _ => State.Keeps.finish (freed _) _ _ _ _)
    (fun _ => (freed _).each fun _ _ g => State.Unkeyed.issue g ..)

def ctxCloseRow : CmdRow := ⟨0x11, noFields, chkCtxClose, noBytes, takeCtxClose, effCtxClose⟩

theorem exec_ctxClose (sound : s.Sound) (h : s.Begins (.ctxClose c)) :
    ∃ t, exec (.ctxClose c) s = .next t ∧ (t.ctx c.cid).isOpen = false := by
  have hi : Instr.cmdRow? (.ctxClose c) = some (ctxCloseRow, c) := rfl
  obtain ⟨t, run, kept, _⟩ := exec_begins hi (State.Begins.starts hi h).1
  refine ⟨t, run, ?_⟩
  let u := (s.taken c).withAdm ((s.taken c).link.admitted ++ [(s.taken c).newAdm (rowOf 0x11) c])
  have closed : (s.begun ctxCloseRow c).ctx c.cid = {} := by
    have wf : mwf u.ctxs = true := (congrArg mwf (State.taken_ctxs s c)).trans sound.ctxs
    exact State.vacate_ctx wf c.cid
  have unkeyed : (t.ctx c.cid).unkeyed = Ctx.unkeyed {} := by
    rw [State.ctx_of_ctxs (kept.same .ctxs (by decide)), ← closed]
    exact (effCtxClose_unkeyed (s.begun ctxCloseRow c) c).ctx c.cid
  exact (congrArg Ctx.isOpen unkeyed : (t.ctx c.cid).unkeyed.isOpen = _)

/-! ### GROUP_LEAVE -/

/-- What leaving a group keeps of a context once its group is cleared: all but its regions, its tiles and the pools that follow. -/
abbrev State.Left (s t : State) : Prop := State.Keeps (fun x => { x.shape with regions := [] }) s t

/-- The changes asked for take effect at once. -/
theorem State.Left.changesNow (h : s₀.Left s) (k : Nat) : s₀.Left (s.changesNow k) := by
  unfold State.changesNow
  refine h.each fun t e g => ?_
  split
  · exact g
  · have changed (n : Nat) (old new : Option Region) : s₀.Left (t.changeNow k n old new).1 := by
      have region : s₀.Left (t.withRegion k n new) := State.Keeps.modCtx g rfl
      exact region.trans ((t.changeNow_shaped k n old new).map fun x => { x with regions := [] })
    dsimp only
    split
    · exact changed _ _ _
    · exact State.Keeps.finish (changed _ _ _) _ _ _ _

/-- A context that has left its group (R242). -/
def Ctx.ungrouped (x : Ctx) : Ctx :=
  { x with
    tiles := mmap x.tiles (fun _ r => r.leave), fences := [], crustPool := {},
    group := { cfg := x.group.cfg, bcasts := x.group.bcasts, notesSent := x.group.notesSent },
    bake := { cadence := x.bake.cadence, cadenceNext := x.bake.cadenceNext, risk := x.bake.risk, riskNext := x.bake.riskNext } }

theorem State.leaveGroup_left (s : State) (k : Nat) : (s.modCtx k Ctx.ungrouped).Left (s.leaveGroup k) := by
  have start : (s.modCtx k Ctx.ungrouped).Left (s.modCtx k Ctx.ungrouped) := State.Keeps.refl _ _
  have untrapped := start.each (l := mkeys ((s.modCtx k Ctx.ungrouped).ctx k).tiles)
    (f := fun s t => if (s.tile k t).owed = 0 then s.untrap k t else s)
    fun u n g => State.Keeps.ite (fun _ => g.trans ((State.Shaped.untrap (State.Keeps.refl _ u) k n).map fun x => { x with regions := [] }))
      (fun _ => g)
  unfold State.leaveGroup
  extract_lets now members u v w fab x signed quiet
  have resigned : (s.modCtx k Ctx.ungrouped).Left signed :=
    (untrapped.trans (State.Keeps.of_eq (t := x) rfl rfl)).each fun _ _ g => g.trans (State.Keeps.of_eq rfl rfl)
  have relieved : (s.modCtx k Ctx.ungrouped).Left quiet := (resigned.changesNow k).of_kept ((Kept.refl _ _).relieveAll (by decide) k)
  exact relieved.each fun _ _ g => State.Keeps.finish g _ _ _ _

theorem State.Left.group_left {k : Nat} (h : (s.modCtx k Ctx.ungrouped).Left t) :
    (t.ctx k).group.joined = false ∧ (t.ctx k).fences = [] ∧ (t.ctx k).crustPool = {} ∧ (t.ctx k).bake.sealNow = [] := by
  have same := h.ctx k
  rw [State.modCtx_ctx_self] at same
  have joined : (t.ctx k).group.joined = false := congrArg (fun x => x.group.joined) same
  refine ⟨joined, congrArg Ctx.fences same, ?_, congrArg (fun x => x.bake.sealNow) same⟩
  have pool := congrArg Ctx.crustPool same
  unfold Ctx.shape at pool
  simpa [joined, Ctx.ungrouped] using pool

theorem map_replaceFirst {α β : Type} {p : α → Bool} {f : α → α} {g : α → β} (hf : ∀ a, g (f a) = g a) (l : List α) :
    (replaceFirst p f l).map g = l.map g := by
  induction l with
  | nil => rfl
  | cons a l ih =>
    rw [replaceFirst]
    split
    · rw [List.map_cons, List.map_cons, hf]
    · rw [List.map_cons, List.map_cons, ih]

/-- What a command's record keeps beside its packet is of no context. -/
theorem State.Keeps.modAdm {α : Type} {p : Ctx → α} (h : State.Keeps p s₀ s) (k : Nat) (g : BitVec 16) {f : Adm → Adm}
    (hf : ∀ a, (f a).key = a.key) : State.Keeps p s₀ (s.modAdm k g f) := by
  have keys : (s.modAdm k g f).keys = s.keys := map_replaceFirst hf s.link.admitted
  refine h.trans ⟨fun _ => rfl, ?_⟩
  rw [keys]

/-- A tag that stands at most once among the admitted commands is free after its command's final reply. -/
theorem State.adm?_finish {k n d : Nat} {g : BitVec 16} (once : s.keys.count (k, g) ≤ 1) : (s.finish k g n d).adm? k g = none := by
  have gone : (k, g) ∉ (s.finish k g n d).keys := by
    rw [← List.count_eq_zero]
    have := (State.finish_keys (s := s) k g n d).count_le (k, g)
    rw [List.count_erase_self] at this
    omega
  exact List.find?_eq_none.mpr fun a ha at' => gone (List.mem_map.mpr ⟨a, ha, Adm.isAt_iff.mp at'⟩)

def groupLeaveRow : CmdRow := ⟨0x33, noFields, chkGroupLeave, noBytes, takeGroupLeave, effDone0⟩

theorem exec_groupLeave (h : s.Begins (.groupLeave c)) : ∃ t, exec (.groupLeave c) s = .next t ∧ t.adm? c.cid c.tag = none
    ∧ (t.ctx c.cid).group.joined = false ∧ (t.ctx c.cid).fences = [] ∧ (t.ctx c.cid).crustPool = {}
    ∧ (t.ctx c.cid).bake.sealNow = [] := by
  have hi : Instr.cmdRow? (.groupLeave c) = some (groupLeaveRow, c) := rfl
  have starts := (State.Begins.starts hi h).1
  obtain ⟨t, run, kept, admitted⟩ := exec_begins hi starts
  let u := (s.taken c).withAdm ((s.taken c).link.admitted ++ [(s.taken c).newAdm (rowOf 0x33) c])
  have left : (u.modCtx c.cid Ctx.ungrouped).Left (s.begun groupLeaveRow c) := by
    have begun : s.begun groupLeaveRow c = (u.leaveGroup c.cid).modAdm c.cid c.tag (fun a => { a with begun := true }) := rfl
    rw [begun]
    exact State.Keeps.modAdm (u.leaveGroup_left c.cid) _ _ fun _ => rfl
  have once : (s.begun groupLeaveRow c).keys.count (c.cid, c.tag) ≤ 1 := by
    have none : (c.cid, c.tag) ∉ (s.taken c).keys := State.not_mem_keys starts.free_taken
    have keys : (u.modCtx c.cid Ctx.ungrouped).keys = (s.taken c).keys ++ [(c.cid, c.tag)] := List.map_append
    refine (left.keys.count_le _).trans ?_
    rw [keys, List.count_append, List.count_eq_zero.mpr none, List.count_singleton_self]
  have done : (u.modCtx c.cid Ctx.ungrouped).Left t := by
    refine (State.Keeps.finish left c.cid c.tag 0 0).trans ⟨fun k => ?_, ?_⟩
    · rw [State.ctx_of_ctxs (kept.same .ctxs (by decide))]
      rfl
    · unfold State.keys
      rw [admitted]
      exact List.Sublist.refl _
  refine ⟨t, run, ?_, done.group_left⟩
  unfold State.adm?
  rw [admitted]
  exact State.adm?_finish once

/-- Settles O30: the region commands enter, change or remove their region or wait for its bake, POOL_SIZE and CTX_SET_TILEMAP are
done, and CTX_CLOSE and GROUP_LEAVE leave the context closed and in no group. -/
theorem regionsPoolsAndMaps : Obligations.RegionsPoolsAndMaps := by
  intro s c
  exact ⟨fun h => (exec_regionDefine h).1, fun h => (exec_regionDefine h).2, fun h => (exec_regionSetClass h).1,
    fun h => (exec_regionSetClass h).2, fun h => (exec_regionRelease h).1, fun h => (exec_regionRelease h).2,
    exec_poolSize, exec_ctxSetTilemap, exec_ctxClose, exec_groupLeave⟩

end Sys2Proof.Machine
namespace Sys2Proof.Machine

variable {s t : State} {r : CmdRow} {c : Cmd}

/-! ### Commands that take effect as they are taken, and stay admitted -/

/-- The state that a command finds as it passes its checks: its flits taken, and its own record last (R87). -/
def State.entered (s : State) (r : CmdRow) (c : Cmd) : State :=
  (s.taken c).withAdm ((s.taken c).link.admitted ++ [(s.taken c).newAdm (rowOf r.op) c])

theorem State.admitted_eq (s : State) (r : CmdRow) (c : Cmd) : s.admitted r c = r.take c (s.entered r c) := rfl
theorem State.entered_ctxs (s : State) (r : CmdRow) (c : Cmd) : (s.entered r c).ctxs = s.ctxs := State.taken_ctxs s c
theorem State.entered_ctx (s : State) (r : CmdRow) (c : Cmd) (k : Nat) : (s.entered r c).ctx k = s.ctx k := State.taken_ctx s c k
theorem State.entered_frames (s : State) (r : CmdRow) (c : Cmd) : (s.entered r c).frames = s.frames := State.taken_frames s c

theorem State.entered_adm? (h : s.Offers c) (r : CmdRow) :
    (s.entered r c).adm? c.cid c.tag = some ((s.taken c).newAdm (rowOf r.op) c) := by
  unfold State.adm? State.entered State.withAdm
  dsimp only
  rw [List.find?_append, h.free_taken, Option.none_or, List.find?_cons_of_pos (Adm.isAt_new _ _ _)]

theorem State.adm?_modAdm (s : State) (k : Nat) (g : BitVec 16) {f : Adm → Adm} (packet : ∀ a, (f a).c = a.c) :
    (s.modAdm k g f).adm? k g = (s.adm? k g).map f := by
  refine find?_replaceFirst (fun a ha => ?_) s.link.admitted
  unfold Adm.isAt
  rw [packet]
  exact ha

/-- A command whose record is there as it passes its checks runs when it begins. -/
theorem State.begun_runs_of_admitted {a : Adm} (found : (s.admitted r c).adm? c.cid c.tag = some a) (packet : a.c = c) :
    (s.begun r c).Runs c := by
  refine ⟨{ a with begun := true }, ?_, packet, rfl⟩
  unfold State.begun
  rw [State.adm?_modAdm, found]
  · rfl
  · exact fun _ => rfl

/-- A command that leaves the link as it is taken, and has nothing to do as it begins, runs on. -/
theorem exec_stays {i : Instr} (hi : Instr.cmdRow? i = some (r, c)) (h : s.Begins i)
    (link : (s.admitted r c).link = (s.entered r c).link) (eff : r.eff c (s.begun r c) = s.begun r c) :
    ∃ t, exec i s = .next t ∧ t.Runs c ∧ t.ctxs = (s.admitted r c).ctxs ∧ t.frames = (s.admitted r c).frames := by
  have starts := (State.Begins.starts hi h).1
  have found : (s.admitted r c).adm? c.cid c.tag = some ((s.taken c).newAdm (rowOf r.op) c) := by
    rw [← State.entered_adm? starts.toOffers]
    unfold State.adm?
    rw [link]
  obtain ⟨t, run, kept, admitted⟩ := exec_begins hi starts
  rw [eff] at kept admitted
  exact ⟨t, run, (State.begun_runs_of_admitted found rfl).congr admitted, kept.same .ctxs (by decide),
    kept.same .frames (by decide)⟩

theorem State.modCtx_ctxs_congr {k : Nat} {f g : Ctx → Ctx} (ctxs : t.ctxs = s.ctxs) (h : f (s.ctx k) = g (s.ctx k)) :
    (t.modCtx k f).ctxs = (s.modCtx k g).ctxs := by
  unfold State.modCtx
  dsimp only
  rw [State.ctx_of_ctxs ctxs, ctxs, h]

/-- The rows of these commands in Table 4.4. -/
def stepBeginRow : CmdRow := ⟨0x42, fieldsStepBegin, chkStepBegin, noBytes, takeStepBegin, effNone⟩
def stepLossRow : CmdRow := ⟨0x45, noFields, chkStepLoss, noBytes, takeStepLoss, effNone⟩
def gradReadyRow : CmdRow :=
  ⟨0x43, fieldsGrad, chkGradReady, (fun s c => s.gradBytes false c), takeGradReady, effGradReady⟩
def stepPublishRow : CmdRow := ⟨0x46, fieldsStepPublish, chkStepPublish, bytesStepPublish, noTake, effStepPublish⟩
def sealNowRow : CmdRow := ⟨0x51, noFields, chkSealNow, noBytes, takeSealNow, effNone⟩
def groupJoinRow : CmdRow := ⟨0x31, fieldsGroupJoin, chkGroupJoin, noBytes, takeGroupJoin, effGroupJoin⟩
def setFrameRow : CmdRow := ⟨0x05, noFields, chkSetFrame, noBytes, takeSetFrame, effSetFrame⟩

/-- STEP_BEGIN opens the step with the context's values, beside the default size of the crumb pool (R143, R269). -/
theorem exec_stepBegin (h : s.Begins (.stepBegin c)) :
    ∃ t, exec (.stepBegin c) s = .next t ∧ t.Runs c ∧ (t.ctx c.cid).step = some ((s.entered stepBeginRow c).openStep c)
      ∧ (t.ctx c.cid).lastStep = some c.a ∧ (t.ctx c.cid).ordinal = (s.ctx c.cid).ordinal + 1 := by
  let e := s.entered stepBeginRow c
  have pool : (e.applyDefault c.cid 0).link = e.link :=
    ((Kept.refl (· ≠ .link) e).applyDefault (by decide) c.cid 0).same .link (by decide)
  have shaped : e.Shaped (e.applyDefault c.cid 0) := State.Shaped.applyDefault (State.Keeps.refl _ e) (.inl rfl)
  have ordinal : ((e.applyDefault c.cid 0).ctx c.cid).ordinal = (s.ctx c.cid).ordinal := by
    rw [← State.entered_ctx s stepBeginRow c c.cid]
    exact (congrArg Ctx.ordinal (shaped.ctx c.cid) : (Ctx.shape _).ordinal = _)
  obtain ⟨t, run, runs, ctxs, _⟩ := exec_stays (r := stepBeginRow) rfl h pool rfl
  have opened := (State.ctx_of_ctxs ctxs c.cid).trans (State.modCtx_ctx_self (e.applyDefault c.cid 0) c.cid _)
  exact ⟨t, run, runs, congrArg Ctx.step opened, congrArg Ctx.lastStep opened,
    (congrArg Ctx.ordinal opened).trans (congrArg (· + 1) ordinal)⟩

theorem exec_stepLoss {st : Step} (h : s.Begins (.stepLoss c)) (opened : (s.ctx c.cid).step = some st) :
    ∃ t, exec (.stepLoss c) s = .next t ∧ t.Runs c ∧ t.ctxs
      = (s.modCtx c.cid (fun x => { x with step := some { st with loss := some c.a, lossTag := some c.tag } })).ctxs := by
  obtain ⟨t, run, runs, ctxs, _⟩ := exec_stays (r := stepLossRow) rfl h rfl rfl
  refine ⟨t, run, runs, ctxs.trans (State.modCtx_ctxs_congr (State.entered_ctxs s stepLossRow c) ?_)⟩
  rw [opened]
  rfl

theorem takeGradReady_link (s : State) (c : Cmd) : (takeGradReady c s).link
    = (s.modAdm c.cid c.tag (fun a => { a with aux := some (s.header c.cid (gradTile c)).toNat })).link := by
  unfold takeGradReady
  dsimp only
  split <;> rfl

/-- STEP_GRAD_READY notes its header as it is taken, and its tiles as it begins. -/
theorem exec_stepGradReady (h : s.Begins (.stepGradReady c)) :
    ∃ t a, exec (.stepGradReady c) s = .next t ∧ t.Runs c ∧ t.adm? c.cid c.tag = some a
      ∧ a.work = extent (firstTile c) c.n := by
  have hi : Instr.cmdRow? (.stepGradReady c) = some (gradReadyRow, c) := rfl
  have starts := (State.Begins.starts hi h).1
  have noted : ∃ a, (s.admitted gradReadyRow c).adm? c.cid c.tag = some a ∧ a.c = c := by
    rw [State.admitted_eq]
    unfold State.adm?
    rw [show (gradReadyRow.take c _).link = _ from takeGradReady_link (s.entered gradReadyRow c) c]
    refine ⟨_, (State.adm?_modAdm (s.entered gradReadyRow c) _ _ ?_).trans
      (congrArg (Option.map _) (State.entered_adm? starts.toOffers gradReadyRow)), rfl⟩
    exact fun _ => rfl
  obtain ⟨a, noted, packet⟩ := noted
  have begun := State.begun_runs_of_admitted noted packet
  obtain ⟨b, found, _⟩ := id begun
  obtain ⟨t, run, _, admitted⟩ := exec_begins hi starts
  have runs : (effGradReady c (s.begun gradReadyRow c)).Runs c := State.Runs.modAdm begun (fun _ => rfl) fun _ => rfl
  have worked : (effGradReady c (s.begun gradReadyRow c)).adm? c.cid c.tag
      = some { b with work := extent (firstTile c) c.n } := by
    unfold effGradReady
    rw [State.adm?_modAdm, found]
    · rfl
    · exact fun _ => rfl
  exact ⟨t, _, run, runs.congr admitted, (congrArg (List.find? _) admitted).trans worked, rfl⟩

/-- STEP_PUBLISH of the step open or last clean waits for its targets (R177). -/
theorem exec_stepPublish (h : s.Begins (.stepPublish c))
    (named : (s.ctx c.cid).namesStep c.b = true ∨ (s.ctx c.cid).lastClean = some c.b) :
    ∃ t, exec (.stepPublish c) s = .next t ∧ t.Runs c ∧ t.ctxs = s.ctxs := by
  have nothing : effStepPublish c (s.begun stepPublishRow c) = s.begun stepPublishRow c := by
    refine if_pos ?_
    rw [begun_ctx (r := stepPublishRow) rfl rfl h]
    exact named.symm
  obtain ⟨t, run, runs, ctxs, _⟩ := exec_stays (r := stepPublishRow) rfl h rfl nothing
  exact ⟨t, run, runs, ctxs.trans (State.entered_ctxs s _ c)⟩

theorem exec_bakeSealNow (h : s.Begins (.bakeSealNow c)) :
    ∃ t, exec (.bakeSealNow c) s = .next t ∧ t.Runs c ∧ t.ctxs = (s.modCtx c.cid (fun x =>
      { x with bake := { x.bake with sealNow := x.bake.sealNow ++ [(c.tag, x.ordinal)] } })).ctxs := by
  obtain ⟨t, run, runs, ctxs, _⟩ := exec_stays (r := sealNowRow) rfl h rfl rfl
  exact ⟨t, run, runs, ctxs.trans (State.modCtx_ctxs_congr (State.entered_ctxs s sealNowRow c) rfl)⟩

/-- On a member that is not the root nothing leaves: the generation is the root's broadcast (R240). -/
theorem exec_groupJoin (h : s.Begins (.groupJoin c)) (member : c.b.getLsbD 0 = false) :
    ∃ t, exec (.groupJoin c) s = .next t ∧ t.Runs c ∧ t.ctxs = (s.modCtx c.cid (fun x =>
      { x with group := { x.group with joining := some (c.tag, BitVec.ofNat 32 (fld c.a 0 32), false) } })).ctxs := by
  have nothing : effGroupJoin c (s.begun groupJoinRow c) = s.begun groupJoinRow c := if_neg (by rw [member]; decide)
  obtain ⟨t, run, runs, ctxs, _⟩ := exec_stays (r := groupJoinRow) rfl h rfl nothing
  refine ⟨t, run, runs, ctxs.trans (State.modCtx_ctxs_congr (State.entered_ctxs s groupJoinRow c) ?_)⟩
  rw [member]

theorem takeSetFrame_same (h : BitVec.ofNat 3 (fld c.a 0 3) = s.frames.j) : takeSetFrame c s = s := if_pos h
theorem takeSetFrame_other (h : BitVec.ofNat 3 (fld c.a 0 3) ≠ s.frames.j) :
    (takeSetFrame c s).link = s.link ∧ (takeSetFrame c s).frames = { s.frames with pending := some (c.ctx, c.tag,
      BitVec.ofNat 3 (fld c.a 0 3), switchAt s.frames.tick s.frames.j (BitVec.ofNat 3 (fld c.a 0 3))) } := by
  unfold takeSetFrame
  dsimp only
  rw [if_neg h]
  exact ⟨rfl, rfl⟩

/-- SET_FRAME to another period waits for the boundary of both (R103). -/
theorem exec_setFrame_other (h : s.Begins (.setFrame c)) (other : BitVec.ofNat 3 (fld c.a 0 3) ≠ s.frames.j) :
    ∃ t, exec (.setFrame c) s = .next t ∧ t.Runs c ∧ t.frames = { s.frames with
      pending := some (c.ctx, c.tag, BitVec.ofNat 3 (fld c.a 0 3),
        switchAt s.frames.tick s.frames.j (BitVec.ofNat 3 (fld c.a 0 3))) } := by
  rw [← State.entered_frames s setFrameRow c] at other ⊢
  obtain ⟨link, frames⟩ := takeSetFrame_other other
  have pends : (s.begun setFrameRow c).frames.pending.isSome = true := by
    unfold State.begun
    rw [State.modAdm_frames, State.admitted_eq]
    exact congrArg (fun f : Frames => f.pending.isSome) frames
  obtain ⟨t, run, runs, _, set⟩ := exec_stays (r := setFrameRow) rfl h link (if_pos pends)
  exact ⟨t, run, runs, set.trans frames⟩

/-- Settles O28: each command writes its own record as it is taken, and leaves itself admitted as it begins. -/
theorem commandsThatStayAdmitted : Obligations.CommandsThatStayAdmitted := by
  intro s c k x
  refine ⟨fun h => ?_, fun _ => exec_stepLoss, fun h => ?_, exec_stepPublish, exec_bakeSealNow, exec_groupJoin,
    exec_setFrame_other⟩
  · obtain ⟨t, run, runs, opened, last, ordinal⟩ := exec_stepBegin h
    have ctx := State.entered_ctx s stepBeginRow c k
    exact ⟨t, _, run, runs, opened, rfl, rfl, congrArg Ctx.ordinal ctx,
      congrArg (fun x : Ctx => BitVec.ofNat 12 (fld c.b 0 12 + x.ordinal % 3)) ctx, rfl, congrArg Ctx.progs ctx,
      congrArg Ctx.groups ctx, congrArg Ctx.seed ctx, rfl, rfl, rfl, rfl, last, ordinal⟩
  · exact exec_stepGradReady h

end Sys2Proof.Machine
namespace Sys2Proof.Machine

variable {s : State} {r : CmdRow} {c : Cmd}

/-! ### SET_FRAME to the period in force -/

/-- A command that changes nothing as it is taken begins with its own record last. -/
theorem State.begun_eq_of_take (h : s.Offers c) (take : r.take c (s.entered r c) = s.entered r c) :
    s.begun r c = (s.taken c).withAdm ((s.taken c).link.admitted ++ [(s.taken c).newBegun (rowOf r.op) c 0]) := by
  have same : s.begun r c = s.begun { r with take := noTake } c := congrArg (State.modAdm · _ _ _) take
  exact same.trans (State.begun_eq rfl h)

/-- `exec_finishes` for a command that changes nothing as it is taken in the state given. -/
theorem exec_finishes_of_take {i : Instr} (hi : Instr.cmdRow? i = some (r, c)) (ho : (rowOf r.op).op = r.op) (h : s.Begins i)
    (take : r.take c (s.entered r c) = s.entered r c) {n d : Nat}
    (he : r.eff c (s.begun r c) = (s.begun r c).finish c.cid c.tag n d) :
    exec i s = .next ((s.taken c).answered r.op c n d) := by
  obtain ⟨starts, quiet⟩ := State.Begins.starts hi h
  have live : (s.taken c).live = true := State.taken_live starts.accepts
  have final : (s.begun r c).finish c.cid c.tag n d = (s.taken c).answered r.op c n d := by
    rw [State.begun_eq_of_take starts.toOffers take, State.finish_last n d live starts.free_taken
      (State.newBegun_isAt _ _ _ _) (State.unwatchedIn_begun quiet _)]
    have op : ((s.taken c).newBegun (rowOf r.op) c 0).op = r.op := ho
    rw [op, show ((s.taken c).newBegun (rowOf r.op) c 0).done = 0 from rfl, State.reply_answered live]
    rfl
  have gone : ((s.taken c).answered r.op c n d).adm? c.cid c.tag = none := starts.free_taken
  rw [exec_cmdRow hi, State.runCmd_starts starts, he, final]
  unfold State.ack
  rw [gone, if_neg (by simp)]

/-- SET_FRAME passes its checks only while no other waits for its boundary. -/
theorem pending_none_of_chkSetFrame (h : chkSetFrame s c = none) : s.frames.pending = none := by
  unfold chkSetFrame conflict at h
  split at h
  · cases h
  · exact Option.not_isSome_iff_eq_none.mp ‹_›

theorem exec_setFrame_same (h : s.Begins (.setFrame c)) (same : BitVec.ofNat 3 (fld c.a 0 3) = s.frames.j) :
    exec (.setFrame c) s = .next ((s.taken c).answered 0x05 c 0 (s.frames.frame + 1).toNat) := by
  have hi : Instr.cmdRow? (.setFrame c) = some (setFrameRow, c) := rfl
  have starts := (State.Begins.starts hi h).1
  have take : takeSetFrame c (s.entered setFrameRow c) = s.entered setFrameRow c :=
    takeSetFrame_same (by rw [State.entered_frames]; exact same)
  have frames : (s.begun setFrameRow c).frames = s.frames := by
    rw [State.begun_eq_of_take starts.toOffers take]
    exact State.taken_frames s c
  have free : s.frames.pending = none := by
    rw [← State.taken_frames s c]
    exact pending_none_of_chkSetFrame (c := c) starts.chk
  refine exec_finishes_of_take hi (by decide) h take ((if_neg ?_).trans ?_)
  · rw [frames, free]
    decide
  · rw [frames]
    rfl

/-! ### FRAME_PERIOD_SWITCH -/

theorem State.switchPeriod_early {p : BitVec 4 × BitVec 16 × BitVec 3 × Word} (h : s.frames.pending = some p) {tick : Word}
    (early : tick.toNat < p.2.2.2.toNat) : s.switchPeriod tick = s := by
  unfold State.switchPeriod
  rw [h]
  exact if_pos early

/-- At the boundary the new period takes effect, the admitted commands are converted, and the command that asked for it is done. -/
theorem State.switchPeriod_due {k : BitVec 4} {g : BitVec 16} {j : BitVec 3} {b tick : Word}
    (h : s.frames.pending = some (k, g, j, b)) (due : b.toNat ≤ tick.toNat) :
    ∃ u : State, s.switchPeriod tick = u.finish k.toNat g 0 (frameAt tick j).toNat ∧ u.boot = s.boot
      ∧ u.frames.j = j ∧ u.frames.tick = tick ∧ u.frames.pending = none ∧ u.frames.frame = frameAt tick j
      ∧ u.link.outq = s.link.outq
      ∧ u.link.admitted = s.link.admitted.map (Adm.conv (convFrame s.frames.tick s.frames.j j)) := by
  unfold State.switchPeriod
  rw [h]
  exact ⟨_, if_neg (Nat.not_lt.mpr due), rfl, rfl, rfl, rfl, rfl, rfl, rfl⟩

/-- A conversion moves no command: each keeps its context, its tag and its work. -/
theorem find?_conv (f : BitVec 32 → BitVec 32) (x : Nat) (g : BitVec 16) (l : List Adm) :
    (l.map (Adm.conv f)).find? (Adm.isAt x g) = (l.find? (Adm.isAt x g)).map (Adm.conv f) := List.find?_map
theorem unwatchedIn_conv {l : List Adm} {x : Nat} {g : BitVec 16} (h : unwatchedIn l x g) (f : BitVec 32 → BitVec 32) :
    unwatchedIn (l.map (Adm.conv f)) x g := by
  intro a ha
  obtain ⟨b, hb, rfl⟩ := List.mem_map.mp ha
  exact h b hb

theorem unwatchedIn_of_all {l : List Adm} {k : BitVec 4} {g : BitVec 16}
    (h : l.all (fun b => !((b.op == 0xF0 || b.op == 0xF1) && b.c.ctx == k && b.work.contains g.toNat)) = true) :
    unwatchedIn l k.toNat g := by
  intro a ha
  have one := (Bool.not_eq_true' _).mp (List.all_eq_true.mp h a ha)
  have same : (a.c.ctx.toNat == k.toNat) = (a.c.ctx == k) := by rw [Bool.eq_iff_iff]; simp [BitVec.toNat_inj]
  rw [same]
  exact one

theorem execFramePeriodSwitch_live (live : s.live = true) (lock : s.frames.lock = true) (tick : Word) :
    exec (.framePeriodSwitch tick) s = .next (s.switchPeriod tick) := by
  change execFramePeriodSwitch tick s = _
  unfold execFramePeriodSwitch
  rw [live, lock]
  rfl

/-- Settles O29: SET_FRAME to the period in force is done as it begins; a switch is early, due, or none was asked for. -/
theorem setFrameAndPeriodSwitch : Obligations.SetFrameAndPeriodSwitch := by
  refine ⟨fun _ _ => exec_setFrame_same, fun s tick k g j b live lock pending => ⟨fun due => ?_, fun early => ?_⟩,
    fun s tick pending => ?_⟩
  · obtain ⟨u, switched, boot, period, now, ended, frame, outq, admitted⟩ := State.switchPeriod_due pending due
    have run := execFramePeriodSwitch_live live lock tick
    rw [switched] at run
    have frames : (u.finish k.toNat g 0 (frameAt tick j).toNat).frames = u.frames :=
      ((Kept.refl (· = .link) u).finish rfl k.toNat g 0 (frameAt tick j).toNat).same .frames (by decide)
    refine ⟨_, run, ?_⟩
    rw [frames]
    refine ⟨period, now, ended, frame, fun a found _ _ quiet => ?_⟩
    have alive : u.live = true := (State.live_congr boot).trans live
    have converted : u.adm? k.toNat g = some (a.conv (convFrame s.frames.tick s.frames.j j)) := by
      unfold State.adm?
      rw [admitted, find?_conv, show s.link.admitted.find? _ = _ from found]
      rfl
    have unwatched : unwatchedIn u.link.admitted k.toNat g := by
      rw [admitted]
      exact unwatchedIn_conv (unwatchedIn_of_all quiet) _
    rw [State.finish_unwatched alive converted unwatched, State.settle_found alive converted, frame]
    dsimp only
    rw [outq, BitVec.ofNat_toNat, BitVec.ofNat_toNat]
    rfl
  · rw [execFramePeriodSwitch_live live lock, State.switchPeriod_early pending early]
  · change execFramePeriodSwitch tick s = _
    unfold execFramePeriodSwitch
    rw [State.switchPeriod_of_none pending, ite_self]

end Sys2Proof.Machine
namespace Sys2Proof.Machine

variable {s s₀ t u : State}

/-! ### Work that names no tile of the step as updated and moves no admitted command -/

/-- The tiles that a context's open step has updated. -/
def Ctx.updated (x : Ctx) : Option (List Nat) := x.step.map (·.updated)

/-- From `s` to `t` every context's step has the same tiles updated, and the same commands stand admitted. -/
structure State.SameWork (s t : State) : Prop where
  ctx : ∀ k, (t.ctx k).updated = (s.ctx k).updated
  admitted : t.link.admitted = s.link.admitted

/-- The parts that `State.SameWork` does not speak of. -/
abbrev offWork : Part → Prop := fun q => q ≠ .ctxs ∧ q ≠ .link

namespace State.SameWork

theorem refl (s : State) : s.SameWork s := ⟨fun _ => rfl, rfl⟩
theorem trans (h : s.SameWork t) (g : t.SameWork u) : s.SameWork u :=
  ⟨fun k => (g.ctx k).trans (h.ctx k), g.admitted.trans h.admitted⟩
theorem adm? (h : s.SameWork t) (k : Nat) (g : BitVec 16) : t.adm? k g = s.adm? k g := by
  unfold State.adm?
  rw [h.admitted]
theorem of_kept (h : s₀.SameWork s) (k : Kept offWork s t) : s₀.SameWork t :=
  h.trans ⟨fun i => congrArg Ctx.updated (State.ctx_of_ctxs (k.same .ctxs (by decide)) i),
    congrArg Link.admitted (k.same .link (by decide))⟩
/-- Work on the tiles of the contexts and the pools that follow them. -/
theorem of_shaped (h : s₀.SameWork s) (shaped : s.Shaped t) (k : Kept (· ≠ .link) s t) : s₀.SameWork t :=
  h.trans ⟨(shaped.map Ctx.updated).ctx, congrArg Link.admitted (k.same .link (by decide))⟩
theorem ite {b : Prop} [Decidable b] (h : b → s₀.SameWork s) (g : ¬ b → s₀.SameWork t) :
    s₀.SameWork (if b then s else t) := by
  split
  · exact h ‹_›
  · exact g ‹_›
theorem each {β : Type} {l : List β} {f : State → β → State} (h : s₀.SameWork s)
    (hf : ∀ t x, s₀.SameWork t → s₀.SameWork (f t x)) : s₀.SameWork (s.each l f) := by
  unfold State.each
  induction l generalizing s with
  | nil => exact h
  | cons x l ih => exact ih (hf s x h)
theorem modCtx {k : Nat} {f : Ctx → Ctx} (h : s₀.SameWork s) (hf : (f (s.ctx k)).updated = (s.ctx k).updated) :
    s₀.SameWork (s.modCtx k f) :=
  h.trans ⟨((Keeps.refl Ctx.updated s).modCtx hf).ctx, rfl⟩
theorem modStep {c : Nat} {f : Step → Step} (h : s₀.SameWork s) (hf : ∀ st, (f st).updated = st.updated) :
    s₀.SameWork (s.modStep c f) := by
  refine h.modCtx ?_
  unfold Ctx.updated
  dsimp only
  rw [Option.map_map]
  exact congrArg (fun g => Option.map g (s.ctx c).step) (funext hf)
theorem emit (h : s₀.SameWork s) (code sev : Nat) (k : Option Nat) (pl : List (Nat × Nat)) :
    s₀.SameWork (s.emit code sev k pl) := by
  refine h.trans ⟨fun i => congrArg Ctx.updated
    (State.ctx_of_ctxs (((Kept.refl (· ≠ .ctxs) s).emit (by decide) (by decide) code sev k pl).same .ctxs (by decide)) i), ?_⟩
  have counted (w : Nat) : (s.count w).link.admitted = s.link.admitted := by rw [State.count_link]
  unfold State.emit
  dsimp only
  split_ifs
  · rfl
  · exact counted _
  · rfl
  · rfl

/-! #### The records of a tile -/

theorem modTile (h : s₀.SameWork s) (k n : Nat) (f : TileRec → TileRec) : s₀.SameWork (s.modTile k n f) :=
  h.of_shaped (Shaped.modTile (Keeps.refl _ s) k n f) ((Kept.refl _ s).modTile (by decide) k n f)
theorem untrap (h : s₀.SameWork s) (k n : Nat) : s₀.SameWork (s.untrap k n) :=
  h.of_shaped (Shaped.untrap (Keeps.refl _ s) k n) ((Kept.refl _ s).untrap (by decide) (by decide) k n)
theorem countCtx (h : s₀.SameWork s) (k w n : Nat) : s₀.SameWork (s.countCtx k w n) :=
  h.of_kept ((Kept.refl _ s).countCtx (by decide) k w n)
theorem bakeCopy (h : s₀.SameWork s) (k n : Nat) (v : Tile) : s₀.SameWork (s.bakeCopy k n v) :=
  SameWork.ite (fun _ => h) (fun _ => ((h.modTile k n _).countCtx k _ _).of_kept ((Kept.refl _ _).peakCtx (by decide) _ _ _))
theorem makeCopies (h : s₀.SameWork s) (k n : Nat) : s₀.SameWork (s.makeCopies k n) :=
  SameWork.ite (fun _ => h) (fun _ => (modTile (SameWork.each (h.bakeCopy k n _) fun t b g =>
    g.of_kept (((Kept.refl _ t).modBranch (by decide) b _).countCtx (by decide) k _ _)) k n _).untrap k n)
theorem portWrite (h : s₀.SameWork s) (k n : Nat) (v : Tile) : s₀.SameWork (s.portWrite k n v) :=
  (h.makeCopies k n).of_kept ((Kept.refl _ _).setHome (by decide) (by decide) k n v)
theorem portBytes (h : s₀.SameWork s) (k n lo : Nat) (l : List Byte) : s₀.SameWork (s.portBytes k n lo l) :=
  (h.makeCopies k n).of_kept ((Kept.refl _ _).writeBytes (by decide) (by decide) _ _ _)
theorem touch (h : s₀.SameWork s) (k n : Nat) : s₀.SameWork (s.touch k n) := h.modTile k n _

/-! #### Crumbs -/

theorem pressureEvent (h : s₀.SameWork s) (k i action : Nat) : s₀.SameWork (s.pressureEvent k i action) := h.emit _ _ _ _
theorem modSlice (h : s₀.SameWork s) (i : Nat) (f : Slice → Slice) : s₀.SameWork (s.modSlice i f) :=
  h.of_kept ((Kept.refl _ s).modSlice (by decide) i f)
theorem press (h : s₀.SameWork s) (k i : Nat) : s₀.SameWork (s.press k i) :=
  SameWork.ite (fun _ => ((h.modSlice i _).countCtx k _ _).pressureEvent k i 0) (fun _ => h)
theorem putRec (h : s₀.SameWork s) (k n : Nat) (f : TileRec → TileRec) : s₀.SameWork (s.putRec k n f) :=
  (((h.modTile k n f).modSlice _ _).press k _).of_kept ((Kept.refl _ _).relieve (by decide) k _)
theorem fileCrumb (h : s₀.SameWork s) (k n : Nat) (d : Tile) (planes : BitVec 2) (line : BitVec 32) :
    s₀.SameWork (s.fileCrumb k n d planes line) := by
  have counted := h.of_kept ((Kept.refl _ s).countCrumb (by decide) k d planes (s.tile k n))
  exact SameWork.ite (fun _ => h) (fun _ => SameWork.ite (fun _ => counted) (fun _ => counted.putRec k n _))
theorem spillTile (h : s₀.SameWork s) (k n : Nat) : s₀.SameWork (s.spillTile k n) := (h.modTile k n _).countCtx k _ _
theorem spillFor {k n : Nat} {f : TileRec → TileRec} {l : List Nat} (h : s₀.SameWork s)
    (found : s.spillFor k n f l = some u) : s₀.SameWork u := by
  induction l generalizing s with
  | nil => cases found
  | cons v vs ih =>
    unfold State.spillFor at found
    dsimp only at found
    split at found
    · cases found
      exact h.spillTile k v
    · exact ih (h.spillTile k v) found
theorem makeRoom {k n : Nat} {f : TileRec → TileRec} (h : s₀.SameWork s) (found : s.makeRoom k n f = some u) :
    s₀.SameWork u := by
  unfold State.makeRoom at found
  dsimp only at found
  split at found
  · cases found
    exact h
  · split at found
    · cases found
    · next spilled =>
      cases found
      have counted := (h.spillFor spilled).countCtx k 40 1
      exact SameWork.ite (fun _ => counted) (fun _ => (counted.pressureEvent k _ 1).modCtx rfl)

/-! #### The tiles of the pass -/

theorem noteU (h : s₀.SameWork s) (k : Nat) : s₀.SameWork (s.noteU k) := by
  unfold State.noteU State.noteStep
  split
  · exact h
  · refine h.modCtx ?_
    split_ifs <;> rfl
theorem foldl_option {β : Type} {l : List β} {f : Option State → β → Option State} {o : Option State}
    (h : ∀ t, o = some t → s₀.SameWork t)
    (hf : ∀ o x, (∀ t, o = some t → s₀.SameWork t) → ∀ t, f o x = some t → s₀.SameWork t) :
    ∀ t, l.foldl f o = some t → s₀.SameWork t := by
  induction l generalizing o with
  | nil => exact h
  | cons x l ih => exact ih (hf o x h)
theorem commitTiles {k : Nat} {m : Edits} (h : s₀.SameWork s) (done : s.commitTiles k m = some u) : s₀.SameWork u := by
  refine foldl_option (fun t found => Option.some.inj found ▸ h) (fun o e held t found => ?_) u done
  cases o with
  | none => cases found
  | some v =>
    have taken := (held v rfl).of_kept ((Kept.refl _ v).free (by decide))
    dsimp only at found
    split at found
    · cases found
    · next room =>
      cases found
      exact ((((taken.makeRoom room).fileCrumb k _ _ _ _).portWrite k _ _).touch k _).noteU k
theorem layPieces {k : Nat} {ps : List (Nat × Nat × Nat)} {l : List Byte} (h : s₀.SameWork s) :
    s₀.SameWork (s.layPieces k ps l) := by
  induction ps generalizing s l with
  | nil => exact h
  | cons p ps ih => exact ih ((h.portBytes k _ _ _).touch k _)
theorem countSlice (h : s₀.SameWork s) (i b n : Nat) : s₀.SameWork (s.countSlice i b n) :=
  h.of_kept ((Kept.refl _ s).countSlice (by decide) i b n)
theorem countSlot (h : s₀.SameWork s) (i : Nat) (sl : Slot) (layout : Nat) (path : Option Bool) :
    s₀.SameWork (s.countSlot i sl layout path) := h.of_kept ((Kept.refl _ s).countSlot (by decide) i sl layout path)
theorem countConverted {b : Prop} [Decidable b] (h : s₀.SameWork s) (i n : Nat) :
    s₀.SameWork (if b then (s.countSlice i 34).countSlice i 39 n else s) :=
  SameWork.ite (fun _ => (h.countSlice i 34 1).countSlice i 39 n) (fun _ => h)
theorem sparseFaults (h : s₀.SameWork s) (k n kind : Nat) (tag : BitVec 16) (l : List Nat) :
    s₀.SameWork (s.sparseFaults k n kind tag l) := by
  unfold State.sparseFaults
  split
  · exact h
  · exact h.modCtx rfl
theorem tallyStep (h : s₀.SameWork s) (k g dest : Nat) (f : Sf) (n : Nat) : s₀.SameWork (s.tallyStep k g dest f n) :=
  h.modStep fun _ => by split <;> rfl
theorem overflowIf (h : s₀.SameWork s) (k : Nat) (b : Bool) : s₀.SameWork (s.overflowIf k b) :=
  SameWork.ite (fun _ => h.modStep fun _ => rfl) (fun _ => h)
theorem endRead (h : s₀.SameWork s) (k n : Nat) : s₀.SameWork (s.endRead k n) := by
  unfold State.endRead
  split
  · exact SameWork.ite (fun _ => h.modCtx rfl) (fun _ => h)
  · exact h
/-- A tile that the shadow check samples is checked, or counted where the checker is busy; another is left as it is. -/
theorem of_shadow {b d : Prop} [Decidable b] [Decidable d] {v x y : State}
    (done : (if b then if d then some x else some y else some t) = some u) (ht : v.SameWork t) (hx : v.SameWork x)
    (hy : v.SameWork y) : v.SameWork u := by
  split_ifs at done <;> cases done
  · exact hx
  · exact hy
  · exact ht

end State.SameWork

/-! ### One tile of the pass -/

/-- The step names a tile as updated. -/
def State.markUpdated (s : State) (c t : Nat) : State := s.modStep c (fun st => { st with updated := insertAsc st.updated t })

theorem State.markUpdated_updated (s : State) (c t : Nat) :
    ((s.markUpdated c t).ctx c).updated = (s.ctx c).updated.map (insertAsc · t) := by
  unfold State.markUpdated State.modStep
  rw [State.modCtx_ctx_self]
  unfold Ctx.updated
  dsimp only
  rw [Option.map_map, Option.map_map]
  rfl

/-- The pass over one tile changes nothing where there is no step or no group, and else names the tile as updated between
work that names none. -/
theorem State.updateTile_some {c i : Nat} {cmd : Cmd} {h0 : Word} {busy : Bool} (done : s.updateTile c i cmd h0 busy = some u) :
    u = s ∧ ((s.ctx c).step = none ∨ (s.ctx c).groupOf i = none)
      ∨ ∃ v, s.SameWork v ∧ (v.markUpdated c i).SameWork u := by
  unfold State.updateTile at done
  split at done
  · extract_lets at done
    split at done
    · cases done
    · next v committed =>
      have laid := (SameWork.refl s).commitTiles committed
      clear committed
      dsimp only at done
      refine .inr ⟨_, ?_, SameWork.of_shadow (v := State.markUpdated _ c i) done (SameWork.refl _)
        ((SameWork.refl _).countCtx _ _ _) ((SameWork.refl _).modStep fun _ => rfl)⟩
      refine SameWork.overflowIf ?_ c _
      iterate 3 refine SameWork.tallyStep ?_ c _ _ _ _
      iterate 3 refine SameWork.sparseFaults ?_ c i _ _ _
      iterate 2 refine SameWork.countSlice ?_ _ _ _
      refine SameWork.countConverted (SameWork.countSlot ?_ _ _ _ _) _ _
      split
      · exact laid.layPieces
      · exact laid
  · next miss =>
    cases done
    refine .inl ⟨rfl, ?_⟩
    cases step : (s.ctx c).step with
    | none => exact .inl rfl
    | some st =>
      cases group : (s.ctx c).groupOf i with
      | none => exact .inr rfl
      | some g => exact (miss st g step group).elim

/-! ### The outcome of a tile -/

/-- A tile's work is served and its gradient slot used, before it leaves its command's list. -/
def State.tileServed (s : State) (c : Nat) (cmd : Cmd) (t : Nat) : State :=
  let h0 := BitVec.ofNat 64 (((s.adm? c cmd.tag).bind (fun a => a.aux)).getD 0)
  let n := s.traffic false c t h0
  ((s.serveTile c t .u n).noteMaster c t n).endSlot cmd h0 false t

theorem State.tileServed_sameWork (s : State) (c : Nat) (cmd : Cmd) (t : Nat) : s.SameWork (s.tileServed c cmd t) :=
  ((SameWork.refl s).of_kept (((Kept.refl _ s).serveTile (by decide) (by decide) c t .u _).noteMaster (by decide) c t _)).each
    fun _ _ g => g.endRead _ _

theorem State.markDone_adm? (s : State) (c : Nat) (g : BitVec 16) (i : Nat) :
    (s.markDone c g i).adm? c g = (s.adm? c g).map (fun a => { a with work := a.work.erase i, done := a.done + 1 }) :=
  State.adm?_modAdm s c g fun _ => rfl

/-- A tile that is done leaves its command's list. -/
theorem State.tileServed_markDone_adm? {c i : Nat} {cmd : Cmd} {a : Adm} (found : s.adm? c cmd.tag = some a) :
    ((s.tileServed c cmd i).markDone c cmd.tag i).adm? c cmd.tag
      = some { a with work := a.work.erase i, done := a.done + 1 } := by
  rw [State.markDone_adm?, (s.tileServed_sameWork c cmd i).adm?, found]
  rfl

/-- A command with tiles left goes on. -/
theorem State.tileDone_some {c i : Nat} {cmd : Cmd} {a : Adm} (found : u.adm? c cmd.tag = some a)
    (left : (a.work.erase i).isEmpty = false) :
    s.tileDone c cmd i (some u) = (u.tileServed c cmd i).markDone c cmd.tag i := by
  have marked := State.tileServed_markDone_adm? (i := i) found
  unfold State.tileServed at marked ⊢
  unfold State.tileDone
  dsimp only at marked ⊢
  rw [marked]
  dsimp only
  rw [left]
  rfl

/-- A slice that finds no room for the crumb of a step's tile holds. -/
theorem State.tileDone_none {c i : Nat} {cmd : Cmd} {a : Adm} (found : s.adm? c cmd.tag = some a) (inStep : a.inStep = true) :
    s.tileDone c cmd i none = s.holdStage c (s.tile c i).slice := by
  unfold State.tileDone
  dsimp only
  rw [found]
  exact if_pos inStep

theorem State.holdStage_sameWork (s : State) (c i : Nat) : s.SameWork (s.holdStage c i) := by
  have entered := (SameWork.refl s).modSlice i (fun sl => { sl with holdStage := insertAsc sl.holdStage c })
  have counted (n : Nat) := (entered.modCtx (k := c) (f := fun x => { x with holdsNow := x.holdsNow + 1 }) rfl).countCtx c 44 n
  exact SameWork.ite (fun _ => SameWork.refl s) (fun _ => (counted _).pressureEvent c i 2)

theorem State.holdStage_contains (s : State) (c i : Nat) : ((s.holdStage c i).slice i).holdStage.contains c = true := by
  unfold State.holdStage
  split
  · next held => exact held
  · have framed (u : State) : (u.holdFrame c i).slice i = u.slice i := State.slice_of_slices
      (((Kept.refl (· ≠ .slices) u).holdFrame (by decide) (by decide) (by decide) (by decide) c i).same .slices (by decide)) i
    rw [framed, State.modSlice_slice_self]
    exact List.elem_eq_true_of_mem (mem_insertAsc_self _ c)

/-! ### The next tile of a slice -/

/-- The first tile for `q` among the work for `p` belongs to the first command for `p` that has the tile to do. -/
theorem find?_of_head?_work {p : Adm → Bool} {q : Nat → Bool} {l : List Adm} {a : Adm} {i : Nat} (hq : q i = true)
    (h : ((l.filter p).flatMap (fun a => (a.work.filter q).map (fun t => (a, t)))).head? = some (a, i)) :
    l.find? (fun a => p a && a.work.contains i) = some a := by
  induction l with
  | nil => cases h
  | cons b l ih =>
    by_cases hp : p b = true
    · rw [List.filter_cons_of_pos hp, List.flatMap_cons] at h
      cases work : b.work.filter q with
      | nil =>
        have other : b.work.contains i = false := by
          rw [← Bool.not_eq_true, List.contains_iff_mem]
          exact fun has => List.filter_eq_nil_iff.mp work i has hq
        rw [work] at h
        rw [List.find?_cons_of_neg (by rw [other, Bool.and_false]; exact Bool.false_ne_true)]
        exact ih h
      | cons j js =>
        rw [work] at h
        cases h
        have has : i ∈ a.work := List.mem_of_mem_filter (work ▸ List.mem_cons_self)
        exact List.find?_cons_of_pos (by simp [hp, has])
    · rw [List.filter_cons_of_neg hp] at h
      rw [List.find?_cons_of_neg (by simp [hp])]
      exact ih h

/-- The slice's next tile belongs to the command that asks for the tile's streams. -/
theorem State.find?_of_nextOn {c i : Nat} {a : Adm} (turn : s.nextOn c (s.tile c i).slice = some (a, i)) :
    s.link.admitted.find? (fun a => a.op == 0x43 && a.c.cid == c && a.begun && a.work.contains i) = some a :=
  find?_of_head?_work (q := fun t => (s.tile c t).slice == (s.tile c i).slice) (beq_self_eq_true _) turn

/-- The tile that is next is done or held where it is ready, and else asks for its streams and its slot. -/
theorem execMasterTileUpdate_turn {ctx : BitVec 4} {i : Nat} {a : Adm} (running : s.running = true) (lock : s.frames.lock = true)
    (turn : s.nextOn ctx.toNat (s.tile ctx.toNat i).slice = some (a, i)) (busy : Bool) :
    exec (.masterTileUpdate ctx i busy) s = .next (if s.tileReady a.c a.h0 false i
      then s.tileDone ctx.toNat a.c i (if (s.tile ctx.toNat i).raw
        then s.rawWrite ctx.toNat i a.c else s.updateTile ctx.toNat i a.c a.h0 busy)
      else s.promoteFor a.c a.h0 false i) := by
  change execMasterTileUpdate ctx i busy s = _
  unfold execMasterTileUpdate State.locked
  dsimp only
  rw [running, lock, turn, if_neg (by decide)]
  dsimp only
  by_cases ready : s.tileReady a.c a.h0 false i = true
  · rw [if_pos ⟨rfl, ready⟩, if_pos ready]
    split <;> rfl
  · rw [if_neg (fun h => ready h.2), if_neg ready, State.find?_of_nextOn turn]

/-! ### MASTER_TILE_UPDATE -/

/-- A covered-write or the pass over one tile leaves every admitted command as it was. -/
theorem State.written_admitted {c i : Nat} {cmd : Cmd} {h0 : Word} {busy : Bool}
    (done : (if (s.tile c i).raw then s.rawWrite c i cmd else s.updateTile c i cmd h0 busy) = some u) :
    u.link.admitted = s.link.admitted := by
  split at done
  · exact ((SameWork.refl s).commitTiles done).admitted
  · obtain ⟨rfl, _⟩ | ⟨v, before, after⟩ := State.updateTile_some done
    · rfl
    · exact after.admitted.trans before.admitted

/-- A grouped tile of a step is named as updated (R152). -/
theorem State.updateTile_updated {c i : Nat} {cmd : Cmd} {h0 : Word} {busy : Bool} {st : Step}
    (done : s.updateTile c i cmd h0 busy = some u) (step : (s.ctx c).step = some st)
    (group : ((s.ctx c).groupOf i).isSome = true) :
    (u.ctx c).updated = some (insertAsc st.updated i) := by
  obtain ⟨-, none | none⟩ | ⟨v, before, after⟩ := State.updateTile_some done
  · rw [step] at none
    cases none
  · rw [none] at group
    cases group
  · rw [after.ctx, State.markUpdated_updated, before.ctx]
    unfold Ctx.updated
    rw [step]
    rfl

/-- Settles O60: what is put in place for a tile names no other as updated and moves no admitted command, and a tile that must
wait is asked for by the command that is next. -/
theorem masterTilesAreUpdatedInOrder : Obligations.MasterTilesAreUpdatedInOrder := by
  intro s ctx i busy a c r running lock turn
  have either := execMasterTileUpdate_turn running lock turn busy
  refine ⟨fun ready => ?_, fun waits => either.trans (congrArg Host.Outcome.next (if_neg (Bool.eq_false_iff.mp waits)))⟩
  have run : exec (.masterTileUpdate ctx i busy) s = .next (s.tileDone c a.c i r) :=
    either.trans (congrArg Host.Outcome.next (if_pos ready))
  refine ⟨run, fun u done found left => ?_, fun held found inStep => ?_⟩
  · have found : u.adm? c a.c.tag = some a := by
      unfold State.adm?
      rw [State.written_admitted done]
      exact found
    rw [done, State.tileDone_some found left] at run
    refine ⟨_, run, State.tileServed_markDone_adm? found, fun st raw step group => ?_⟩
    have program : s.updateTile c i a.c a.h0 busy = some u := (if_neg (Bool.eq_false_iff.mp raw)).symm.trans done
    exact ((u.tileServed_sameWork c a.c i).ctx c).trans (State.updateTile_updated program step group)
  · rw [held, State.tileDone_none found inStep] at run
    have kept := (Kept.refl (· ≠ .mem) s).holdStage (by decide) (by decide) (by decide) (by decide) (by decide) c
      (s.tile c i).slice
    exact ⟨_, run, s.holdStage_contains c _, (s.holdStage_sameWork c _).admitted, kept.same .mem (by decide)⟩

end Sys2Proof.Machine
namespace Sys2Proof.Machine

variable {α : Type} {p : Ctx → α} {s₀ s t : State}

/-! ### What is read of every context -/

/-- From `s` to `t` every context reads the same under `p`. Unlike `State.Keeps` it leaves the admitted commands free. -/
structure State.Reads (p : Ctx → α) (s t : State) : Prop where
  ctx : ∀ k, p (t.ctx k) = p (s.ctx k)

/-- `p` reads of a context neither its keys, nor what ran this frame, nor anything of a tile but its fresh record. -/
structure Ctx.Blind (p : Ctx → α) : Prop where
  keys : ∀ x k, p { x with keys := k } = p x
  ran : ∀ x a b, p { x with ranReplay := a, ranUseful := b } = p x
  tile : ∀ x i r r', mget x.tiles i = some r → r'.f = r.f → p { x with tiles := mset x.tiles i r' } = p x

namespace State.Reads

theorem refl (p : Ctx → α) (s : State) : State.Reads p s s := ⟨fun _ => rfl⟩
theorem trans {u : State} (h : State.Reads p s t) (g : State.Reads p t u) : State.Reads p s u :=
  ⟨fun k => (g.ctx k).trans (h.ctx k)⟩
theorem of_eq (h : State.Reads p s₀ s) (ctxs : t.ctxs = s.ctxs) : State.Reads p s₀ t :=
  h.trans ⟨fun k => congrArg p (State.ctx_of_ctxs ctxs k)⟩
/-- An operation that does not write the contexts. -/
theorem of_kept (h : State.Reads p s₀ s) (k : Kept (· ≠ .ctxs) s t) : State.Reads p s₀ t := h.of_eq (k.same .ctxs (by decide))
theorem of_keeps (h : State.Reads p s₀ s) (k : State.Keeps p s t) : State.Reads p s₀ t := h.trans ⟨k.ctx⟩
theorem ite {b : Prop} [Decidable b] (h : b → State.Reads p s₀ s) (g : ¬ b → State.Reads p s₀ t) :
    State.Reads p s₀ (if b then s else t) := by
  split
  · exact h ‹_›
  · exact g ‹_›
theorem each {β : Type} {l : List β} {f : State → β → State} (h : State.Reads p s₀ s)
    (hf : ∀ t x, State.Reads p s₀ t → State.Reads p s₀ (f t x)) : State.Reads p s₀ (s.each l f) := by
  unfold State.each
  induction l generalizing s with
  | nil => exact h
  | cons x l ih => exact ih (hf s x h)
theorem modCtx {c : Nat} {f : Ctx → Ctx} (h : State.Reads p s₀ s) (hf : p (f (s.ctx c)) = p (s.ctx c)) :
    State.Reads p s₀ (s.modCtx c f) :=
  h.of_keeps ((Keeps.refl p s).modCtx hf)
theorem finish (h : State.Reads p s₀ s) (x : Nat) (g : BitVec 16) (n d : Nat) : State.Reads p s₀ (s.finish x g n d) :=
  h.of_kept ((Kept.refl _ s).finish (by decide) x g n d)
theorem emit (h : State.Reads p s₀ s) (code sev : Nat) (c : Option Nat) (pl : List (Nat × Nat)) :
    State.Reads p s₀ (s.emit code sev c pl) :=
  h.of_kept ((Kept.refl _ s).emit (by decide) (by decide) code sev c pl)
theorem countCtx (h : State.Reads p s₀ s) (c w n : Nat) : State.Reads p s₀ (s.countCtx c w n) :=
  h.of_kept ((Kept.refl _ s).countCtx (by decide) c w n)

section
variable (blind : Ctx.Blind p)
include blind

/-! #### Transfers and proving counters -/

theorem of_unkeyed (h : State.Reads p s₀ s) (k : s.Unkeyed t) : State.Reads p s₀ t :=
  h.trans ⟨fun i => (blind.keys _ {}).symm.trans ((congrArg p (k.ctx i)).trans (blind.keys _ {}))⟩
theorem issueWith (h : State.Reads p s₀ s) (r : Req) (flags : Nat) : State.Reads p s₀ (s.issueWith r flags) :=
  h.of_unkeyed blind (Unkeyed.issueWith (Keeps.refl _ s) r flags)
theorem issue (h : State.Reads p s₀ s) (c : Nat) (cls : Cls) (typ dst : Nat) (body : List (Nat × Nat)) (pl : List Byte)
    (why : Why) (tag : BitVec 16) (flags : Nat) : State.Reads p s₀ (s.issue c cls typ dst body pl why tag flags) :=
  issueWith blind h _ _
theorem shareRecord (h : State.Reads p s₀ s) (c part : Nat) (odd : Bool) (l : List Nat) :
    State.Reads p s₀ (s.shareRecord c part odd l) :=
  h.of_unkeyed blind (Unkeyed.shareRecord (Keeps.refl _ s) c part odd l)
theorem respond (h : State.Reads p s₀ s) (peel : Nat) (x : Xfer) (status : Nat) (body : List (Nat × Nat)) :
    State.Reads p s₀ (s.respond peel x status body) := by
  unfold State.respond
  dsimp only
  refine ite (fun _ => h) fun _ => ?_
  split
  · exact h
  · next e t' sealed =>
    have signed := h.of_unkeyed blind (Unkeyed.sealXfer (Keeps.refl _ s) sealed)
    have counted (n : Nat) := signed.of_kept ((Kept.refl _ _).countPeel (by decide) peel n 1)
    exact (ite (fun _ => counted 18) fun _ => ite (fun _ => counted 20) fun _ => signed).of_kept
      ((Kept.refl _ _).send (by decide) (by decide) _ _ _ _)
theorem wakeWaiters (h : State.Reads p s₀ s) (k : Nat) : State.Reads p s₀ (s.wakeWaiters k) := by
  unfold State.wakeWaiters
  extract_lets v go ws fab u answered lo ls fab' w
  have woken : State.Reads p s₀ answered := (h.of_eq (t := u) rfl).each fun _ _ g => respond blind g ..
  exact (woken.of_eq (t := w) rfl).each fun _ _ g => finish g ..
theorem ctrOp (h : State.Reads p s₀ s) (k op : Nat) (v : Word) : State.Reads p s₀ (s.ctrOp k op v) := by
  unfold State.ctrOp
  extract_lets u
  have found : State.Reads p s₀ u := ite (fun _ => h.of_eq rfl) fun _ =>
    h.of_kept (by apply Kept.checkCtr (Kept.refl _ s) <;> decide)
  have set (w : Word) : State.Reads p s₀ (u.setPc k w) := found.of_eq rfl
  refine ite (fun _ => ?_) fun _ => ite (fun _ => found) fun _ => wakeWaiters blind (set _) k
  exact wakeWaiters blind (of_eq (s := u.setPc k v) (set v) (by rfl)) k
theorem counterAt (h : State.Reads p s₀ s) (c owner k op : Nat) (v : Word) (cls : Cls) (why : Why) (tag : BitVec 16)
    (flags : Nat) : State.Reads p s₀ (s.counterAt c owner k op v cls why tag flags) :=
  have done := ctrOp blind h k op v
  ite (fun _ => ite (fun _ => done.of_kept (by apply Kept.noteBarrier (Kept.refl _ _) <;> decide)) fun _ => done)
    fun _ => issue blind h ..

/-! #### Tiles -/

theorem modTile (h : State.Reads p s₀ s) (c n : Nat) {f : TileRec → TileRec} (hf : ∀ r, (f r).f = r.f) :
    State.Reads p s₀ (s.modTile c n f) := by
  unfold State.modTile
  split
  · exact h
  · next r found => exact h.modCtx (blind.tile _ n r (f r) found (hf r))
theorem setReturn (h : State.Reads p s₀ s) (c n : Nat) (st : TileState) : State.Reads p s₀ (s.setReturn c n st) :=
  have set := modTile blind h c n (f := fun r => { r with ret := st }) fun _ => rfl
  ite (fun _ => set) fun _ => set.of_eq rfl
theorem untrap (h : State.Reads p s₀ s) (c n : Nat) : State.Reads p s₀ (s.untrap c n) :=
  ite (fun _ => setReturn blind h c n _) fun _ => h
theorem bakeCopy (h : State.Reads p s₀ s) (c n : Nat) (v : Tile) : State.Reads p s₀ (s.bakeCopy c n v) :=
  ite (fun _ => h) fun _ => ((modTile blind h c n fun _ => by split <;> rfl).countCtx c _ _).of_kept
    ((Kept.refl _ _).peakCtx (by decide) _ _ _)
theorem makeCopies (h : State.Reads p s₀ s) (c n : Nat) : State.Reads p s₀ (s.makeCopies c n) := by
  unfold State.makeCopies
  extract_lets v bs u copied
  have made : State.Reads p s₀ copied := (bakeCopy blind h c n v).each fun t b g =>
    g.of_kept (((Kept.refl _ t).modBranch (by decide) b _).countCtx (by decide) c _ _)
  exact ite (fun _ => h) fun _ => untrap blind (modTile blind made c n (f := fun r => { r with owed := 0 }) fun _ => rfl) c n
theorem portWrite (h : State.Reads p s₀ s) (c n : Nat) (v : Tile) : State.Reads p s₀ (s.portWrite c n v) :=
  (makeCopies blind h c n).of_kept ((Kept.refl _ _).setHome (by decide) (by decide) c n v)
theorem portBytes (h : State.Reads p s₀ s) (c n lo : Nat) (l : List Byte) : State.Reads p s₀ (s.portBytes c n lo l) :=
  (makeCopies blind h c n).of_kept ((Kept.refl _ _).writeBytes (by decide) (by decide) _ _ _)
theorem portDie (h : State.Reads p s₀ s) (a : Nat) (l : List Byte) : State.Reads p s₀ (s.portDie a l) := by
  unfold State.portDie
  refine of_kept (each h fun t n g => ?_) ((Kept.refl _ _).writeDie (by decide) (by decide) a l)
  split
  · exact makeCopies blind g _ _
  · exact g
theorem layPieces {c : Nat} {ps : List (Nat × Nat × Nat)} {l : List Byte} (h : State.Reads p s₀ s) :
    State.Reads p s₀ (s.layPieces c ps l) := by
  induction ps generalizing s l with
  | nil => exact h
  | cons q ps ih => exact ih (modTile blind (portBytes blind h c _ _ _) c _ fun _ => rfl)
theorem noteStep (h : State.Reads p s₀ s) (c : Nat) (num : Word) : State.Reads p s₀ (s.noteStep c num) := by
  unfold State.noteStep
  refine modCtx h ?_
  split_ifs
  · exact blind.ran _ _ _
  · exact blind.ran _ _ _
theorem noteU (h : State.Reads p s₀ s) (c : Nat) : State.Reads p s₀ (s.noteU c) := by
  unfold State.noteU
  split
  · exact h
  · exact noteStep blind h c _

end

end State.Reads

end Sys2Proof.Machine
namespace Sys2Proof.Machine

variable {s s₀ t : State}

/-! ### PUBLISH_WRITE -/

theorem Ctx.blind_targets : Ctx.Blind Ctx.targets := ⟨fun _ _ => rfl, fun _ _ _ => rfl, fun _ _ _ _ _ _ => rfl⟩

theorem State.Reads.target (h : State.Reads Ctx.targets s t) (c k : Nat) : t.target c k = s.target c k := by
  unfold State.target
  rw [h.ctx]

/-- A version stands in its local buffer, and its command is marked as writing (R176, R177). -/
def State.versionLaid (s : State) (c k : Nat) (a : Adm) : State :=
  let g := s.target c k
  let code := fld a.c.a 4 4
  let out := s.publishContent c g code a.c.b
  let moved := s.each (s.bytesBySlice c 131072 (s.published c g)) (fun s e => s.serve e.1 .u e.2)
  let read := (moved.each (s.publishReads c g code) (fun s u => s.endRead c u)).noteStep c a.c.b
  let writing := (read.countCtx c 5 out.2.2).modAdm c a.c.tag
    (fun a => { a with tallies := out.2.1, aux := some 1, done := ceilDiv out.1.length 65536 })
  writing.layVersion g (g.next.toNat % 2) out.1

/-- Laying a version writes no counter. -/
theorem State.versionLaid_kept (s : State) (c k : Nat) (a : Adm) :
    Kept (fun q => q ≠ .pctr ∧ q ≠ .poison ∧ q ≠ .sram) s (s.versionLaid c k a) := by
  refine Kept.layVersion (Kept.modAdm (Kept.countCtx (Kept.noteStep ?_ (by decide) _ _) (by decide) _ _ _) (by decide) _ _ _)
    (by decide) (by decide) _ _ _
  refine Kept.each (Kept.each (Kept.refl _ s) fun _ _ h => ?_) fun _ _ h => ?_
  · exact h.serve (by decide) (by decide) _ _ _
  · exact h.endRead (by decide) _ _

/-- A far read's value that has been used leaves the publish targets. -/
theorem State.Reads.endRead_targets (h : State.Reads Ctx.targets s₀ s) (c n : Nat) :
    State.Reads Ctx.targets s₀ (s.endRead c n) := by
  unfold State.endRead
  split
  · exact .ite (fun _ => h.modCtx rfl) fun _ => h
  · exact h

theorem State.versionLaid_targets (s : State) (c k : Nat) (a : Adm) : State.Reads Ctx.targets s (s.versionLaid c k a) := by
  have moved (l : List (Nat × Nat)) : State.Reads Ctx.targets s (s.each l fun s e => s.serve e.1 .u e.2) :=
    (Reads.refl _ s).each fun t e h => h.of_kept ((Kept.refl _ t).serve (by decide) (by decide) _ _ _)
  have read (l : List (Nat × Nat)) (reads : List Nat) := (moved l).each (l := reads) fun _ n h => h.endRead_targets c n
  exact (((read _ _).noteStep Ctx.blind_targets c _).countCtx c _ _).of_kept
    (((Kept.refl _ _).modAdm (by decide) _ _ _).layVersion (by decide) (by decide) _ _ _)

/-- A local version whose step is clean, whose leases are free and whose tiles can be read is laid, counted and announced. -/
theorem execPublishWrite_local {ctx target : BitVec 4} {a : Adm}
    (next : s.link.admitted.find? (fun b => b.op == 0x46 && b.c.cid == ctx.toNat && fld b.c.a 0 4 == target.toNat && b.begun
      && b.aux.isNone) = some a)
    (running : s.running = true) (lock : s.frames.lock = true) (clean : (s.ctx ctx.toNat).lastClean = some a.c.b)
    (leases : s.leasesOk (s.target ctx.toNat target.toNat) = true) (near : (s.target ctx.toNat target.toNat).remote = false)
    (readable : s.readable ctx.toNat (s.publishReads ctx.toNat (s.target ctx.toNat target.toNat) (fld a.c.a 4 4)) = true) :
    exec (.publishWrite ctx target) s = .next (((s.versionLaid ctx.toNat target.toNat a).ctrOp
      (s.target ctx.toNat target.toNat).versionCtr 1 (s.target ctx.toNat target.toNat).next).versionOut ctx.toNat target.toNat
        a.c.tag) := by
  have keyed : s.keyless ctx.toNat (s.target ctx.toNat target.toNat) = false := by
    unfold State.keyless
    rw [near, Bool.false_and, Bool.false_and]
  change execPublishWrite ctx target s = _
  unfold execPublishWrite State.locked
  dsimp only
  rw [next]
  dsimp only
  rw [leases, if_neg (by decide), running, lock, clean, if_neg (by simp), keyed, if_neg (by decide), readable, if_neg (by decide),
    near, if_neg (by simp), if_neg (by decide)]
  rfl

/-- The announced version is the target's version no more. -/
theorem State.versionOut_next (s : State) (c k : Nat) (tag : BitVec 16) :
    ((s.versionOut c k tag).target c k).next = (s.target c k).next + 1 := by
  unfold State.versionOut
  extract_lets v g u
  have told : State.Reads Ctx.targets u ((u.raiseAdmSat c tag).finish c tag 0 (fld v 0 32)) :=
    ((Reads.refl _ u).of_kept ((Kept.refl _ u).raiseAdmSat (by decide) (by decide) (by decide) _ _)).finish _ _ _ _
  rw [told.target]
  unfold State.target u
  rw [State.modCtx_ctx_self, mgetD_mset_self]
  rfl

theorem ctrVal_max (old v : Word) : (ctrVal 1 old v).toNat = max old.toNat v.toNat := by
  unfold ctrVal
  rw [if_neg (by decide), if_pos rfl]
  split
  · next below => exact (Nat.max_eq_right (Nat.le_of_lt below)).symm
  · next above => exact (Nat.max_eq_left (Nat.le_of_not_lt above)).symm

/-- Settles O41: what is done before the MAX writes no counter and no target, and what follows it no counter. -/
theorem publishWriteRaisesTheVersion : Obligations.PublishWriteRaisesTheVersion := by
  intro s ctx target a c g next running lock clean leases near readable
  have kept := s.versionLaid_kept c target.toNat a
  have counted := (s.versionLaid_targets c target.toNat a).ctrOp Ctx.blind_targets g.versionCtr 1 g.next
  refine ⟨_, execPublishWrite_local next running lock clean leases near readable, ?_, fun wf sound raw => ?_⟩
  · rw [State.versionOut_next, counted.target]
  · have pctr : (s.versionLaid c target.toNat a).pctr = s.pctr := kept.same .pctr (by decide)
    have held (k : Nat) : (s.versionLaid c target.toNat a).pc k = s.pc k := by
      unfold State.pc
      rw [pctr]
    rw [← pctr] at wf
    rw [← kept.same .poison (by decide)] at sound
    rw [← kept.same .sram (by decide)] at raw
    have wrote := (State.ctrOp_wrote (op := 1) wf raw (by decide) (.inr sound) g.next).kept
      ((Kept.refl _ _).versionOut (by decide) (by decide) (by decide) (by decide) c target.toNat a.c.tag)
    rw [wrote.value, ctrVal_max, held]

end Sys2Proof.Machine
namespace Sys2Proof.Machine

variable {α : Type} {p : Ctx → α} {s s₀ t : State}

/-! ### Fresh records -/

/-- The fresh record of each tile of a context; a tile that the map does not list has none. -/
def Ctx.fresh (x : Ctx) (i : Nat) : Option Crumb := ((mget x.tiles i).getD {}).f

theorem Ctx.fresh_mset {x : Ctx} {i : Nat} {r : TileRec} :
    Ctx.fresh { x with tiles := mset x.tiles i r } = Function.update x.fresh i r.f := by
  funext j
  unfold Ctx.fresh
  dsimp only
  by_cases h : i = j
  · subst h
    rw [mget_mset_self, Function.update_self]
    rfl
  · rw [mget_mset_ne _ _ h, Function.update_of_ne (Ne.symm h)]

theorem Ctx.fresh_mset_same {x : Ctx} {i : Nat} {r r' : TileRec} (listed : mget x.tiles i = some r) (same : r'.f = r.f) :
    Ctx.fresh { x with tiles := mset x.tiles i r' } = x.fresh := by
  have here : r'.f = x.fresh i := by
    unfold Ctx.fresh
    rw [listed, same]
    rfl
  rw [Ctx.fresh_mset, here, Function.update_eq_self]

theorem mget_mmap {β : Type} (m : FMap β) (f : Nat → β → β) (i : Nat) : mget (mmap m f) i = (mget m i).map (f i) := by
  induction m with
  | nil => rfl
  | cons e m ih =>
    change (if e.1 = i then some (f e.1 e.2) else mget (mmap m f) i) = Option.map (f i) (if e.1 = i then some e.2 else mget m i)
    split
    · next h => rw [h]; rfl
    · exact ih

theorem mem_of_mget {β : Type} {m : FMap β} {i : Nat} {v : β} (h : mget m i = some v) : (i, v) ∈ m := by
  induction m with
  | nil => cases h
  | cons e m ih =>
    rw [mget] at h
    split at h
    · next he =>
      cases h
      subst he
      exact List.mem_cons_self
    · exact List.mem_cons_of_mem _ (ih h)

/-- An update of every tile that leaves none a fresh record. -/
theorem Ctx.fresh_mmap_none {x : Ctx} {f : Nat → TileRec → TileRec} (hf : ∀ i r, (f i r).f = none) (i : Nat) :
    Ctx.fresh { x with tiles := mmap x.tiles f } i = none := by
  unfold Ctx.fresh
  dsimp only
  rw [mget_mmap]
  cases mget x.tiles i with
  | none => rfl
  | some r => exact hf i r

/-- An update of every tile that leaves each its fresh record. -/
theorem Ctx.fresh_mmap_same {x : Ctx} {f : Nat → TileRec → TileRec} (hf : ∀ i r, (f i r).f = r.f) :
    Ctx.fresh { x with tiles := mmap x.tiles f } = x.fresh := by
  funext i
  unfold Ctx.fresh
  dsimp only
  rw [mget_mmap]
  cases mget x.tiles i with
  | none => rfl
  | some r => exact hf i r

/-! ### A clean verdict -/

/-- What a clean verdict settles of a context: the last clean step, the version bit, the streams of the step in progress and of the
one before it, and the fresh records. -/
@[ext] structure Settlement where
  lastClean : Option Word
  verBit : Bool
  named : Option (List Nat)
  predicted : List Nat
  fresh : Nat → Option Crumb

def Ctx.settlement (x : Ctx) : Settlement := ⟨x.lastClean, x.verBit, x.step.map (·.named), x.predicted, x.fresh⟩

theorem Ctx.blind_settlement : Ctx.Blind Ctx.settlement where
  keys _ _ := rfl
  ran _ _ _ := rfl
  tile x _ _ _ listed same := congrArg (fun f => { x.settlement with fresh := f }) (Ctx.fresh_mset_same listed same)

/-- `t` has the contexts of `s` but for what a clean verdict does not settle. -/
abbrev State.Settles (s t : State) : Prop := State.Reads Ctx.settlement s t

theorem State.Settles.modStep (h : s₀.Settles s) (c : Nat) {f : Step → Step} (hf : ∀ st, (f st).named = st.named) :
    s₀.Settles (s.modStep c f) := by
  refine h.modCtx (congrArg (fun n => { (s.ctx c).settlement with named := n }) ?_)
  dsimp only
  rw [Option.map_map]
  exact congrArg (fun g => Option.map g (s.ctx c).step) (funext hf)

theorem State.Reads.recast (blind : Ctx.Blind p) (h : State.Reads p s₀ s) (c n : Nat) (step : Word) (v : Bool) :
    State.Reads p s₀ (s.recast c n step v).1 := by
  unfold State.recast
  split
  · exact h
  · split
    · exact h
    · exact (noteU blind (layPieces blind h) c).of_kept ((Kept.refl _ _).serveTile (by decide) (by decide) c n .u _)

theorem State.recastAll_settles (s : State) (c : Nat) (st : Step) : s.Settles (s.recastAll c st) :=
  (Reads.refl _ s).each fun _ _ h => State.Settles.modStep (h.recast Ctx.blind_settlement c _ _ _) c fun _ => by split <;> rfl

/-- A clean verdict flips the version bit and leaves no fresh record (R157, R250). -/
theorem State.flipAndRelabel_settlement (s : State) (c : Nat) (st : Step) :
    ((s.flipAndRelabel c st).ctx c).settlement
      = { (s.ctx c).settlement with verBit := !(s.ctx c).verBit, fresh := fun _ => none } := by
  unfold State.flipAndRelabel
  extract_lets ms recast marked joined flipped
  have before : s.Settles marked := (s.recastAll_settles c st).each fun _ i h =>
    h.modTile Ctx.blind_settlement c i (f := fun r => { r with other := !st.updated.contains i }) fun _ => rfl
  have after : flipped.Settles (flipped.relieveAll c) :=
    (Reads.refl _ flipped).of_kept ((Kept.refl _ flipped).relieveAll (by decide) c)
  have cleared : (flipped.ctx c).settlement
      = { (marked.ctx c).settlement with verBit := !(marked.ctx c).verBit, fresh := fun _ => none } := by
    unfold flipped
    rw [State.modCtx_ctx_self]
    refine congrArg (fun f => { (marked.ctx c).settlement with verBit := !(marked.ctx c).verBit, fresh := f }) (funext fun i => ?_)
    exact Ctx.fresh_mmap_none (x := marked.ctx c) (fun i r => by dsimp only; split <;> rfl) i
  exact (after.ctx c).trans (cleared.trans
    (congrArg (fun q : Settlement => { q with verBit := !q.verBit, fresh := fun _ => none }) (before.ctx c)))

theorem State.ledgerEntry_settles (s : State) (c : Nat) (st : Step) : s.Settles (s.ledgerEntry c st) :=
  .ite (fun _ => (Reads.refl _ s).modCtx rfl) fun _ => ((Reads.refl _ s).countCtx c 80 _).modCtx rfl

theorem Ctx.growScale_settlement (x : Ctx) : x.growScale.1.settlement = x.settlement := by
  unfold Ctx.growScale
  dsimp only
  split_ifs <;> rfl

theorem State.Reads.countLate (h : State.Reads p s₀ s) (c : Nat) (st : Step) : State.Reads p s₀ (s.countLate c st) :=
  .ite (fun _ => h.countCtx c 16 1) fun _ => h

/-- The levels of the step are read (R288): beside the context's keys only its bakes are written. -/
theorem State.Reads.readLevel (blind : Ctx.Blind p) (bakes : ∀ x b, p { x with bake := b } = p x) (h : State.Reads p s₀ s)
    (c q : Nat) : State.Reads p s₀ (s.readLevel c q) := by
  unfold State.readLevel
  split
  · exact h
  · exact ite (fun _ => h) fun _ => ite (fun _ => ctrOp blind (h.modCtx (bakes _ _)) _ 2 0) fun _ => counterAt blind h ..

theorem State.Reads.afterFinal (blind : Ctx.Blind p) (bakes : ∀ x b, p { x with bake := b } = p x) (h : State.Reads p s₀ s)
    (c : Nat) (st : Step) : State.Reads p s₀ (s.afterFinal c st) := h.readLevel blind bakes c st.ord

/-- The settlement once the step has left. -/
def Settlement.ended (q : Settlement) (streams : List Nat) : Settlement := { q with named := none, predicted := streams }

theorem State.endStep_settlement (s : State) (c : Nat) (st : Step) :
    ((s.endStep c st).ctx c).settlement = (s.ctx c).settlement.ended st.named := by
  unfold State.endStep
  rw [State.modCtx_ctx_self]
  rfl

theorem State.Reads.cancelMissed (h : State.Reads p s₀ s) (c : Nat) (st : Step) : State.Reads p s₀ (s.cancelMissed c st) := by
  unfold State.cancelMissed
  exact ite (fun _ => h) fun _ => h.of_eq rfl

theorem State.decideSeal_settles (s : State) (c : Nat) (st : Step) : s.Settles (s.decideSeal c st) := by
  have same := Reads.refl Ctx.settlement s
  unfold State.decideSeal
  extract_lets x l i now noted y due awaited deferred told
  have noted' : s.Settles noted := same.modCtx rfl
  have told' : s.Settles told := State.Reads.emit (State.Reads.countCtx (State.Reads.modCtx noted' rfl) c 47 1) _ _ _ _
  exact .ite (fun _ => same) fun _ => .ite (fun _ => noted') fun _ => .ite
    (fun _ => told'.each fun t g h => h.of_kept ((Kept.refl _ t).defer (by decide) c g _)) fun _ => State.Reads.modCtx noted' rfl

/-- A clean verdict whose working copies can all be recast settles the step (R157, R277). -/
theorem execVerdictClean_settlement {ctx : BitVec 4} {st : Step} {v : Word} (running : s.running = true)
    (opened : (s.ctx ctx.toNat).step = some st) (final : s.finalOf ctx.toNat = some v) (clean : v.getLsbD 62 = false)
    (risen : st.unrisen = false) (awaits : st.awaitOnly = false) (quiet : s.stepQuiet ctx.toNat = true)
    (noSeal : (s.ctx ctx.toNat).sealWaits = false) (lock : s.frames.lock = true)
    (writable : ((s.toRecast ctx.toNat st).flatMap (s.recastTiles ctx.toNat (!(s.ctx ctx.toNat).verBit))).all
      (fun u => s.writable ctx.toNat u) = true) :
    ∃ t, exec (.verdictClean ctx) s = .next t
      ∧ (t.ctx ctx.toNat).settlement = ⟨some st.num, !(s.ctx ctx.toNat).verBit, none, st.named, fun _ => none⟩ := by
  change ∃ t, execVerdictClean ctx s = .next t ∧ _
  unfold execVerdictClean State.locked
  extract_lets c
  rw [opened, final]
  dsimp -zeta only
  extract_lets need flipped cleaned scale grown noted now counted told raised read ended missed finished
  rw [running, clean, risen, quiet, if_neg (by decide), awaits, if_neg (by decide), lock, noSeal, if_neg (by decide), writable,
    if_neg (by decide)]
  refine ⟨_, rfl, ?_⟩
  have cleaned' : flipped.Settles cleaned := (flipped.ledgerEntry_settles c st).shareRecord Ctx.blind_settlement c _ _ _
  have grown' : grown.settlement = { (s.ctx c).settlement with verBit := !(s.ctx c).verBit, fresh := fun _ => none } :=
    (Ctx.growScale_settlement (cleaned.ctx c)).trans ((cleaned'.ctx c).trans (s.flipAndRelabel_settlement c st))
  clear_value grown
  have noted' : (noted.ctx c).settlement
      = ⟨some st.num, !(s.ctx c).verBit, some st.named, (s.ctx c).predicted, fun _ => none⟩ := by
    unfold noted
    rw [State.modCtx_ctx_self]
    refine (congrArg (fun q : Settlement => { q with lastClean := some st.num }) grown').trans ?_
    exact congrArg (fun o : Option Step => Settlement.mk (some st.num) (!(s.ctx c).verBit) (o.map (·.named)) (s.ctx c).predicted
      fun _ => none) opened
  have now' : now.named = st.named := by
    obtain ⟨_, found, streams⟩ := Option.map_eq_some_iff.mp (congrArg Settlement.named noted')
    unfold now
    rw [found]
    exact streams
  have told' : noted.Settles told :=
    ((((State.Reads.refl _ noted).countCtx c 13 1).countLate c now).countCtx c 5 now.mxClip).emit _ _ _ _
  have raised' : noted.Settles raised := by
    unfold raised
    split
    · exact told'.emit _ _ _ _
    · exact told'
  have sats : Kept (· ≠ .ctxs) raised (raised.raiseSat c now.num now.tallies) :=
    (Kept.refl _ raised).raiseSat (by decide) (by decide) (by decide) c _ _
  have read' : noted.Settles read := raised'.of_kept (sats.raiseShadow (by decide) (by decide) (by decide) c now)
  have final' : noted.Settles (read.afterFinal c now) := read'.afterFinal Ctx.blind_settlement (fun _ _ => rfl) c now
  have closed : ended.Settles (finished.decideSeal c now) :=
    (((State.Reads.refl _ ended).cancelMissed c now).finish c now.tag 0 0).trans (finished.decideSeal_settles c now)
  refine (closed.ctx c).trans ?_
  exact (State.endStep_settlement _ c now).trans
    (congr (congrArg Settlement.ended ((final'.ctx c).trans noted')) now')

end Sys2Proof.Machine
namespace Sys2Proof.Machine

variable {α : Type} {p : Ctx → α} {s s₀ t : State}

/-! ### Undo -/

/-- What an overflow leaves or writes of a context beside its tiles: the scale, the version, the steps, and the group. -/
structure Undone where
  e : BitVec 8
  c : BitVec 32
  verBit : Bool
  lastClean : Option Word
  step : Option Step
  cfg : Option GroupCfg

def Ctx.undone (x : Ctx) : Undone := ⟨x.e, x.c, x.verBit, x.lastClean, x.step, x.group.cfg⟩

theorem Ctx.blind_undone : Ctx.Blind Ctx.undone := ⟨fun _ _ => rfl, fun _ _ _ => rfl, fun _ _ _ _ _ _ => rfl⟩
theorem Ctx.blind_fresh : Ctx.Blind Ctx.fresh :=
  ⟨fun _ _ => rfl, fun _ _ _ => rfl, fun _ _ _ _ listed same => Ctx.fresh_mset_same listed same⟩

/-- An update of a tile leaves what is read beside the tiles. -/
theorem State.Reads.modTile_undone (h : State.Reads Ctx.undone s₀ s) (c i : Nat) (f : TileRec → TileRec) :
    State.Reads Ctx.undone s₀ (s.modTile c i f) := by
  unfold State.modTile
  split
  · exact h
  · exact h.modCtx rfl

/-- One tile's fresh record withdrawn: its value before the step is written, and its contribution record returns (R278, R226). -/
def State.unriseTile (s : State) (c i : Nat) : State :=
  let u := (s.portWrite c i (s.homeVal c i ^^^ (s.tile c i).freshDelta)).noteU c
  let m := u.isMaster c i
  let bare := u.modTile c i (fun r => { r with f := none, contrib := r.begun, other := if m then false else r.other })
  (bare.countCtx c 18).serveTile c i .u 131072

/-- The tiles of a context with a fresh record. -/
def Ctx.freshTiles (x : Ctx) : List Nat := (x.tiles.filter (fun e => e.2.f.isSome)).map Prod.fst
/-- Those whose fresh record is lost. -/
def Ctx.lostTiles (x : Ctx) : List Nat := (x.tiles.filter (fun e => e.2.damaged && e.2.f.isSome)).map Prod.fst
/-- The records as of STEP_BEGIN have returned (R226). -/
def Ctx.forgetBegun (x : Ctx) : Ctx := { x with tiles := mmap x.tiles (fun _ r => { r with begun := none }) }

theorem Ctx.forgetBegun_fresh (x : Ctx) : x.forgetBegun.fresh = x.fresh :=
  Ctx.fresh_mmap_same (f := fun _ r => { r with begun := none }) fun _ _ => rfl

theorem State.unrise_eq (s : State) (c : Nat) : s.unrise c =
    let u := s.each (s.ctx c).lostTiles (fun s i => s.undoDamaged c i)
    ((u.each (u.ctx c).freshTiles (fun s i => s.unriseTile c i)).modCtx c Ctx.forgetBegun).relieveAll c := rfl

theorem State.unriseTile_undone (h : State.Reads Ctx.undone s₀ s) (c i : Nat) : State.Reads Ctx.undone s₀ (s.unriseTile c i) :=
  (((h.portWrite Ctx.blind_undone c i _).noteU Ctx.blind_undone c).modTile_undone c i _).of_kept
    (((Kept.refl _ _).countCtx (by decide) c 18 1).serveTile (by decide) (by decide) c i .u 131072)

/-- An undo writes of a context only its tiles and what ran. -/
theorem State.unrise_undone (s : State) (c : Nat) : State.Reads Ctx.undone s (s.unrise c) := by
  rw [State.unrise_eq]
  extract_lets u
  have lost : State.Reads Ctx.undone s u := (Reads.refl _ s).each fun t i h => (h.modTile_undone c i _).of_kept
    (((Kept.refl _ _).holdTile (by decide) c i .mend).askOwn (by decide) c .mend i .u none)
  have withdrawn (l : List Nat) := lost.each (l := l) fun _ i h => State.unriseTile_undone h c i
  exact ((withdrawn _).modCtx (f := Ctx.forgetBegun) rfl).of_kept ((Kept.refl _ _).relieveAll (by decide) c)

theorem State.unriseTile_fresh (s : State) (c i : Nat) :
    ((s.unriseTile c i).ctx c).fresh = Function.update (s.ctx c).fresh i none := by
  unfold State.unriseTile
  extract_lets u m bare
  have before : (u.ctx c).fresh = (s.ctx c).fresh :=
    (((Reads.refl _ s).portWrite Ctx.blind_fresh c i _).noteU Ctx.blind_fresh c).ctx c
  have after {w : State} : State.Reads Ctx.fresh w ((w.countCtx c 18).serveTile c i .u 131072) :=
    (Reads.refl _ w).of_kept (((Kept.refl _ _).countCtx (by decide) c 18 1).serveTile (by decide) (by decide) c i .u 131072)
  rw [after.ctx, ← before]
  unfold bare State.modTile
  split
  · next unlisted =>
    have clear : (u.ctx c).fresh i = none := by
      unfold Ctx.fresh
      rw [show mget (u.ctx c).tiles i = none from unlisted]
      rfl
    rw [← clear, Function.update_eq_self]
  · rw [State.modCtx_ctx_self]
    exact Ctx.fresh_mset

theorem State.each_unriseTile_fresh (c : Nat) (l : List Nat) (s : State) (i : Nat) :
    ((s.each l (fun s i => s.unriseTile c i)).ctx c).fresh i = if i ∈ l then none else (s.ctx c).fresh i := by
  unfold State.each
  induction l generalizing s with
  | nil => rfl
  | cons j l ih =>
    rw [List.foldl_cons, ih, State.unriseTile_fresh]
    by_cases h : i = j
    · subst h
      simp
    · rw [Function.update_of_ne h]
      simp [h]

theorem Ctx.mem_freshTiles {x : Ctx} {i : Nat} (h : x.fresh i ≠ none) : i ∈ x.freshTiles := by
  unfold Ctx.fresh at h
  cases found : mget x.tiles i with
  | none =>
    rw [found] at h
    exact absurd rfl h
  | some r =>
    rw [found] at h
    refine List.mem_map.mpr ⟨(i, r), List.mem_filter.mpr ⟨mem_of_mget found, ?_⟩, rfl⟩
    exact Option.isSome_iff_ne_none.mpr h

theorem Ctx.lostTiles_none {x : Ctx} (whole : x.tiles.any (fun e => e.2.damaged) = false) : x.lostTiles = [] := by
  unfold Ctx.lostTiles
  rw [List.filter_eq_nil_iff.mpr, List.map_nil]
  intro e he lost
  exact List.any_eq_false.mp whole e he (Bool.and_eq_true_iff.mp lost).1

/-- The undo of a context without a damaged tile withdraws every fresh record (R278). -/
theorem State.unrise_fresh {c : Nat} (whole : (s.ctx c).tiles.any (fun e => e.2.damaged) = false) (i : Nat) :
    ((s.unrise c).ctx c).fresh i = none := by
  rw [State.unrise_eq, Ctx.lostTiles_none whole]
  dsimp only
  have relieved {w : State} : State.Reads Ctx.fresh w (w.relieveAll c) :=
    (Reads.refl _ w).of_kept ((Kept.refl _ w).relieveAll (by decide) c)
  rw [relieved.ctx, State.modCtx_ctx_self, Ctx.forgetBegun_fresh, State.each_unriseTile_fresh]
  split
  · rfl
  · next clear => exact not_ne_iff.mp fun has => clear (Ctx.mem_freshTiles has)

/-- FINAL is read from the step, the own position and the owner's counter. -/
theorem State.finalOf_congr {c : Nat} (h : (t.ctx c).undone = (s.ctx c).undone) (pctr : t.pctr = s.pctr)
    (poison : t.poison = s.poison) :
    t.finalOf c = s.finalOf c := by
  have step : (t.ctx c).step = (s.ctx c).step := congrArg Undone.step h
  have own : (t.ctx c).own = (s.ctx c).own := by
    unfold Ctx.own
    rw [show (t.ctx c).group.cfg = (s.ctx c).group.cfg from congrArg Undone.cfg h]
  unfold State.finalOf State.pc
  rw [step, own, pctr, poison]

/-! ### VERDICT_OVERFLOW -/

/-- The step as an overflow leaves it until its undo is done (R279). -/
def Step.overflowed (st : Step) : Step := { st with unrisen := true, tallies := [], mxClip := 0, shadows := [] }

/-- The scale halved (R207). -/
def Undone.halved (q : Undone) : Undone := { q with e := BitVec.ofInt 8 (max (q.e.toInt - 1) (-32)), c := 0 }
/-- The step open as to be unrisen (R279). -/
def Undone.overflowed (q : Undone) : Undone := { q with step := q.step.map Step.overflowed }

theorem State.halveScale_undone (s : State) (c : Nat) (num : Word) :
    ((s.halveScale c num).ctx c).undone = (s.ctx c).undone.halved := by
  unfold State.halveScale
  extract_lets old new scaled counted floored
  have counted' : State.Reads Ctx.undone scaled counted := (Reads.refl _ scaled).countCtx c 7 1
  have floored' : State.Reads Ctx.undone scaled floored := .ite (fun _ => counted'.countCtx c 8 1) fun _ => counted'
  have scaled' : (scaled.ctx c).undone = (s.ctx c).undone.halved := by
    unfold scaled
    rw [State.modCtx_ctx_self]
    rfl
  exact ((floored'.emit _ _ _ _).ctx c).trans scaled'

theorem State.undoRecords_undone (s : State) (c : Nat) : State.Reads Ctx.undone s (s.undoRecords c) := (Reads.refl _ s).modCtx rfl

theorem State.overflowPath_undone (s : State) (c : Nat) (st : Step) (verdict : Nat) (v : Word) :
    ((s.overflowPath c st verdict v).ctx c).undone = (s.ctx c).undone.halved.overflowed := by
  unfold State.overflowPath
  extract_lets told halved opened
  have told' : State.Reads Ctx.undone s told := (Reads.refl _ s).emit _ _ _ _
  have opened' : (opened.ctx c).undone = (halved.ctx c).undone.overflowed := by
    unfold opened State.modStep
    rw [State.modCtx_ctx_self]
    rfl
  rw [(opened.undoRecords_undone c).ctx, opened', told.halveScale_undone, told'.ctx]

/-- The scale exponent falls by one, and not below −32 (R207). -/
theorem halved_toInt (e : BitVec 8) : (BitVec.ofInt 8 (max (e.toInt - 1) (-32))).toInt = max (e.toInt - 1) (-32) := by
  have low := e.le_toInt
  have high := e.toInt_lt
  exact BitVec.toInt_ofInt_eq_self (by decide) (by omega) (by omega)

/-- An overflow verdict of a quiet step halves the scale and leaves the step open as to be unrisen (R207, R279). -/
theorem execVerdictOverflow_undone {ctx : BitVec 4} {st : Step} {v : Word} (running : s.running = true)
    (opened : (s.ctx ctx.toNat).step = some st) (final : s.finalOf ctx.toNat = some v) (ovf : v.getLsbD 62 = true)
    (risen : st.unrisen = false) (awaits : st.awaitOnly = false) (quiet : s.stepQuiet ctx.toNat = true)
    (noSeal : (s.ctx ctx.toNat).sealWaits = false) :
    ∃ t, exec (.verdictOverflow ctx) s = .next t ∧ (t.ctx ctx.toNat).undone = (s.ctx ctx.toNat).undone.halved.overflowed := by
  change ∃ t, execVerdictOverflow ctx s = .next t ∧ _
  unfold execVerdictOverflow
  extract_lets c
  rw [opened, final]
  dsimp -zeta only
  extract_lets counted halved read
  rw [running, ovf, risen, quiet, if_neg (by decide), awaits, if_neg (by decide), noSeal, if_neg (by decide)]
  refine ⟨_, rfl, ?_⟩
  have counted' : State.Reads Ctx.undone s counted :=
    (((State.Reads.refl _ s).countCtx c 14 1).countLate c st).countCtx c 17 _
  have read' : State.Reads Ctx.undone halved read :=
    (State.Reads.refl _ halved).afterFinal Ctx.blind_undone (fun _ _ => rfl) c st
  have undone' : State.Reads Ctx.undone read (if read.canUnrise c then read.unrise c else read) :=
    .ite (fun _ => read.unrise_undone c) fun _ => .refl _ read
  rw [(read'.trans undone').ctx, counted.overflowPath_undone, counted'.ctx]

/-! ### UNRISE_DONE -/

theorem State.Reads.endPublishes (h : State.Reads p s₀ s) (c : Nat) (n : Word) (status detail : Nat) :
    State.Reads p s₀ (s.endPublishes c n status detail) :=
  h.each fun _ _ g => g.finish _ _ _ _

/-- The step once its undo is done: it only awaits its verdict, where that has not been read. -/
def Step.awaiting (st : Step) : Step := { st with unrisen := false, awaitOnly := true }

section
variable (s : State) (c : Nat)

theorem State.endStep_fresh (st : Step) : ((s.endStep c st).ctx c).fresh = (s.ctx c).fresh := by
  unfold State.endStep
  rw [State.modCtx_ctx_self]
  rfl
theorem State.endStep_step (st : Step) : ((s.endStep c st).ctx c).step = none := by
  unfold State.endStep
  rw [State.modCtx_ctx_self]
theorem State.modStep_fresh (f : Step → Step) : ((s.modStep c f).ctx c).fresh = (s.ctx c).fresh := by
  unfold State.modStep
  rw [State.modCtx_ctx_self]
  rfl
theorem State.modStep_step (f : Step → Step) : ((s.modStep c f).ctx c).step = (s.ctx c).step.map f := by
  unfold State.modStep
  rw [State.modCtx_ctx_self]

end

theorem execUnriseDone_fresh_step {ctx : BitVec 4} {st : Step} (opened : (s.ctx ctx.toNat).step = some st)
    (unrisen : st.unrisen = true) (can : s.canUnrise ctx.toNat = true)
    (whole : (s.ctx ctx.toNat).tiles.any (fun e => e.2.damaged) = false) :
    ∃ t, exec (.unriseDone ctx) s = .next t ∧ (∀ i, (t.ctx ctx.toNat).fresh i = none)
      ∧ (t.ctx ctx.toNat).step = if (s.finalOf ctx.toNat).isSome then none else some st.awaiting := by
  change ∃ t, execUnriseDone ctx s = .next t ∧ _
  unfold execUnriseDone
  extract_lets c undone known
  rw [opened]
  dsimp -zeta only
  extract_lets ended replied
  rw [unrisen, can, if_neg (by decide), whole, if_neg (by decide)]
  refine ⟨_, rfl, ?_⟩
  have undone' := (s.unrise_undone c).ctx c
  have known' : known = (s.finalOf c).isSome := by
    have kept : Kept (fun q => q ≠ .pctr ∧ q ≠ .poison) s undone := by apply (Kept.refl _ s).unrise <;> decide
    exact congrArg Option.isSome
      (State.finalOf_congr undone' (kept.same .pctr (by decide)) (kept.same .poison (by decide)))
  have ended' : (∀ i, (ended.ctx c).fresh i = none)
      ∧ (ended.ctx c).step = if (s.finalOf c).isSome then none else some st.awaiting := by
    have clear := State.unrise_fresh whole
    have step : (undone.ctx c).step = some st := (congrArg Undone.step undone').trans opened
    rw [← known']
    unfold ended
    split
    · rw [State.endStep_fresh, State.endStep_step]
      exact ⟨clear, rfl⟩
    · rw [State.modStep_fresh, State.modStep_step, step]
      exact ⟨clear, rfl⟩
  have replied' : State.Reads id ended replied :=
    .ite (fun _ => (State.Reads.refl id ended).finish _ _ _ _) fun _ => (State.Reads.refl id ended).finish _ _ _ _
  have published : State.Reads id ended
      (if st.cancel.isSome then replied.endPublishes c st.num 0x0700 0 else replied.endPublishes c st.num 0x0400 6) :=
    .ite (fun _ => replied'.endPublishes _ _ _ _) fun _ => replied'.endPublishes _ _ _ _
  have same := published.ctx c
  simp only [id] at same
  exact same ▸ ended'

/-- Settles O40: a clean verdict settles the step, an overflow halves the scale and leaves the step to be unrisen, and its undo
leaves no fresh record. -/
theorem verdictsAreApplied : Obligations.VerdictsAreApplied := by
  intro s ctx st c x running opened
  refine ⟨fun v final risen awaits quiet noSeal => ⟨fun clean lock writable => ?_, fun ovf => ?_⟩, fun unrisen can whole => ?_⟩
  · obtain ⟨t, next, settled⟩ :=
      execVerdictClean_settlement running opened final clean risen awaits quiet noSeal lock writable
    exact ⟨t, next, congrArg Settlement.lastClean settled, congrArg Settlement.verBit settled,
      Option.map_eq_none_iff.mp (congrArg Settlement.named settled), congrArg Settlement.predicted settled,
      congrFun (congrArg Settlement.fresh settled)⟩
  · obtain ⟨t, next, undone⟩ := execVerdictOverflow_undone running opened final ovf risen awaits quiet noSeal
    exact ⟨t, next, (congrArg (fun q : Undone => q.e.toInt) undone).trans (halved_toInt x.e), congrArg Undone.c undone,
      congrArg Undone.verBit undone, congrArg Undone.lastClean undone,
      (congrArg Undone.step undone).trans (congrArg (Option.map Step.overflowed) opened)⟩
  · exact execUnriseDone_fresh_step opened unrisen can whole

end Sys2Proof.Machine
namespace Sys2Proof.Machine

variable {s : State} {c : Cmd}

/-- The rows of these commands in Table 4.4. -/
def publishTargetsRow : CmdRow := ⟨0x47, fieldsPublishTargets, chkPublishTargets, noBytes, noTake, effPublishTargets⟩
def jobwideRow : CmdRow := ⟨0x53, noFields, chkJobwide, noBytes, takeJobwide, effDone0⟩
def fenceRow : CmdRow := ⟨0x60, fieldsFence, chkFence, noBytes, noTake, effFence⟩
def adoptRow : CmdRow := ⟨0x61, noFields, chkAdopt, noBytes, noTake, effAdopt⟩
def rebuildStartRow : CmdRow := ⟨0x62, noFields, chkRebuildStart, bytesUnbuilt, takeRebuildStart, effRebuildStart⟩

/-! ### REBUILD_START -/

/-- A rebuild of nothing: no tile is unbuilt, and no crust is asked for. -/
theorem State.startRebuild_nothing {k : Nat} (built : (s.ctx k).tiles.all (fun e => !e.2.unbuilt) = true) (tag : BitVec 16) :
    s.startRebuild k tag false = s := by
  have none : (s.ctx k).tiles.filter (fun e => e.2.unbuilt) = [] := by
    rw [List.filter_eq_nil_iff]
    intro e he
    simpa using List.all_eq_true.mp built e he
  unfold State.startRebuild
  rw [none]
  rfl

/-- As it is taken, a rebuild is recorded with its tag and its frame. -/
theorem takeRebuildStart_group (u : State) :
    ((takeRebuildStart c u).ctx c.cid).group.rebuild = some (c.tag, c.b.getLsbD 0)
      ∧ ((takeRebuildStart c u).ctx c.cid).group.rebuildFrame = u.frames.frame := by
  unfold takeRebuildStart
  rw [State.modCtx_ctx_self]
  exact ⟨rfl, rfl⟩

theorem takeRebuildStart_tiles (u : State) : ((takeRebuildStart c u).ctx c.cid).tiles = (u.ctx c.cid).tiles := by
  unfold takeRebuildStart
  rw [State.modCtx_ctx_self]

/-- REBUILD_START with nothing to rebuild stays admitted, its rebuild noted (R329). -/
theorem exec_rebuildStart (h : s.Begins (.rebuildStart c)) (crust : c.b.getLsbD 0 = false)
    (built : (s.ctx c.cid).tiles.all (fun e => !e.2.unbuilt) = true) :
    ∃ t, exec (.rebuildStart c) s = .next t ∧ t.Runs c ∧ (t.ctx c.cid).group.rebuild = some (c.tag, false)
      ∧ (t.ctx c.cid).group.rebuildFrame = s.frames.frame ∧ (t.ctx c.cid).tiles = (s.ctx c.cid).tiles := by
  obtain ⟨rebuild, frame⟩ := takeRebuildStart_group (c := c) (s.entered rebuildStartRow c)
  have tiles : ((s.admitted rebuildStartRow c).ctx c.cid).tiles = (s.ctx c.cid).tiles :=
    (takeRebuildStart_tiles (s.entered rebuildStartRow c)).trans (congrArg Ctx.tiles (s.entered_ctx rebuildStartRow c c.cid))
  have nothing : effRebuildStart c (s.begun rebuildStartRow c) = s.begun rebuildStartRow c := by
    unfold effRebuildStart
    rw [crust]
    exact State.startRebuild_nothing ((congrArg (fun l => l.all fun e => !e.2.unbuilt) tiles).trans built) _
  obtain ⟨t, run, runs, ctxs, -⟩ := exec_stays (r := rebuildStartRow) rfl h rfl nothing
  refine ⟨t, run, runs, ?_⟩
  rw [State.ctx_of_ctxs ctxs]
  exact ⟨rebuild.trans (congrArg (fun b => some (c.tag, b)) crust),
    frame.trans (congrArg Frames.frame (s.entered_frames rebuildStartRow c)), tiles⟩

/-! ### PUBLISH_TARGETS -/

/-- A target reset stands with the command's words and version 1, whatever its counters become (R174). -/
theorem effPublishTargets_target {u : State} (keyed : u.keyless c.cid { words := c.params } = false) :
    ∃ g, mget ((effPublishTargets c u).ctx c.cid).targets (fld c.a 0 4) = some g ∧ g.words = c.params ∧ g.next = 1 := by
  unfold effPublishTargets
  extract_lets t k buf set laid leased
  rw [keyed, if_neg (by decide)]
  have set' : mget (set.ctx c.cid).targets k = some { t with buf := buf } := by
    unfold set
    rw [State.modCtx_ctx_self]
    exact mget_mset_self _ _ _
  have laid' : State.Reads Ctx.targets set laid :=
    .ite (fun _ => .refl _ set) fun _ => (State.Reads.refl _ set).portDie Ctx.blind_targets _ _
  have leased' : State.Reads Ctx.targets set leased := laid'.ctrOp Ctx.blind_targets _ 2 0
  have ended : State.Reads Ctx.targets set (if t.remote && decide (t.position ≠ (leased.ctx c.cid).own)
      then leased.counterAt c.cid t.position t.versionCtr 2 0 .u .command c.tag
      else (leased.setCtr t.versionCtr 0).done c 0) :=
    .ite (fun _ => leased'.counterAt Ctx.blind_targets ..)
      fun _ => (leased'.ctrOp Ctx.blind_targets t.versionCtr 2 0).finish _ _ _ _
  exact ⟨{ t with buf := buf }, by rw [ended.ctx]; exact set', rfl, rfl⟩

theorem State.keyless_congr {t : State} {k : Nat} {g : Target} (same : t.ctx k = s.ctx k) : t.keyless k g = s.keyless k g := by
  unfold State.keyless
  rw [same]

theorem exec_publishTargets (h : s.Begins (.publishTargets c)) (keyed : s.keyless c.cid { words := c.params } = false) :
    ∃ t g, exec (.publishTargets c) s = .next t ∧ mget (t.ctx c.cid).targets (fld c.a 0 4) = some g ∧ g.words = c.params
      ∧ g.next = 1 := by
  have same := begun_ctx (r := publishTargetsRow) rfl rfl h c.cid
  obtain ⟨t, run, kept, -⟩ := exec_begins (i := .publishTargets c) (r := publishTargetsRow) rfl (State.Begins.starts rfl h).1
  obtain ⟨g, found, words, next⟩ := effPublishTargets_target (c := c) ((State.keyless_congr same).trans keyed)
  exact ⟨t, g, run, (congrArg (fun x => mget x.targets _) (State.ctx_of_ctxs (kept.same .ctxs (by decide)) c.cid)).trans found,
    words, next⟩

theorem exec_publishTargets_keyless (h : s.Begins (.publishTargets c)) (keyless : s.keyless c.cid { words := c.params } = true) :
    exec (.publishTargets c) s = .next ((s.taken c).answered 0x47 c 0x0501 (s.ctx c.cid).own) := by
  have same := begun_ctx (r := publishTargetsRow) rfl rfl h c.cid
  obtain ⟨starts, unwatched⟩ := State.Begins.starts (r := publishTargetsRow) rfl h
  refine exec_finishes rfl rfl rfl starts unwatched ?_
  rw [← same]
  exact if_pos ((State.keyless_congr same).trans keyless)

end Sys2Proof.Machine
namespace Sys2Proof.Machine

variable {s s₀ t v : State} {r : CmdRow} {c : Cmd}

/-! ### Commands that work as they are taken -/

/-- What a row does as it is taken leaves the command admitted; the command has then begun. -/
theorem State.begun_admitted (h : s.Offers c) (taken : (s.admitted r c).link.admitted = (s.entered r c).link.admitted) :
    (s.begun r c).link.admitted = (s.taken c).link.admitted ++ [(s.taken c).newBegun (rowOf r.op) c 0] := by
  change replaceFirst _ _ (s.admitted r c).link.admitted = _
  rw [taken]
  exact replaceFirst_append h.free_taken (Adm.isAt_new _ _ _)

theorem State.begun_ctxs (s : State) (r : CmdRow) (c : Cmd) : (s.begun r c).ctxs = (r.take c (s.entered r c)).ctxs := rfl

theorem State.begun_live (h : s.accepts = true) (taken : (s.admitted r c).boot = (s.entered r c).boot) :
    (s.begun r c).live = true :=
  (State.live_congr (s := s.begun r c) (t := s.taken c) taken).trans (State.taken_live h)

/-- A command that has worked, raised events and is then done: its final reply comes last, and no command is left of it. -/
theorem exec_replies_last {i : Instr} (hi : Instr.cmdRow? i = some (r, c)) (ho : (rowOf r.op).op = r.op) (h : s.Begins i)
    (admitted : v.link.admitted = (s.taken c).link.admitted ++ [(s.taken c).newBegun (rowOf r.op) c 0]) (live : v.live = true)
    {n d : Nat} (he : r.eff c (s.begun r c) = v.finish c.cid c.tag n d) :
    ∃ t, exec i s = .next t ∧ t.Replied r.op c n d ∧ t.ctxs = v.ctxs := by
  obtain ⟨starts, unwatched⟩ := State.Begins.starts hi h
  have left := starts.free_taken
  have worked : v.withAdm ((s.taken c).link.admitted ++ [(s.taken c).newBegun (rowOf r.op) c 0]) = v := by
    unfold State.withAdm
    rw [← admitted]
  have final : v.finish c.cid c.tag n d = (v.reply r.op c.cid c.tag n d).withAdm (s.taken c).link.admitted := by
    have last := State.finish_last n d live left (State.newBegun_isAt (s.taken c) (rowOf r.op) c 0)
      (State.unwatchedIn_begun unwatched _)
    rw [worked] at last
    simpa only [State.newBegun, State.newAdm, ho] using last
  refine ⟨v.finish c.cid c.tag n d, ?_, ?_⟩
  · rw [exec_cmdRow hi, State.runCmd_starts starts, he]
    unfold State.ack
    rw [show State.adm? (v.finish c.cid c.tag n d) c.cid c.tag = none by rw [final]; exact left, if_neg (by simp)]
  · rw [final]
    unfold State.reply
    rw [if_neg (by simp [live])]
    refine ⟨⟨left, ?_⟩, rfl⟩
    unfold State.withAdm
    dsimp only
    rw [List.getLast?_concat, Cmd.ofNat_cid]

/-! ### BAKE_JOBWIDE -/

/-- The bake that a context has committed and the one it has sealed. -/
def Ctx.bakeNumbers (x : Ctx) : BitVec 32 × BitVec 32 := (x.bake.committed, x.bake.sealed)

theorem Ctx.jobwide_bakeNumbers (x : Ctx) : x.jobwide.bakeNumbers = (x.bake.sealed, 0) := rfl
theorem Ctx.jobwide_updated (x : Ctx) : x.jobwide.updated = x.updated := by
  have step : x.jobwide.step = x.step := by
    unfold Ctx.jobwide
    extract_lets
    rfl
  unfold Ctx.updated
  rw [step]

theorem State.Reads.judgeExport_bakeNumbers (h : State.Reads Ctx.bakeNumbers s₀ s) (k : Nat) :
    State.Reads Ctx.bakeNumbers s₀ (s.judgeExport k) := by
  unfold State.judgeExport
  exact .ite (fun _ => h) fun _ => .ite (fun _ => h) fun _ => (h.modCtx rfl).countCtx k 110 1

theorem takeJobwide_bakeNumbers (s : State) : ((takeJobwide c s).ctx c.cid).bakeNumbers = ((s.ctx c.cid).bake.sealed, 0) := by
  unfold takeJobwide
  extract_lets f step left ex kept deltas proofs moved relieved judged
  have counted : State.Reads id s proofs := ((State.Reads.refl id s).countCtx c.cid 113 _).countCtx c.cid 114 _
  have moved' : (moved.ctx c.cid).bakeNumbers = (f, 0) := by
    unfold moved
    rw [State.modCtx_ctx_self, Ctx.jobwide_bakeNumbers]
    exact congrArg (fun x : Ctx => (x.bake.sealed, 0)) (counted.ctx c.cid)
  have relieved' : State.Reads Ctx.bakeNumbers moved relieved :=
    (State.Reads.refl _ moved).of_kept ((Kept.refl _ moved).relieveAll (by decide) c.cid)
  have pools : State.Reads Ctx.bakeNumbers moved (if left then relieved.regionPools c.cid else relieved) :=
    .ite (fun _ => relieved'.of_keeps ((State.Shaped.regionPools (State.Keeps.refl _ relieved) c.cid).map Ctx.bakeNumbers))
      fun _ => relieved'
  exact ((((pools.judgeExport_bakeNumbers c.cid).countCtx c.cid 51 1).emit _ _ _ _).ctx c.cid).trans moved'

theorem State.SameWork.judgeExport (h : s₀.SameWork s) (k : Nat) : s₀.SameWork (s.judgeExport k) := by
  unfold State.judgeExport
  exact .ite (fun _ => h) fun _ => .ite (fun _ => h) fun _ => (h.modCtx rfl).countCtx k 110 1

theorem takeJobwide_admitted (s : State) : (takeJobwide c s).link.admitted = s.link.admitted := by
  unfold takeJobwide
  extract_lets f step left ex kept deltas proofs moved relieved judged
  have moved' : s.SameWork moved :=
    (((State.SameWork.refl s).countCtx c.cid 113 _).countCtx c.cid 114 _).modCtx (Ctx.jobwide_updated _)
  have relieved' : s.SameWork relieved := moved'.of_kept ((Kept.refl _ moved).relieveAll (by decide) c.cid)
  have pools : s.SameWork (if left then relieved.regionPools c.cid else relieved) :=
    .ite (fun _ => relieved'.of_shaped (State.Shaped.regionPools (State.Keeps.refl _ relieved) c.cid)
      ((Kept.refl _ relieved).regionPools (by decide) c.cid)) fun _ => relieved'
  exact (((pools.judgeExport c.cid).countCtx c.cid 51 1).emit _ _ _ _).admitted

theorem takeJobwide_boot (s : State) : (takeJobwide c s).boot = s.boot := by
  have kept : Kept (· ≠ .boot) s (takeJobwide c s) := by apply (Kept.refl _ s).on_takeJobwide <;> decide
  exact kept.same .boot (by decide)

theorem effDone0_eq (s : State) : effDone0 c s = s.finish c.cid c.tag 0 0 := rfl

/-- BAKE_JOBWIDE commits the sealed bake and is done (R304). -/
theorem exec_bakeJobwide (h : s.Begins (.bakeJobwide c)) : ∃ t, exec (.bakeJobwide c) s = .next t ∧ t.Replied 0x53 c 0 0
    ∧ (t.ctx c.cid).bake.committed = (s.ctx c.cid).bake.sealed ∧ (t.ctx c.cid).bake.sealed = 0 := by
  have starts := (State.Begins.starts (i := .bakeJobwide c) (r := jobwideRow) rfl h).1
  have live := State.begun_live (r := jobwideRow) (c := c) starts.accepts (takeJobwide_boot (c := c) (s.entered jobwideRow c))
  have admitted := State.begun_admitted (r := jobwideRow) starts.toOffers (takeJobwide_admitted (c := c) (s.entered jobwideRow c))
  obtain ⟨t, run, replied, ctxs⟩ := exec_replies_last (i := .bakeJobwide c) (r := jobwideRow) rfl rfl h admitted live
    (effDone0_eq (s.begun jobwideRow c))
  have same : t.ctxs = (takeJobwide c (s.entered jobwideRow c)).ctxs := ctxs.trans (s.begun_ctxs jobwideRow c)
  have now := takeJobwide_bakeNumbers (c := c) (s.entered jobwideRow c)
  rw [s.entered_ctx jobwideRow c, ← State.ctx_of_ctxs same] at now
  exact ⟨t, run, replied, congrArg Prod.fst now, congrArg Prod.snd now⟩

end Sys2Proof.Machine
namespace Sys2Proof.Machine

variable {s s₀ t : State}

/-! ### Fences and notices -/

/-- What of a context only a fence and an adoption notice write: the fenced positions, and the notices sent. -/
def Ctx.standing (x : Ctx) : FMap (BitVec 8) × Nat := (x.fences, x.group.notesSent)

/-- `t` has the fences and the notices sent of `s`. -/
abbrev State.StandsAs (s t : State) : Prop := State.Reads Ctx.standing s t

theorem Ctx.blind_standing : Ctx.Blind Ctx.standing := ⟨fun _ _ => rfl, fun _ _ _ => rfl, fun _ _ _ _ _ _ => rfl⟩

namespace State.StandsAs

theorem modCtx {f : Ctx → Ctx} (h : s₀.StandsAs s) (c : Nat) (hf : ∀ x, (f x).standing = x.standing) :
    s₀.StandsAs (s.modCtx c f) :=
  Reads.modCtx h (hf _)
theorem issue (h : s₀.StandsAs s) (c : Nat) (cls : Cls) (typ dst : Nat) (body : List (Nat × Nat)) (pl : List Byte) (why : Why)
    (tag : BitVec 16 := 0) (flags : Nat := 0) : s₀.StandsAs (s.issue c cls typ dst body pl why tag flags) :=
  Reads.issue Ctx.blind_standing h ..
theorem shareRecord (h : s₀.StandsAs s) (c part : Nat) (odd : Bool) (l : List Nat) : s₀.StandsAs (s.shareRecord c part odd l) :=
  Reads.shareRecord Ctx.blind_standing h ..
/-- Work on the tiles of the contexts and the pools that follow them. -/
theorem of_shaped (h : s₀.StandsAs s) (shaped : s.Shaped t) : s₀.StandsAs t := h.of_keeps (shaped.map Ctx.standing)
theorem modTile (h : s₀.StandsAs s) (c n : Nat) (f : TileRec → TileRec) : s₀.StandsAs (s.modTile c n f) :=
  of_shaped h (Shaped.modTile (Keeps.refl _ s) c n f)
theorem modStep (h : s₀.StandsAs s) (c : Nat) (f : Step → Step) : s₀.StandsAs (s.modStep c f) := modCtx h c fun _ => rfl
theorem modBcast (h : s₀.StandsAs s) (c kind orig : Nat) (f : Bcast → Bcast) :
    s₀.StandsAs (s.modBcast c kind orig f) := modCtx h c fun _ => rfl
theorem setJob (h : s₀.StandsAs s) (c n : Nat) (j : Option KneadJob) : s₀.StandsAs (s.setJob c n j) := modCtx h c fun _ => rfl

/-! #### A join that ends -/

theorem trap (h : s₀.StandsAs s) (c n : Nat) : s₀.StandsAs (s.trap c n) :=
  of_shaped h (Shaped.setReturn (Keeps.refl _ s) c n .trapped)
theorem applyDefault (h : s₀.StandsAs s) (c k : Nat) : s₀.StandsAs (s.applyDefault c k) := by
  refine .ite (fun _ => ?_) fun _ => h
  unfold State.placePool
  refine modCtx h c fun _ => ?_
  unfold Ctx.setPool
  split <;> rfl
theorem regionPools (h : s₀.StandsAs s) (c : Nat) : s₀.StandsAs (s.regionPools c) :=
  of_shaped h (Shaped.regionPools (Keeps.refl _ s) c)
theorem relieveAll (h : s₀.StandsAs s) (c : Nat) : s₀.StandsAs (s.relieveAll c) :=
  of_shaped h (Shaped.relieveAll (Keeps.refl _ s) c)
theorem unprotect (h : s₀.StandsAs s) (c : Nat) (ts : List Nat) : s₀.StandsAs (s.unprotect c ts) :=
  of_shaped h (Shaped.unprotect (Keeps.refl _ s) c ts)
theorem changeSeal (h : s₀.StandsAs s) (c : Nat) : s₀.StandsAs (s.changeSeal c) := by
  unfold State.changeSeal
  extract_lets waiting changed
  have changed' : s₀.StandsAs changed := by
    refine h.each fun u e g => ?_
    split
    · exact g
    · next ch _ =>
      extract_lets source old new renamed dropped freed trapped noted
      have renamed' : s₀.StandsAs renamed := modCtx g c fun _ => rfl
      have dropped' : s₀.StandsAs dropped := .ite (fun _ => renamed'.each fun _ n g => modTile g c n _) fun _ =>
        .ite (fun _ => renamed'.each fun _ n g => modTile g c n _) fun _ => renamed'
      have freed' : s₀.StandsAs freed := .ite (fun _ => unprotect dropped' c old.tiles) fun _ => dropped'
      have trapped' : s₀.StandsAs trapped := freed'.each fun _ n g => trap g c n
      have noted' : s₀.StandsAs noted := modCtx trapped' c fun _ => by unfold Ctx.standing; dsimp only; split <;> rfl
      split
      · exact noted'
      · exact noted'.finish _ _ _ _
  exact .ite (fun _ => changed') fun _ => regionPools (relieveAll changed' c) c
theorem sealBake (h : s₀.StandsAs s) (c : Nat) (f : BitVec 32) (step : Word) (full : Bool) :
    s₀.StandsAs (s.sealBake c f step full) := by
  unfold State.sealBake
  extract_lets changing changed shared x record covered files laid trapped marked shipped
  have shared' : s₀.StandsAs shared := .ite (fun _ => shareRecord (changeSeal h c) c _ _ _) fun _ => changeSeal h c
  have laid' : s₀.StandsAs laid := modCtx shared' c fun _ => rfl
  have trapped' : s₀.StandsAs trapped := laid'.each fun _ n g => .ite (fun _ => trap g c n) fun _ => g
  have marked' : s₀.StandsAs marked := modCtx trapped' c fun _ => rfl
  have shipped' : s₀.StandsAs shipped := modCtx marked' c fun _ => rfl
  exact ((shareRecord shipped' c _ _ _).countCtx c 46 1).emit _ _ _ _
theorem shareAll (h : s₀.StandsAs s) (c : Nat) : s₀.StandsAs (s.shareAll c) :=
  shareRecord (shareRecord (shareRecord (shareRecord (shareRecord h c _ _ _) c _ _ _) c _ _ _) c _ _ _) c _ _ _

end State.StandsAs
end Sys2Proof.Machine
namespace Sys2Proof.Machine

variable {s s₀ t : State}

namespace State.StandsAs

/-! #### Broadcasts and adoptions -/

theorem modCtx_finish {f : Ctx → Ctx} (h : s₀.StandsAs s) (c : Nat) (tag : BitVec 16) (n d : Nat)
    (hf : ∀ x, (f x).standing = x.standing) : s₀.StandsAs ((s.modCtx c f).finish c tag n d) :=
  (modCtx h c hf).finish c tag n d
theorem joinNow (h : s₀.StandsAs s) (c : Nat) (recs : List JoinRec) (d : Nat) : s₀.StandsAs (s.joinNow c recs d) := by
  unfold State.joinNow
  split
  · next tag _ _ _ _ _ =>
    extract_lets afresh bare placed plan held sealed'
    have bare' : s₀.StandsAs bare :=
      modCtx (modCtx h c fun _ => rfl : s₀.StandsAs afresh) c fun _ => rfl
    split
    · exact modCtx_finish h c _ _ _ fun _ => rfl
    · have placed' : s₀.StandsAs placed := applyDefault (applyDefault (applyDefault bare' c 0) c 1) c 2
      have held' : s₀.StandsAs held := modCtx placed' c fun _ => rfl
      exact (shareAll (sealBake held' c 1 _ true) c).finish c tag 0 d
  · exact h
theorem joinFailed (h : s₀.StandsAs s) (c n d : Nat) : s₀.StandsAs (s.joinFailed c n d) := by
  unfold State.joinFailed
  split
  · exact modCtx_finish h c _ _ _ fun _ => rfl
  · exact h
theorem rootDone (h : s₀.StandsAs s) (c : Nat) (b : Bcast) : s₀.StandsAs (s.rootDone c b) := by
  unfold State.rootDone
  split
  · exact h
  · extract_lets root good ok told second
    have told' : s₀.StandsAs told := h.each fun _ _ g => g.each fun _ _ g => issue g ..
    have second' : s₀.StandsAs second := modBcast told' c 1 _ _
    exact .ite (fun _ => joinNow second' c _ _) fun _ => joinFailed second' c _ _
theorem bcastReady (h : s₀.StandsAs s) (c kind orig : Nat) : s₀.StandsAs (s.bcastReady c kind orig) := by
  unfold State.bcastReady
  split
  · exact h
  · next b _ =>
    refine .ite (fun _ => h) fun _ => ?_
    have up := modBcast h c kind orig fun b => { b with upSent := true }
    split
    · exact issue (up.each fun _ _ g => issue g ..) ..
    · exact .ite (fun _ => rootDone up c b) fun _ => modCtx up c fun _ => rfl
theorem suspectIn (h : s₀.StandsAs s) (c q reason : Nat) : s₀.StandsAs (s.suspectIn c q reason) :=
  h.of_kept ((Kept.refl _ s).suspectIn (by decide) (by decide) (by decide) (by decide) c q reason)
theorem skipChild (h : s₀.StandsAs s) (c kind orig child : Nat) (report : Bool) :
    s₀.StandsAs (s.skipChild c kind orig child report) := by
  unfold State.skipChild
  split
  · refine .ite (fun _ => h) fun _ => ?_
    extract_lets more widened root sent counted reported
    have widened' : s₀.StandsAs widened := modBcast h c kind orig _
    have sent' : s₀.StandsAs sent := widened'.each fun _ _ g => issue g ..
    have counted' : s₀.StandsAs counted := sent'.countCtx c 89 1
    exact bcastReady (.ite (fun _ => (suspectIn (counted'.emit _ _ _ _) c child 3).each fun _ d g => suspectIn g d child 3)
      fun _ => counted') c kind orig
  · exact h
theorem skipIn (h : s₀.StandsAs s) (c child : Nat) (gen : Option (BitVec 32)) (report : Bool) :
    s₀.StandsAs (s.skipIn c child gen report) :=
  h.each fun _ _ g => skipChild g c _ _ child report
theorem endAdopt (h : s₀.StandsAs s) (c n d : Nat) : s₀.StandsAs (s.endAdopt c n d) := by
  unfold State.endAdopt
  split
  · exact h
  · exact modCtx_finish h c _ _ _ fun _ => rfl
theorem adoptNext (h : s₀.StandsAs s) (c : Nat) : s₀.StandsAs (s.adoptNext c) := by
  unfold State.adoptNext
  extract_lets group
  split
  · exact h
  · refine .ite (fun _ => .ite (fun _ => h) fun _ => issue h ..) fun _ => ?_
    split
    · exact .ite (fun _ => endAdopt h c _ _) fun _ => h
    · exact h
theorem originate (h : s₀.StandsAs s) (c kind : Nat) (gen : BitVec 32) : s₀.StandsAs (s.originate c kind gen) := by
  unfold State.originate
  extract_lets x b spread
  have counted := h.countCtx c 87 1
  have spread' : s₀.StandsAs spread := by
    unfold spread State.spread
    split
    · exact counted
    · refine Reads.each ?_ fun _ _ g => issue g ..
      exact modCtx counted c fun _ => rfl
  exact bcastReady spread' c kind _

end State.StandsAs
end Sys2Proof.Machine
namespace Sys2Proof.Machine

variable {s s₀ t : State}

namespace State.StandsAs

/-! #### Requests that have timed out -/

theorem retryLater (h : s₀.StandsAs s) (r : Req) : s₀.StandsAs (s.retryLater r) := h.of_eq rfl
theorem reissue (h : s₀.StandsAs s) (r : Req) : s₀.StandsAs (s.reissue r) :=
  Reads.issueWith Ctx.blind_standing (h.countCtx _ 54 1) r 4
theorem findingBack (h : s₀.StandsAs s) (c n d : Nat) : s₀.StandsAs (s.findingBack c n d) := by
  unfold State.findingBack
  split
  · exact h
  · have back := modStep h c fun st => { st with addBack := true }
    split
    · exact back.finish c _ n d
    · exact back
theorem verdictEnds (h : s₀.StandsAs s) (r : Req) (e : Ending) : s₀.StandsAs (s.verdictEnds r e) := by
  unfold State.verdictEnds
  extract_lets c
  split
  · exact modStep h c _
  · exact reissue h r
  · exact retryLater h r
  · exact h
theorem abandonDemotion (h : s₀.StandsAs s) (c n : Nat) : s₀.StandsAs (s.abandonDemotion c n) := by
  unfold State.abandonDemotion
  split
  · exact h
  · exact .ite (fun _ => h) fun _ => .ite (fun _ => setJob h c n none) fun _ =>
      ((modTile (setJob h c n none) c n _).countCtx c 98 1).of_kept ((Kept.refl _ _).unholdTile (by decide) c n .moving)
theorem giveUp (h : s₀.StandsAs s) (c n : Nat) (j : KneadJob) : s₀.StandsAs (s.giveUp c n j) := by
  have left := abandonDemotion h c n
  unfold State.giveUp
  split
  · exact left.of_kept ((Kept.refl _ _).hintDone (by decide) c _)
  · exact left
theorem storeDir (h : s₀.StandsAs s) (c n : Nat) (w : Word) (cls : Cls) (why : Why) : s₀.StandsAs (s.storeDir c n w cls why) :=
  issue h ..
theorem demoteStored (h : s₀.StandsAs s) (c n : Nat) (ok : Bool) : s₀.StandsAs (s.demoteStored c n ok) := by
  unfold State.demoteStored
  split
  · exact h
  · exact .ite (fun _ => h) fun _ => .ite (fun _ => setJob h c n _) fun _ => .ite (fun _ => giveUp h c n _) fun _ =>
      storeDir (setJob h c n _) c n _ _ _
theorem directoryFailed (h : s₀.StandsAs s) (c n : Nat) : s₀.StandsAs (s.directoryDone c n false) := by
  unfold State.directoryDone
  split
  · exact h
  · exact .ite (fun _ => h) fun _ => .ite (fun _ => giveUp h c n _) fun _ => storeDir h c n _ _ _
theorem writeHome (h : s₀.StandsAs s) (c n : Nat) (j : KneadJob) (v : Tile) : s₀.StandsAs (s.writeHome c n j v) :=
  have laid := h.of_kept (((Kept.refl (· ≠ .ctxs) s).setHome (by decide) (by decide) c n v).serveTile (by decide) (by decide)
    c n _ _)
  storeDir (setJob laid c n _) c n _ _ _
theorem loadFailed (h : s₀.StandsAs s) (c n : Nat) (j : KneadJob) : s₀.StandsAs (s.loadFailed c n j) := by
  unfold State.loadFailed
  extract_lets job x bad r
  have replica : s₀.StandsAs r.2 := h.of_kept ((Kept.refl _ s).freeTile (by decide))
  exact .ite (fun _ => (setJob (h.countCtx c 102 1) c n _).of_kept ((Kept.refl _ _).askOwn (by decide) c .promote n _ _))
    fun _ => .ite (fun _ => writeHome ((replica.countCtx c 102 1).emit _ _ _ _) c n job r.1)
      fun _ => writeHome ((h.countCtx c 103 1).emit _ _ _ _) c n job 0
theorem extentLoaded (h : s₀.StandsAs s) (c n piece : Nat) (l : Option (List Byte)) :
    s₀.StandsAs (s.extentLoaded c n piece l) := by
  unfold State.extentLoaded
  split
  · exact h
  · refine .ite (fun _ => h) fun _ => .ite (fun _ => setJob h c n _) fun _ => ?_
    split
    · exact loadFailed h c n _
    · exact .ite (fun _ => writeHome h c n _ _) fun _ => setJob h c n _
theorem askPromotion (h : s₀.StandsAs s) (c n cause : Nat) (tag : Option (BitVec 16)) (deadline : BitVec 32) :
    s₀.StandsAs (s.askPromotion c n cause tag deadline) := by
  have left := abandonDemotion h c n
  refine .ite (fun _ => left) fun _ => ?_
  split
  · exact .ite (fun _ => setJob left c n _) fun _ => left
  · exact setJob left c n _
theorem askRead (h : s₀.StandsAs s) (c n : Nat) (cls : Cls) (deadline : BitVec 32) :
    s₀.StandsAs (s.askRead c n cls deadline) := by
  refine .ite (fun _ => h) fun _ => .ite (fun _ => askPromotion h c n 4 none deadline) fun _ => ?_
  split
  · exact h
  · refine .ite (fun _ => h) fun _ => Reads.each ?_ fun _ _ g => issue g ..
    exact modCtx ((setJob h c n _).countCtx c 100 1) c fun _ => rfl
theorem pushSum (h : s₀.StandsAs s) (q : PartSum) : s₀.StandsAs (s.pushSum q) := by
  have sent (q : PartSum) (dst : Nat) : s₀.StandsAs (s.sendSum q dst) := h.each fun _ _ g => issue g ..
  have dropped {u : State} (g : s₀.StandsAs u) (q : PartSum) : s₀.StandsAs (u.dropSum q) := g.of_eq rfl
  unfold State.pushSum
  extract_lets c x av
  split
  · exact h
  · refine .ite (fun _ => dropped h q) fun _ => .ite (fun _ => h) fun _ => ?_
    extract_lets cs w mine own
    refine .ite (fun _ => h) fun _ => ?_
    clear_value mine own
    split
    · split
      · exact askRead h c _ _ _
      · exact h
    · exact .ite (fun _ => dropped (sent _ _) _) fun _ => h.of_eq rfl
theorem raiseAdmSat (h : s₀.StandsAs s) (c : Nat) (tag : BitVec 16) : s₀.StandsAs (s.raiseAdmSat c tag) :=
  h.of_kept ((Kept.refl _ s).raiseAdmSat (by decide) (by decide) (by decide) c tag)
theorem storeTimedOut (h : s₀.StandsAs s) (r : Req) (k : BitVec 4) (v : Word) : s₀.StandsAs (s.storeEnds r k v .timedOut) := by
  unfold State.storeEnds
  extract_lets c
  split
  · exact h
  · exact .ite (fun _ => h) fun _ => (raiseAdmSat h c _).finish c _ _ _
theorem flagTimedOut (h : s₀.StandsAs s) (r : Req) (k : BitVec 4) (v : Word) : s₀.StandsAs (s.flagEnds r k v .timedOut) := by
  unfold State.flagEnds
  extract_lets c target
  exact .ite (fun _ => h) fun _ => (raiseAdmSat h c _).finish c _ _ _

/-- A request that ends as timed out fences no position and sends no notice. -/
theorem endReq (h : s₀.StandsAs s) (r : Req) : s₀.StandsAs (s.endReq r .timedOut) := by
  have again : s₀.StandsAs (if Ending.ok .timedOut || Ending.timedOut == .answered 5 0 [] || s.fencedAny r.dst.toNat then s
      else s.retryLater r) := .ite (fun _ => h) fun _ => retryLater h r
  unfold State.endReq
  extract_lets c
  cases r.why with
  | command => exact h.of_kept ((Kept.refl _ s).commandBack (by decide) r .timedOut)
  | finding => exact findingBack (h.countCtx c 19 _) c _ _
  | mark | replica => exact h
  | verdict => exact verdictEnds h r _
  | riskMax | riskRead => exact reissue h r
  | commit => exact h.countCtx c 53 _
  | probe => exact h.of_kept ((Kept.refl _ s).count (by decide) 20 _)
  | crumb | notice | record | part => exact again
  | decode id => exact h.of_kept ((Kept.refl _ s).decodeTimedOut (by decide) id)
  | bcast => exact h
  | adopt => exact endAdopt h c _ _
  | store k v => exact storeTimedOut h r k v
  | flag k v => exact flagTimedOut h r k v
  | demote n => exact demoteStored h c n _
  | directory n => exact directoryFailed h c n
  | load n i => exact (extentLoaded h c n i none).each fun _ q g => pushSum g q

end State.StandsAs
end Sys2Proof.Machine
namespace Sys2Proof.Machine

variable {s s₀ : State} {c : Cmd}

/-! ### FENCE_MEMBER -/

theorem State.StandsAs.dropRequests (h : s₀.StandsAs s) (q : Nat) : s₀.StandsAs (s.dropRequests q) := by
  unfold State.dropRequests
  extract_lets mine out late fabric kept offered ended
  have kept' : s₀.StandsAs kept := h.of_eq rfl
  have offered' : s₀.StandsAs offered := kept'.each fun _ _ g => g.of_eq rfl
  have ended' : s₀.StandsAs ended := offered'.each fun t r g => State.StandsAs.endReq (g.of_kept
    ((((Kept.refl (· ≠ .ctxs) t).countPeel (by decide) _ _ _).risk (by decide) 2 1).quarantine (by decide) r)) r
  exact ended'.each fun _ r g => State.StandsAs.endReq g r

/-- A fenced position is fenced with the current epoch, whatever its requests and broadcasts come to (R316, R317). -/
theorem State.fence_fences (s : State) (k q : Nat) :
    mget ((s.fence k q).ctx k).fences q = some (s.ctx k).keys.epoch := by
  unfold State.fence
  extract_lets fenced dropped skipped
  have fenced' : mget (fenced.ctx k).fences q = some (s.ctx k).keys.epoch := by
    unfold fenced
    rw [State.modCtx_ctx_self]
    exact mget_mset_self _ _ _
  have signed : fenced.StandsAs (fenced.modSign k q fun _ => {}) := (State.Reads.refl _ fenced).of_eq rfl
  have dropped' : fenced.StandsAs dropped := signed.dropRequests q
  have skipped' : fenced.StandsAs skipped := dropped'.each fun _ d g =>
    State.StandsAs.adoptNext (State.StandsAs.skipIn g d q none false) d
  have margin := (skipped'.countCtx k 66 1).of_kept ((Kept.refl _ _).fenceMargin (by decide) (by decide) k q)
  exact (congrArg (fun l => mget l q) (congrArg Prod.fst (margin.ctx k))).trans fenced'

theorem exec_fenceMember (h : s.Begins (.fenceMember c)) (free : mget (s.ctx c.cid).fences (fld c.a 0 5) = none) :
    ∃ t, exec (.fenceMember c) s = .next t
      ∧ mget (t.ctx c.cid).fences (fld c.a 0 5) = some (s.ctx c.cid).keys.epoch := by
  have same := begun_ctx (r := fenceRow) rfl rfl h c.cid
  obtain ⟨t, run, kept, -⟩ := exec_begins (i := .fenceMember c) (r := fenceRow) rfl (State.Begins.starts rfl h).1
  have eff : effFence c (s.begun fenceRow c) = ((s.begun fenceRow c).fence c.cid (fld c.a 0 5)).done c 0 :=
    if_neg (by rw [same, free]; decide)
  have done := (State.Reads.refl Ctx.fences ((s.begun fenceRow c).fence c.cid (fld c.a 0 5))).finish c.cid c.tag 0 0
  have fences : (t.ctx c.cid).fences = (((s.begun fenceRow c).fence c.cid (fld c.a 0 5)).ctx c.cid).fences :=
    (congrArg Ctx.fences (State.ctx_of_ctxs ((kept.same .ctxs (by decide)).trans (congrArg State.ctxs eff)) c.cid)).trans
      (done.ctx c.cid)
  refine ⟨t, run, ?_⟩
  rw [fences, State.fence_fences, same]

/-- FENCE_MEMBER of a position that is fenced already is only answered. -/
theorem exec_fenceMember_fenced (h : s.Begins (.fenceMember c))
    (fenced : (mget (s.ctx c.cid).fences (fld c.a 0 5)).isSome = true) :
    exec (.fenceMember c) s = .next ((s.taken c).answered 0x60 c 0 0) := by
  have same := begun_ctx (r := fenceRow) rfl rfl h c.cid
  obtain ⟨starts, unwatched⟩ := State.Begins.starts (r := fenceRow) rfl h
  exact exec_finishes rfl rfl rfl starts unwatched (if_pos (by rw [same, fenced]))

/-! ### ADOPT_POSITION -/

/-- An adopter takes the position and sends one notice more (R327). -/
theorem effAdopt_notesSent (u : State) :
    ((effAdopt c u).ctx c.cid).group.notesSent = (u.ctx c.cid).group.notesSent + 1 := by
  unfold effAdopt State.sendNotice
  extract_lets q taken counted
  have counted' : (counted.ctx c.cid).standing.2 = (u.ctx c.cid).standing.2 + 1 := by
    unfold counted
    rw [State.modCtx_ctx_self]
    unfold taken
    rw [State.modCtx_ctx_self]
    rfl
  have sent := State.StandsAs.adoptNext (State.StandsAs.originate (State.Reads.refl _ counted) c.cid 2
    (BitVec.ofNat 32 ((counted.ctx c.cid).keys.epoch.toNat + 256 * (counted.ctx c.cid).group.notesSent))) c.cid
  exact (congrArg Prod.snd (sent.ctx c.cid)).trans counted'

theorem exec_adoptPosition (h : s.Begins (.adoptPosition c)) : ∃ t, exec (.adoptPosition c) s = .next t
    ∧ (t.ctx c.cid).group.notesSent = (s.ctx c.cid).group.notesSent + 1 := by
  have same := begun_ctx (r := adoptRow) rfl rfl h c.cid
  obtain ⟨t, run, kept, -⟩ := exec_begins (i := .adoptPosition c) (r := adoptRow) rfl (State.Begins.starts rfl h).1
  have sent := effAdopt_notesSent (c := c) (s.begun adoptRow c)
  rw [same] at sent
  exact ⟨t, run, (congrArg (fun x => x.group.notesSent) (State.ctx_of_ctxs (kept.same .ctxs (by decide)) c.cid)).trans sent⟩

/-- Settles O34: each command by the lemma on its own effect. A fence and an adoption set off requests, broadcasts and joins that
end; none of these writes a fence or sends a notice. -/
theorem groupBakeAndPublishCommands : Obligations.GroupBakeAndPublishCommands := by
  intro s c k x
  exact ⟨exec_bakeJobwide, exec_fenceMember, exec_fenceMember_fenced, exec_adoptPosition, exec_rebuildStart, exec_publishTargets,
    exec_publishTargets_keyless⟩

end Sys2Proof.Machine
namespace Sys2Proof.Machine

variable {s : State}

/-! ### A counter operation at a position -/

/-- A counter operation on another position's counter leaves this engine's counters to a transfer (R25). -/
theorem State.counterAt_elsewhere {c owner : Nat} (other : (s.ctx c).own ≠ owner) (k op : Nat) (v : Word) (w : Cls) (why : Why)
    (tag : BitVec 16) (flags : Nat) : Kept (· ≠ .pctr) s (s.counterAt c owner k op v w why tag flags) := by
  unfold State.counterAt
  rw [if_neg other]
  exact (Kept.refl _ s).issue (by decide) (by decide) (by decide) (by decide) ..

/-- ADD, MAX and SET on an own counter are done at once, beside what an ADD notes of a barrier. -/
theorem State.counterAt_wrote {c owner k op : Nat} (here : (s.ctx c).own = owner) (wf : mwf s.pctr = true)
    (raw : mget s.sram (iaOf 2 0x1F k) = none) (known : op < 3) (sound : op = 2 ∨ s.poison.contains k = false) (v : Word) (w : Cls)
    (why : Why) (tag : BitVec 16) (flags : Nat) :
    s.Wrote k (ctrVal op (s.pc k) v) (s.counterAt c owner k op v w why tag flags) := by
  unfold State.counterAt
  rw [if_pos here]
  exact (State.ctrOp_wrote wf raw known sound v).kept (State.noteBarrier_kept _ _ _ _ _ _)

theorem State.modStep_undone (c : Nat) (f : Step → Step) :
    ((s.modStep c f).ctx c).undone = { (s.ctx c).undone with step := (s.ctx c).step.map f } := by
  unfold State.modStep
  rw [State.modCtx_ctx_self]
  rfl

theorem State.modStep_own (c : Nat) (f : Step → Step) : ((s.modStep c f).ctx c).own = (s.ctx c).own := by
  unfold State.modStep
  rw [State.modCtx_ctx_self]
  rfl

/-! ### RISK_LEVEL_PUBLISH -/

/-- A level is a number of three bits (R288). -/
theorem State.publishedLevel_lt (c : Nat) : s.publishedLevel c < 8 := by
  unfold State.publishedLevel
  split
  · decide
  · exact s.health.level.isLt

/-- The step once its risk operation has been sent: on the owner of the counter it is answered at once. -/
def Step.published (here : Bool) (st : Step) : Step := { st with riskSent := true, riskDone := here }

/-- The step marked as having sent its risk operation to the owner of the counter. -/
def State.riskMarked (s : State) (c : Nat) (owner : BitVec 5) : State :=
  s.modStep c (Step.published (decide ((s.ctx c).own = owner.toNat)))

/-- The published level's MAX goes out once, with the step marked (R288). -/
theorem execRiskLevelPublish_open {ctx : BitVec 4} {st : Step} {j : BitVec 12} {owner : BitVec 5} (running : s.running = true)
    (opened : (s.ctx ctx.toNat).step = some st) (awaits : st.awaitOnly = false) (worked : s.stepWorked ctx.toNat = true)
    (named : (s.ctx ctx.toNat).bake.risk = some (j, owner)) (unsent : st.riskSent = false)
    (joined : (s.ctx ctx.toNat).group.joined = true) :
    exec (.riskLevelPublish ctx) s = .next ((s.riskMarked ctx.toNat owner).counterAt ctx.toNat owner.toNat (j.toNat + st.ord % 3) 1
      (BitVec.ofNat 64 (s.publishedLevel ctx.toNat)) .u .riskMax) := by
  change execRiskLevelPublish ctx s = _
  unfold execRiskLevelPublish
  dsimp only
  rw [opened, named]
  dsimp only
  rw [running, awaits, unsent, joined, worked, if_neg (by decide)]
  rfl

/-- The level that a step's MAX leaves in a counter of its owner: the larger of its value and the level published (R25, R288). -/
theorem ctrVal_max_level (old : Word) (c : Nat) :
    (ctrVal 1 old (BitVec.ofNat 64 (s.publishedLevel c))).toNat = max old.toNat (s.publishedLevel c) := by
  rw [ctrVal_max, BitVec.toNat_ofNat, Nat.mod_eq_of_lt (s.publishedLevel_lt c |>.trans (by decide))]

/-! ### STEP_FINDING_ADD -/

/-- The step once its finding has been sent, and once its ADD is back (R272). -/
def Step.found (st : Step) : Step := { st with sent := true }
def Step.answered (st : Step) : Step := { st with addBack := true }

/-- The state once a step's finding has been sent. -/
def State.findingSent (s : State) (c : Nat) (st : Step) : State :=
  (s.modStep c Step.found).counterAt c st.owner.toNat st.vctr.toNat 0 (findingOf st.overflow) .u .finding (st.lossTag.getD 0)

theorem execStepFindingAdd_ready {ctx : BitVec 4} {st : Step} (running : s.running = true)
    (opened : (s.ctx ctx.toNat).step = some st) (awaits : st.awaitOnly = false) (worked : s.stepWorked ctx.toNat = true)
    (risen : st.unrisen = false) (unsent : st.sent = false)
    (risk : st.riskDone = true ∨ (s.ctx ctx.toNat).bake.risk = none ∨ (s.ctx ctx.toNat).group.joined = false)
    (read : s.awaits ctx.toNat (fun w => w == .riskRead) = false) :
    exec (.stepFindingAdd ctx) s = .next (if (s.ctx ctx.toNat).own = st.owner.toNat
      then (s.findingSent ctx.toNat st).findingBack ctx.toNat 0 0 else (s.findingSent ctx.toNat st).waitFinal ctx.toNat) := by
  have ready : State.riskReady (s.ctx ctx.toNat) st = true := by
    unfold State.riskReady
    rcases risk with h | h | h
    · simp [h]
    · simp [h]
    · simp [h]
  change execStepFindingAdd ctx s = _
  unfold execStepFindingAdd
  dsimp only
  rw [opened]
  dsimp only
  rw [running, awaits, risen, unsent, worked, ready, read, if_neg (by decide)]
  rfl

/-- What was read of the context, with the finding sent. -/
theorem State.findingSent_undone {c : Nat} {st : Step} (opened : (s.ctx c).step = some st) :
    ((s.findingSent c st).ctx c).undone = { (s.ctx c).undone with step := some st.found } := by
  have sent : State.Reads Ctx.undone (s.modStep c Step.found) (s.findingSent c st) :=
    (State.Reads.refl _ _).counterAt Ctx.blind_undone ..
  rw [sent.ctx, State.modStep_undone, opened]
  rfl

theorem State.findingBack_step {c : Nat} {st : Step} (opened : (s.ctx c).step = some st) (status detail : Nat) :
    ((s.findingBack c status detail).ctx c).step = some st.answered := by
  have marked : ((s.modStep c Step.answered).ctx c).step = some st.answered := by
    rw [State.modStep_step, opened]
    rfl
  unfold State.findingBack
  rw [opened]
  dsimp only
  split
  · exact (((State.Reads.refl Ctx.step _).finish _ _ _ _).ctx c).trans marked
  · exact marked

/-- Elsewhere than on the owner the finding and the wait for FINAL are transfers (R272, R274). -/
theorem State.waitFinal_findingSent {c : Nat} {st : Step} (opened : (s.ctx c).step = some st)
    (other : (s.ctx c).own ≠ st.owner.toNat) :
    ((s.findingSent c st).waitFinal c).pctr = s.pctr ∧ (((s.findingSent c st).waitFinal c).ctx c).step = some st.found := by
  have sent := State.findingSent_undone opened
  have step : ((s.findingSent c st).ctx c).step = some st.found := congrArg Undone.step sent
  have cfg : ((s.findingSent c st).ctx c).group.cfg = (s.ctx c).group.cfg := congrArg Undone.cfg sent
  have own : ((s.findingSent c st).ctx c).own ≠ st.owner.toNat := by
    unfold Ctx.own
    rw [cfg]
    exact other
  have sent' : Kept (· ≠ .pctr) (s.modStep c Step.found) (s.findingSent c st) :=
    State.counterAt_elsewhere (by rwa [State.modStep_own]) ..
  unfold State.waitFinal
  rw [step]
  dsimp only
  rw [show st.found.owner = st.owner from rfl, if_neg own]
  exact ⟨((State.counterAt_elsewhere own ..).same .pctr (by decide)).trans (sent'.same .pctr (by decide)),
    (congrArg Undone.step (((State.Reads.refl Ctx.undone _).counterAt Ctx.blind_undone ..).ctx c)).trans step⟩

/-- Settles O38: either operation is `State.counterAt` on the state with the step marked, which holds the same counters. -/
theorem riskLevelAndFindingReachTheirCounters : Obligations.RiskLevelAndFindingReachTheirCounters := by
  intro s ctx st c x wf running opened awaits worked
  refine ⟨fun j owner named unsent joined => ?_, fun risen unsent risk read => ?_⟩
  · have own : ((s.riskMarked c owner).ctx c).own = x.own := State.modStep_own c _
    have step : ((s.riskMarked c owner).ctx c).step = some (Step.published (decide (x.own = owner.toNat)) st) := by
      unfold State.riskMarked
      rw [State.modStep_step, opened]
      rfl
    refine ⟨_, execRiskLevelPublish_open running opened awaits worked named unsent joined, ?_, fun other => ?_,
      fun here sound raw => ?_⟩
    · exact (congrArg Undone.step (((State.Reads.refl Ctx.undone _).counterAt Ctx.blind_undone ..).ctx c)).trans step
    · exact (State.counterAt_elsewhere (own.trans_ne other) ..).same .pctr (by decide)
    · have wrote := State.counterAt_wrote (op := 1) (own.trans here) wf raw (by decide) (.inr sound)
        (BitVec.ofNat 64 (s.publishedLevel c)) .u .riskMax 0 0
      exact (congrArg BitVec.toNat wrote.value).trans (ctrVal_max_level _ c)
  · have next := execStepFindingAdd_ready running opened awaits worked risen unsent risk read
    have step : ((s.findingSent c st).ctx c).step = some st.found := congrArg Undone.step (State.findingSent_undone opened)
    refine ⟨_, next, fun other => ?_, fun here => ?_, fun here sound raw => ?_⟩
    · rw [if_neg other]
      exact State.waitFinal_findingSent opened other
    · rw [if_pos here]
      exact State.findingBack_step step 0 0
    · rw [if_pos here]
      have wrote := State.counterAt_wrote (s := s.modStep c Step.found) (op := 0) ((State.modStep_own c _).trans here) wf raw
        (by decide) (.inr sound) (findingOf st.overflow) .u .finding (st.lossTag.getD 0) 0
      exact (wrote.kept ((Kept.refl _ _).findingBack (by decide) (by decide) c 0 0)).value

end Sys2Proof.Machine
namespace Sys2Proof.Machine

variable {α : Type} {p : Ctx → α} {s s₀ t : State}

/-- A request that leaves writes of a context only its keys. -/
theorem State.Reads.of_unkeyed_of (keyless : ∀ x, p x.unkeyed = p x) (h : State.Reads p s₀ s) (k : s.Unkeyed t) :
    State.Reads p s₀ t :=
  h.trans ⟨fun i => (keyless _).symm.trans ((congrArg p (k.ctx i)).trans (keyless _))⟩

/-! ### What a seal writes -/

/-- Of a tile's record, what a seal moves: the open and the sealed records with their marks, and the copy owed to the bake. -/
def TileRec.sealing (r : TileRec) : TileRec :=
  { o := r.o, p := r.p, sb := r.sb, sp := r.sp,
    erasedOpen := r.erasedOpen, erasedSealed := r.erasedSealed, owesBake := r.owesBake }

/-- What BAKE_SEAL writes of a context: the sealed bake, its last step, the seal that is due, and the tiles' records. -/
structure Sealing where
  sealed : BitVec 32
  last : Word
  due : Option Word
  tile : Nat → TileRec

def Ctx.sealing (x : Ctx) : Sealing := ⟨x.bake.sealed, x.bake.sLast, x.bake.due, fun i => ((mget x.tiles i).getD {}).sealing⟩

/-- The record of a tile that a seal has been taken of (R294, R297). -/
def Ctx.sealTile (x : Ctx) (i : Nat) (r : TileRec) : TileRec :=
  if x.cover i == .snapshot || x.bake.fullTiles.contains i then { r.seal with owesBake := true } else r.seal

theorem Ctx.sealTile_sealing (x : Ctx) (i : Nat) (r : TileRec) :
    (x.sealTile i r).sealing = { r.seal.sealing with owesBake := (x.sealTile i r).owesBake } := by
  unfold Ctx.sealTile
  split <;> rfl

theorem Ctx.sealing_mset_same {x : Ctx} {i : Nat} {r r' : TileRec} (listed : mget x.tiles i = some r)
    (same : r'.sealing = r.sealing) : Ctx.sealing { x with tiles := mset x.tiles i r' } = x.sealing := by
  refine congrArg (Sealing.mk _ _ _) (funext fun j => ?_)
  dsimp only
  by_cases h : i = j
  · subst h
    rw [mget_mset_self, listed]
    exact same
  · rw [mget_mset_ne _ _ h]

/-- A trap writes of a tile only the state to which it returns. -/
theorem State.Reads.trap_sealing (h : State.Reads Ctx.sealing s₀ s) (c i : Nat) : State.Reads Ctx.sealing s₀ (s.trap c i) := by
  have set : State.Reads Ctx.sealing s₀ (s.modTile c i fun r => { r with ret := .trapped }) := by
    unfold State.modTile
    split
    · exact h
    · next r listed => exact h.modCtx (Ctx.sealing_mset_same listed rfl)
  exact .ite (fun _ => set) fun _ => set.of_eq rfl

/-- The state once the changes of class that wait for a seal have taken effect (R138). -/
def State.changedForSeal (s : State) (c : Nat) : State :=
  if (s.ctx c).regions.any (fun e => e.2.change.isSome) then (s.changeSeal c).shareRegions c else s.changeSeal c

theorem State.changedForSeal_none {c : Nat} (none : (s.ctx c).regions.any (fun e => e.2.change.isSome) = false) :
    s.changedForSeal c = s := by
  have waiting : (s.ctx c).regions.filter (fun e => e.2.change.isSome) = [] :=
    List.filter_eq_nil_iff.mpr (List.any_eq_false.mp none)
  unfold State.changedForSeal State.changeSeal
  rw [none, if_neg (by decide), waiting]
  rfl

/-- Bake `f` sealed after a step: the tiles' records have moved as they stood once the regions had changed (R294). -/
theorem State.sealBake_sealing (s : State) (c : Nat) (f : BitVec 32) (step : Word) (full : Bool) :
    ((s.sealBake c f step full).ctx c).sealing = ⟨f, step, none, fun i =>
      (((mget ((s.changedForSeal c).ctx c).tiles i).map (((s.changedForSeal c).ctx c).sealTile i)).getD {}).sealing⟩ := by
  unfold State.sealBake
  extract_lets changing changed shared x record covered files laid trapped marked shipped
  have laid' : (laid.ctx c).sealing.tile = fun i =>
      (((mget ((s.changedForSeal c).ctx c).tiles i).map (((s.changedForSeal c).ctx c).sealTile i)).getD {}).sealing := by
    unfold laid
    rw [State.modCtx_ctx_self]
    funext i
    exact congrArg (fun o : Option TileRec => (o.getD {}).sealing) (mget_mmap (shared.ctx c).tiles (shared.ctx c).sealTile i)
  have trapped' : State.Reads Ctx.sealing laid trapped :=
    (Reads.refl _ laid).each fun _ i h => .ite (fun _ => h.trap_sealing c i) fun _ => h
  have shipped' : (shipped.ctx c).sealing = ⟨f, step, none, (laid.ctx c).sealing.tile⟩ := by
    unfold shipped marked
    rw [State.modCtx_ctx_self, State.modCtx_ctx_self]
    exact congrArg (Sealing.mk f step none) (congrArg Sealing.tile (trapped'.ctx c))
  have told : State.Reads Ctx.sealing shipped ((shipped.shareBake c f).countCtx c 46) :=
    State.Reads.countCtx (.of_unkeyed_of (fun _ => rfl) (.refl _ shipped) (Unkeyed.shareRecord (Keeps.refl _ shipped) ..)) ..
  rw [(told.emit _ _ _ _).ctx, shipped', laid']

/-! ### BAKE_SEAL -/

theorem execBakeSeal_sealing {ctx : BitVec 4} {step : Word} (due : (s.ctx ctx.toNat).bake.due = some step)
    (running : s.running = true)
    (published : s.published? ctx.toNat step = true) (entries : s.holdEntries ctx.toNat = true)
    (started : (s.ctx ctx.toNat).stopped = false) (free : (s.ctx ctx.toNat).rst.holding = false)
    (none : (s.ctx ctx.toNat).bake.sealed = 0) :
    ∃ t, exec (.bakeSeal ctx) s = .next t ∧ (t.ctx ctx.toNat).sealing
      = ((s.sealBake ctx.toNat ((s.ctx ctx.toNat).bake.committed + 1) step (s.ctx ctx.toNat).bake.full).ctx ctx.toNat).sealing := by
  change ∃ t, execBakeSeal ctx s = .next t ∧ _
  unfold execBakeSeal
  dsimp only
  rw [due]
  dsimp only
  rw [running, published, entries, started, free, none, if_neg (by decide)]
  refine ⟨_, rfl, ?_⟩
  generalize s.sealBake ctx.toNat ((s.ctx ctx.toNat).bake.committed + 1) step (s.ctx ctx.toNat).bake.full = u
  refine (State.Reads.each (State.Reads.countCtx (State.Reads.modCtx (.refl _ u) ?_) _ _ _) fun _ _ h => h.finish _ _ _ _).ctx _
  rfl

section
variable {x : Ctx} {i : Nat} {r : TileRec} (h : r.sealing = (((mget x.tiles i).map (x.sealTile i)).getD {}).sealing)
include h

/-- After a seal a tile has no open record, its sealed ones are what its open ones were, and its self-erased mark has moved. -/
theorem Ctx.sealed_records : (r.o = none ∧ r.p = none ∧ r.erasedOpen = false) ∧ r.sb = ((mget x.tiles i).getD {}).o
    ∧ r.sp = ((mget x.tiles i).getD {}).p ∧ r.erasedSealed = ((mget x.tiles i).getD {}).erasedOpen := by
  have moved : ∃ b, r.sealing = { ((mget x.tiles i).getD {}).seal.sealing with owesBake := b } := by
    rw [h]
    cases mget x.tiles i with
    | none => exact ⟨_, rfl⟩
    | some q => exact ⟨_, x.sealTile_sealing i q⟩
  obtain ⟨b, moved⟩ := moved
  exact ⟨⟨congrArg TileRec.o moved, congrArg TileRec.p moved, congrArg TileRec.erasedOpen moved⟩, congrArg TileRec.sb moved,
    congrArg TileRec.sp moved, congrArg TileRec.erasedSealed moved⟩

/-- After a seal every listed snapshot tile owes a bake copy (R297). -/
theorem Ctx.sealed_owes (snapshot : x.cover i = .snapshot) (listed : (mget x.tiles i).isSome = true) : r.owesBake = true := by
  obtain ⟨q, found⟩ := Option.isSome_iff_exists.mp listed
  have owes : (x.sealTile i q).owesBake = true := by
    unfold Ctx.sealTile
    rw [snapshot]
    rfl
  rw [found] at h
  exact (congrArg TileRec.owesBake h).trans owes

end

end Sys2Proof.Machine
namespace Sys2Proof.Machine

variable {s s₀ t u : State}

/-! ### What is shipped -/

/-- What the drain writes of a context: the tiles to ship, the keepers that have their crumb, and the crumbs shipped to each. -/
structure Shipping where
  toShip : List Nat
  part : FMap (List Nat)
  shipped : FMap Nat

def Ctx.shipping (x : Ctx) : Shipping := ⟨x.bake.toShip, x.bake.part, x.bake.shipped⟩

theorem Ctx.blind_shipping : Ctx.Blind Ctx.shipping := ⟨fun _ _ => rfl, fun _ _ _ => rfl, fun _ _ _ _ _ _ => rfl⟩

/-- One more crumb shipped to a keeper. -/
def Shipping.counted (q : Shipping) (keeper : Nat) : Shipping :=
  { q with shipped := mset q.shipped keeper (mgetD q.shipped keeper 0 + 1) }
/-- A keeper noted as having its crumb of a tile. -/
def Shipping.noted (q : Shipping) (i keeper : Nat) : Shipping := { q with part := mset q.part i (mgetD q.part i [] ++ [keeper]) }
/-- A tile that is done. -/
def Shipping.left (q : Shipping) (i : Nat) : Shipping := { q with toShip := q.toShip.erase i, part := merase q.part i }

theorem State.shipDone_shipping (s : State) (c i : Nat) : ((s.shipDone c i).ctx c).shipping = (s.ctx c).shipping.left i := by
  unfold State.shipDone
  rw [State.modCtx_ctx_self]
  rfl

theorem State.shipOne_shipping (s : State) (c t : Nat) (b : BitVec 32) (i o : Nat) (d : BitVec 21) (body : List Byte)
    (keeper row : Nat) : ((s.shipOne c t b i o d body keeper row).ctx c).shipping = (s.ctx c).shipping.counted keeper := by
  unfold State.shipOne
  extract_lets x lvl sent counted
  have sent' : State.Reads Ctx.shipping s sent := (State.Reads.refl _ s).each fun _ _ h => h.issue Ctx.blind_shipping ..
  have served : State.Reads Ctx.shipping s (counted.serveTile c t .k body.length) :=
    ((sent'.countCtx c _ _).countCtx c _ _).of_kept ((Kept.refl _ _).serveTile (by decide) (by decide) ..)
  rw [State.modCtx_ctx_self]
  exact congrArg (fun q : Shipping => q.counted keeper) (served.ctx c)

/-- What `State.shipTo` does for one keeper `e.1` of crust row `e.2` (R252, R116); `x` is the context as the drain found it. -/
def State.shipKeeper (s : State) (c t : Nat) (x : Ctx) (b : BitVec 32) (i o : Nat) (d : BitVec 21) (body : List Byte)
    (aged every : Bool) (e : Nat × Nat) : State :=
  let had := mgetD (s.ctx c).bake.part t []
  let lvl := bit (x.rackHop e.1)
  let fits := s.fabricFits .k (s.peelFor (e.1 % 2)) lvl body.length aged
  if had.contains e.1 || !(every || fits.1) then s
  else
    let s := s.modCtx c (fun x => { x with bake := { x.bake with part := mset x.bake.part t (had ++ [e.1]) } })
    if (mget x.fences e.1).isSome then s
    else (s.chargeFabric .k lvl body.length fits.2).shipOne c t b i o d body e.1 e.2

theorem State.shipTo_eq {c t : Nat} {b : BitVec 32} {i o : Nat} (place : (s.ctx c).shipPlace t = some (b, i, o)) (k : Crumb)
    (erased every : Bool) : s.shipTo c t k erased every =
      let u := s.each ((s.ctx c).keepersOf b).zipIdx fun u e => u.shipKeeper c t (s.ctx c) b i o
        (k.desc ||| (if erased then 0x100000 else 0)) (packCrumb k.planes k.delta).1 (s.agedWork .k c none t) every e
      if ((s.ctx c).keepersOf b).all (fun q => (mgetD (u.ctx c).bake.part t []).contains q) then u.shipDone c t else u := by
  unfold State.shipTo
  dsimp only
  rw [place]
  rfl

section
variable {c t : Nat} {x : Ctx} {b : BitVec 32} {i o : Nat} {d : BitVec 21} {body : List Byte} {aged every : Bool} {e : Nat × Nat}

/-- A keeper that has its crumb is sent nothing. -/
theorem State.shipKeeper_had (had : e.1 ∈ mgetD (s.ctx c).bake.part t []) :
    s.shipKeeper c t x b i o d body aged every e = s := by
  unfold State.shipKeeper
  exact if_pos (by simp [had])

/-- A keeper that lacks its crumb, and for whom the fabric has room, is sent it once. -/
theorem State.shipKeeper_lacks (lacks : e.1 ∉ mgetD (s.ctx c).bake.part t []) (unfenced : mget x.fences e.1 = none)
    (fits : (s.fabricFits .k (s.peelFor (e.1 % 2)) (bit (x.rackHop e.1)) body.length aged).1 = true) :
    ((s.shipKeeper c t x b i o d body aged every e).ctx c).shipping = ((s.ctx c).shipping.noted t e.1).counted e.1 := by
  unfold State.shipKeeper
  extract_lets had lvl fits' noted
  have noted' : (noted.ctx c).shipping = (s.ctx c).shipping.noted t e.1 := by
    unfold noted
    rw [State.modCtx_ctx_self]
    rfl
  have charged : State.Reads Ctx.shipping noted (noted.chargeFabric .k lvl body.length fits'.2) :=
    (State.Reads.refl _ noted).of_kept ((Kept.refl _ noted).chargeFabric (by decide) (by decide) ..)
  rw [if_neg (by simp [had, lacks, fits', lvl, fits]), if_neg (by simp [unfenced]), State.shipOne_shipping, charged.ctx, noted']

/-- Keepers that have their crumbs are passed over. -/
theorem State.each_shipKeeper_had {l : List (Nat × Nat)} (had : ∀ e ∈ l, e.1 ∈ mgetD (s.ctx c).bake.part t []) :
    s.each l (fun u e => u.shipKeeper c t x b i o d body aged every e) = s := by
  unfold State.each
  induction l with
  | nil => rfl
  | cons e l ih =>
    rw [List.foldl_cons, State.shipKeeper_had (had e List.mem_cons_self)]
    exact ih fun e' h => had e' (List.mem_cons_of_mem _ h)

/-- Where one keeper alone lacks its crumb, it is that one which is sent it, wherever it stands among the keepers. -/
theorem State.each_shipKeeper_lacks {p : Nat} (lacks : p ∉ mgetD (s.ctx c).bake.part t []) (unfenced : mget x.fences p = none)
    (fits : (s.fabricFits .k (s.peelFor (p % 2)) (bit (x.rackHop p)) body.length aged).1 = true) {l : List (Nat × Nat)}
    (here : ∃ e ∈ l, e.1 = p) (others : ∀ e ∈ l, e.1 ≠ p → e.1 ∈ mgetD (s.ctx c).bake.part t []) :
    ((s.each l (fun u e => u.shipKeeper c t x b i o d body aged every e)).ctx c).shipping
      = ((s.ctx c).shipping.noted t p).counted p := by
  unfold State.each
  induction l with
  | nil => obtain ⟨_, h, _⟩ := here; cases h
  | cons e l ih =>
    rw [List.foldl_cons]
    by_cases found : e.1 = p
    · subst found
      have sent := State.shipKeeper_lacks (b := b) (i := i) (o := o) (d := d) (every := every) lacks unfenced fits
      have part : mgetD ((s.shipKeeper c t x b i o d body aged every e).ctx c).bake.part t []
          = mgetD (s.ctx c).bake.part t [] ++ [e.1] :=
        (congrArg (fun q : Shipping => mgetD q.part t []) sent).trans (mgetD_mset_self _ _ _ _)
      refine (congrArg (fun u : State => (u.ctx c).shipping) (State.each_shipKeeper_had fun e' h => ?_)).trans sent
      rw [part, List.mem_append, List.mem_singleton]
      exact (Decidable.em (e'.1 = e.1)).symm.imp (others e' (List.mem_cons_of_mem _ h)) id
    · rw [State.shipKeeper_had (others e List.mem_cons_self found)]
      refine ih ?_ fun e' h => others e' (List.mem_cons_of_mem _ h)
      obtain ⟨e', h, same⟩ := here
      exact ⟨e', (List.mem_cons.mp h).resolve_left (by rintro rfl; exact found same), same⟩

end

/-- A tile of which one keeper alone lacks the crumb: it is sent it, and the tile is done (R252). -/
theorem State.shipTo_last {c t : Nat} {b : BitVec 32} {i o p : Nat} {k : Crumb} {every : Bool}
    (place : (s.ctx c).shipPlace t = some (b, i, o)) (keeper : p ∈ (s.ctx c).keepersOf b)
    (others : ∀ q ∈ (s.ctx c).keepersOf b, q ≠ p → q ∈ mgetD (s.ctx c).bake.part t [])
    (lacks : p ∉ mgetD (s.ctx c).bake.part t []) (unfenced : mget (s.ctx c).fences p = none)
    (fits : (s.fabricFits .k (s.peelFor (p % 2)) (bit ((s.ctx c).rackHop p)) (packCrumb k.planes k.delta).1.length
      (s.agedWork .k c none t)).1 = true) (erased : Bool) :
    ((s.shipTo c t k erased every).ctx c).shipping = (((s.ctx c).shipping.noted t p).counted p).left t := by
  have among {e : Nat × Nat} (h : e ∈ ((s.ctx c).keepersOf b).zipIdx) : e.1 ∈ (s.ctx c).keepersOf b :=
    List.fst_mem_of_mem_zipIdx h
  have listed : ∃ e ∈ ((s.ctx c).keepersOf b).zipIdx, e.1 = p := by
    obtain ⟨n, at_⟩ := List.mem_iff_getElem?.mp keeper
    exact ⟨(p, n), List.mk_mem_zipIdx_iff_getElem?.mpr at_, rfl⟩
  rw [State.shipTo_eq place]
  extract_lets u
  have sent : (u.ctx c).shipping = ((s.ctx c).shipping.noted t p).counted p :=
    State.each_shipKeeper_lacks lacks unfenced fits listed fun e h => others _ (among h)
  have part : mgetD (u.ctx c).bake.part t [] = mgetD (s.ctx c).bake.part t [] ++ [p] :=
    (congrArg (fun q : Shipping => mgetD q.part t []) sent).trans (mgetD_mset_self _ _ _ _)
  have complete : ((s.ctx c).keepersOf b).all (fun q => (mgetD (u.ctx c).bake.part t []).contains q) = true := by
    rw [part, List.all_eq_true]
    intro q h
    rw [List.contains_iff_mem, List.mem_append, List.mem_singleton]
    exact (Decidable.em (q = p)).symm.imp (others q h) id
  rw [if_pos complete, State.shipDone_shipping, sent]

/-! ### CRUMB_DRAIN -/

/-- A tile that contributes a delta, and of which no pending record is sealed, ships its sealed base as it stands (R251, R252). -/
theorem execCrumbDrain_base {ctx : BitVec 4} {i : Nat} (running : s.running = true) (lock : s.frames.lock = true)
    (sealed : (s.ctx ctx.toNat).bake.sealed ≠ 0) (owed : (s.ctx ctx.toNat).bake.toShip.contains i = true)
    (ships : (s.ctx ctx.toNat).bake.stopShip = false) (granted : s.granted .k ctx.toNat none i = true)
    (built : (s.tile ctx.toNat i).unbuilt = false) (delta : (s.ctx ctx.toNat).cover i ≠ .snapshot)
    (part : (s.ctx ctx.toNat).bake.fullTiles.contains i = false) (whole : (s.tile ctx.toNat i).erasedSealed = false)
    (noPending : (s.tile ctx.toNat i).sp = none) :
    exec (.crumbDrain ctx i) s = .next (match (s.tile ctx.toNat i).sb with
      | none => s.free.2.shipDone ctx.toNat i
      | some k => s.free.2.shipTo ctx.toNat i k false false) := by
  change execCrumbDrain ctx i s = _
  unfold execCrumbDrain State.locked
  dsimp only
  rw [running, lock, decide_eq_false sealed, owed, ships, granted, if_neg (by decide), built, if_neg (by decide), part,
    if_neg (by simp [delta]), whole, if_neg (by decide), noPending]
  change (match (s.tile ctx.toNat i).sb with
    | none => _
    | some k => _) = _
  cases (s.tile ctx.toNat i).sb <;> rfl

end Sys2Proof.Machine
namespace Sys2Proof.Machine

variable {s s₀ t u : State}

theorem Ctx.blind_bake : Ctx.Blind Ctx.bake := ⟨fun _ _ => rfl, fun _ _ _ => rfl, fun _ _ _ _ _ _ => rfl⟩

/-! ### SEAL_NOTICE_SEND -/

/-- A keeper told of the sealed bake (R256). -/
def Bake.told (b : Bake) (keeper : Nat) : Bake := { b with noticed := b.noticed ++ [keeper] }

theorem execSealNoticeSend_due {ctx : BitVec 4} {k : BitVec 5} (running : s.running = true)
    (sealed : (s.ctx ctx.toNat).bake.sealed ≠ 0)
    (ships : (s.ctx ctx.toNat).bake.stopShip = false) (mine : (s.ctx ctx.toNat).myKeepers.contains k.toNat = true)
    (untold : (s.ctx ctx.toNat).bake.noticed.contains k.toNat = false) (shipped : s.shippedAll ctx.toNat k.toNat = true)
    (open_ : (s.ctx ctx.toNat).noticeBlocked k.toNat = false) (unfenced : mget (s.ctx ctx.toNat).fences k.toNat = none) :
    ∃ t, exec (.sealNoticeSend ctx k) s = .next t ∧ (t.ctx ctx.toNat).bake = (s.ctx ctx.toNat).bake.told k.toNat := by
  change ∃ t, execSealNoticeSend ctx k s = .next t ∧ _
  unfold execSealNoticeSend
  extract_lets c k' x noted
  rw [running, decide_eq_false sealed, ships, mine, untold, shipped, open_, unfenced, if_neg (by decide)]
  refine ⟨_, rfl, ((State.Reads.refl Ctx.bake noted).issue Ctx.blind_bake ..).ctx c |>.trans ?_⟩
  unfold noted
  rw [State.modCtx_ctx_self]
  rfl

/-! ### RACK_COMMIT -/

/-- SET of any counter, poisoned or written with chosen check bits as it may be (R422). -/
theorem State.setCtr_wrote (wf : mwf s.pctr = true) (k : Nat) (v : Word) : s.Wrote k v (s.setCtr k v) := by
  refine State.Wrote.wakeWaiters ⟨?_, State.setPc_pc_self wf k v, fun i hi => State.setPc_pc_ne v hi⟩
  simp

/-- The bake committed in the rack (R303). -/
def Bake.racked (b : Bake) : Bake := { b with rackDone := true }

theorem execRackCommit_reached {ctx : BitVec 4} {g : GroupCfg} (wf : mwf s.pctr = true)
    (group : (s.ctx ctx.toNat).group.cfg = some g)
    (live : s.live = true) (joined : (s.ctx ctx.toNat).group.joined = true) (root : (s.ctx ctx.toNat).own = g.root.toNat)
    (sealed : (s.ctx ctx.toNat).bake.sealed ≠ 0) (open_ : (s.ctx ctx.toNat).bake.rackDone = false)
    (sound : s.poison.contains g.bakeCtr.toNat = false) (reached : (s.ctx ctx.toNat).commitTotal ≤ (s.pc g.bakeCtr.toNat).toNat) :
    ∃ t, exec (.rackCommit ctx) s = .next t ∧ (t.ctx ctx.toNat).bake = (s.ctx ctx.toNat).bake.racked
      ∧ t.pc g.bakeCtr.toNat = 0 := by
  change ∃ t, execRackCommit ctx s = .next t ∧ _
  unfold execRackCommit
  extract_lets c x f
  rw [group]
  dsimp -zeta only
  extract_lets k noted
  rw [live, joined, decide_eq_false (not_not_intro root), decide_eq_false sealed, open_, sound,
    decide_eq_false (Nat.not_lt.mpr reached), if_neg (by decide)]
  refine ⟨_, rfl, ?_, ?_⟩
  · have counted : State.Reads Ctx.bake noted (noted.countCtx c 50) := (State.Reads.refl _ noted).countCtx ..
    have set : State.Reads Ctx.bake s (s.setCtr k 0) := (State.Reads.refl _ s).ctrOp Ctx.blind_bake ..
    rw [(counted.emit _ _ _ _).ctx]
    unfold noted
    rw [State.modCtx_ctx_self]
    exact congrArg Bake.racked (set.ctx c)
  · have later : Kept offCounters (s.setCtr k 0) ((noted.countCtx c 50).emit 0x0021 0 (some c)
        [(0, f.toNat), (4, 0), (8, ((mget x.bake.recs f.toNat).map (fun r => r.step.toNat)).getD 0)]) :=
      Kept.emit (Kept.countCtx (Kept.modCtx (Kept.refl _ _) (by decide) _ _) (by decide) _ _ _) (by decide) (by decide) _ _ _ _
    exact ((State.setCtr_wrote wf k 0).kept later).value

/-- Settles O42: a seal moves the tiles' records as they stand once the regions have changed; the drain leaves a tile whose last
keeper has its crumb; a notice and a commit each note one thing of the bake. -/
theorem sealDrainAndRackCommit : Obligations.SealDrainAndRackCommit := by
  intro s ctx c x
  refine ⟨fun step due running published entries started free none => ?_,
    fun i running lock sealed owed ships granted built delta part whole noPending => ?_,
    fun k running sealed ships mine untold shipped open_ unfenced => ?_,
    fun g wf group live joined root sealed open_ sound reached => ?_⟩
  · obtain ⟨t, next, taken⟩ := execBakeSeal_sealing due running published entries started free none
    rw [State.sealBake_sealing] at taken
    have tile (i : Nat) := congrFun (congrArg Sealing.tile taken) i
    refine ⟨t, next, congrArg Sealing.sealed taken, congrArg Sealing.last taken, congrArg Sealing.due taken,
      fun i => (Ctx.sealed_records (tile i)).1, fun unchanged i => ?_⟩
    have moved := tile i
    rw [State.changedForSeal_none unchanged] at moved
    obtain ⟨-, base, pending, erased⟩ := Ctx.sealed_records moved
    exact ⟨base, pending, erased, Ctx.sealed_owes moved⟩
  · have next := execCrumbDrain_base running lock sealed owed ships granted built delta part whole noPending
    refine ⟨fun bare => ?_, fun k b j o p base place keeper others lacks unfenced fits => ?_⟩
    · rw [bare] at next
      have left := s.free.2.shipDone_shipping c i
      exact ⟨_, next, congrArg Shipping.toShip left, congrArg Shipping.shipped left, rfl⟩
    · rw [base] at next
      have left := State.shipTo_last (s := s.free.2) (every := false) place keeper others lacks unfenced fits false
      exact ⟨_, next, congrArg Shipping.toShip left,
        (congrArg (fun q : Shipping => mgetD q.shipped p 0) left).trans (mgetD_mset_self _ _ _ _)⟩
  · obtain ⟨t, next, told⟩ := execSealNoticeSend_due running sealed ships mine untold shipped open_ unfenced
    exact ⟨t, next, congrArg Bake.noticed told, (congrArg Bake.shipped told :)⟩
  · obtain ⟨t, next, racked, zero⟩ := execRackCommit_reached wf group live joined root sealed open_ sound reached
    exact ⟨t, next, congrArg Bake.rackDone racked, zero, (congrArg Bake.sealed racked :)⟩

end Sys2Proof.Machine
namespace Sys2Proof.Machine

variable {s s₀ t u : State}

/-! ### What a move between the tiers writes -/

/-- What a move of a tile writes of a context: the moves in progress, and the tile's mark; with the tile's home. -/
structure Moving where
  jobs : FMap KneadJob
  slice : Nat
  stack : Nat
  busy : Bool

def Ctx.moving (i : Nat) (x : Ctx) : Moving :=
  let r := (mget x.tiles i).getD {}
  ⟨x.knead.jobs, r.slice, r.stack, r.busy⟩

/-- A tile's move noted in place of what stood for it. -/
def Moving.noted (q : Moving) (i : Nat) (j : KneadJob) : Moving := { q with jobs := mset q.jobs i j }
/-- The tile marked as busy. -/
def Moving.marked (q : Moving) : Moving := { q with busy := true }

section
variable {c i : Nat}

theorem State.Reads.issue_moving (h : State.Reads (Ctx.moving i) s₀ s) (c : Nat) (w : Cls) (typ dst : Nat) (body : List (Nat × Nat))
    (pl : List Byte) (why : Why) : State.Reads (Ctx.moving i) s₀ (s.issue c w typ dst body pl why) :=
  h.of_unkeyed_of (fun _ => rfl) (Unkeyed.issue (Keeps.refl _ s) ..)

theorem State.setJob_moving (j : KneadJob) : ((s.setJob c i (some j)).ctx c).moving i = ((s.ctx c).moving i).noted i j := by
  unfold State.setJob
  rw [State.modCtx_ctx_self]
  rfl

theorem State.busy_moving (listed : (s.tile? c i).isSome = true) :
    ((s.modTile c i fun r => { r with busy := true }).ctx c).moving i = ((s.ctx c).moving i).marked := by
  obtain ⟨r, found⟩ := Option.isSome_iff_exists.mp listed
  have here : mget (s.ctx c).tiles i = some r := found
  unfold State.modTile
  rw [found]
  dsimp only
  rw [State.modCtx_ctx_self]
  unfold Ctx.moving
  dsimp only
  rw [mget_mset_self, here]
  rfl

end

/-! ### KNEAD_IDLE_DEMOTE -/

section
variable {ctx : BitVec 4} {i : Nat} (running : s.running = true) (kneads : s.hasKnead = true)
  (window : (s.ctx ctx.toNat).knead.size ≠ 0)
include running kneads window

section
variable (policy : (s.ctx ctx.toNat).knead.idleLog ≠ 0) (listed : (s.tile? ctx.toNat i).isSome = true)
  (movable : s.kneadable ctx.toNat i = true) (home : s.atHome ctx.toNat i = true)
include policy listed movable home

/-- A tile at home becomes a candidate by its frames of idleness alone (R384). -/
theorem execKneadIdleDemote_home : exec (.kneadIdleDemote ctx i) s
    = .next (if 2 ^ (s.ctx ctx.toNat).knead.idleLog ≤ (s.tile ctx.toNat i).idle.toNat
      then s.setJob ctx.toNat i (some { kind := 0, cause := 2 }) else s) := by
  change execKneadIdleDemote ctx i s = _
  unfold execKneadIdleDemote
  dsimp only
  rw [running, kneads, decide_eq_true window, decide_eq_true policy, listed, movable, home]
  simp only [Bool.true_and, Bool.and_true, decide_eq_true_eq]
  exact (apply_ite Host.Outcome.next _ _ _).symm

end

/-! ### DEMOTION -/

section
variable (lock : s.frames.lock = true) (listed : (s.tile? ctx.toNat i).isSome = true) (movable : s.kneadable ctx.toNat i = true)
include lock listed movable

/-- A tile pinned to tier 1 is asked for (R383). -/
theorem execDemotion_pinned (idle : mget (s.ctx ctx.toNat).knead.jobs i = none) (pinned : (s.tile ctx.toNat i).pin1 = true)
    (home : s.atHome ctx.toNat i = true) :
    exec (.demotion ctx i) s = .next (s.setJob ctx.toNat i (some { kind := 0, cause := 1 })) := by
  have none : (s.ctx ctx.toNat).job? i = none := idle
  have present : (s.tile? ctx.toNat i).isNone = false := by rw [← Option.not_isSome, listed]; rfl
  change execDemotion ctx i s = _
  unfold execDemotion State.locked
  dsimp only
  rw [running, lock, kneads, decide_eq_false window, present, if_neg (by decide), none]
  dsimp only
  rw [pinned, movable, home, if_pos (by decide)]

/-- A demotion that is asked for and granted starts (R379). -/
theorem execDemotion_granted {j : KneadJob} (asked : mget (s.ctx ctx.toNat).knead.jobs i = some j) (demotes : j.kind = 0)
    (queued : j.stage = 0) (near : (s.tile ctx.toNat i).tier1 = false)
    (free : (s.slice (s.tile ctx.toNat i).slice).state (s.tile ctx.toNat i).stack ≠ .held)
    (granted : s.granted (s.moveClass ctx.toNat j) ctx.toNat j.tag i = true) :
    exec (.demotion ctx i) s = .next (s.startDemotion ctx.toNat i j) := by
  have job : (s.ctx ctx.toNat).job? i = some j := asked
  have present : (s.tile? ctx.toNat i).isNone = false := by rw [← Option.not_isSome, listed]; rfl
  change execDemotion ctx i s = _
  unfold execDemotion State.locked
  dsimp only
  rw [running, lock, kneads, decide_eq_false window, present, if_neg (by decide), job]
  dsimp only
  rw [if_neg (by simp [demotes, queued]), if_neg (by simp [movable, near]), if_neg (by simp [free, granted])]

end
end

/-- Work that a slice serves for a tile ends no hold. -/
theorem State.serveTile_holds (s : State) (c t : Nat) (w : Cls) (n k : Nat) :
    ((s.serveTile c t w n).slice k).holds = (s.slice k).holds := by
  unfold State.serveTile State.serve
  generalize (s.tile c t).slice = i
  have counted : (s.countSlice i (20 + w.idx) n).slice k = s.slice k := State.slice_of_slices (State.countSlice_slices ..) k
  by_cases h : i = k
  · subst h
    rw [State.modSlice_slice_self, ← counted]
  · rw [State.modSlice_slice_ne _ _ h, counted]

/-- A tile held as moving is held for that, whatever it was held for (R74). -/
theorem State.holdTile_heldFor (s : State) (c i : Nat) :
    ((s.holdTile c i .moving).slice (s.tile c i).slice).heldFor (s.tile c i).stack .moving = true := by
  unfold State.holdTile State.hold
  rw [State.modSlice_slice_self]
  unfold Slice.hold Slice.heldFor
  rw [mgetD_mset_self]
  simp [HoldWhy.bit]

theorem State.setJob_slices (s : State) (c i : Nat) (j : Option KneadJob) : (s.setJob c i j).slices = s.slices := rfl

theorem State.tile_of_ctxs (h : t.ctxs = s.ctxs) (c i : Nat) : t.tile c i = s.tile c i :=
  congrArg (fun o : Option TileRec => o.getD {}) (State.tile?_congr h c i)

/-- Granules that a demoted tile's extent takes (R378). -/
def State.demotionSpan (s : State) (c i : Nat) : Nat :=
  ceilDiv (64 + (packCrumb ((s.ctx c).planesAt i) (s.homeVal c i)).1.length) 4096

/-- The stores of an extent write no hold and of the tile's context only keys. -/
theorem State.storeExtent_keeps {β : Type} (s : State) (c i : Nat) (l : List β) (w : State → Cls) (body : β → List (Nat × Nat))
    (pl : β → List Byte) :
    State.Reads (Ctx.moving i) s ((s.each l fun s q => s.issue c (w s) 2 0 (body q) (pl q) (.demote i)).countGranules c)
      ∧ ((s.each l fun s q => s.issue c (w s) 2 0 (body q) (pl q) (.demote i)).countGranules c).slices = s.slices := by
  have stored : Kept (· ≠ .slices) s (s.each l fun s q => s.issue c (w s) 2 0 (body q) (pl q) (.demote i)) :=
    (Kept.refl _ s).each fun _ _ h => h.issue (by decide) (by decide) (by decide) (by decide) ..
  exact ⟨((State.Reads.refl _ s).each fun _ _ h => h.issue_moving ..).of_kept ((Kept.refl _ _).countGranules (by decide) c),
    (stored.countGranules (by decide) c).same .slices (by decide)⟩

/-- A demotion for which there are granules and fabric: the tile is held and busy until its extent is stored (R379). -/
theorem State.startDemotion_starts {c i : Nat} {j : KneadJob} (listed : (s.tile? c i).isSome = true)
    (fits : (s.fabricFits (s.moveClass c j) (s.peelFor 0) 1 (4096 * s.demotionSpan c i)
      (s.agedWork (s.moveClass c j) c j.tag i)).1 = true)
    (room : ((s.ctx c).allocate (s.demotionSpan c i)).isSome = true) :
    ∃ n w, ((s.startDemotion c i j).ctx c).moving i
        = ((s.ctx c).moving i).marked.noted i { j with stage := 1, left := n, entry := w }
      ∧ ((s.startDemotion c i j).slice (s.tile c i).slice).heldFor (s.tile c i).stack .moving = true := by
  obtain ⟨g, found⟩ := Option.isSome_iff_exists.mp room
  unfold State.startDemotion
  extract_lets v p body span n fits' l held busy
  rw [if_neg (show ¬(!fits'.1) = true from (congrArg (fun b => ¬(!b) = true) fits).mpr (by decide)),
    show (s.ctx c).allocate span = some g from found]
  dsimp -zeta only
  extract_lets e noted k
  have charged : Kept (· ≠ .ctxs) s (s.chargeFabric (s.moveClass c j) 1 n fits'.2) :=
    (Kept.refl _ s).chargeFabric (by decide) (by decide) ..
  have held' : held.ctxs = s.ctxs := (charged.holdTile (by decide) c i .moving).same .ctxs (by decide)
  have isHeld : (held.slice (s.tile c i).slice).heldFor (s.tile c i).stack .moving = true := by
    rw [← State.tile_of_ctxs (charged.same .ctxs (by decide)) c i]
    exact State.holdTile_heldFor _ c i
  have busy' : (busy.ctx c).moving i = ((s.ctx c).moving i).marked := by
    rw [← State.ctx_of_ctxs held' c]
    exact State.busy_moving (by rw [State.tile?_congr held', listed])
  have served : State.Reads (Ctx.moving i) busy (busy.serveTile c i (busy.moveClass c j)) :=
    (State.Reads.refl _ busy).of_kept ((Kept.refl _ busy).serveTile (by decide) (by decide) ..)
  have noted' : (noted.ctx c).moving i = ((s.ctx c).moving i).marked.noted i { j with stage := 1, left := l.length, entry := e } := by
    rw [← busy', ← served.ctx]
    exact State.setJob_moving _
  have holds (k : Nat) : (noted.slice k).holds = (held.slice k).holds := by
    rw [State.slice_of_slices (State.setJob_slices ..), State.serveTile_holds, State.slice_of_slices (State.modTile_slices ..)]
  obtain ⟨reads, slices⟩ := State.storeExtent_keeps noted c i l (fun u => u.moveClass c j) (fun q => [(8, k.granule (g + q.2))])
    fun q => padTo 4096 q.1
  refine ⟨l.length, e, ?_, ?_⟩
  · exact (reads.ctx c).trans noted'
  · unfold Slice.heldFor at isHeld ⊢
    rw [State.slice_of_slices slices, holds, isHeld]

/-! ### PROMOTION -/

/-- The loads of an extent write of the tile's context only keys. -/
theorem State.loadExtent_moving (s : State) (c i k : Nat) (w : Cls) : State.Reads (Ctx.moving i) s (s.loadExtent c k w) :=
  (State.Reads.refl _ s).each fun _ _ h => h.issue_moving ..

/-- A promotion whose extent is being loaded (R380). -/
def KneadJob.loading (j : KneadJob) (dir : Word) : KneadJob :=
  { j with stage := 1, left := deSpan dir, entry := dir, bad := false, got := [] }

/-- The state with a promotion's load noted and its tile marked. -/
def State.promotionNoted (s : State) (c i : Nat) (j : KneadJob) : State :=
  (s.setJob c i (some (j.loading (s.tile c i).dir))).modTile c i fun r => { r with busy := true }

/-- A promotion that is asked for and granted begins to load its extent (R380). -/
theorem execPromotion_granted {ctx : BitVec 4} {i : Nat} {j : KneadJob} (running : s.running = true) (lock : s.frames.lock = true)
    (asked : mget (s.ctx ctx.toNat).knead.jobs i = some j) (promotes : j.kind = 1) (queued : j.stage = 0)
    (far : (s.tile ctx.toNat i).tier1 = true) (granted : s.granted (s.moveClass ctx.toNat j) ctx.toNat j.tag i = true) :
    ∃ w, exec (.promotion ctx i) s = .next ((s.promotionNoted ctx.toNat i j).loadExtent ctx.toNat i w) := by
  have job : (s.ctx ctx.toNat).job? i = some j := asked
  refine ⟨(s.setJob ctx.toNat i (some (j.loading (s.tile ctx.toNat i).dir))).moveClass ctx.toNat j, ?_⟩
  change execPromotion ctx i s = _
  unfold execPromotion State.locked
  dsimp only
  rw [running, lock, if_neg (by decide), job]
  dsimp only
  rw [if_neg (by simp [promotes, queued, far, granted])]
  rfl

theorem State.promotionNoted_moving {c i : Nat} {j : KneadJob} (far : (s.tile c i).tier1 = true) :
    ((s.promotionNoted c i j).ctx c).moving i = (((s.ctx c).moving i).noted i (j.loading (s.tile c i).dir)).marked := by
  have listed : (s.tile? c i).isSome = true := by
    unfold State.tile at far
    cases found : s.tile? c i with
    | none => rw [found] at far; cases far
    | some r => rfl
  have standing : ((s.setJob c i (some (j.loading (s.tile c i).dir))).tile? c i).isSome = true := by
    unfold State.setJob State.tile?
    rw [State.modCtx_ctx_self]
    exact listed
  unfold State.promotionNoted
  rw [State.busy_moving standing, State.setJob_moving]

/-! ### BACKGROUND_FOLD -/

/-- A record takes in what is added to it, be it that nothing is left of the two. -/
theorem deltaOf_addRec (old : Option Crumb) (d : Tile) (planes : BitVec 2) (line : BitVec 32) :
    deltaOf (addRec old d planes line) = deltaOf old ^^^ d := by
  unfold addRec
  dsimp only
  split
  · next none => exact none.symm
  · rfl

/-- A fold leaves no pending record and the same open delta (R250). -/
theorem TileRec.fold_open (r : TileRec) (line : BitVec 32) : (r.fold line).p = none ∧ (r.fold line).openDelta = r.openDelta := by
  unfold TileRec.fold
  cases pending : r.p with
  | none => exact ⟨pending, rfl⟩
  | some q =>
    refine ⟨rfl, ?_⟩
    unfold TileRec.openDelta
    rw [deltaOf_addRec, pending]
    exact BitVec.xor_zero

/-- A count writes the word of its context that it names, and no other. -/
theorem State.countCtx_ctxCtr (s : State) (c k : Nat) :
    mgetD (s.countCtx c k).ctxCtr (c * 184 + k) 0 = mgetD s.ctxCtr (c * 184 + k) 0 + 1 :=
  mgetD_mset_self ..

theorem State.countCtx_ctxCtr_ne (s : State) (c : Nat) {k j : Nat} (h : k ≠ j) :
    mgetD (s.countCtx c k).ctxCtr (c * 184 + j) 0 = mgetD s.ctxCtr (c * 184 + j) 0 :=
  mgetD_mset_ne _ _ _ (by omega)

/-- A record that is put in place counts no fold. -/
theorem State.putRec_folds (s : State) (c i : Nat) (upd : TileRec → TileRec) :
    mgetD (s.putRec c i upd).ctxCtr (c * 184 + 26) 0 = mgetD s.ctxCtr (c * 184 + 26) 0 := by
  unfold State.putRec
  extract_lets j put
  have put' : Kept (· ≠ .ctxCtr) s put := ((Kept.refl _ s).modTile (by decide) ..).modSlice (by decide) ..
  have pressed : mgetD (put.press c j).ctxCtr (c * 184 + 26) 0 = mgetD put.ctxCtr (c * 184 + 26) 0 := by
    unfold State.press
    split
    · extract_lets seals
      have told : Kept (· ≠ .ctxCtr) (seals.countCtx c 39) ((seals.countCtx c 39).pressureEvent c j 0) :=
        (Kept.refl _ _).pressureEvent (by decide) (by decide) ..
      rw [told.same .ctxCtr (by decide), State.countCtx_ctxCtr_ne _ _ (by decide)]
      rfl
    · rfl
  have relieved : Kept (· ≠ .ctxCtr) (put.press c j) ((put.press c j).relieve c j) := (Kept.refl _ _).relieve (by decide) ..
  rw [relieved.same .ctxCtr (by decide), pressed, put'.same .ctxCtr (by decide)]

/-- The record of a tile that an update is put in place for. -/
theorem State.putRec_tile {c i : Nat} {r : TileRec} (listed : s.tile? c i = some r) (upd : TileRec → TileRec) :
    (s.putRec c i upd).tile? c i = some (upd r) := by
  unfold State.putRec
  extract_lets j put
  have judged : Kept (· ≠ .ctxs) put ((put.press c j).relieve c j) :=
    ((Kept.refl _ put).press (by decide) (by decide) (by decide) (by decide) ..).relieve (by decide) ..
  rw [State.tile?_congr (judged.same .ctxs (by decide))]
  exact State.modTile_tile? listed upd

/-- A pending record without a fresh one folds into the base where the folded record fits (R250, R262). -/
theorem execBackgroundFold_fits {ctx : BitVec 4} {i : Nat} (running : s.running = true) (lock : s.frames.lock = true)
    (pending : (s.tile ctx.toNat i).p.isSome = true) (stale : (s.tile ctx.toNat i).f = none)
    (fits : ∀ line, s.fits ctx.toNat i (fun r => r.fold line) = true) :
    ∃ line, exec (.backgroundFold ctx i) s
      = .next ((s.free.2.putRec ctx.toNat i fun r => r.fold line).countCtx ctx.toNat 26) := by
  have present : (s.tile ctx.toNat i).p.isNone = false := by rw [← Option.not_isSome, pending]; rfl
  have room : s.free.2.makeRoom ctx.toNat i (fun r => r.fold s.free.1) = some s.free.2 := if_pos (fits s.free.1)
  refine ⟨s.free.1, ?_⟩
  change execBackgroundFold ctx i s = _
  unfold execBackgroundFold State.locked
  dsimp only
  rw [running, lock, present, stale, if_neg (by decide), room]

/-- Settles O59: each move is asked for, starts or begins to load by its own lemma, and a fold moves a pending record into the
base. -/
theorem tilesMoveBetweenTiersAndFold : Obligations.TilesMoveBetweenTiersAndFold := by
  intro s ctx i c k
  refine ⟨fun running kneads window policy listed movable home => ?_, fun running lock kneads window listed movable => ?_,
    fun j running lock asked promotes queued far granted => ?_, fun running lock pending stale fits => ?_⟩
  · have next := execKneadIdleDemote_home running kneads window policy listed movable home
    exact ⟨fun idle => next.trans (congrArg _ (if_pos idle)), fun used => next.trans (congrArg _ (if_neg (Nat.not_le.mpr used)))⟩
  · refine ⟨execDemotion_pinned running kneads window lock listed movable, fun j asked demotes queued near free granted => ?_⟩
    intro n fits room
    obtain ⟨left, entry, moving, held⟩ := State.startDemotion_starts listed fits room
    refine ⟨_, _, execDemotion_granted running kneads window lock listed movable asked demotes queued near free granted,
      congrArg Moving.busy moving, ?_, (congrArg (fun q : Moving => mget q.jobs i) moving).trans (mget_mset_self _ _ _),
      demotes, rfl, ?_⟩
    · have slice : ((s.startDemotion c i j).tile c i).slice = (s.tile c i).slice := congrArg Moving.slice moving
      have stack : ((s.startDemotion c i j).tile c i).stack = (s.tile c i).stack := congrArg Moving.stack moving
      unfold State.heldFor
      rw [slice, stack]
      exact held
    · have kept : Kept (· ≠ .mem) s (s.startDemotion c i j) := by apply (Kept.refl _ s).startDemotion <;> decide
      exact kept.same .mem (by decide)
  · obtain ⟨w, next⟩ := execPromotion_granted running lock asked promotes queued far granted
    have moving := ((s.promotionNoted c i j).loadExtent_moving c i i w).ctx c
    rw [State.promotionNoted_moving far] at moving
    exact ⟨_, next, congrArg Moving.busy moving, (congrArg (fun q : Moving => mget q.jobs i) moving).trans (mget_mset_self _ _ _)⟩
  · obtain ⟨line, next⟩ := execBackgroundFold_fits running lock pending stale fits
    have listed : s.free.2.tile? c i = some (s.tile c i) := by
      unfold State.tile at pending ⊢
      cases found : s.tile? c i with
      | none => rw [found] at pending; cases pending
      | some r => exact found
    have folded : ((s.free.2.putRec c i fun r => r.fold line).countCtx c 26).tile c i = (s.tile c i).fold line := by
      rw [State.tile_of_ctxs (State.countCtx_ctxs ..), State.tile_eq (State.putRec_tile listed _)]
    obtain ⟨none, same⟩ := (s.tile c i).fold_open line
    refine ⟨_, next, by rw [folded, none], by rw [folded, same], ?_⟩
    rw [Nat.mul_comm, State.countCtx_ctxCtr, State.putRec_folds]
    rfl

end Sys2Proof.Machine
namespace Sys2Proof.Machine

variable {s s₀ t : State} {peel : Nat} {x : Xfer}

/-! ### What the checks of a transfer give -/

/-- A transfer that has passed its checks leaves everything as it was but counters and the fabric's note of it. -/
theorem State.arrived_beside (h : (s.admitXfer peel x).2 = true) : ∃ e f, s.arrived peel x = { s with engCtr := e, fab := f } := by
  have counted (u : State) (w n : Nat) : ∃ e, u.count w n = { u with engCtr := e } := by
    unfold State.count
    split
    · exact ⟨_, rfl⟩
    · exact ⟨_, rfl⟩
  obtain ⟨e, first⟩ := counted s (32 + 24 * peel + 2) 1
  obtain ⟨e', second⟩ := counted { s with engCtr := e } (32 + 24 * peel + 5) x.payload.length
  refine ⟨e', { s.fab with rxNow := true }, ?_⟩
  rw [State.arrived_eq h]
  unfold State.countPeel
  rw [first, second]

/-- A transfer that passes has the form of its type (Table 15.4, checks 1 and 2). -/
theorem State.admitXfer_form (h : (s.admitXfer peel x).2 = true) :
    x.payload.length = 256 * x.units ∧ x.units ≤ 16 ∧ formOk x = true := by
  unfold State.admitXfer at h
  dsimp only at h
  by_cases framed : x.payload.length ≠ 256 * x.units ∨ x.units > 16
  · rw [if_pos framed] at h
    cases h
  · rw [if_neg framed] at h
    cases formed : formOk x with
    | false =>
      rw [formed, if_pos (by decide)] at h
      cases h
    | true => exact ⟨by omega, by omega, rfl⟩

/-- A field of a header that carries no bit beside a mask is at most that field of the mask. -/
theorem fld_le_of_mask {n m : Nat} {v : BitVec n} (h : v.toNat &&& m = v.toNat) (lo w : Nat) : fld v lo w ≤ (m >>> lo) % 2 ^ w := by
  unfold fld
  rw [← h, Nat.shiftRight_and_distrib, Nat.and_mod_two_pow]
  exact Nat.and_le_right

/-- A CRUMB's bytes +16 to +18 are its row, slot and offset (Table 15.2). -/
theorem headerMask_crumb : (headerMask 0x10 false >>> 128) % 2 ^ 24 = 0x1F1F03 := by decide +kernel

theorem headerMask_crumb_bytes : (headerMask 0x10 false >>> 128) % 2 ^ 8 = 3 ∧ (headerMask 0x10 false >>> 136) % 2 ^ 8 = 31
    ∧ (headerMask 0x10 false >>> 144) % 2 ^ 8 = 31 := by
  have bytes := headerMask_crumb
  rw [Nat.shiftRight_add _ 128 8, Nat.shiftRight_add _ 128 16]
  generalize headerMask 0x10 false >>> 128 = m at bytes ⊢
  simp only [Nat.shiftRight_eq_div_pow]
  omega

/-- The row, the slot and the offset of a CRUMB that passes fit their fields (Table 15.2). -/
theorem State.Serves.crumb_ranges (h : s.Serves 0x10 peel x) : x.num 16 1 < 4 ∧ x.num 17 1 < 32 ∧ x.num 18 1 < 32 := by
  obtain ⟨-, -, formed⟩ := State.admitXfer_form h.passes
  have masked : x.hdr.toNat &&& headerMask 0x10 false = x.hdr.toNat := by
    unfold formOk at formed
    rw [h.typ, h.request] at formed
    simp only [Bool.and_eq_true, decide_eq_true_eq] at formed
    exact formed.1.2
  obtain ⟨row, slot, offset⟩ := headerMask_crumb_bytes
  exact ⟨Nat.lt_succ_of_le ((fld_le_of_mask masked 128 8).trans row.le),
    Nat.lt_succ_of_le ((fld_le_of_mask masked 136 8).trans slot.le),
    Nat.lt_succ_of_le ((fld_le_of_mask masked 144 8).trans offset.le)⟩

/-! ### A crumb that comes whole in one piece -/

theorem chunks_length {α : Type} {n : Nat} (pos : 0 < n) {k fuel : Nat} (enough : k ≤ fuel) {l : List α} (h : l.length = n * k) :
    (chunks n fuel l).length = k := by
  induction k generalizing fuel l with
  | zero =>
    cases List.eq_nil_of_length_eq_zero h
    cases fuel <;> rfl
  | succ k ih =>
    cases fuel with
    | zero => omega
    | succ fuel =>
      cases l with
      | nil => exact absurd h.symm (Nat.mul_ne_zero pos.ne' k.succ_ne_zero)
      | cons a l =>
        have rest : ((a :: l).drop n).length = n * k := by rw [List.length_drop, h, Nat.mul_succ, Nat.add_sub_cancel]
        exact congrArg Nat.succ (ih (Nat.le_of_succ_le_succ enough) rest)

/-- Pieces laid one after another in a table are there. -/
theorem mget_foldl_zipIdx {α : Type} (a : Nat) (l : List α) (k : Nat) (m : FMap α) (i : Nat)
    (h : (mget m i).isSome = true ∨ a + k ≤ i ∧ i < a + k + l.length) :
    (mget ((l.zipIdx k).foldl (fun m e => mset m (a + e.2) e.1) m) i).isSome = true := by
  induction l generalizing k m with
  | nil => exact h.resolve_right fun h => by simp at h; omega
  | cons v l ih =>
    rw [List.zipIdx_cons, List.foldl_cons]
    apply ih
    by_cases here : a + k = i
    · exact .inl (by rw [here, mget_mset_self]; rfl)
    · rw [mget_mset_ne _ _ here]
      exact h.imp id fun h => by rw [List.length_cons] at h; omega

/-- A landing with a piece laid in it from unit `at_` on (R253). -/
def Landing.received (l : Landing) (at_ : Nat) (payload : List Byte) : Landing :=
  { l with got := (chunks 256 16 payload).zipIdx.foldl (fun m e => mset m (at_ + e.2) e.1) l.got }

/-- A piece from unit 0 on that reaches the crumb's length makes its landing whole. -/
theorem Landing.received_whole {l : Landing} {payload : List Byte} {n : Nat} (most : n ≤ 16) (size : payload.length = 256 * n)
    (fits : descLen l.desc ≤ 256 * n) : (l.received 0 payload).whole = true := by
  unfold Landing.whole
  rw [List.all_eq_true]
  intro i hi
  have below : i < ceilDiv (descLen l.desc) 256 := List.mem_range.mp hi
  unfold ceilDiv at below
  refine mget_foldl_zipIdx 0 _ 0 _ i (.inr ⟨Nat.zero_le i, ?_⟩)
  rw [chunks_length (by decide) most size]
  omega

/-- The landings of the crumb that `l` is a landing of. -/
def Landing.name (l : Landing) : Landing → Bool := Landing.isFor l.ctx.toNat l.batch l.row.toNat l.slot.toNat l.offset.toNat

/-- The landing of a crumb of which nothing has come yet. -/
def Landing.of (x : Xfer) : Landing :=
  { ctx := BitVec.ofNat 4 x.ctx, batch := x.batch, row := BitVec.ofNat 2 (x.num 16 1), slot := BitVec.ofNat 5 (x.num 17 1),
    offset := BitVec.ofNat 5 (x.num 18 1), src := BitVec.ofNat 5 x.src, bake := BitVec.ofNat 32 (x.num 12 4),
    desc := BitVec.ofNat 21 (x.num 20 3) }

theorem Landing.of_ctx (x : Xfer) : (Landing.of x).ctx.toNat = x.ctx :=
  (BitVec.toNat_ofNat ..).trans (Nat.mod_eq_of_lt (Nat.mod_lt _ (Nat.two_pow_pos _)))
theorem Landing.of_src (x : Xfer) : (Landing.of x).src.toNat = x.src :=
  (BitVec.toNat_ofNat ..).trans (Nat.mod_eq_of_lt (Nat.mod_lt _ (Nat.two_pow_pos _)))

/-- The name of a crumb's landing is the crumb's. -/
theorem State.Serves.landing_name (h : s.Serves 0x10 peel x) :
    (Landing.of x).name
      = Landing.isFor x.ctx x.batch (x.num 16 1) (x.num 17 1) (x.num 18 1) := by
  obtain ⟨row, slot, offset⟩ := h.crumb_ranges
  unfold Landing.name
  rw [Landing.of_ctx]
  unfold Landing.of
  simp only [BitVec.toNat_ofNat, Nat.mod_eq_of_lt (show x.num 16 1 < 2 ^ 2 from row),
    Nat.mod_eq_of_lt (show x.num 17 1 < 2 ^ 5 from slot), Nat.mod_eq_of_lt (show x.num 18 1 < 2 ^ 5 from offset)]

theorem Landing.name_self (l : Landing) : l.name l = true := by
  unfold Landing.name Landing.isFor
  simp only [beq_self_eq_true, Bool.and_self]

end Sys2Proof.Machine
namespace Sys2Proof.Machine

variable {s s₀ t : State} {peel : Nat} {x : Xfer}

/-! ### What a keeper gathers for the bake it forms -/

/-- The group, the crumbs applied by source, the notices received, and the frame of the first of these. -/
structure Gathered where
  cfg : Option GroupCfg
  applied : FMap Nat
  notices : FMap (BitVec 32)
  first : Option (BitVec 32)

def Ctx.gathered (x : Ctx) : Gathered := ⟨x.group.cfg, x.group.applied, x.group.notices, x.group.firstNotice⟩

theorem Ctx.blind_gathered : Ctx.Blind Ctx.gathered := ⟨fun _ _ => rfl, fun _ _ _ => rfl, fun _ _ _ _ _ _ => rfl⟩

/-- A commit of batches forgets nothing that was gathered. -/
theorem State.commitReady_gathered (s : State) (c : Nat) : State.Reads Ctx.gathered s (s.commitReady c) := by
  unfold State.commitReady
  extract_lets y
  split
  · exact .refl _ s
  · next g _ =>
    extract_lets go crusted committed z raised
    have crusted' : State.Reads Ctx.gathered s crusted :=
      (State.Reads.refl _ s).each fun _ _ h => (h.modCtx rfl).countCtx ..
    clear_value crusted
    have committed' : State.Reads Ctx.gathered s committed := crusted'.modCtx rfl
    have raised' : State.Reads Ctx.gathered s raised := by
      unfold raised
      clear_value committed
      exact committed'.modCtx rfl
    refine .ite (fun _ => committed') fun _ => ?_
    split
    · exact .ite (fun _ => raised'.emit ..) fun _ => raised'
    · exact raised'

/-- One crumb more applied from a source. -/
def Gathered.counted (q : Gathered) (src : Nat) : Gathered := { q with applied := mset q.applied src (mgetD q.applied src 0 + 1) }

/-- A whole crumb that is applied counts once for its source (R256). -/
theorem State.applyCrumb_gathered {l : Landing} (group : (s.ctx l.ctx.toNat).group.cfg.isSome = true) :
    ((s.applyCrumb l).ctx l.ctx.toNat).gathered = (s.ctx l.ctx.toNat).gathered.counted l.src.toNat := by
  obtain ⟨g, found⟩ := Option.isSome_iff_exists.mp group
  unfold State.applyCrumb
  extract_lets c o put
  rw [found]
  dsimp -zeta only
  extract_lets p r crust crusted served counted applied
  have crusted' : State.Reads Ctx.gathered s crusted := (State.Reads.refl _ s).modCtx rfl
  have served' : State.Reads Ctx.gathered s served := crusted'.of_kept ((Kept.refl _ crusted).serve (by decide) (by decide) ..)
  have counted' : State.Reads Ctx.gathered s counted := (served'.countCtx ..).countCtx ..
  rw [(applied.commitReady_gathered c).ctx]
  unfold applied
  rw [State.modCtx_ctx_self]
  exact congrArg (fun q : Gathered => q.counted l.src.toNat) (counted'.ctx c)

/-! ### CRUMB -/

/-- The slice that the crumbs of a kept loaf land in: that of its home which the pointer does not name (R253). -/
def State.landSlice (s : State) (c : Nat) (b : BitVec 32) (j : Nat) : Nat :=
  s.homeSlice c b j (if ((s.ctx c).crustOf b j).pointer then 0 else 1)

/-- A slice with a landing more, which its coding array is woken for. -/
def Slice.lands (sl : Slice) (l : Landing) : Slice := { sl with landing := sl.landing ++ [l], gated := false }

section
variable (late : (s.ctx x.ctx).early (BitVec.ofNat 32 (x.num 12 4)) = false) (free : (s.ctx x.ctx).rst.holding = false)
include late free

/-- A crumb of another bake than the one formed, or of a batch that is committed, is dropped (R254, R301). -/
theorem State.serveCrumb_dropped
    (past : BitVec.ofNat 32 (x.num 12 4) ≠ (s.ctx x.ctx).forming ∨ (s.ctx x.ctx).group.committed.contains x.batch = true) :
    s.serveCrumb peel x = (s.respond peel x 0).countCtx x.ctx 33 (bit (decide (x.num 24 1 = 0))) := by
  unfold State.serveCrumb
  dsimp only
  rw [if_neg (by simp [late, free]), if_pos past]

section
variable (now : BitVec.ofNat 32 (x.num 12 4) = (s.ctx x.ctx).forming)
  (uncommitted : (s.ctx x.ctx).group.committed.contains x.batch = false)
  (built : ((s.ctx x.ctx).crustOf x.batch (x.num 16 1)).unbuilt = false)
include now uncommitted built

/-- A crumb whose applied bit is set is a duplicate (R254). -/
theorem State.serveCrumb_duplicate
    (applied : (mgetD ((s.ctx x.ctx).crustOf x.batch (x.num 16 1)).applied (x.num 18 1) 0).getLsbD (x.num 17 1) = true) :
    s.serveCrumb peel x = (s.respond peel x 0).countCtx x.ctx 32 (bit (decide (x.num 24 1 = 0))) := by
  unfold State.serveCrumb
  dsimp only
  rw [if_neg (by simp [late, free]), if_neg (not_or.mpr ⟨not_not_intro now, ne_true_of_eq_false uncommitted⟩), built,
    if_neg (by decide), applied, if_pos rfl]

/-- A crumb of which nothing has come, and which its landing buffer has room for, lands (R253). -/
theorem State.serveCrumb_lands
    (fresh : (mgetD ((s.ctx x.ctx).crustOf x.batch (x.num 16 1)).applied (x.num 18 1) 0).getLsbD (x.num 17 1) = false)
    (new : (s.slice (s.landSlice x.ctx x.batch (x.num 16 1))).landing.find?
      (Landing.isFor x.ctx x.batch (x.num 16 1) (x.num 17 1) (x.num 18 1)) = none)
    (room : (s.slice (s.landSlice x.ctx x.batch (x.num 16 1))).landed + descLen (BitVec.ofNat 21 (x.num 20 3)) ≤ 262144) :
    s.serveCrumb peel x
      = ((s.modSlice (s.landSlice x.ctx x.batch (x.num 16 1)) (fun sl => sl.lands (Landing.of x))).respond peel x 0).landPiece
        (s.landSlice x.ctx x.batch (x.num 16 1)) (Landing.of x) (x.num 24 1) x.payload := by
  unfold State.landSlice at new room ⊢
  unfold State.serveCrumb
  dsimp only
  rw [if_neg (by simp [late, free]), if_neg (not_or.mpr ⟨not_not_intro now, ne_true_of_eq_false uncommitted⟩), built,
    if_neg (by decide), fresh,
    if_neg (by decide), new]
  exact if_neg (Nat.not_lt.mpr room)

end
end

/-- A slice without the landings of a crumb, and one with its landing in place of what stood for it. -/
def Slice.applied (sl : Slice) (l : Landing) : Slice := { sl with landing := sl.landing.filter (fun k => !l.name k) }
def Slice.keeps (sl : Slice) (l l' : Landing) : Slice := { sl with landing := replaceFirst l.name (fun _ => l') sl.landing }

/-- A piece that makes its crumb whole has it applied, where the coding array is on (R255, R440). -/
theorem State.landPiece_applies {i at_ : Nat} {l : Landing} {payload : List Byte} (whole : (l.received at_ payload).whole = true)
    (on : (s.slice i).arrayGated = false) :
    s.landPiece i l at_ payload = (s.modSlice i fun sl => sl.applied l).applyCrumb (l.received at_ payload) := by
  unfold State.landPiece
  exact if_pos (by rw [on]; exact (Bool.and_true _).trans whole)

/-- Where the coding array is gated the piece stays in the landing buffer (R440). -/
theorem State.landPiece_waits {i at_ : Nat} {l : Landing} {payload : List Byte} (off : (s.slice i).arrayGated = true) :
    s.landPiece i l at_ payload = s.modSlice i fun sl => sl.keeps l (l.received at_ payload) := by
  unfold State.landPiece
  exact if_neg (by rw [off]; simp)

/-- A crumb's landing laid in its slice and answered. -/
def State.answeredLanding (s : State) (peel : Nat) (x : Xfer) (i : Nat) : State :=
  (s.modSlice i fun sl => sl.lands (Landing.of x)).respond peel x 0

theorem State.answeredLanding_slice (s : State) (peel : Nat) (x : Xfer) (i : Nat) :
    (s.answeredLanding peel x i).slice i = (s.slice i).lands (Landing.of x) := by
  unfold State.answeredLanding
  have answered : Kept (· ≠ .slices) (s.modSlice i fun sl => sl.lands (Landing.of x))
      ((s.modSlice i fun sl => sl.lands (Landing.of x)).respond peel x 0) :=
    (Kept.refl _ _).respond (by decide) (by decide) (by decide) (by decide) ..
  rw [State.slice_of_slices (answered.same .slices (by decide)), State.modSlice_slice_self]

theorem State.answeredLanding_gathered (s : State) (peel : Nat) (x : Xfer) (i : Nat) :
    State.Reads Ctx.gathered s (s.answeredLanding peel x i) :=
  ((State.Reads.refl _ s).of_eq (t := s.modSlice i fun sl => sl.lands (Landing.of x)) rfl).respond Ctx.blind_gathered ..

/-- A crumb that comes whole counts as applied from its source, where the coding array of its slice is on (R253, R255). -/
theorem State.answeredLanding_applies {i : Nat} (on : (s.slice i).arrayGated = false)
    (group : (s.ctx x.ctx).group.cfg.isSome = true)
    (whole : ((Landing.of x).received 0 x.payload).whole = true) :
    ((((s.answeredLanding peel x i).landPiece i (Landing.of x) 0 x.payload).ctx x.ctx).gathered)
      = ((s.ctx x.ctx).gathered).counted x.src := by
  have slice := s.answeredLanding_slice peel x i
  have before : State.Reads Ctx.gathered s ((s.answeredLanding peel x i).modSlice i fun sl => sl.applied (Landing.of x)) :=
    (s.answeredLanding_gathered peel x i).of_eq rfl
  have ctx : ((Landing.of x).received 0 x.payload).ctx.toNat = x.ctx := Landing.of_ctx x
  have src : ((Landing.of x).received 0 x.payload).src.toNat = x.src := Landing.of_src x
  rw [State.landPiece_applies whole (by rw [slice]; exact on)]
  have counted := State.applyCrumb_gathered (s := (s.answeredLanding peel x i).modSlice i fun sl => sl.applied (Landing.of x))
    (l := (Landing.of x).received 0 x.payload)
  rw [ctx, src, before.ctx] at counted
  exact counted ((congrArg (fun q : Gathered => q.cfg.isSome) (before.ctx x.ctx)).trans group)

/-- Where the coding array is gated for the frame, a crumb that comes whole waits in the landing
buffer with nothing applied (R440). -/
theorem State.answeredLanding_waits {i : Nat} (off : (s.slice i).arrayGated = true)
    (new : (s.slice i).landing.find? (Landing.of x).name = none) :
    State.Reads Ctx.gathered s ((s.answeredLanding peel x i).landPiece i (Landing.of x) 0 x.payload)
      ∧ (Landing.of x).received 0 x.payload
        ∈ (((s.answeredLanding peel x i).landPiece i (Landing.of x) 0 x.payload).slice i).landing := by
  have slice := s.answeredLanding_slice peel x i
  rw [State.landPiece_waits (by rw [slice]; exact off)]
  refine ⟨(s.answeredLanding_gathered peel x i).of_eq rfl, ?_⟩
  rw [State.modSlice_slice_self, slice]
  unfold Slice.keeps Slice.lands
  dsimp only
  rw [replaceFirst_append new (Landing.name_self _)]
  exact List.mem_concat_self

/-! ### SEAL_NOTICE -/

/-- A notice of the forming bake is recorded with its count, and the frame of the first one is kept (R256, R313). -/
theorem State.serveNotice_forming (joined : (s.ctx x.ctx).group.joined = true)
    (late : (s.ctx x.ctx).early (BitVec.ofNat 32 (x.num 12 4)) = false)
    (now : BitVec.ofNat 32 (x.num 12 4) = (s.ctx x.ctx).forming) :
    ((s.serveNotice peel x).ctx x.ctx).gathered = { (s.ctx x.ctx).gathered with
      notices := mset (s.ctx x.ctx).group.notices x.src (BitVec.ofNat 32 (x.num 16 4)),
      first := some ((s.ctx x.ctx).group.firstNotice.getD s.frames.frame) } := by
  unfold State.serveNotice
  extract_lets c y f noted
  rw [if_neg (by simp [y, c, joined]), if_neg (by simp [y, c, f, late]), if_neg (not_not_intro now)]
  have answered : State.Reads Ctx.gathered noted (noted.respond peel x 0) := (State.Reads.refl _ noted).respond Ctx.blind_gathered ..
  have served := answered.trans (State.commitReady_gathered (noted.respond peel x 0) c)
  rw [served.ctx]
  unfold noted
  rw [State.modCtx_ctx_self]
  rfl

/-! ### CRUMB_LANDING_TIMEOUT -/

/-- A slice without the landings that a timeout names and that are not whole. -/
def Slice.timedOut (sl : Slice) (ctx : BitVec 4) (batch : BitVec 32) (row : BitVec 2) (slot offset : BitVec 5) : Slice :=
  { sl with landing := sl.landing.filter fun l => !Landing.isFor ctx.toNat batch row.toNat slot.toNat offset.toNat l || l.whole }

theorem Landing.isFor_toNat (ctx : BitVec 4) (batch : BitVec 32) (row : BitVec 2) (slot offset : BitVec 5) (l : Landing) :
    Landing.isFor ctx.toNat batch row.toNat slot.toNat offset.toNat l
      = (l.ctx == ctx && l.batch == batch && l.row == row && l.slot == slot && l.offset == offset) := by
  unfold Landing.isFor
  simp only [Bool.beq_eq_decide_eq, BitVec.toNat_inj]

theorem execCrumbLandingTimeout_slice (ctx : BitVec 4) (batch : BitVec 32) (row : BitVec 2) (slot offset : BitVec 5) :
    ∃ t, exec (.crumbLandingTimeout ctx batch row slot offset) s = .next t
      ∧ ∀ i, t.slice i = (s.slice i).timedOut ctx batch row slot offset := by
  refine ⟨_, rfl, fun i => ?_⟩
  unfold State.slice mgetD
  dsimp only
  rw [mget_mmap]
  cases mget s.slices i <;> rfl

/-! ### Signs of loss -/

theorem State.sign_of_fab (h : t.fab = s.fab) (c q : Nat) : t.sign c q = s.sign c q := by
  unfold State.sign
  rw [h]

/-- A sign of loss that is raised leaves every other sign. -/
theorem State.modSign_lost (d r c q : Nat) : ((s.modSign d r fun g => { g with lost := true }).sign c q).lost
    = (decide (signKey d r = signKey c q) || (s.sign c q).lost) := by
  unfold State.modSign State.sign
  dsimp only
  by_cases same : signKey d r = signKey c q
  · rw [same, mgetD_mset_self, decide_eq_true rfl, Bool.true_or]
  · rw [mgetD_mset_ne _ _ _ same, decide_eq_false same, Bool.false_or]

theorem State.lostIn_lost (s : State) (d r c q reason : Nat) :
    ((s.lostIn d r reason).sign c q).lost = (decide (signKey d r = signKey c q) || (s.sign c q).lost) := by
  unfold State.lostIn
  split
  · next already =>
    by_cases same : signKey d r = signKey c q
    · unfold State.sign at already ⊢
      rw [← same, already, Bool.or_true]
    · rw [decide_eq_false same, Bool.false_or]
  · extract_lets signed
    have told : Kept (· ≠ .fab) (s.modSign d r fun g => { g with lost := true })
        (signed.emit 0x0041 3 (some d) [(0, r), (1, reason), (4, (signed.ctx d).bake.committed.toNat)]) :=
      ((Kept.refl _ _).countCtx (by decide) ..).emit (by decide) (by decide) ..
    rw [State.sign_of_fab (told.same .fab (by decide)), State.modSign_lost]

theorem State.each_lostIn_lost (l : List Nat) (s : State) (c q reason : Nat) (h : c ∈ l ∨ (s.sign c q).lost = true) :
    ((s.each l fun s d => s.lostIn d q reason).sign c q).lost = true := by
  unfold State.each
  induction l generalizing s with
  | nil => exact h.resolve_left List.not_mem_nil
  | cons d l ih =>
    rw [List.foldl_cons]
    apply ih
    rw [State.lostIn_lost]
    rcases h with h | h
    · rcases List.mem_cons.mp h with rfl | h
      · exact .inr (by rw [decide_eq_true rfl, Bool.true_or])
      · exact .inl h
    · exact .inr (by rw [h, Bool.or_true])

/-- A sign of loss is raised in every context that holds the position (R314). -/
theorem State.modCtx_lost {c q : Nat} {f : Ctx → Ctx} (holds : (f (s.ctx c)).holdsPos q = true) (reason : Nat) :
    (((s.modCtx c f).lost q reason).sign c q).lost = true :=
  State.each_lostIn_lost _ _ c q reason (.inl (List.mem_map.mpr
    ⟨(c, f (s.ctx c)), List.mem_filter.mpr ⟨mem_of_mget (mget_mset_self _ _ _), holds⟩, rfl⟩))

/-! ### SEAL_WAIT_EXPIRY -/

section
variable {ctx : BitVec 4} {p : BitVec 5} {g : GroupCfg} {n : BitVec 32} (group : (s.ctx ctx.toNat).group.cfg = some g)
  (first : (s.ctx ctx.toNat).group.firstNotice = some n) (live : s.live = true) (waits : fld s.win.memberNow 32 16 ≠ 0)
  (holds : (s.ctx ctx.toNat).holdsPos p.toNat = true) (untold : mget (s.ctx ctx.toNat).group.notices p.toNat = none)
  (sources : (s.ctx ctx.toNat).keptBatches.any (fun b => ((s.ctx ctx.toNat).sources g b).contains p.toNat) = true)
include group first live waits holds untold sources

/-- A source whose notice has not come in the wait is noted as missing, and is suspect (R313). -/
theorem execSealWaitExpiry_missing (aged : fld s.win.memberNow 32 16 ≤ (s.frames.frame - n).toNat)
    (new : (s.ctx ctx.toNat).group.missing.find? (fun e => e.1 == p.toNat) = none) :
    ∃ t, exec (.sealWaitExpiry ctx p) s = .next t
      ∧ (t.ctx ctx.toNat).group.missing = (s.ctx ctx.toNat).group.missing ++ [(p.toNat, false)] := by
  change ∃ t, execSealWaitExpiry ctx p s = .next t ∧ _
  unfold execSealWaitExpiry
  dsimp only
  rw [group, first]
  dsimp only
  rw [live, decide_eq_false waits, holds, untold, decide_eq_false (Nat.not_lt.mpr aged), sources, if_neg (by decide), new]
  refine ⟨_, rfl, ?_⟩
  rw [State.ctx_of_ctxs (((Kept.refl (· ≠ .ctxs) _).suspect (by decide) (by decide) (by decide) (by decide) _ _).same .ctxs
    (by decide)), State.modCtx_ctx_self]

/-- After twice the wait the sign of loss is raised (R313, R314). -/
theorem execSealWaitExpiry_lost (aged : 2 * fld s.win.memberNow 32 16 ≤ (s.frames.frame - n).toNat)
    (missing : (s.ctx ctx.toNat).group.missing.find? (fun e => e.1 == p.toNat) = some (p.toNat, false)) :
    ∃ t, exec (.sealWaitExpiry ctx p) s = .next t ∧ (t.sign ctx.toNat p.toNat).lost = true := by
  change ∃ t, execSealWaitExpiry ctx p s = .next t ∧ _
  unfold execSealWaitExpiry
  dsimp only
  rw [group, first]
  dsimp only
  rw [live, decide_eq_false waits, holds, untold, decide_eq_false (show ¬ _ < _ by omega), sources, if_neg (by decide), missing]
  dsimp only
  rw [if_neg (Nat.not_lt.mpr aged)]
  exact ⟨_, rfl, State.modCtx_lost holds 4⟩

end

/-- Settles O43: a transfer that is served finds the contexts and the slices as they were, so that each case is that of what serves
it; the two events each have their lemma. -/
theorem keepersTakeCrumbsAndNotices : Obligations.KeepersTakeCrumbsAndNotices := by
  intro s peel x c y f k sl u
  refine ⟨fun serves late free => ?_, fun serves joined late now => ?_, fun ctx b row slot off => ?_,
    fun ctx p g n => ?_⟩
  · obtain ⟨e, fab, beside⟩ := State.arrived_beside serves.passes
    have run : exec (.crumb peel x) s = .next (u.serveCrumb peel x) := congrArg Host.Outcome.next (serves.inRequest _)
    rw [run, show u = _ from beside]
    refine ⟨fun past => congrArg _ (State.serveCrumb_dropped late free past), fun now uncommitted built => ⟨fun applied => ?_,
      fun fresh group new room fits head => ?_⟩⟩
    · exact congrArg _ (State.serveCrumb_duplicate late free now uncommitted built applied)
    · have lands := State.serveCrumb_lands (s := { s with engCtr := e, fab := fab }) (peel := peel) late free now uncommitted built
        fresh new room
      rw [head] at lands
      rw [lands]
      obtain ⟨size, most, -⟩ := State.admitXfer_form serves.passes
      have whole := Landing.received_whole (l := Landing.of x) most size fits
      refine ⟨fun on => ⟨_, rfl, ?_⟩, fun off => ?_⟩
      · have counted := State.answeredLanding_applies (s := { s with engCtr := e, fab := fab }) (peel := peel)
          (i := sl) on group whole
        exact (congrArg (fun q : Gathered => mgetD q.applied x.src 0) counted).trans (mgetD_mset_self _ _ _ _)
      · rw [← serves.landing_name] at new
        obtain ⟨waits, there⟩ := State.answeredLanding_waits (s := { s with engCtr := e, fab := fab }) (peel := peel)
          (i := sl) off new
        exact ⟨_, rfl, congrArg Gathered.applied (waits.ctx c), _, there,
          (congrFun serves.landing_name _).symm.trans (Landing.name_self (Landing.of x)), whole⟩
  · obtain ⟨e, fab, beside⟩ := State.arrived_beside serves.passes
    have run : exec (.sealNotice peel x) s = .next (u.serveNotice peel x) := congrArg Host.Outcome.next (serves.inRequest _)
    have noted := State.serveNotice_forming (s := { s with engCtr := e, fab := fab }) (peel := peel) joined late now
    rw [run, show u = _ from beside]
    exact ⟨_, rfl, (congrArg (fun q : Gathered => mget q.notices x.src) noted).trans (mget_mset_self _ _ _),
      congrArg Gathered.first noted⟩
  · obtain ⟨t, next, slices⟩ := execCrumbLandingTimeout_slice (s := s) ctx b row slot off
    refine ⟨t, next, fun i => ?_⟩
    rw [slices]
    refine ⟨List.filter_congr fun l _ => ?_, rfl⟩
    rw [Landing.isFor_toNat]
    exact ((Bool.not_and _ _).trans (congrArg _ (Bool.not_not _))).symm
  · intro z wait group first live waits holds untold sources
    exact ⟨execSealWaitExpiry_missing group first live waits holds untold sources,
      execSealWaitExpiry_lost group first live waits holds untold sources⟩

end Sys2Proof.Machine
namespace Sys2Proof.Machine

variable {s : State}

/-! ### The table of the counters after an operation -/

theorem State.setPc_mwf (wf : mwf s.pctr = true) (k : Nat) (v : Word) : mwf (s.setPc k v).pctr = true := by
  unfold State.setPc
  dsimp only
  split
  · exact mwf_merase wf k
  · exact mwf_mset wf k v

theorem State.wakeWaiters_pctr (s : State) (k : Nat) : (s.wakeWaiters k).pctr = s.pctr := by
  have kept : Kept (· ≠ .pctr) s (s.wakeWaiters k) := by apply Kept.wakeWaiters (Kept.refl _ s) <;> decide
  exact kept.same .pctr (by decide)

/-- ADD, MAX and SET leave the table of the counters canonical. -/
theorem State.ctrOp_mwf {k : Nat} (wf : mwf s.pctr = true) (raw : mget s.sram (iaOf 2 0x1F k) = none) (op : Nat) (v : Word) :
    mwf (s.ctrOp k op v).pctr = true := by
  unfold State.ctrOp
  by_cases set : op = 2
  · rw [if_pos set, if_pos set, State.wakeWaiters_pctr]
    exact State.setPc_mwf wf k v
  · rw [if_neg set, if_neg set, State.checkCtr_of_none raw]
    split
    · exact wf
    · rw [State.wakeWaiters_pctr]
      exact State.setPc_mwf wf k _

/-! ### VERDICT_DECIDE -/

/-- What the owner adds to the counter that it found: FINAL, and VERDICT where an overflow mark stands (R273, R274). -/
def finalOver (found : Word) : Word := BitVec.ofNat 64 (2 ^ 63 + (if fld found 0 32 ≠ 0 then 2 ^ 62 else 0))

/-- The step once its owner has decided its verdict. -/
def Step.settled (st : Step) : Step := { st with decided := true }

/-- The state once FINAL stands in the counter of the step (R274). -/
def State.finalAdded (s : State) (c : Nat) (st : Step) : State :=
  (s.modStep c Step.settled).ctrOp st.vctr.toNat 0 (finalOver (s.pc st.vctr.toNat))

/-- The owner whose counter has reached the expected findings adds FINAL and clears the counter after next (R274, R275). -/
theorem execVerdictDecide_reached {ctx : BitVec 4} {st : Step} (running : s.running = true)
    (opened : (s.ctx ctx.toNat).step = some st) (owner : (s.ctx ctx.toNat).own = st.owner.toNat) (undecided : st.decided = false)
    (sound : s.poison.contains st.vctr.toNat = false)
    (reached : st.expected.toNat * 2 ^ 32 ≤ (s.pc st.vctr.toNat).toNat) :
    exec (.verdictDecide ctx) s = .next ((s.finalAdded ctx.toNat st).setCtr (clearCtr st.base st.ord) 0) := by
  change execVerdictDecide ctx s = _
  unfold execVerdictDecide
  dsimp only
  rw [opened]
  dsimp only
  rw [running, decide_eq_false (not_not_intro owner), undecided, sound, decide_eq_false (Nat.not_lt.mpr reached),
    if_neg (by decide)]
  rfl

section
variable {c : Nat} {st : Step}

/-- Adding FINAL writes the counter of the step alone. -/
theorem State.finalAdded_wrote (wf : mwf s.pctr = true) (sound : s.poison.contains st.vctr.toNat = false)
    (raw : mget s.sram (iaOf 2 0x1F st.vctr.toNat) = none) :
    s.Wrote st.vctr.toNat (s.pc st.vctr.toNat + finalOver (s.pc st.vctr.toNat)) (s.finalAdded c st) :=
  have added := State.ctrOp_wrote (s := s.modStep c Step.settled) (op := 0) wf raw (by decide) (.inr sound)
    (finalOver (s.pc st.vctr.toNat))
  ⟨added.poison, added.value, added.others⟩

theorem State.finalAdded_mwf (wf : mwf s.pctr = true) (raw : mget s.sram (iaOf 2 0x1F st.vctr.toNat) = none) :
    mwf (s.finalAdded c st).pctr = true :=
  State.ctrOp_mwf (s := s.modStep c Step.settled) wf raw 0 _

/-- Neither counter operation writes the step. -/
theorem State.setCtr_finalAdded_step (opened : (s.ctx c).step = some st) (k : Nat) (v : Word) :
    (((s.finalAdded c st).setCtr k v).ctx c).step = some st.settled := by
  have written : State.Reads Ctx.undone (s.modStep c Step.settled) ((s.finalAdded c st).setCtr k v) :=
    ((State.Reads.refl _ _).ctrOp Ctx.blind_undone ..).ctrOp Ctx.blind_undone k 2 v
  have marked : ((s.modStep c Step.settled).ctx c).step = some st.settled := by
    rw [State.modStep_step, opened]
    rfl
  exact (congrArg Undone.step (written.ctx c)).trans marked

end

/-- Settles O39: the ADD of FINAL writes the step's own counter and the SET the counter after next, so that where the two are one
the SET stands. -/
theorem ownerDecidesTheVerdict : Obligations.OwnerDecidesTheVerdict := by
  intro s ctx st c k next wf running opened owner undecided sound raw reached
  have added := State.finalAdded_wrote (c := c) wf sound raw
  have cleared := State.setCtr_wrote (State.finalAdded_mwf (c := c) wf raw) next 0
  refine ⟨_, execVerdictDecide_reached running opened owner undecided sound reached, State.setCtr_finalAdded_step opened next 0,
    cleared.value, fun other => ?_, fun i notOwn notNext => ?_⟩
  · exact (cleared.others k other.symm).trans added.value
  · exact (cleared.others i notNext).trans (added.others i notOwn)

end Sys2Proof.Machine
namespace Sys2Proof.Machine

variable {s s₀ t u : State} {peel : Nat} {x : Xfer}

/-! ### What a dropped transfer leaves behind -/

/-- From `s` to `t` only signs, health counts, queued events and counters have changed (Table 15.4). -/
def State.Noted (s t : State) : Prop :=
  t = { s with
    fab := { s.fab with signs := t.fab.signs }, health := { s.health with now := t.health.now },
    link := { s.link with outq := t.link.outq, evSeq := t.link.evSeq, evDrop := t.link.evDrop },
    engCtr := t.engCtr, ctxCtr := t.ctxCtr }

namespace State.Noted

theorem refl (s : State) : s.Noted s := rfl
theorem trans (h : s.Noted t) (g : t.Noted u) : s.Noted u := by
  unfold State.Noted at g ⊢
  rw [h] at g
  exact g
theorem ite {c : Prop} [Decidable c] (h : c → s.Noted t) (g : ¬ c → s.Noted u) : s.Noted (if c then t else u) := by
  split
  · exact h ‹_›
  · exact g ‹_›
theorem each {α : Type} {l : List α} {f : State → α → State} (h : s₀.Noted s) (hf : ∀ (t : State) a, t.Noted (f t a)) :
    s₀.Noted (s.each l f) := by
  unfold State.each
  induction l generalizing s with
  | nil => exact h
  | cons a l ih => exact ih (h.trans (hf s a))

/-! What it keeps. -/

theorem ctxs (h : s.Noted t) : t.ctxs = s.ctxs := by rw [h]
theorem boot (h : s.Noted t) : t.boot = s.boot := by rw [h]
theorem reqs (h : s.Noted t) : t.fab.reqs = s.fab.reqs := by rw [h]
theorem retries (h : s.Noted t) : t.fab.retries = s.fab.retries := by rw [h]

/-! What makes it. -/

theorem count (s : State) (w n : Nat) : s.Noted (s.count w n) := ite (fun _ => refl s) fun _ => rfl
theorem countPeel (s : State) (p off n : Nat) : s.Noted (s.countPeel p off n) := count s _ n
theorem countCtx (s : State) (c k n : Nat) : s.Noted (s.countCtx c k n) := ite (fun _ => refl s) fun _ => rfl
theorem risk (s : State) (i n : Nat) : s.Noted (s.risk i n) := rfl
theorem modSign (s : State) (c p : Nat) (f : Sign → Sign) : s.Noted (s.modSign c p f) := rfl
theorem emit (s : State) (code sev : Nat) (c : Option Nat) (pl : List (Nat × Nat)) : s.Noted (s.emit code sev c pl) :=
  ite (fun _ => refl s) fun _ => ite (fun _ => count s 27 1) fun _ => ite (fun _ => (count s 26 1).trans rfl) fun _ => rfl
theorem drop (s : State) (peel k : Nat) : s.Noted (s.drop peel k) :=
  have counted := countPeel s peel (5 + k) 1
  ite (fun _ => counted.trans (risk _ 2 1)) fun _ => counted
theorem lostIn (s : State) (c p reason : Nat) : s.Noted (s.lostIn c p reason) :=
  ite (fun _ => refl s) fun _ => ((modSign s c p _).trans (countCtx _ c _ 1)).trans (emit ..)
theorem lost (s : State) (p reason : Nat) : s.Noted (s.lost p reason) := (refl s).each fun t c => lostIn t c p reason
theorem noteReply (s : State) (p : Nat) : s.Noted (s.noteReply p) := (refl s).each fun t c => modSign t c p _
theorem reject (s : State) (peel k c p reason batch : Nat) : s.Noted (s.reject peel k c p reason batch) := by
  unfold State.reject
  extract_lets counted signed n all raised
  have signed' : s.Noted signed := ((drop s peel k).trans (countCtx _ c _ 1)).trans (modSign _ c p _)
  have raised' : s.Noted raised := ite (fun _ => signed') fun _ => (signed'.trans (modSign _ c p _)).trans (emit ..)
  exact ite (fun _ => raised'.trans (lost ..)) fun _ => raised'

/-- Whether a transfer passes its checks or not, it is noted and no more. -/
theorem admitXfer (s : State) (peel : Nat) (x : Xfer) : s.Noted (s.admitXfer peel x).1 := by
  have counted : s.Noted ((s.countPeel peel 2).countPeel peel 5 x.payload.length) := (countPeel s peel 2 1).trans (countPeel _ peel 5 _)
  unfold State.admitXfer
  extract_lets came c cx tagged
  have dropped (k : Nat) : s.Noted (came.drop peel k) := counted.trans (drop came peel k)
  have rejected (k reason : Nat) : s.Noted (came.reject peel k c x.src reason x.batch.toNat) := counted.trans (reject ..)
  split_ifs
  · exact dropped 1
  · exact dropped 2
  · exact dropped 3
  · exact (dropped 4).trans (count _ 22 1)
  · exact rejected 5 1
  · exact rejected 6 2
  · exact rejected 7 3
  · exact counted

end State.Noted

/-! ### Inbound requests -/

section
variable {typ : Nat} (up : s.up = true) (port : peel < s.peelsPresent) (is : x.typ = typ) (request : x.resp = false)
  (serve : State → State)
include up port is request

/-- A request of the type, on an engine out of cold reset, is checked before all else. -/
theorem State.inRequest_checked : s.inRequest typ peel x serve =
    if (s.admitXfer peel x).2 = false then (s.admitXfer peel x).1
    else if s.frozen = true then (s.admitXfer peel x).1.respond peel x 2
    else if s.stopped = true ∧ typ ≠ 4 then (s.admitXfer peel x).1.holdWake peel x
    else serve (s.arrived peel x) := by
  have addressed : ¬(s.up = false ∨ peel ≥ s.peelsPresent ∨ x.typ ≠ typ ∨ x.resp = true) := by
    simp [up, is, request, port]
  unfold State.inRequest
  rw [if_neg addressed]
  simp only [Bool.not_eq_true', State.arrived]

end

/-- The rows of Table 15.2 that come in as requests: the type and the command that takes it. -/
abbrev requestRows : List (Nat × (Nat → Xfer → Instr)) :=
  [(0x03, .counter), (0x04, .probe), (0x10, .crumb), (0x11, .sealNotice), (0x12, .decodeReq), (0x13, .decodePart),
    (0x20, .bcast), (0x21, .bcastUp), (0x22, .record)]

/-- Every one of them goes through the checks of an inbound request of its type. -/
theorem exec_requestRow {k : Nat × (Nat → Xfer → Instr)} (row : k ∈ requestRows) (s : State) (peel : Nat) (x : Xfer) :
    ∃ serve, exec (k.2 peel x) s = .next (s.inRequest k.1 peel x serve) := by
  simp only [requestRows, List.mem_cons, List.not_mem_nil, or_false] at row
  rcases row with rfl | rfl | rfl | rfl | rfl | rfl | rfl | rfl | rfl <;> exact ⟨_, rfl⟩

/-- Settles O44: each row is an inbound request of its type, which its checks drop or let through to the answer of a freeze or the
wake buffer. -/
theorem inboundRequestsAreCheckedFirst : Obligations.InboundRequestsAreCheckedFirst := by
  intro s peel x k row up port is request u
  obtain ⟨serve, run⟩ := exec_requestRow row s peel x
  rw [run, State.inRequest_checked up port is request serve]
  refine ⟨fun fails => ⟨congrArg _ (if_pos fails), State.Noted.admitXfer s peel x⟩, fun passes frozen => ?_,
    fun passes thawed stopped notProbe => ?_⟩
  · rw [passes, if_neg (by decide), if_pos frozen]
  · rw [passes, if_neg (by decide), thawed, if_neg (by decide), if_pos ⟨stopped, notProbe⟩]

end Sys2Proof.Machine
namespace Sys2Proof.Machine

variable {s t : State} {peel : Nat} {x : Xfer} {r : Req}

/-! ### What an arrival finds -/

theorem State.arrived_fab (h : (s.admitXfer peel x).2 = true) : (s.arrived peel x).fab = { s.fab with rxNow := true } := by
  rw [State.arrived_eq h]

theorem State.arrived_ctxs (h : (s.admitXfer peel x).2 = true) : (s.arrived peel x).ctxs = s.ctxs := by
  obtain ⟨e, f, beside⟩ := State.arrived_beside h
  rw [beside]

/-- A transfer that passes is counted in the engine's bank alone. -/
theorem State.admitXfer_counted (h : (s.admitXfer peel x).2 = true) : ∃ e, (s.admitXfer peel x).1 = { s with engCtr := e } := by
  have counted (u : State) (w n : Nat) : ∃ e, u.count w n = { u with engCtr := e } := ⟨_, State.count_eq u w n⟩
  obtain ⟨e, came⟩ := counted s (32 + 24 * peel + 2) 1
  obtain ⟨e', carried⟩ := counted { s with engCtr := e } (32 + 24 * peel + 5) x.payload.length
  refine ⟨e', ?_⟩
  rw [State.admitXfer_passes h]
  unfold State.countPeel
  rw [came, carried]

/-! ### Request slots -/

theorem State.reqAt_congr (h : t.fab.reqs = s.fab.reqs) (slot : BitVec 10) : t.reqAt peel slot = s.reqAt peel slot := by
  unfold State.reqAt
  rw [h]

theorem State.reqAt_names {slot : BitVec 10} (h : s.reqAt peel slot = some r) : r.peel = peel ∧ r.slot = slot := by
  simpa using List.find?_some h

/-- A slot that is freed holds no request. -/
theorem State.freeReq_reqAt (s : State) (r : Req) : (s.freeReq r).reqAt r.peel r.slot = none := by
  refine List.find?_eq_none.mpr fun q held => ?_
  have other := (List.mem_filter.mp held).2
  exact ne_true_of_eq_false ((Bool.not_eq_true' _).mp other)

/-! ### INBOUND_RESPONSE up to its end -/

section
variable (up : s.up = true) (port : peel < s.peelsPresent) (response : x.resp = true)
include up port response

/-- A response that fails a check of Table 15.4 is dropped there. -/
theorem execInboundResponse_fails (fails : (s.admitXfer peel x).2 = false) :
    exec (.inboundResponse peel x) s = .next (s.admitXfer peel x).1 := by
  change execInboundResponse peel x s = _
  unfold execInboundResponse
  dsimp only
  rw [if_neg (by simp [up, port, response]), fails, if_pos (by decide)]

variable (passes : (s.admitXfer peel x).2 = true)
include passes

/-- One for a slot that no request holds is late (R365). -/
theorem execInboundResponse_unasked (free : s.reqAt peel x.slot = none) :
    exec (.inboundResponse peel x) s = .next ((s.admitXfer peel x).1.lateArrival peel x) := by
  obtain ⟨e, counted⟩ := State.admitXfer_counted passes
  change execInboundResponse peel x s = _
  unfold execInboundResponse
  dsimp only
  rw [if_neg (by simp [up, port, response]), passes, if_neg (by decide), counted,
    show State.reqAt { s with engCtr := e } peel x.slot = none from free]

variable (asked : s.reqAt peel x.slot = some r)
include asked

/-- One that answers another request than the slot's present one is late (R365). -/
theorem execInboundResponse_other (other : r.matches x = false) :
    exec (.inboundResponse peel x) s = .next ((s.admitXfer peel x).1.lateArrival peel x) := by
  obtain ⟨e, counted⟩ := State.admitXfer_counted passes
  change execInboundResponse peel x s = _
  unfold execInboundResponse
  dsimp only
  rw [if_neg (by simp [up, port, response]), passes, if_neg (by decide), counted,
    show State.reqAt { s with engCtr := e } peel x.slot = some r from asked]
  exact if_pos (.inl (by rw [other, Bool.not_false]))

/-- One that answers it, in an engine that runs, waits for the clock or ends the request (R351, R439). -/
theorem execInboundResponse_answers (same : r.matches x = true)
    (unheld : s.fab.heldRsp.any (fun h => h.1 == peel && h.2.1 == x.slot) = false) (running : s.running = true) :
    exec (.inboundResponse peel x) s =
      if s.stopped = true then .next ((s.admitXfer peel x).1.holdWake peel x)
      else .next ((s.arrived peel x).takeResponse peel r x) := by
  obtain ⟨live, thawed⟩ := Bool.and_eq_true_iff.mp running
  rw [Bool.not_eq_true'] at thawed
  obtain ⟨e, counted⟩ := State.admitXfer_counted passes
  change execInboundResponse peel x s = _
  unfold execInboundResponse State.arrived
  dsimp only
  rw [if_neg (by simp [up, port, response]), passes, if_neg (by decide), counted,
    show State.reqAt { s with engCtr := e } peel x.slot = some r from asked]
  dsimp only
  rw [if_neg (by simp [same, unheld]), show State.live { s with engCtr := e } = true from live, if_neg (by decide), thawed,
    Bool.false_and]
  exact ite_congr rfl (fun _ => rfl) fun _ => if_neg (by decide)

end

/-! ### A response that ends its request -/

/-- The slot is free, and the position has answered. -/
def State.heard (s : State) (r : Req) : State :=
  if !untagged r.typ.toNat then (s.freeReq r).noteReply r.dst.toNat else s.freeReq r

theorem State.heard_noted (s : State) (r : Req) : (s.freeReq r).Noted (s.heard r) :=
  .ite (fun _ => .noteReply ..) fun _ => .refl _

/-- What is noted of it beside leaves the slot free, the requests to be sent again and the contexts. -/
theorem State.heard_frees (h : (s.heard r).Noted t) : t.reqAt r.peel r.slot = none ∧ t.fab.retries = s.fab.retries ∧ t.ctxs = s.ctxs :=
  have noted := (s.heard_noted r).trans h
  ⟨(State.reqAt_congr noted.reqs r.slot).trans (s.freeReq_reqAt r), noted.retries, noted.ctxs⟩

/-- RETRY_LATER: the request goes out again under a later plan (R351). -/
theorem State.takeResponse_later (later : x.status = 1) : s.takeResponse peel r x =
    (((s.heard r).countPeel peel 19).countCtx r.ctx.toNat 35 (bit (r.typ == 0x10 || r.typ == 0x11))).retryLater r := by
  unfold State.takeResponse
  dsimp only
  rw [later, if_pos rfl, if_neg (by decide)]
  rfl

/-- DONE: the request ends with the value and the payload that came. -/
theorem State.takeResponse_done (done : x.status = 0) :
    s.takeResponse peel r x = (s.heard r).endReq r (.answered 0 (x.word 16) x.payload) := by
  unfold State.takeResponse
  dsimp only
  rw [done, if_neg (by decide), if_neg (by decide), if_neg (by decide)]
  rfl

/-- FROZEN: the position is lost to every context that holds it (R314). -/
theorem State.takeResponse_frozen (frozen : x.status = 2) (tagged : untagged r.typ.toNat = false) :
    s.takeResponse peel r x
      = (((s.heard r).count 21).lost r.dst.toNat 1).endReq r (.answered 2 (x.word 16) x.payload) := by
  unfold State.takeResponse State.heard
  dsimp only
  rw [frozen, tagged, if_pos rfl, if_neg (by decide), if_neg (by decide)]
  rfl

/-- What asks for no more than to be acknowledged ends with nothing more done (R351). -/
theorem State.endReq_acknowledged (why : r.why = .notice ∨ r.why = .record ∨ r.why = .part ∨ ∃ b i f, r.why = .crumb b i f)
    (v : Word) (l : List Byte) : s.endReq r (.answered 0 v l) = s := by
  unfold State.endReq
  dsimp only
  obtain why | why | why | ⟨b, i, f, why⟩ := why <;> (rw [why]; rfl)

/-- A probe that is answered counts no timeout. -/
theorem State.endReq_probe (why : r.why = .probe) (status : Nat) (v : Word) (l : List Byte) :
    s.endReq r (.answered status v l) = s := by
  unfold State.endReq
  dsimp only
  rw [why]
  rfl

section
variable {st : Step} (opened : (s.ctx r.ctx.toNat).step = some st) (v : Word) (l : List Byte)
include opened

/-- The wait for FINAL brings the verdict (R274). -/
theorem State.endReq_verdict (why : r.why = .verdict) :
    ((s.endReq r (.answered 0 v l)).ctx r.ctx.toNat).step = some { st with final := some v } := by
  unfold State.endReq State.verdictEnds
  dsimp only
  rw [why]
  exact (State.modStep_step _ _ _).trans (congrArg _ opened)

/-- The MAX of the risk level is back (R288). -/
theorem State.endReq_riskMax (why : r.why = .riskMax) :
    ((s.endReq r (.answered 0 v l)).ctx r.ctx.toNat).step = some { st with riskDone := true } := by
  unfold State.endReq State.riskEnds
  dsimp only
  rw [why]
  exact (State.modStep_step _ _ _).trans (congrArg _ opened)

/-- The ADD of the finding is back (R272). -/
theorem State.endReq_finding (why : r.why = .finding) :
    ((s.endReq r (.answered 0 v l)).ctx r.ctx.toNat).step = some { st with addBack := true } := by
  unfold State.endReq State.findingEnds
  dsimp only
  rw [why]
  exact State.findingBack_step (s := State.risk _ 7 _) opened 0 0

end

/-- Settles O48: a response that is taken frees its slot and notes that the position has answered; what its request then asks for is
said by the lemma of its purpose. -/
theorem responsesEndTheirRequests : Obligations.ResponsesEndTheirRequests := by
  intro s peel x u up port response
  refine ⟨execInboundResponse_fails up port response, execInboundResponse_unasked up port response, fun r passes asked => ?_⟩
  refine ⟨execInboundResponse_other up port response passes asked, fun same unheld running => ?_⟩
  have run := execInboundResponse_answers up port response passes asked same unheld running
  refine ⟨fun stopped => run.trans (if_pos stopped), fun clock => ?_⟩
  rw [run, clock, if_neg (by decide)]
  obtain ⟨atPeel, atSlot⟩ := State.reqAt_names asked
  have retries : (s.arrived peel x).fab.retries = s.fab.retries := by rw [State.arrived_fab passes]
  have ctxs := State.arrived_ctxs passes
  have frees {t : State} (h : ((s.arrived peel x).heard r).Noted t) :
      t.reqAt peel x.slot = none ∧ t.fab.retries = s.fab.retries ∧ t.ctxs = s.ctxs := by
    obtain ⟨slot, same, contexts⟩ := State.heard_frees h
    rw [atPeel, atSlot] at slot
    exact ⟨slot, same.trans retries, contexts.trans ctxs⟩
  refine ⟨fun later => ?_, fun done why => ?_, fun st done opened => ?_, fun frozen why tagged => ?_⟩
  · obtain ⟨slot, same, -⟩ := frees ((State.Noted.countPeel _ peel 19 1).trans (.countCtx _ r.ctx.toNat 35 _))
    rw [State.takeResponse_later later]
    exact ⟨_, rfl, slot, congrArg (· ++ [Retry.mk r]) same⟩
  · rw [State.takeResponse_done done, State.endReq_acknowledged why]
    exact ⟨_, rfl, frees (.refl _)⟩
  · rw [State.takeResponse_done done]
    have opened' : (((s.arrived peel x).heard r).ctx r.ctx.toNat).step = some st := by
      rw [State.ctx_of_ctxs (frees (.refl _)).2.2, opened]
    exact ⟨fun why => ⟨_, rfl, State.endReq_verdict opened' _ _ why⟩, fun why => ⟨_, rfl, State.endReq_riskMax opened' _ _ why⟩,
      fun why => ⟨_, rfl, State.endReq_finding opened' _ _ why⟩⟩
  · rw [State.takeResponse_frozen frozen tagged, State.endReq_probe why]
    have same := (frees (State.Noted.count _ 21 1)).2.2
    refine ⟨_, rfl, fun c holds => State.each_lostIn_lost _ _ c _ 1 (.inl ?_)⟩
    unfold State.holdersOf at holds ⊢
    rwa [same]

end Sys2Proof.Machine
namespace Sys2Proof.Machine

variable {s s₀ t u : State} {peel : Nat} {x : Xfer}

/-! ### What an answer leaves of the decodes -/

/-- The decodes of the fabric: those this member asked for, and the sums it forms for others. -/
def Fabric.decodes (f : Fabric) : List DecodeJob × List PartSum := (f.jobs, f.sums)

theorem State.send_decodes (s : State) (peel : Nat) (rack : Bool) (cls : Cls) (x : Xfer) :
    (s.send peel rack cls x).fab.decodes = s.fab.decodes := by
  unfold State.send State.leave
  split
  · simp [Fabric.decodes]
  · rfl

theorem State.respond_decodes (s : State) (peel : Nat) (x : Xfer) (status : Nat) (body : List (Nat × Nat)) :
    (s.respond peel x status body).fab.decodes = s.fab.decodes := by
  unfold State.respond
  dsimp only
  split
  · rfl
  · split
    · rfl
    · next sealed =>
      rw [State.send_decodes, ← State.sealXfer_fab sealed]
      split_ifs
      · rw [State.countPeel_fab]
      · rw [State.countPeel_fab]
      · rfl

theorem Ctx.blind_group : Ctx.Blind Ctx.group := ⟨fun _ _ => rfl, fun _ _ _ => rfl, fun _ _ _ _ _ _ => rfl⟩

/-! ### The count of decodes served -/

/-- From `s` to `t` no context has counted a decode as served (R319). -/
structure State.SameServed (s t : State) : Prop where
  served : ∀ c, mgetD t.ctxCtr (c * 184 + 42) 0 = mgetD s.ctxCtr (c * 184 + 42) 0

namespace State.SameServed

theorem refl (s : State) : s.SameServed s := ⟨fun _ => rfl⟩
theorem trans (h : s.SameServed t) (g : t.SameServed u) : s.SameServed u := ⟨fun c => (g.served c).trans (h.served c)⟩
theorem ite {b : Prop} [Decidable b] (h : b → s.SameServed t) (g : ¬ b → s.SameServed u) : s.SameServed (if b then t else u) := by
  split
  · exact h ‹_›
  · exact g ‹_›
theorem each {α : Type} {l : List α} {f : State → α → State} (h : s₀.SameServed s)
    (hf : ∀ (t : State) a, t.SameServed (f t a)) : s₀.SameServed (s.each l f) := by
  unfold State.each
  induction l generalizing s with
  | nil => exact h
  | cons a l ih => exact ih (h.trans (hf s a))
/-- An operation that writes no counter of a context. -/
theorem of_kept (k : Kept (· ≠ .ctxCtr) s t) : s.SameServed t := ⟨fun c => by rw [k.same .ctxCtr (by decide)]⟩
/-- A count of another word of the bank. -/
theorem countCtx (s : State) (c n : Nat) {k : Nat} (low : k < 184) (other : k ≠ 42) : s.SameServed (s.countCtx c k n) :=
  ite (fun _ => refl s) fun _ => ⟨fun _ => mgetD_mset_ne _ _ _ (by omega)⟩

theorem sealXfer {c : Nat} {hdr : BitVec 512} {pl : List Byte} {e : State × Xfer} (sent : s.sealXfer c hdr pl = some e) :
    s.SameServed e.1 := by
  unfold State.sealXfer at sent
  dsimp only at sent
  split at sent
  · cases sent
  · cases sent
    exact trans (t := s.modCtx c fun x => { x with keys := { x.keys with seq := x.keys.seq + 1 } }) ⟨fun _ => rfl⟩
      (countCtx _ c 1 (by decide) (by decide))
theorem send (s : State) (peel : Nat) (rack : Bool) (cls : Cls) (x : Xfer) : s.SameServed (s.send peel rack cls x) :=
  of_kept ((Kept.refl _ s).send (by decide) (by decide) ..)
theorem issueWith (s : State) (q : Req) (flags : Nat) : s.SameServed (s.issueWith q flags) := by
  have keep : s.SameServed { s with fab := { s.fab with retries := s.fab.retries ++ [⟨q⟩] } } := ⟨fun _ => rfl⟩
  unfold State.issueWith
  dsimp only
  refine ite (fun _ => refl s) fun _ => ite (fun _ => keep) fun _ => ?_
  split
  · exact keep
  · split
    · exact keep
    · next sent =>
      refine trans (trans ?_ (send ..)) ⟨fun _ => rfl⟩
      split at sent
      · cases sent
        exact refl s
      · exact sealXfer sent
theorem respond (s : State) (peel : Nat) (x : Xfer) (status : Nat) (body : List (Nat × Nat)) :
    s.SameServed (s.respond peel x status body) := by
  unfold State.respond
  dsimp only
  refine ite (fun _ => refl s) fun _ => ?_
  split
  · exact refl s
  · next v y sent =>
    have counted (k : Nat) : v.SameServed (v.countPeel peel k) := of_kept ((Kept.refl _ v).countPeel (by decide) ..)
    exact ((sealXfer sent).trans (ite (fun _ => counted 18) fun _ => ite (fun _ => counted 20) fun _ => refl v)).trans (send ..)

/-! A tile that a sum must read from afar is asked for (R374, R385). -/

theorem abandonDemotion (s : State) (c i : Nat) : s.SameServed (s.abandonDemotion c i) := by
  unfold State.abandonDemotion
  split
  · exact refl s
  · refine ite (fun _ => refl s) fun _ => ite (fun _ => of_kept ((Kept.refl _ s).setJob (by decide) ..)) fun _ => ?_
    have idle : Kept (· ≠ .ctxCtr) s ((s.setJob c i none).modTile c i fun r => { r with busy := false }) :=
      ((Kept.refl _ s).setJob (by decide) ..).modTile (by decide) ..
    exact ((of_kept idle).trans (countCtx _ c 1 (by decide) (by decide))).trans
      (of_kept ((Kept.refl _ _).unholdTile (by decide) ..))
theorem askPromotion (s : State) (c i cause : Nat) (tag : Option (BitVec 16)) (deadline : BitVec 32) :
    s.SameServed (s.askPromotion c i cause tag deadline) := by
  have left := abandonDemotion s c i
  unfold State.askPromotion
  dsimp only
  have asked (j : Option KneadJob) : s.SameServed ((s.abandonDemotion c i).setJob c i j) :=
    left.trans (of_kept ((Kept.refl _ _).setJob (by decide) ..))
  refine ite (fun _ => left) fun _ => ?_
  split
  · exact ite (fun _ => asked _) fun _ => left
  · exact asked _
theorem askRead (s : State) (c i : Nat) (cls : Cls) (deadline : BitVec 32) : s.SameServed (s.askRead c i cls deadline) := by
  unfold State.askRead
  refine ite (fun _ => refl s) fun _ => ite (fun _ => askPromotion ..) fun _ => ?_
  split
  · exact refl s
  · refine ite (fun _ => refl s) fun _ => ?_
    dsimp only
    unfold State.loadExtent
    dsimp only
    exact each (trans (t := s.setJob c i _) (of_kept ((Kept.refl _ s).setJob (by decide) ..))
      ((countCtx _ c 1 (by decide) (by decide)).trans (of_kept ((Kept.refl _ _).modCtx (by decide) ..)))) fun t a => issueWith t _ _

/-! Sums (R321). -/

theorem dropSum (s : State) (p : PartSum) : s.SameServed (s.dropSum p) := ⟨fun _ => rfl⟩
theorem modSum (s : State) (p : PartSum) (f : PartSum → PartSum) : s.SameServed (s.modSum p f) := ⟨fun _ => rfl⟩
theorem sumAt (s : State) (c : Nat) (b bake : BitVec 32) (y o : Nat) : s.SameServed (s.sumAt c b bake y o).1 :=
  of_kept ((Kept.refl _ s).sumAt (by decide) ..)
theorem sendSum (s : State) (p : PartSum) (dst : Nat) : s.SameServed (s.sendSum p dst) :=
  (refl s).each fun t _ => issueWith t _ _
theorem pushSum (s : State) (p : PartSum) : s.SameServed (s.pushSum p) := by
  unfold State.pushSum
  extract_lets c y
  split
  · exact refl s
  · refine ite (fun _ => dropSum s p) fun _ => ite (fun _ => refl s) fun _ => ?_
    extract_lets cs w mine q
    refine ite (fun _ => refl s) fun _ => ?_
    clear_value q
    cases q with
    | none =>
      dsimp only
      split
      · exact askRead ..
      · exact refl s
    | some q => exact ite (fun _ => (sendSum s q w.2).trans (dropSum _ p)) fun _ => modSum s p _

end State.SameServed

/-! ### DECODE_REQ -/

/-- The slot that this member holds among those a DECODE_REQ names as available (R319). -/
def Ctx.slotAsked (y : Ctx) (g : GroupCfg) (x : Xfer) : Option (Nat × Nat) :=
  (y.group.contributors g (BitVec.ofNat 32 (x.num 8 4)) (slotsOf (BitVec.ofNat 32 (x.num 20 4)))).find? (fun e => e.2 == y.own)

/-- The offsets that it asks for. -/
def offsetsAsked (x : Xfer) : List Nat := (List.range (min 32 (x.num 18 1))).map (fun i => (x.num 17 1 + i) % 32)

/-- The tile of a data slot at an offset is one that this member cannot supply as of the committed bake (R319). -/
def State.lacks (s : State) (c : Nat) (g : GroupCfg) (b : BitVec 32) (z o : Nat) : Bool :=
  ((s.ctx c).tileAt g b z o).any (fun i => s.unavailable c i false)

section
variable {g : GroupCfg} (group : (s.ctx x.ctx).group.cfg = some g)
include group

theorem State.serveDecodeReq_outside (apart : (s.ctx x.ctx).group.joined = false) :
    s.serveDecodeReq peel x = s.respond peel x 5 := by
  unfold State.serveDecodeReq
  dsimp only
  rw [group]
  dsimp only
  rw [apart, if_pos (by decide)]

variable (joined : (s.ctx x.ctx).group.joined = true)
include joined

theorem State.serveDecodeReq_idle (idle : (s.ctx x.ctx).slotAsked g x = none) :
    s.serveDecodeReq peel x = s.respond peel x 0 := by
  unfold Ctx.slotAsked at idle
  unfold State.serveDecodeReq
  dsimp only
  rw [group]
  dsimp only
  rw [joined, if_neg (by decide), idle]

variable {z : Nat × Nat} (mine : (s.ctx x.ctx).slotAsked g x = some z)
include mine

/-- A bake that the member has neither committed nor sealed. -/
theorem State.serveDecodeReq_stale (gone : BitVec.ofNat 32 (x.num 12 4) ≠ (s.ctx x.ctx).bake.committed)
    (unsealed : (s.ctx x.ctx).bake.sealed = 0) : s.serveDecodeReq peel x = s.respond peel x 3 := by
  obtain ⟨slot, pos⟩ := z
  unfold Ctx.slotAsked at mine
  unfold State.serveDecodeReq
  dsimp only
  rw [group]
  dsimp only
  rw [joined, if_neg (by decide), mine]
  exact if_pos (by simp [gone, Ctx.laterSealed, unsealed])

variable (data : z.1 < g.k) (committed : BitVec.ofNat 32 (x.num 12 4) = (s.ctx x.ctx).bake.committed)
include data committed

/-- A data slot of the committed bake: unavailable where one of its tiles is, else served (R319). -/
theorem State.serveDecodeReq_data : ∃ work : State → Nat → State, (s.serveDecodeReq peel x =
      if (offsetsAsked x).any (fun o => s.lacks x.ctx g (BitVec.ofNat 32 (x.num 8 4)) z.1 o) = true then s.respond peel x 4
      else ((s.respond peel x 0).countCtx x.ctx 42).each (offsetsAsked x) work)
    ∧ ∀ (t : State) o, t.SameServed (work t o) := by
  obtain ⟨slot, pos⟩ := z
  unfold Ctx.slotAsked at mine
  unfold State.serveDecodeReq
  dsimp only at data ⊢
  rw [group]
  dsimp only
  rw [joined, if_neg (by decide), mine]
  dsimp only
  rw [decide_eq_false (Nat.not_le.mpr data), if_neg (by simp [committed]), if_neg Bool.false_ne_true,
    committed, bne_self_eq_false]
  refine ⟨_, ite_congr (congrArg (· = true) (congrArg (List.any _) (funext fun o => ?_))) (fun _ => rfl) fun _ => rfl, fun t o => ?_⟩
  · unfold State.lacks
    cases (s.ctx x.ctx).tileAt g (BitVec.ofNat 32 (x.num 8 4)) slot o <;> rfl
  · exact (SameServed.sumAt ..).trans ((SameServed.modSum ..).trans (SameServed.pushSum ..))

/-- One that is served counts one decode (R319). -/
theorem State.serveDecodeReq_counts
    (whole : ∀ o ∈ offsetsAsked x, s.lacks x.ctx g (BitVec.ofNat 32 (x.num 8 4)) z.1 o = false) :
    mgetD (s.serveDecodeReq peel x).ctxCtr (x.ctx * 184 + 42) 0 = mgetD s.ctxCtr (x.ctx * 184 + 42) 0 + 1 := by
  obtain ⟨work, served, same⟩ := State.serveDecodeReq_data (peel := peel) group joined mine data committed
  rw [if_neg (by simpa using whole)] at served
  rw [served, ((SameServed.refl _).each same).served, State.countCtx_ctxCtr, (SameServed.respond ..).served]

end

/-! ### DECODE_PART -/

theorem Xfer.ctx_lt (x : Xfer) : x.ctx < 16 := Nat.mod_lt _ (by decide)

/-- A table of one piece lacks one of the sixteen of a sum. -/
theorem lone_piece_lacks {α : Type} (k m : Nat) (v : α) :
    ¬((List.range 16).map (fun i => m + 16 * i)).all (fun i => (mget (mset ([] : FMap α) k v) i).isSome) = true := by
  intro whole
  have there (i : Nat) (h : i < 16) : k = m + 16 * i := by
    have := List.all_eq_true.mp whole _ (List.mem_map_of_mem (List.mem_range.mpr h))
    by_contra other
    rw [mget_mset_ne _ _ other] at this
    cases this
  have := there 0 (by decide)
  have := there 1 (by decide)
  omega

/-- A part for which no sum stands opens one, and waits there (R321). -/
theorem State.takePart_opens {c : Nat} (low : c < 16) {b bake : BitVec 32} {y o : Nat}
    (none : s.fab.sums.find? (PartSum.isAt c b bake y o) = none) (mask : BitVec 32) (piece : Nat) (l : List Byte) :
    ∃ p, (s.takePart c b bake y o mask piece l).fab.sums.find? (PartSum.isAt c b bake y o) = some p
      ∧ mget p.parts (mask.toNat * 256 + piece) = some l := by
  unfold State.takePart State.sumAt
  rw [none]
  dsimp only
  rw [if_neg fun h => lone_piece_lacks _ _ l h.1]
  have at_ : PartSum.isAt c b bake y o
      { ctx := BitVec.ofNat 4 c, batch := b, bake := bake, lost := y, offset := o, avail := 0, asker := 0, cls := .d } = true := by
    simp [PartSum.isAt, Nat.mod_eq_of_lt low]
  have own : (BitVec.ofNat 4 c).toNat = c := by simp [Nat.mod_eq_of_lt low]
  unfold State.modSum
  dsimp only
  rw [own, find?_replaceFirst (p := PartSum.isAt c b bake y o)
      (f := fun q => { q with parts := mset [] (mask.toNat * 256 + piece) l }) (fun _ h => h), List.find?_append, none, Option.none_or,
    List.find?_cons_of_pos at_]
  exact ⟨_, rfl, mget_mset_self ..⟩

/-- A piece of a result that is not whole with it is kept with its decode (R321). -/
theorem State.takeResult_waits {j : DecodeJob} {g : GroupCfg} (found : s.fab.jobs.find? (fun k => k.id == j.id) = some j)
    (group : (s.ctx j.ctx.toNat).group.cfg = some g) {mask : BitVec 32}
    (mine : slotMask (((s.ctx j.ctx.toNat).group.contributors g j.batch j.avail).map Prod.fst) = mask) {piece : Nat} {l : List Byte}
    (missing : ∃ i < 16, mget (mset j.parts piece l) (16 * i) = none) :
    (s.takeResult j mask piece l).fab.jobs.find? (fun k => k.id == j.id) = some { j with parts := mset j.parts piece l } := by
  obtain ⟨i, low, lacks⟩ := missing
  unfold State.takeResult
  dsimp only
  rw [group]
  dsimp only
  rw [if_neg (not_not_intro mine), if_pos]
  · exact (find?_replaceFirst (p := fun k : DecodeJob => k.id == j.id) (f := fun k => { k with parts := mset j.parts piece l })
      (fun _ h => h) _).trans (congrArg _ found)
  · rw [Bool.not_eq_true', List.all_eq_false]
    exact ⟨16 * i, List.mem_map_of_mem (List.mem_range.mpr low), by rw [lacks]; decide⟩

/-- The decodes of this member that a DECODE_PART belongs to. -/
def State.jobsOf (s : State) (x : Xfer) : List DecodeJob :=
  s.fab.jobs.filter (fun j => j.ctx.toNat == x.ctx && j.batch == BitVec.ofNat 32 (x.num 8 4) && j.bake == BitVec.ofNat 32 (x.num 12 4)
    && j.lost == x.num 16 1 && j.offset == x.num 17 1)

/-- What a decode is filed under. -/
theorem State.mem_jobsOf {j : DecodeJob} (h : j ∈ s.jobsOf x) : j.ctx.toNat = x.ctx ∧ j.batch = BitVec.ofNat 32 (x.num 8 4) := by
  have named := (List.mem_filter.mp h).2
  simp only [Bool.and_eq_true, beq_iff_eq] at named
  obtain ⟨⟨⟨⟨ctx, batch⟩, -⟩, -⟩, -⟩ := named
  exact ⟨ctx, batch⟩

theorem State.serveDecodePart_outside (apart : (s.ctx x.ctx).group.joined = false) :
    s.serveDecodePart peel x = s.respond peel x 5 := by
  unfold State.serveDecodePart
  dsimp only
  rw [apart, if_pos (by decide)]

section
variable (joined : (s.ctx x.ctx).group.joined = true)
include joined

/-- A part of another member's decode (R321). -/
theorem State.serveDecodePart_sums (none : s.jobsOf x = []) :
    s.serveDecodePart peel x = (s.respond peel x 0).takePart x.ctx (BitVec.ofNat 32 (x.num 8 4)) (BitVec.ofNat 32 (x.num 12 4))
      (x.num 16 1) (x.num 17 1) (BitVec.ofNat 32 (x.num 20 4)) (x.num 24 1) x.payload := by
  have jobs : (s.respond peel x 0).fab.jobs = s.fab.jobs := congrArg Prod.fst (s.respond_decodes peel x 0 [])
  unfold State.jobsOf at none
  unfold State.serveDecodePart
  dsimp only
  rw [joined, if_neg (by decide), jobs, none]
  rfl

/-- A piece of the result of one decode of this member (R321). -/
theorem State.serveDecodePart_result {j : DecodeJob} (one : s.jobsOf x = [j])
    (found : s.fab.jobs.find? (fun k => k.id == j.id) = some j) :
    s.serveDecodePart peel x = (s.respond peel x 0).takeResult j (BitVec.ofNat 32 (x.num 20 4)) (x.num 24 1) x.payload := by
  have jobs : (s.respond peel x 0).fab.jobs = s.fab.jobs := congrArg Prod.fst (s.respond_decodes peel x 0 [])
  unfold State.jobsOf at one
  unfold State.serveDecodePart
  dsimp only
  rw [joined, if_neg (by decide), jobs, one, if_neg (by simp)]
  unfold State.each
  rw [List.foldl_cons, jobs, found]
  rfl

end

/-- Settles O46: a transfer that is served finds the contexts, the slices and the decodes as they were, so that each case is that of
what serves it. -/
theorem decodesAreServedAndSummed : Obligations.DecodesAreServedAndSummed := by
  intro s peel x g c y u b bake group
  constructor
  · intro serves mine offs
    obtain ⟨e, fab, beside⟩ := State.arrived_beside serves.passes
    have run : exec (.decodeReq peel x) s = .next (u.serveDecodeReq peel x) := congrArg Host.Outcome.next (serves.inRequest _)
    rw [run, show u = _ from beside]
    let v : State := { s with engCtr := e, fab := fab }
    have group' : (v.ctx x.ctx).group.cfg = some g := group
    refine ⟨fun apart => congrArg _ (State.serveDecodeReq_outside group' apart),
      fun joined idle => congrArg _ (State.serveDecodeReq_idle group' joined idle),
      fun z joined found => ⟨fun gone unsealed => congrArg _ (State.serveDecodeReq_stale group' joined found gone unsealed),
        fun data committed => ⟨fun lacks => ?_, fun whole => ?_⟩⟩⟩
    · obtain ⟨work, served, -⟩ := State.serveDecodeReq_data (peel := peel) group' joined found data committed
      obtain ⟨o, asked, i, tile, gone⟩ := lacks
      refine congrArg _ (served.trans (if_pos (List.any_eq_true.mpr ⟨o, asked, ?_⟩)))
      exact (Option.any_eq_true _ _).mpr ⟨i, tile, gone⟩
    · have counts := State.serveDecodeReq_counts (peel := peel) group' joined found data committed fun o asked =>
        (Option.any_eq_false _ _).mpr fun i tile => whole o asked i tile
      rw [Nat.mul_comm]
      exact ⟨_, rfl, counts⟩
  · intro serves mask mine
    have run : exec (.decodePart peel x) s = .next (u.serveDecodePart peel x) := congrArg Host.Outcome.next (serves.inRequest _)
    have fab : u.fab = { s.fab with rxNow := true } := State.arrived_fab serves.passes
    have ctxs : u.ctxs = s.ctxs := State.arrived_ctxs serves.passes
    have ctx : u.ctx x.ctx = y := State.ctx_of_ctxs ctxs x.ctx
    have decodes : (u.respond peel x 0).fab.decodes = s.fab.decodes := by
      rw [State.respond_decodes, fab]
      rfl
    have jobs : u.jobsOf x = mine := by
      unfold State.jobsOf
      rw [fab]
    rw [← ctx, run, ← jobs]
    refine ⟨fun apart => congrArg _ (State.serveDecodePart_outside apart), fun joined other none => ?_,
      fun j joined one found whole missing => ?_⟩
    · rw [State.serveDecodePart_sums joined other]
      have none' : (u.respond peel x 0).fab.sums.find? (PartSum.isAt c b bake (x.num 16 1) (x.num 17 1)) = Option.none := by
        rw [show (u.respond peel x 0).fab.sums = s.fab.sums from congrArg Prod.snd decodes, none]
      obtain ⟨p, opened, waits⟩ := State.takePart_opens (Xfer.ctx_lt x) none' mask (x.num 24 1) x.payload
      exact ⟨_, p, rfl, opened, waits⟩
    · have found' : u.fab.jobs.find? (fun k => k.id == j.id) = some j := by
        rw [fab]
        exact found
      obtain ⟨named, batch⟩ := State.mem_jobsOf (one.symm ▸ List.mem_singleton_self j)
      have same : ((u.respond peel x 0).ctx j.ctx.toNat).group = y.group := by
        rw [((State.Reads.refl Ctx.group u).respond Ctx.blind_group peel x 0 []).ctx, named, ctx]
      have kept : (u.respond peel x 0).fab.jobs = u.fab.jobs := congrArg Prod.fst (u.respond_decodes peel x 0 [])
      rw [State.serveDecodePart_result joined one found']
      refine ⟨_, rfl, State.takeResult_waits (by rw [kept]; exact found') (g := g) (by rw [same]; exact group) ?_ missing⟩
      rw [same, batch, ← ctx]
      exact whole

end Sys2Proof.Machine
namespace Sys2Proof.Machine

variable {s s₀ t : State} {c i k : Nat} {why : DecodeFor}

/-! ### Asking for a decode (R319, R320) -/

theorem State.askDecode_job (s : State) (low : c < 16) (why : DecodeFor) (i : Nat) (b : BitVec 32) (lost o : Nat)
    (bake : BitVec 32) (cls : Cls) (tag : Option (BitVec 16)) :
    ((s.askDecode c why i b lost o bake cls tag).job? c why i).isSome = true := by
  unfold State.askDecode
  split
  · assumption
  · have same : (BitVec.ofNat 4 c).toNat = c := by rw [BitVec.toNat_ofNat, Nat.mod_eq_of_lt low]
    simp [State.job?, DecodeJob.isFor, same]

/-- A covered tile that is asked for has a job. -/
theorem State.askOwn_job (s : State) (low : c < 16) (covered : ((s.ctx c).batchOfTile i).isSome = true) (why : DecodeFor)
    (cls : Cls) (tag : Option (BitVec 16)) : ((s.askOwn c why i cls tag).job? c why i).isSome = true := by
  obtain ⟨p, found⟩ := Option.isSome_iff_exists.mp covered
  unfold State.askOwn
  rw [found]
  exact State.askDecode_job s low ..

/-- Asking for a tile takes away no job. -/
theorem State.askOwn_job_mono (h : (s.job? c why i).isSome = true) (d : Nat) (for_ : DecodeFor) (k : Nat) (cls : Cls)
    (tag : Option (BitVec 16)) : ((s.askOwn d for_ k cls tag).job? c why i).isSome = true := by
  unfold State.askOwn
  split
  · exact h
  · unfold State.askDecode
    split
    · exact h
    · unfold State.job? at h ⊢
      rw [List.find?_append, Option.isSome_or, h]
      rfl

/-- Of the covered tiles asked for in turn each has a job. -/
theorem State.each_askOwn_job {l : List Nat} (low : c < 16) (covered : ((s.ctx c).batchOfTile i).isSome = true)
    (h : i ∈ l ∨ (s.job? c why i).isSome = true) (cls : Cls) :
    ((s.each l fun s u => s.askOwn c why u cls).job? c why i).isSome = true := by
  unfold State.each
  induction l generalizing s with
  | nil => exact h.resolve_left List.not_mem_nil
  | cons u l ih =>
    have ctx : (s.askOwn c why u cls).ctx c = s.ctx c :=
      State.ctx_of_ctxs (((Kept.refl (· = .fab) s).askOwn rfl ..).same .ctxs (by decide)) c
    refine ih (ctx ▸ covered) ?_
    rcases h with member | asked
    · rcases List.mem_cons.mp member with rfl | later
      · exact .inr (State.askOwn_job s low covered ..)
      · exact .inl later
    · exact .inr (State.askOwn_job_mono asked ..)

/-! ### DEMAND_REBUILD of a tile that is decoded (R330) -/

/-- A tile's loaf holds it (R257). -/
theorem Ctx.mem_loafTiles (x : Ctx) (i : Nat) : i ∈ x.loafTiles i := by
  unfold Ctx.loafTiles
  split
  · exact List.mem_singleton_self i
  · next n r found =>
    obtain ⟨low, high⟩ : r.first ≤ i ∧ i < r.first + r.count := by simpa using List.find?_some found
    refine List.mem_filter.mpr ⟨List.mem_map.mpr ⟨i - r.first, List.mem_range.mpr ?_, ?_⟩, beq_self_eq_true _⟩
    · omega
    · omega

/-- The demand on a loaf is counted. -/
def State.demanded (s : State) (c : Nat) : State :=
  (s.countCtx c 74).modCtx c (fun x => { x with group := { x.group with demand := x.group.demand + 1 } })

theorem State.demanded_ctx (s : State) (c : Nat) :
    (s.demanded c).ctx c = { s.ctx c with group := { (s.ctx c).group with demand := (s.ctx c).group.demand + 1 } } := by
  unfold State.demanded
  rw [State.modCtx_ctx_self, State.ctx_of_ctxs (State.countCtx_ctxs ..)]

/-- An unbuilt tile whose loaf nobody asked for yet: one more demand, and the loaf's unbuilt tiles are asked for. -/
theorem State.demandLoaf_fresh (unbuilt : (s.tile c i).unbuilt = true)
    (fresh : ((s.ctx c).loafTiles i).all (fun u => (s.job? c .rebuild u).isNone) = true) : ∃ l, i ∈ l
      ∧ s.demandLoaf c i = (s.demanded c).each l fun s u => s.askOwn c .rebuild u .d := by
  have member : i ∈ ((s.ctx c).loafTiles i).filter fun u => (s.tile c u).unbuilt :=
    List.mem_filter.mpr ⟨Ctx.mem_loafTiles _ i, unbuilt⟩
  refine ⟨_, member, ?_⟩
  have unasked : ¬ (((s.ctx c).loafTiles i).filter fun u => (s.tile c u).unbuilt).any (fun u => (s.job? c .rebuild u).isSome) = true := by
    intro asked
    obtain ⟨u, listed, job⟩ := List.any_eq_true.mp asked
    have none := List.all_eq_true.mp fresh u (List.mem_filter.mp listed).1
    rw [Option.isNone_iff_eq_none.mp none] at job
    cases job
  have some : ¬ (((s.ctx c).loafTiles i).filter fun u => (s.tile c u).unbuilt).isEmpty = true := fun empty =>
    List.ne_nil_of_mem member (List.isEmpty_iff.mp empty)
  unfold State.demandLoaf
  exact congrArg (fun u : State => u.each _ fun s u => s.askOwn c .rebuild u .d) (if_neg (not_or.mpr ⟨some, unasked⟩))

/-! ### DEMAND_REBUILD of a replica tile (R331) -/

/-- The regions of a context, and which of its tiles are unbuilt. -/
def Ctx.building (x : Ctx) : FMap Region × (Nat → Bool) := (x.regions, fun i => ((mget x.tiles i).getD {}).unbuilt)

theorem Ctx.building_tile {x : Ctx} {r r' : TileRec} (listed : mget x.tiles k = some r) (same : r'.unbuilt = r.unbuilt) :
    Ctx.building { x with tiles := mset x.tiles k r' } = x.building := by
  refine Prod.ext rfl (funext fun j => ?_)
  by_cases h : k = j
  · subst h
    simp [Ctx.building, mget_mset_self, listed, same]
  · simp [Ctx.building, mget_mset_ne _ _ h]

namespace State.Reads

theorem modTile_building (h : State.Reads Ctx.building s₀ s) (c k : Nat) {f : TileRec → TileRec}
    (hf : ∀ r, (f r).unbuilt = r.unbuilt) : State.Reads Ctx.building s₀ (s.modTile c k f) := by
  unfold State.modTile
  split
  · exact h
  · next r listed => exact h.modCtx (Ctx.building_tile listed (hf r))
theorem setReturn_building (h : State.Reads Ctx.building s₀ s) (c k : Nat) (v : TileState) :
    State.Reads Ctx.building s₀ (s.setReturn c k v) :=
  have set := h.modTile_building c k (f := fun r => { r with ret := v }) fun _ => rfl
  ite (fun _ => set) fun _ => set.of_eq rfl
theorem untrap_building (h : State.Reads Ctx.building s₀ s) (c k : Nat) : State.Reads Ctx.building s₀ (s.untrap c k) :=
  ite (fun _ => h.setReturn_building c k _) fun _ => h
theorem bakeCopy_building (h : State.Reads Ctx.building s₀ s) (c k : Nat) (v : Tile) :
    State.Reads Ctx.building s₀ (s.bakeCopy c k v) :=
  ite (fun _ => h) fun _ => ((h.modTile_building c k fun _ => by split <;> rfl).countCtx c _ _).of_kept
    ((Kept.refl _ _).peakCtx (by decide) _ _ _)
theorem makeCopies_building (h : State.Reads Ctx.building s₀ s) (c k : Nat) :
    State.Reads Ctx.building s₀ (s.makeCopies c k) := by
  unfold State.makeCopies
  extract_lets v bs u copied
  have made : State.Reads Ctx.building s₀ copied := (h.bakeCopy_building c k v).each fun t b g =>
    g.of_kept (((Kept.refl _ t).modBranch (by decide) b _).countCtx (by decide) c _ _)
  exact ite (fun _ => h) fun _ =>
    (made.modTile_building c k (f := fun r => { r with owed := 0 }) fun _ => rfl).untrap_building c k
theorem portWrite_building (h : State.Reads Ctx.building s₀ s) (c k : Nat) (v : Tile) :
    State.Reads Ctx.building s₀ (s.portWrite c k v) :=
  (h.makeCopies_building c k).of_kept ((Kept.refl _ _).setHome (by decide) (by decide) c k v)
theorem cover (h : State.Reads Ctx.building s t) (c i : Nat) : (t.ctx c).cover i = (s.ctx c).cover i := by
  have regions : (t.ctx c).regions = (s.ctx c).regions := congrArg Prod.fst (h.ctx c)
  unfold Ctx.cover Ctx.regionOf
  rw [regions]
theorem unbuilt (h : State.Reads Ctx.building s t) (c i : Nat) : (t.tile c i).unbuilt = (s.tile c i).unbuilt :=
  congrFun (congrArg Prod.snd (h.ctx c)) i

end State.Reads

/-- From `s` to `t` the coverage of a tile stands, and it does not become unbuilt. -/
structure State.Builds (c i : Nat) (s t : State) : Prop where
  cover : (t.ctx c).cover i = (s.ctx c).cover i
  unbuilt : (t.tile c i).unbuilt = true → (s.tile c i).unbuilt = true

namespace State.Builds

theorem refl (c i : Nat) (s : State) : State.Builds c i s s := ⟨rfl, id⟩
theorem trans {u : State} (h : State.Builds c i s₀ s) (g : State.Builds c i s u) : State.Builds c i s₀ u :=
  ⟨g.cover.trans h.cover, h.unbuilt ∘ g.unbuilt⟩
theorem of_reads (h : State.Reads Ctx.building s t) : State.Builds c i s t := ⟨h.cover c i, (h.unbuilt c i).symm.trans⟩

/-- A tile marked as built is: it has no record, or one that says so. -/
theorem marked (s : State) (c i k : Nat) (owes : Bool) :
    State.Builds c i s (s.modTile c k fun r => { r with unbuilt := false, owesBake := owes })
      ∧ ((s.modTile c i fun r => { r with unbuilt := false, owesBake := owes }).tile c i).unbuilt = false := by
  have self (i : Nat) : ((s.modTile c i fun r => { r with unbuilt := false, owesBake := owes }).tile c i).unbuilt = false := by
    unfold State.modTile
    cases found : s.tile? c i with
    | none => exact congrArg (fun o : Option TileRec => (o.getD {}).unbuilt) found
    | some r =>
      refine congrArg TileRec.unbuilt (State.tile_eq (r := { r with unbuilt := false, owesBake := owes }) ?_)
      unfold State.tile?
      rw [State.modCtx_ctx_self]
      exact mget_mset_self _ _ _
  refine ⟨⟨?_, fun left => ?_⟩, self i⟩
  · unfold State.modTile
    split
    · rfl
    · rw [State.modCtx_ctx_self]
      rfl
  · by_cases h : k = i
    · subst h
      rw [self] at left
      cases left
    · refine Eq.trans (congrArg TileRec.unbuilt ?_) left
      unfold State.modTile
      split
      · rfl
      · unfold State.tile State.tile?
        rw [State.modCtx_ctx_self]
        exact congrArg (fun o : Option TileRec => o.getD {}) (mget_mset_ne _ _ h).symm

end State.Builds

/-- A rebuilt tile is built, and no other tile becomes unbuilt by it. -/
theorem State.putRebuilt_builds (s : State) (c i k : Nat) (v : Tile) :
    State.Builds c i s (s.putRebuilt c k v) ∧ ((s.putRebuilt c i v).tile c i).unbuilt = false := by
  have frame (k : Nat) : ∃ u owes, State.Reads Ctx.building s u ∧ State.Reads Ctx.building
      (u.modTile c k fun r => { r with unbuilt := false, owesBake := owes }) (s.putRebuilt c k v) := by
    unfold State.putRebuilt
    extract_lets loaf snap built freed ran counted
    refine ⟨_, snap, ((State.Reads.refl _ s).portWrite_building c k v).of_kept
      ((Kept.refl _ _).serveTile (by decide) (by decide) c k .d 65536), ?_⟩
    have trapped : State.Reads Ctx.building built (if snap = true then built.trap c k else built) :=
      .ite (fun _ => (State.Reads.refl _ built).setReturn_building c k _) fun _ => .refl _ built
    have freed' : State.Reads Ctx.building built freed := trapped.of_kept
      (((Kept.refl _ _).unholdTile (by decide) c k .mendFailed).unholdTile (by decide) c k .unbuilt)
    have ran' : State.Reads Ctx.building built ran := freed'.modCtx rfl
    have counted' : State.Reads Ctx.building built counted := .ite (fun _ => ran') fun _ => (ran'.countCtx ..).modCtx rfl
    exact counted'.of_kept ((Kept.refl _ _).mendCommands (by decide) c k true)
  constructor
  · obtain ⟨u, owes, before, after⟩ := frame k
    exact ((State.Builds.of_reads before).trans (State.Builds.marked u c i k owes).1).trans (.of_reads after)
  · obtain ⟨u, owes, -, after⟩ := frame i
    exact (after.unbuilt c i).trans (State.Builds.marked u c i i owes).2

/-- A step of a replica loaf's rebuild: the tile it is for is built after it. -/
theorem State.rebuildTile_builds (replica : (s.ctx c).cover i = .replica) (k : Nat) (tag : Option (BitVec 16)) :
    State.Builds c i s (s.rebuildTile c k tag) ∧ ((s.rebuildTile c i tag).tile c i).unbuilt = false := by
  constructor
  · unfold State.rebuildTile
    split_ifs
    · exact .refl c i s
    · have free : State.Builds c i s s.freeTile.2 := ⟨rfl, id⟩
      exact free.trans (State.putRebuilt_builds s.freeTile.2 c i k s.freeTile.1).1
    · exact .of_reads ((State.Reads.refl _ s).of_kept ((Kept.refl _ s).askOwn (by decide) ..))
  · unfold State.rebuildTile
    split_ifs with built
    · exact Bool.not_eq_true' _ ▸ built
    · exact (State.putRebuilt_builds s.freeTile.2 c i i s.freeTile.1).2

/-- A replica tile in the list is built after the rebuild of each of the list. -/
theorem State.each_rebuildTile_built {l : List Nat} (replica : (s.ctx c).cover i = .replica)
    (h : i ∈ l ∨ (s.tile c i).unbuilt = false) : ((s.each l fun s u => s.rebuildTile c u none).tile c i).unbuilt = false := by
  unfold State.each
  induction l generalizing s with
  | nil => exact h.resolve_left List.not_mem_nil
  | cons u l ih =>
    obtain ⟨builds, -⟩ := State.rebuildTile_builds replica u none
    refine ih (builds.cover.trans replica) ?_
    rcases h with member | built
    · rcases List.mem_cons.mp member with rfl | later
      · exact .inr (State.rebuildTile_builds replica i none).2
      · exact .inl later
    · exact .inr (Bool.eq_false_iff.mpr fun left => Bool.eq_false_iff.mp built (builds.unbuilt left))

/-! ### Holds of a mend (R74, R337) -/

theorem State.heldFor_of_kept (h : Kept (fun p => p ≠ .ctxs ∧ p ≠ .slices) s t) (c i : Nat) (w : HoldWhy) :
    t.heldFor c i w = s.heldFor c i w := by
  unfold State.heldFor
  rw [State.tile_of_ctxs (h.same .ctxs (by decide)), State.slice_of_slices (h.same .slices (by decide))]

/-- A tile held for a reason is held for it. -/
theorem State.heldFor_holdTile (s : State) (c i : Nat) (w : HoldWhy) : (s.holdTile c i w).heldFor c i w = true := by
  have at_home : ((s.holdTile c i w).slice (s.tile c i).slice).heldFor (s.tile c i).stack w = true := by
    unfold State.holdTile State.hold Slice.hold Slice.heldFor
    rw [State.modSlice_slice_self, mgetD_mset_self]
    cases w <;> simp [HoldWhy.bit]
  exact at_home

/-- The bit of one reason is not another's. -/
theorem HoldWhy.keeps {w v : HoldWhy} (other : w ≠ v) : (~~~(BitVec.ofNat 8 (2 ^ v.bit))).getLsbD w.bit = true := by
  revert other
  cases w <;> cases v <;> decide

/-- The end of one reason leaves every other. -/
theorem Slice.heldFor_unhold {a : Slice} {w v : HoldWhy} (h : a.heldFor i w = true) (other : w ≠ v) (ret : TileState) :
    (a.unhold i v ret).heldFor i w = true := by
  have kept : (mgetD a.holds i 0 &&& ~~~(BitVec.ofNat 8 (2 ^ v.bit))).getLsbD w.bit = true := by
    unfold Slice.heldFor at h
    rw [BitVec.getLsbD_and, h, HoldWhy.keeps other]
    rfl
  unfold Slice.unhold
  dsimp only
  rw [if_neg fun zero => by rw [zero, BitVec.ofNat_eq_ofNat, BitVec.getLsbD_zero] at kept; cases kept]
  unfold Slice.heldFor
  rw [mgetD_mset_self]
  exact kept

theorem State.heldFor_unholdTile {w v : HoldWhy} (h : s.heldFor c i w = true) (other : w ≠ v) :
    (s.unholdTile c i v).heldFor c i w = true := by
  have at_home : ((s.unholdTile c i v).slice (s.tile c i).slice).heldFor (s.tile c i).stack w = true := by
    unfold State.unholdTile State.unhold
    split
    · rw [State.modSlice_slice_self]
      exact Slice.heldFor_unhold h other _
    · exact h
  unfold State.heldFor
  rw [State.tile_of_ctxs (((Kept.refl (· = .slices) s).unholdTile rfl c i v).same .ctxs (by decide))]
  exact at_home

/-- A mend that failed leaves its tile held as one that did (R337). -/
theorem State.mendDone_none_held (s : State) (c i : Nat) : (s.mendDone c i none).heldFor c i .mendFailed = true := by
  have held (u : State) : ((u.holdTile c i .mendFailed).unholdTile c i .mend).heldFor c i .mendFailed = true :=
    State.heldFor_unholdTile (State.heldFor_holdTile u c i .mendFailed) (by decide)
  unfold State.mendDone
  simp only [ite_self]
  refine (State.heldFor_of_kept ?_ c i .mendFailed).trans (held (s.modTile c i fun r => { r with damaged := false }))
  exact (((Kept.refl _ _).countCtx (by decide) ..).emit (by decide) (by decide) ..).mendCommands (by decide) ..

/-! ### The four instructions -/

section
variable {slice tile : Nat}

/-- A tile whose loaf is decoded: it is asked for, and its loaf's demand is counted (R330). -/
theorem execDemandRebuild_asks (low : c < 16) (home : s.owner slice tile = some (c, i)) (running : s.running = true)
    (lock : s.frames.lock = true) (unbuilt : (s.tile c i).unbuilt = true) (decoded : (s.ctx c).cover i ≠ .replica)
    (covered : ((s.ctx c).batchOfTile i).isSome = true)
    (fresh : ((s.ctx c).loafTiles i).all (fun u => (s.job? c .rebuild u).isNone) = true) :
    ∃ t, execDemandRebuild slice tile s = .next t ∧ (t.job? c .rebuild i).isSome = true
      ∧ (t.ctx c).group.demand = (s.ctx c).group.demand + 1 := by
  obtain ⟨l, member, asks⟩ := State.demandLoaf_fresh unbuilt fresh
  refine ⟨(s.demanded c).each l fun s u => s.askOwn c .rebuild u .d, ?_, ?_, ?_⟩
  · unfold execDemandRebuild
    rw [home]
    simp [running, State.locked, lock, unbuilt, decoded, asks]
  · refine State.each_askOwn_job low ?_ (.inl member) .d
    rw [State.demanded_ctx]
    exact covered
  · have ctxs : ((s.demanded c).each l fun s u => s.askOwn c .rebuild u .d).ctxs = (s.demanded c).ctxs :=
      ((Kept.refl (· = .fab) _).each fun _ _ h => h.askOwn rfl ..).same .ctxs (by decide)
    rw [State.ctx_of_ctxs ctxs, State.demanded_ctx]

/-- A replica tile is rebuilt at once (R331). -/
theorem execDemandRebuild_replica (home : s.owner slice tile = some (c, i)) (running : s.running = true)
    (lock : s.frames.lock = true) (unbuilt : (s.tile c i).unbuilt = true) (replica : (s.ctx c).cover i = .replica) :
    ∃ t, execDemandRebuild slice tile s = .next t ∧ (t.tile c i).unbuilt = false := by
  refine ⟨(s.demanded c).each (((s.demanded c).ctx c).loafTiles i) fun s u => s.rebuildTile c u none, ?_, ?_⟩
  · unfold execDemandRebuild
    rw [home]
    dsimp only
    rw [if_neg (by simp [running, State.locked, lock, unbuilt]), if_pos replica]
    rfl
  · refine State.each_rebuildTile_built ?_ (.inl (Ctx.mem_loafTiles _ i))
    rw [State.demanded_ctx]
    exact replica

end

section
variable {ctx : BitVec 4} {p : BitVec 5}

/-- Every 128 frames of a rebuild its progress is an event (R333). -/
theorem execRebuildProgress_says (adopted : (s.ctx ctx.toNat).group.adopted = some p)
    (rebuilds : (s.ctx ctx.toNat).group.rebuild.isSome = true)
    (later : (s.frames.frame - (s.ctx ctx.toNat).group.rebuildFrame).toNat ≠ 0)
    (due : (s.frames.frame - (s.ctx ctx.toNat).group.rebuildFrame).toNat % 128 = 0) :
    execRebuildProgress ctx s = .next (s.emit 0x0050 0 (some ctx.toNat) [(0, p.toNat),
      (4, min 0xFFFFFFFF (s.ctx ctx.toNat).group.rebuilt), (8, min 0xFFFFFFFF (s.ctx ctx.toNat).group.rebuiltAll),
      (12, min 0xFFFFFFFF (s.ctx ctx.toNat).group.demand)]) := by
  obtain ⟨r, found⟩ := Option.isSome_iff_exists.mp rebuilds
  unfold execRebuildProgress
  dsimp only
  rw [found, adopted]
  dsimp only
  rw [if_neg (not_or.mpr ⟨later, not_not.mpr due⟩)]
  simp only [sat32, sat, Nat.min_comm]

theorem execRebuildProgress_waits
    (early : (s.frames.frame - (s.ctx ctx.toNat).group.rebuildFrame).toNat % 128 ≠ 0) :
    execRebuildProgress ctx s = .next s := by
  unfold execRebuildProgress
  dsimp only
  split
  · rw [if_pos (.inr early)]
  · rfl

/-- A rebuild of which a kind has ended; nothing is rebuilt any more once REBUILD_START waits for no other kind (R333). -/
def Group.marked (g : Group) (crust : Bool) : Group :=
  if crust then { g with rebuildCrust := true } else { g with rebuildData := true }
def Group.ended (g : Group) (crust : Bool) : Group :=
  match (g.marked crust).rebuild with
  | some (_, both) =>
    if (g.marked crust).rebuildData ∧ (!both ∨ (g.marked crust).rebuildCrust) then { g.marked crust with rebuild := none }
    else g.marked crust
  | none => g.marked crust

theorem Group.ended_said (g : Group) (crust : Bool) : (g.ended crust).rebuildData = (g.marked crust).rebuildData
    ∧ (g.ended crust).rebuildCrust = (g.marked crust).rebuildCrust := by
  unfold Group.ended
  split
  · split_ifs
    · exact ⟨rfl, rfl⟩
    · exact ⟨rfl, rfl⟩
  · exact ⟨rfl, rfl⟩

/-- A REBUILD_START of the data alone waits for the data alone. -/
theorem Group.ended_data {g : Group} {tag : BitVec 16} (h : g.rebuild = some (tag, false)) : (g.ended false).rebuild = none := by
  unfold Group.ended Group.marked
  simp [h]

/-- A kind that is built and was not said to be ends the rebuild's part for it. -/
theorem execRebuildDone_ends {kind : Bool} (adopted : (s.ctx ctx.toNat).group.adopted = some p) (live : s.live = true)
    (unsaid : (if kind then (s.ctx ctx.toNat).group.rebuildCrust else (s.ctx ctx.toNat).group.rebuildData) = false)
    (built : (if kind then (s.ctx ctx.toNat).builtCrust else (s.ctx ctx.toNat).builtData) = true) :
    ∃ t, execRebuildDone ctx kind s = .next t ∧ (t.ctx ctx.toNat).group = (s.ctx ctx.toNat).group.ended kind := by
  unfold execRebuildDone
  extract_lets c x said marked n
  rw [show x.group.adopted = some p from adopted]
  dsimp -zeta only
  extract_lets emitted g
  have run : ¬ (!s.live || said || !(if kind then x.builtCrust else x.builtData)) = true := by
    simp [live, show said = false from unsaid, show (if kind = true then x.builtCrust else x.builtData) = true from built]
  rw [if_neg run]
  have group : g = (s.ctx c).group.marked kind := by
    have kept : emitted.ctxs = marked.ctxs := ((Kept.refl (· ≠ .ctxs) marked).emit (by decide) (by decide) ..).same .ctxs (by decide)
    change (emitted.ctx c).group = _
    rw [State.ctx_of_ctxs kept c, State.modCtx_ctx_self]
    rfl
  unfold Group.ended
  rw [← group]
  rcases g.rebuild with _ | ⟨tag, both⟩
  · exact ⟨emitted, rfl, rfl⟩
  · dsimp -zeta only
    split_ifs
    · refine ⟨_, rfl, ?_⟩
      have kept := ((Kept.refl (· ≠ .ctxs) (emitted.modCtx c fun x => { x with group := { x.group with rebuild := none } })).finish
        (by decide) c tag 0 (sat32 g.rebuilt)).same .ctxs (by decide)
      rw [State.ctx_of_ctxs kept c, State.modCtx_ctx_self]
    · exact ⟨emitted, rfl, rfl⟩

end

section
variable {ctx : BitVec 4}

/-- A MEND that runs begins to mend its tile (R336). -/
theorem execMend_begins (running : s.running = true) (lock : s.frames.lock = true) (held : s.heldFor ctx.toNat i .mend = true)
    (joined : (s.ctx ctx.toNat).group.joined = true) (unasked : s.job? ctx.toNat .mend i = none) :
    execMend ctx i s = .next (s.beginMend ctx.toNat i) := by
  unfold execMend
  simp [running, State.locked, lock, held, joined, unasked]

end

/-- The mend of a covered tile asks for its decode, and the tile stays held for it. -/
theorem State.beginMend_asks (low : c < 16) (decoded : (s.ctx c).cover i ≠ .replica) (mends : s.mendFails c i = false)
    (covered : ((s.ctx c).batchOfTile i).isSome = true) :
    ((s.beginMend c i).job? c .mend i).isSome = true ∧ (s.beginMend c i).heldFor c i .mend = true := by
  have asks : s.beginMend c i = (s.holdTile c i .mend).askOwn c .mend i ((s.holdTile c i .mend).mendClass c i).1
      ((s.holdTile c i .mend).mendClass c i).2 := by
    unfold State.beginMend
    dsimp only
    rw [if_neg decoded, if_neg (show ¬ (s.holdTile c i .mend).mendFails c i = true from Bool.eq_false_iff.mp mends)]
  rw [asks]
  constructor
  · exact State.askOwn_job (s.holdTile c i .mend) low covered ..
  · exact (State.heldFor_of_kept ((Kept.refl _ _).askOwn (by decide) ..) c i .mend).trans (State.heldFor_holdTile s c i .mend)

/-- The mend of a tile that cannot be decoded fails at once (R337). -/
theorem State.beginMend_fails (decoded : (s.ctx c).cover i ≠ .replica) (fails : s.mendFails c i = true) :
    (s.beginMend c i).heldFor c i .mendFailed = true := by
  unfold State.beginMend
  dsimp only
  rw [if_neg decoded, if_pos (show (s.holdTile c i .mend).mendFails c i = true from fails)]
  exact State.mendDone_none_held _ c i

/-- Settles O58: each instruction by its own rule, from the decodes asked for, the tiles built and the holds kept. -/
theorem rebuildsAndMendsProceed : Obligations.RebuildsAndMendsProceed := by
  unfold Obligations.RebuildsAndMendsProceed
  intro s
  refine ⟨?_, ?_, ?_⟩
  · intro slice tile c i low home running lock unbuilt
    exact ⟨execDemandRebuild_asks low home running lock unbuilt, execDemandRebuild_replica home running lock unbuilt⟩
  · intro ctx p g n adopted
    refine ⟨execRebuildProgress_says adopted, execRebuildProgress_waits, fun live unsaid built => ?_, fun live unsaid built => ?_⟩
    · have built' : (s.ctx ctx.toNat).builtData = true := by
        unfold Ctx.builtData
        rw [List.not_any_eq_all_not]
        exact built
      obtain ⟨t, ends, group⟩ := execRebuildDone_ends (kind := false) adopted live unsaid built'
      exact ⟨t, ends, group ▸ (Group.ended_said _ false).1, fun tag data => group ▸ Group.ended_data data⟩
    · obtain ⟨t, ends, group⟩ := execRebuildDone_ends (kind := true) adopted live unsaid built
      exact ⟨t, ends, group ▸ (Group.ended_said _ true).2⟩
  · intro ctx i c running lock held joined unasked
    have begins := execMend_begins running lock held joined unasked
    exact ⟨fun decoded mends covered => ⟨_, begins, State.beginMend_asks ctx.isLt decoded mends covered⟩,
      fun decoded fails => ⟨_, begins, State.beginMend_fails decoded fails⟩⟩

end Sys2Proof.Machine
namespace Sys2Proof.Machine

variable {s : State} {peel : Nat} {slot : BitVec 10} {r : Req}

/-! ### A request that times out -/

theorem State.Noted.quar {t : State} (h : s.Noted t) : t.fab.quar = s.fab.quar := by rw [h]
theorem State.Noted.frames {t : State} (h : s.Noted t) : t.frames = s.frames := by rw [h]
theorem State.Noted.live {t : State} (h : s.Noted t) : t.live = s.live := by
  unfold State.live
  rw [h.boot]
theorem State.Noted.noteTimeout (s : State) (p : Nat) : s.Noted (s.noteTimeout p) := (refl s).each fun t c => modSign t c p _

/-- A request expires by its quarantine; what happens before and after it is noted and no more (R362). -/
theorem State.expire_quarantines (s : State) (r : Req) : ∃ q, s.Noted q ∧ (q.quarantine r).Noted (s.expire r) :=
  ⟨(s.countPeel r.peel (14 + r.cls.idx)).risk 2 1, (State.Noted.countPeel s ..).trans (.risk _ 2 1),
    .ite (fun _ => .refl _) fun _ => .noteTimeout ..⟩

theorem State.expire_reqAt (s : State) (r : Req) : (s.expire r).reqAt r.peel r.slot = none := by
  obtain ⟨q, -, after⟩ := s.expire_quarantines r
  exact (State.reqAt_congr after.reqs r.slot).trans (q.freeReq_reqAt r)

theorem State.expire_quar (s : State) (r : Req) :
    (s.expire r).fab.quar = s.fab.quar ++ [⟨r.peel, r.slot, s.frames.frame + 4⟩] := by
  obtain ⟨q, before, after⟩ := s.expire_quarantines r
  rw [← before.quar, ← before.frames]
  exact after.quar

theorem State.expire_retries (s : State) (r : Req) : (s.expire r).fab.retries = s.fab.retries := by
  obtain ⟨q, before, after⟩ := s.expire_quarantines r
  exact after.retries.trans before.retries

theorem State.expire_live (s : State) (r : Req) : (s.expire r).live = s.live := by
  obtain ⟨q, before, after⟩ := s.expire_quarantines r
  exact after.live.trans before.live

theorem State.expire_fencedAny (s : State) (r : Req) (p : Nat) : (s.expire r).fencedAny p = s.fencedAny p := by
  obtain ⟨q, before, after⟩ := s.expire_quarantines r
  unfold State.fencedAny
  rw [show (s.expire r).ctxs = s.ctxs from after.ctxs.trans before.ctxs]

/-- A notice, a record or a crumb that times out goes out again under a later plan, unless its position is fenced (R316, R351). -/
theorem State.endReq_again (why : r.why = .notice ∨ r.why = .record ∨ ∃ b i f, r.why = .crumb b i f)
    (unfenced : s.fencedAny r.dst.toNat = false) : s.endReq r .timedOut = s.retryLater r := by
  unfold State.endReq
  dsimp only
  rw [unfenced]
  obtain why | why | ⟨b, i, f, why⟩ := why <;> (rw [why]; rfl)

/-! ### FABRIC_REQUEST_TIMEOUT -/

theorem execFabricRequestTimeout_free (free : s.reqAt peel slot = none) :
    exec (.fabricRequestTimeout peel slot) s = .next s := by
  change execFabricRequestTimeout peel slot s = _
  unfold execFabricRequestTimeout
  rw [free]

/-- The period of a request that waits for its link has not begun (R362). -/
theorem execFabricRequestTimeout_unsent (unsent : s.unsent peel slot = true) :
    exec (.fabricRequestTimeout peel slot) s = .next s := by
  cases asked : s.reqAt peel slot with
  | none => exact execFabricRequestTimeout_free asked
  | some r =>
    change execFabricRequestTimeout peel slot s = _
    unfold execFabricRequestTimeout
    rw [asked]
    exact if_pos (by rw [unsent, Bool.or_true])

section
variable (asked : s.reqAt peel slot = some r) (unheld : s.fab.heldRsp.any (fun h => h.1 == peel && h.2.1 == slot) = false)
  (sent : s.unsent peel slot = false)
include asked unheld sent

/-- A request that was sent expires, and ends where the engine is live; under a guard freeze, an end that gate state waits for is
held for the thaw (R468). -/
theorem execFabricRequestTimeout_sent : exec (.fabricRequestTimeout peel slot) s =
    if s.boot.guardFrz && s.live && r.why.gated then
      .next { s with fab := { s.fab with heldRsp := s.fab.heldRsp ++ [(peel, slot, none)] } }
    else .next (if s.live then (s.expire r).endReq r .timedOut else s.expire r) := by
  change execFabricRequestTimeout peel slot s = _
  unfold execFabricRequestTimeout
  rw [asked]
  refine (if_neg (by rw [unheld, sent]; decide)).trans ?_
  dsimp only
  rw [State.expire_live]

theorem execFabricRequestTimeout_dead (dead : s.live = false) : exec (.fabricRequestTimeout peel slot) s = .next (s.expire r) := by
  rw [execFabricRequestTimeout_sent asked unheld sent, dead, Bool.and_false, Bool.false_and]
  rfl

theorem execFabricRequestTimeout_ends (running : s.running = true) :
    exec (.fabricRequestTimeout peel slot) s = .next ((s.expire r).endReq r .timedOut) := by
  obtain ⟨live, thawed⟩ := Bool.and_eq_true_iff.mp running
  rw [Bool.not_eq_true'] at thawed
  rw [execFabricRequestTimeout_sent asked unheld sent, thawed, live, Bool.false_and, Bool.false_and]
  rfl

theorem execFabricRequestTimeout_held (live : s.live = true) (freeze : s.boot.guardFrz = true) (gated : r.why.gated = true) :
    exec (.fabricRequestTimeout peel slot) s = .next
      { s with fab := { s.fab with heldRsp := s.fab.heldRsp ++ [(peel, slot, none)] } } := by
  rw [execFabricRequestTimeout_sent asked unheld sent, freeze, live, gated]
  rfl

/-- What is only to be acknowledged leaves its slot and waits to be sent again (R351). -/
theorem execFabricRequestTimeout_again (running : s.running = true)
    (why : r.why = .notice ∨ r.why = .record ∨ ∃ b i f, r.why = .crumb b i f) (unfenced : s.fencedAny r.dst.toNat = false) :
    ∃ t, exec (.fabricRequestTimeout peel slot) s = .next t ∧ t.reqAt peel slot = none
      ∧ t.fab.retries = s.fab.retries ++ [⟨r⟩] := by
  obtain ⟨rfl, rfl⟩ := State.reqAt_names asked
  refine ⟨(s.expire r).retryLater r, ?_, s.expire_reqAt r, congrArg (· ++ [Retry.mk r]) (s.expire_retries r)⟩
  rw [execFabricRequestTimeout_ends asked unheld sent running,
    State.endReq_again why ((s.expire_fencedAny r _).trans unfenced)]

end

/-! ### TAG_QUARANTINE_END -/

/-- Of the quarantines, those of the slot whose frame has come are freed (R365). -/
theorem execTagQuarantineEnd_frees (s : State) (peel : Nat) (slot : BitVec 10) :
    ∃ t, exec (.tagQuarantineEnd peel slot) s = .next t ∧ t = { s with fab := { s.fab with quar := t.fab.quar } }
      ∧ ∀ q, q ∈ t.fab.quar ↔ q ∈ s.fab.quar
        ∧ ¬(q.peel = peel ∧ q.slot = slot ∧ (q.until_ = s.frames.frame ∨ framePast q.until_ s.frames.frame = true)) := by
  refine ⟨_, rfl, rfl, fun q => List.mem_filter.trans (and_congr_right fun _ => ?_)⟩
  rw [Bool.not_eq_true', ← Bool.not_eq_true, not_congr]
  simp only [Bool.and_eq_true, Bool.or_eq_true, beq_iff_eq, and_assoc, or_comm]

/-! ### COMPARE_WAIT_LIMIT -/

/-- The model's removal of a first element is the library's. -/
theorem dropFirst_eq_eraseP {α : Type} (p : α → Bool) (l : List α) : dropFirst p l = l.eraseP p := by
  induction l with
  | nil => rfl
  | cons a l ih => rw [dropFirst, List.eraseP_cons, ih, Bool.cond_eq_ite]

section
variable {src : BitVec 5} {tag : BitVec 16}

/-- The waiter's request came by the peel, from the source and with the tag. -/
def Waiter.cameBy (peel : Nat) (src : BitVec 5) (tag : BitVec 16) (w : Waiter) : Bool :=
  w.peel == peel && w.x.src == src.toNat && w.x.num 2 2 == tag.toNat

theorem Waiter.cameBy_iff {w : Waiter} :
    w.cameBy peel src tag = true ↔ w.peel = peel ∧ w.x.src = src.toNat ∧ w.x.num 2 2 = tag.toNat := by
  simp only [Waiter.cameBy, Bool.and_eq_true, beq_iff_eq, and_assoc]

/-- The first such waiter is dropped, and no answer leaves (R363). -/
theorem execCompareWaitLimit_eq (s : State) (peel : Nat) (src : BitVec 5) (tag : BitVec 16) :
    exec (.compareWaitLimit peel src tag) s
      = .next { s with fab := { s.fab with waiters := s.fab.waiters.eraseP (Waiter.cameBy peel src tag) } } := by
  rw [← dropFirst_eq_eraseP]
  rfl

theorem execCompareWaitLimit_drops {before after : List Waiter} {w : Waiter} (waiters : s.fab.waiters = before ++ w :: after)
    (first : ∀ v ∈ before, ¬ v.cameBy peel src tag = true) (mine : w.cameBy peel src tag = true) :
    exec (.compareWaitLimit peel src tag) s = .next { s with fab := { s.fab with waiters := before ++ after } } := by
  rw [execCompareWaitLimit_eq, waiters, List.eraseP_append_right _ first, List.eraseP_cons_of_pos mine]

theorem execCompareWaitLimit_unwaited (others : ∀ v ∈ s.fab.waiters, ¬ v.cameBy peel src tag = true) :
    exec (.compareWaitLimit peel src tag) s = .next s := by
  rw [execCompareWaitLimit_eq, List.eraseP_of_forall_not others]

end

/-! ### LOCAL_WAIT_TIMEOUT -/

section
variable {ctx : BitVec 4} {tag : BitVec 16}

theorem execLocalWaitTimeout_ends (live : s.live = true) (waits : ∃ w ∈ s.fab.locals, w.ctx = ctx ∧ w.tag = tag) :
    exec (.localWaitTimeout ctx tag) s = .next (State.finish
      { s with fab := { s.fab with locals := s.fab.locals.filter (fun w => !(w.ctx == ctx && w.tag == tag)) } }
      ctx.toNat tag 0x0500 (s.ctx ctx.toNat).own) := by
  have found : s.fab.locals.any (fun w => w.ctx == ctx && w.tag == tag) = true := by simpa using waits
  exact if_neg (by rw [live, found]; decide)

theorem execLocalWaitTimeout_unwaited (idle : s.live = false ∨ ∀ w ∈ s.fab.locals, ¬(w.ctx = ctx ∧ w.tag = tag)) :
    exec (.localWaitTimeout ctx tag) s = .next s := by
  refine if_pos ?_
  rcases idle with dead | unwaited
  · rw [dead]; rfl
  · have missing : s.fab.locals.any (fun w => w.ctx == ctx && w.tag == tag) = false := by simpa using unwaited
    rw [missing, Bool.not_false, Bool.or_true]

end

/-! ### KEY_GRACE_END -/

/-- The previous key goes when its frame has come, and not before (R358). -/
theorem execKeyGraceEnd_drops (s : State) (ctx : BitVec 4) :
    ∃ t, exec (.keyGraceEnd ctx) s = .next t ∧ t = { s with ctxs := t.ctxs }
      ∧ (∀ k f, (s.ctx ctx.toNat).keys.prev = some (k, f) →
        (f = s.frames.frame ∨ framePast f s.frames.frame = true → t.ctx ctx.toNat = { s.ctx ctx.toNat with
          keys := { (s.ctx ctx.toNat).keys with prev := none } })
        ∧ (f ≠ s.frames.frame → framePast f s.frames.frame = false → t.ctx ctx.toNat = s.ctx ctx.toNat)) := by
  refine ⟨_, rfl, rfl, fun k f prev => ?_⟩
  rw [State.modCtx_ctx_self, prev]
  refine ⟨fun come => if_pos ?_, fun other before => if_neg ?_⟩
  · rwa [Bool.or_eq_true, beq_iff_eq, or_comm]
  · rw [before, Bool.false_or, beq_iff_eq]
    exact other

/-- Settles O49: each wait by the lemmas of the instruction that ends it. -/
theorem fabricWaitsEndByTime : Obligations.FabricWaitsEndByTime := by
  refine ⟨fun s peel slot => ⟨execFabricRequestTimeout_free, fun r asked unheld sent => ?_, execFabricRequestTimeout_unsent,
    execTagQuarantineEnd_frees s peel slot⟩, fun s => ⟨fun peel src tag => ?_, fun ctx tag => ?_, execKeyGraceEnd_drops s⟩⟩
  · obtain ⟨rfl, rfl⟩ := State.reqAt_names asked
    exact ⟨s.expire_reqAt r, s.expire_quar r, execFabricRequestTimeout_dead asked unheld sent,
      execFabricRequestTimeout_ends asked unheld sent, execFabricRequestTimeout_again asked unheld sent,
      execFabricRequestTimeout_held asked unheld sent⟩
  · exact ⟨fun _ _ _ waiters first mine => execCompareWaitLimit_drops waiters
        (fun v earlier => mt Waiter.cameBy_iff.mp (first v earlier)) (Waiter.cameBy_iff.mpr mine),
      fun others => execCompareWaitLimit_unwaited fun v waits => mt Waiter.cameBy_iff.mp (others v waits)⟩
  · exact ⟨execLocalWaitTimeout_ends, execLocalWaitTimeout_unwaited⟩

end Sys2Proof.Machine
namespace Sys2Proof.Machine

variable {s : State}

/-! ### Reset -/

/-- Settles O2: the modes of a cold reset are legal, and every table is empty. -/
theorem resetStateIsSound : Obligations.ResetStateIsSound where
  legal := Boot.Legal.cold_
  mem := rfl
  slices := rfl
  ctxs := rfl
  branches := rfl
  pctr := rfl
  engCtr := rfl
  slcCtr := rfl
  ctxCtr := rfl
  sram := rfl

/-- Settles O6: what the three leave is `State.cold`; a rise of rst_cold_n that is high already is no event. -/
theorem coldResetAndSupply : Obligations.ColdResetAndSupply := by
  refine fun s => ⟨fun low => ?_, fun high => ?_, rfl, rfl⟩
  · exact if_neg (by simp [low])
  · exact if_pos high
end Sys2Proof.Machine
namespace Sys2Proof.Machine

variable {s t : State} {r : BitVec 32}

/-! ### Requests of the management port -/

theorem State.manage_done {op : Nat} {data : State → Option Word} {act : State → State} (up : s.up = true) (asked : reqOp r = op)
    (ok : s.mgtResult r = 0) : s.manage op r data act = act (s.mgtAnswer r 0 (data s)) :=
  (if_neg (by simp [up, asked])).trans (if_pos ok)

/-- A request that fails is answered and counted, and nothing follows it (R471). -/
theorem State.manage_failed {op : Nat} {data : State → Option Word} {act : State → State} (up : s.up = true) (asked : reqOp r = op)
    {n : Nat} (result : s.mgtResult r = n) (bad : n ≠ 0) : s.manage op r data act = s.mgtAnswer r n none := by
  subst result
  exact (if_neg (by simp [up, asked])).trans (if_neg bad)

theorem State.mgtResult_reserved (reserved : reqReserved r = true) : s.mgtResult r = 2 := if_pos reserved

theorem reqReserved_of_high (high : fld r 20 12 ≠ 0) : reqReserved r = true := by simp [reqReserved, high]

/-- A request other than GUARD_RESET without reserved bits succeeds. -/
theorem State.mgtResult_plain (other : reqOp r ≠ 4) (clean : fld r 20 12 = 0) : s.mgtResult r = 0 := by
  simp [State.mgtResult, reqReserved, other, clean]

/-- A GUARD_RESET without reserved bits succeeds unless DEBUG is asked for where it is not allowed (R470). -/
theorem State.mgtResult_reset (asked : reqOp r = 4) (clean : fld r 20 12 = 0) (clean' : fld r 14 6 = 0) :
    s.mgtResult r = if reqDebug r = true ∧ (s.fieldLock = true ∨ reqContext r = true) then 3 else 0 := by
  simp [State.mgtResult, reqReserved, asked, clean, clean']

/-! ### GUARD_THAW -/

/-- The end of a guard freeze, before what waited for it is taken up (R468). -/
def State.unguarded (s : State) : State := { s with boot := { s.boot with guardFrz := false } }.countGuard 5

theorem State.guardThaw_idle (h : s.boot.guardFrz = false ∨ s.boot.phase = .teardown) : s.guardThaw = s := if_pos h

theorem State.takeHeld_boot (s : State) : s.takeHeld.boot = s.boot := by
  have kept : Kept (· ≠ .boot) s s.takeHeld := by apply (Kept.refl _ s).takeHeld <;> decide
  exact kept.same .boot (by decide)

/-- What waited for the thaw leaves the boot state as the thaw has it. -/
theorem State.guardThaw_boot (h : ¬ (s.boot.guardFrz = false ∨ s.boot.phase = .teardown)) :
    s.guardThaw.boot = s.unguarded.boot := by
  have thaw : s.guardThaw = if s.unguarded.live then s.unguarded.takeHeld else s.unguarded := if_neg h
  rw [thaw]
  split
  · exact State.takeHeld_boot s.unguarded
  · rfl

/-- Settles O10: a thaw that finds no guard freeze, or a teardown, is its answer alone; any other ends the guard freeze and no other. -/
theorem guardThawEndsAGuardFreeze : Obligations.GuardThawEndsAGuardFreeze := by
  intro s r cold supply asked clean
  have run : exec (.guardThaw r) s = .next (s.mgtAnswer r 0 none).guardThaw :=
    congrArg Host.Outcome.next (State.manage_done (State.up_of cold supply) asked
      (State.mgtResult_plain (by rw [reqOp, asked]; decide) clean))
  have answer : (s.mgtAnswer r 0 none).boot.mgt
      = some { op := 3, seq := BitVec.ofNat 4 (fld r 4 4), result := 0, data := none } :=
    congrArg (fun n => some (MgtRsp.mk (BitVec.ofNat 4 n) (BitVec.ofNat 4 (fld r 4 4)) 0 none)) asked
  refine ⟨_, run, ?_⟩
  by_cases h : (s.mgtAnswer r 0 none).boot.guardFrz = false ∨ (s.mgtAnswer r 0 none).boot.phase = .teardown
  · rw [State.guardThaw_idle h]
    exact ⟨answer, fun calm => h.resolve_right calm, rfl, rfl, fun _ => rfl⟩
  · rw [State.guardThaw_boot h]
    exact ⟨answer, fun _ => rfl, rfl, rfl, fun unheld => absurd (.inl unheld) h⟩

/-! ### The other requests -/

/-- Settles O11: each request by its result, its data read off the state in which it came. -/
theorem guardRequestsAreAnswered : Obligations.GuardRequestsAreAnswered := by
  intro s r cold supply ans
  have up := State.up_of cold supply
  have other {n : Nat} (asked : fld r 0 4 = n) (n4 : n ≠ 4) : reqOp r ≠ 4 := fun h => n4 (asked.symm.trans h)
  have failed {op : Nat} {data : State → Option Word} {act : State → State} (asked : fld r 0 4 = op) (high : fld r 20 12 ≠ 0) :
      s.manage op r data act = (ans 2 none).countGuard 7 :=
    State.manage_failed up asked (State.mgtResult_reserved (reqReserved_of_high high)) (by decide)
  refine ⟨fun asked clean => ?_, fun asked clean => ?_, fun asked clean => ?_, fun unknown => ?_, fun high =>
    ⟨fun asked => ?_, fun asked => ?_, fun asked => ?_, fun asked => ?_⟩⟩
  · exact congrArg Host.Outcome.next (State.manage_done up asked (State.mgtResult_plain (other asked (by decide)) clean))
  · exact congrArg Host.Outcome.next (State.manage_done up asked (State.mgtResult_plain (other asked (by decide)) clean))
  · exact congrArg Host.Outcome.next (State.manage_done up asked (State.mgtResult_plain (other asked (by decide)) clean))
  · refine if_neg ?_
    rintro (down | known)
    · rw [up] at down
      cases down
    · unfold reqOp at known
      omega
  all_goals exact congrArg Host.Outcome.next (failed asked high)

end Sys2Proof.Machine
namespace Sys2Proof.Machine

variable {s t : State} {r : BitVec 32}

/-! ### A context reset -/

/-- Final replies for a list of commands of one context leave no more than the commands outside the list. -/
theorem State.each_finish_keys (k n d : Nat) (l : List Adm) :
    (s.each l (fun s a => s.finish k a.c.tag n d)).keys.Sublist (s.keys.diff (l.map fun a => (k, a.c.tag))) := by
  unfold State.each
  induction l generalizing s with
  | nil => exact List.Sublist.refl _
  | cons a l ih =>
    rw [List.map_cons, List.diff_cons]
    exact ih.trans ((State.finish_keys k a.c.tag n d).diff_right)

/-- The commands of a context stand among the admitted ones with as many tags (R88). -/
theorem count_key_filter (k : Nat) (g : BitVec 16) (l : List Adm) :
    (((l.filter fun a => a.c.cid == k).map fun a => (k, a.c.tag)).count (k, g)) = (l.map Adm.key).count (k, g) := by
  rw [List.count_eq_countP, List.count_eq_countP, List.countP_map, List.countP_map, List.countP_filter]
  refine List.countP_congr fun a _ => ?_
  simp [Adm.key, Cmd.cid, and_comm]

/-- The commands of a context, its cancel commands last. -/
def State.commandsOf (s : State) (k : Nat) : List Adm :=
  let l := s.link.admitted.filter (fun a => a.c.cid == k)
  l.filter Adm.counts ++ l.filter (fun a => !a.counts)

theorem State.count_commandsOf (s : State) (k : Nat) (g : BitVec 16) :
    ((s.commandsOf k).map fun a => (k, a.c.tag)).count (k, g) = s.keys.count (k, g) := by
  unfold State.commandsOf
  rw [((List.filter_append_perm Adm.counts _).map _).count_eq, count_key_filter]
  rfl

theorem State.endCommands_eq (s : State) (k : Nat) : ∃ f, s.endCommands k
    = State.each { s with frames := f } (s.commandsOf k) (fun s a => s.finish k a.c.tag 0x0700 0) := by
  unfold State.endCommands
  dsimp only
  split
  · exact ⟨_, rfl⟩
  · exact ⟨s.frames, rfl⟩

/-- No command of the context is left (R466). -/
theorem State.endCommands_none (s : State) (k : Nat) : (s.endCommands k).link.admitted.all (fun a => a.c.cid != k) = true := by
  obtain ⟨f, ended⟩ := s.endCommands_eq k
  have left : (s.endCommands k).keys.Sublist (s.keys.diff ((s.commandsOf k).map fun a => (k, a.c.tag))) := by
    rw [ended]
    exact State.each_finish_keys (s := { s with frames := f }) k 0x0700 0 _
  refine List.all_eq_true.mpr fun a ha => bne_iff_ne.mpr fun mine => ?_
  have stands : a.key ∈ (s.endCommands k).keys := List.mem_map_of_mem ha
  have none : (s.keys.diff ((s.commandsOf k).map fun a => (k, a.c.tag))).count (k, a.c.tag) = 0 := by
    rw [List.count_diff, State.count_commandsOf, Nat.sub_self]
  rw [show a.key = (k, a.c.tag) from congrArg (·, a.c.tag) mine] at stands
  exact List.count_eq_zero.mp none (left.subset stands)

/-- The state of a context reset before the context's record goes: its commands ended, its ranges and its branches gone. -/
def State.cleared (s : State) (k : Nat) : State :=
  let u := (s.endCommands k).dropRanges k
  { u with branches := mkeep u.branches (fun _ b => b.ctx.toNat != k) }

theorem State.contextReset_kept (s : State) (k : Nat) :
    Kept (fun p => p ≠ .ctxs ∧ p ≠ .branches ∧ p ≠ .link) ((s.cleared k).vacate k) (s.contextReset k) :=
  ((Kept.refl _ _).freeStacks (by decide) (by decide) _).clearBank (by decide) k

theorem State.cleared_vacate_kept (s : State) (k : Nat) :
    Kept (fun p => p ≠ .branches ∧ p ≠ .link) (s.cleared k) ((s.cleared k).vacate k) :=
  (Kept.refl _ _).vacate (by decide) (by decide) (by decide) (by decide) k

theorem State.contextReset_ctx (sound : s.Sound) (k : Nat) : (s.contextReset k).ctx k = {} := by
  have wf : mwf (s.cleared k).ctxs = true :=
    ((((Kept.refl (fun _ => True) s).endCommands trivial trivial k).dropRanges trivial trivial k).sound sound).ctxs
  rw [State.ctx_of_ctxs ((s.contextReset_kept k).same .ctxs (by decide)), State.vacate_ctx wf]

theorem State.contextReset_branches (s : State) (k : Nat) : ∀ e ∈ (s.contextReset k).branches, e.2.ctx.toNat ≠ k := by
  have same : (s.contextReset k).branches = (s.cleared k).branches :=
    ((s.contextReset_kept k).same .branches (by decide)).trans ((s.cleared_vacate_kept k).same .branches (by decide))
  intro e he
  rw [same] at he
  exact bne_iff_ne.mp (List.mem_filter.mp he).2

theorem State.contextReset_admitted (s : State) (k : Nat) :
    (s.contextReset k).link.admitted.all (fun a => a.c.cid != k) = true := by
  have ranges : (s.cleared k).link = (s.endCommands k).link :=
    ((Kept.refl (· ≠ .link) (s.endCommands k)).dropRanges (by decide) (by decide) k).same .link (by decide)
  have same : (s.contextReset k).link = (s.endCommands k).link :=
    (((s.contextReset_kept k).same .link (by decide)).trans ((s.cleared_vacate_kept k).same .link (by decide))).trans ranges
  rw [same]
  exact s.endCommands_none k

theorem State.contextReset_boot (s : State) (k : Nat) : (s.contextReset k).boot = s.boot := by
  have kept : Kept (· ≠ .boot) s (s.contextReset k) := by apply (Kept.refl _ s).contextReset <;> decide
  exact kept.same .boot (by decide)

theorem State.Sound.mgtAnswer (h : s.Sound) (r : BitVec 32) (n : Nat) (d : Option Word) : (s.mgtAnswer r n d).Sound :=
  ((Kept.refl (fun _ => True) s).mgtAnswer trivial r n d).sound h

/-! ### GUARD_RESET -/

/-- The answer to a GUARD_RESET, before what it asks for. -/
theorem State.mgtAnswer_reset (asked : fld r 0 4 = 4) (n : Nat) : s.mgtAnswer r n none =
    let ans : State := { s with boot := { s.boot with mgt := some ⟨4, BitVec.ofNat 4 (fld r 4 4), BitVec.ofNat 4 n, none⟩ } }
    if n = 0 then ans else ans.countGuard 7 := by
  unfold State.mgtAnswer reqOp
  rw [asked]
  rfl

/-- A GUARD_RESET that fails, as it comes with CONTEXT or without. -/
theorem execGuardReset_failed (up : s.up = true) (asked : fld r 0 4 = 4) {n : Nat} (result : s.mgtResult r = n) (bad : n ≠ 0) :
    (if r.getLsbD 12 then exec (.contextReset r) s else exec (.guardReset r) s) = .next (s.mgtAnswer r n none) := by
  by_cases context : r.getLsbD 12 = true
  · rw [if_pos context]
    exact (if_neg (by simp [reqContext, context])).trans
      (congrArg Host.Outcome.next (State.manage_failed up asked result bad))
  · rw [if_neg context]
    exact (if_neg context).trans (congrArg Host.Outcome.next (State.manage_failed up asked result bad))

theorem execContextReset_done (up : s.up = true) (asked : fld r 0 4 = 4) (context : r.getLsbD 12 = true) (ok : s.mgtResult r = 0)
    (calm : s.boot.fault = 0) (untorn : s.boot.phase ≠ .teardown) :
    exec (.contextReset r) s = .next (((s.mgtAnswer r 0 none).contextReset (fld r 8 4)).countGuard 2) := by
  refine (if_neg (by simp [reqContext, context])).trans (congrArg Host.Outcome.next ((State.manage_done up asked ok).trans ?_))
  exact if_neg fun h => h.elim (absurd calm) untorn

/-- A sound state after a context reset by the guard: nothing of the context is left, and the reset is counted. -/
theorem State.resetContext_leaves (sound : s.Sound) (k : Nat) :
    let t := (s.contextReset k).countGuard 2
    (t.ctx k).isOpen = false ∧ t.link.admitted.all (fun a => a.c.cid != k) = true ∧ (∀ e ∈ t.branches, e.2.ctx.toNat ≠ k)
      ∧ mgetD t.boot.guardCtr 2 0 = mgetD s.boot.guardCtr 2 0 + 1 ∧ t.boot.mgt = s.boot.mgt := by
  intro t
  have boot : t.boot = { s.boot with guardCtr := mset s.boot.guardCtr 2 (mgetD s.boot.guardCtr 2 0 + 1) } := by
    rw [← State.contextReset_boot s k]
    rfl
  refine ⟨?_, s.contextReset_admitted k, s.contextReset_branches k, ?_, ?_⟩
  · rw [State.ctx_of_ctxs (State.countGuard_ctxs (s.contextReset k) 2), State.contextReset_ctx sound]
  · rw [boot, mgetD_mset_self]
  · rw [boot]

/-- Settles O12: a request that fails is its answer; a warm reset follows the other without CONTEXT, and a context reset, which leaves
no command, branch or record of the context, the one with it. -/
theorem guardResetRequests : Obligations.GuardResetRequests := by
  intro s r cold supply asked ans run
  have up := State.up_of cold supply
  have answer (n : Nat) := State.mgtAnswer_reset (s := s) asked n
  have result := State.mgtResult_reset (s := s) asked
  refine ⟨fun reserved => ?_, fun clean clean' debug refused => ?_, fun clean clean' context allowed untorn => ?_,
    fun sound clean clean' context plain calm untorn => ?_⟩
  · have two : s.mgtResult r = 2 := State.mgtResult_reserved (by
      rcases reserved with h | h <;> simp [reqReserved, reqOp, asked, h])
    exact (execGuardReset_failed up asked two (by decide)).trans (congrArg _ (answer 2))
  · have three : s.mgtResult r = 3 := (result clean clean').trans (if_pos ⟨debug, refused⟩)
    exact (execGuardReset_failed up asked three (by decide)).trans (congrArg _ (answer 3))
  · have whole : ¬ reqContext r = true := Bool.eq_false_iff.mp context
    have ok : s.mgtResult r = 0 := (result clean clean').trans (if_neg fun ⟨debug, why⟩ =>
      why.elim (Bool.eq_false_iff.mp (allowed debug)) whole)
    have warm : exec (.guardReset r) s = .next ((s.mgtAnswer r 0 none).beginWarm true (reqDebug r)) :=
      (if_neg whole).trans (congrArg Host.Outcome.next (State.manage_done up asked ok))
    rw [warm, answer 0]
    exact congrArg Host.Outcome.next (if_neg untorn)
  · have ok : s.mgtResult r = 0 := (result clean clean').trans (if_neg fun h => Bool.eq_false_iff.mp plain h.1)
    obtain ⟨closed, ended, gone, counted, answered⟩ := State.resetContext_leaves (sound.mgtAnswer r 0 none) (fld r 8 4)
    have mgt : (s.mgtAnswer r 0 none).boot.mgt = (ans 0).boot.mgt := congrArg (fun t => t.boot.mgt) (answer 0)
    exact ⟨_, execContextReset_done up asked context ok calm untorn, closed, ended, gone, counted, answered.trans mgt⟩

end Sys2Proof.Machine
namespace Sys2Proof.Machine

variable {s : State} {c : Cmd}

/-! ### LYX_FRAME_CFG -/

theorem fld_lt {n : Nat} (x : BitVec n) (lo w : Nat) : fld x lo w < 2 ^ w := Nat.mod_lt _ (Nat.two_pow_pos w)

/-- A read after the write returns the clamped fields (R481): each fits the bits that hold it. -/
theorem State.frameCfg_setFrameCfg (s : State) (v : Word) :
    let k := max 10 (min 100 (fld v 24 7))
    (s.setFrameCfg v).frameCfg = pack [(0, s.frames.j.toNat), (8, max 5 (min 100 (fld v 8 7))), (16, min k (fld v 16 7)), (24, k),
      (32, min 100 (fld v 32 7)), (40, max 10 (min 90 (fld v 40 7))), (48, max 1 (fld v 48 8)),
      (56, bit s.frames.pending.isSome)] := by
  intro k
  have age : fld v 48 8 < 256 := fld_lt v 48 8
  unfold State.frameCfg State.setFrameCfg
  simp (disch := omega) only [BitVec.toNat_ofNat, Nat.mod_eq_of_lt]
  rfl

/-- Settles O13: the write is `State.setFrameCfg`, and the read that follows it packs the fields in force. -/
theorem frameCfgWriteClamps : Obligations.FrameCfgWriteClamps := by
  intro s v cold supply calm k w
  let u : State := { s with win := { s.win with err := false } }
  have up := State.up_of cold supply
  have write : exec (.registerWrite 0x0100 v) s = .next (u.setFrameCfg v) :=
    congrArg Host.Outcome.next (State.writeReg_present (a := 0x0100) up calm rfl v)
  have read : (u.setFrameCfg v).readReg 0x0100 = some (u.setFrameCfg v).frameCfg :=
    (if_neg (by rw [show (u.setFrameCfg v).up = s.up from rfl, up]; decide)).trans (if_neg calm)
  exact ⟨_, write, read.trans (congrArg some (State.frameCfg_setFrameCfg u v)), rfl, rfl⟩

/-! ### User trims -/

/-- Where a trim is held, no other register is: a write is the trim's (R490). -/
theorem State.writeRaw_trim {o i : Nat} (held : trimAt o = some i) (v : Word) :
    s.writeRaw o v = s.setTrim i (BitVec.ofNat 16 (fld v 0 16)) := by
  unfold State.writeRaw
  split
  case h_19 => rw [held]
  all_goals cases held

theorem State.readRaw_trim {o i : Nat} (held : trimAt o = some i) : (s.readRaw o).isNone = false := by
  unfold State.readRaw
  dsimp only
  split
  case h_29 =>
    rw [held]
    split_ifs <;> rfl
  all_goals rfl

/-- The trim of an index of Table 20.4 is held at its offset (R490). -/
theorem trimAt_index {i : Nat} {m : Int} (range : trimRange i = some m) (small : i < 56) : trimAt (0x1800 + 8 * i) = some i := by
  have back : (0x1800 + 8 * i - 0x1800) / 8 = i := by omega
  unfold trimAt
  rw [if_pos (by omega), back, range]
  rfl

theorem regOffset_index {i : Nat} (small : i < 56) : regOffset (BitVec.ofNat 16 (0x1800 + 8 * i)) = 0x1800 + 8 * i := by
  unfold regOffset
  rw [BitVec.toNat_ofNat]
  omega

/-- The indexes of Table 20.4, as the statement writes their ranges. -/
theorem trimRange_eq (i : Nat) : trimRange i = if i ≤ 25 then some 256 else if 32 ≤ i ∧ i ≤ 55 then some 16 else none := by
  unfold trimRange
  simp only [Nat.lt_succ_iff]

theorem State.setTrim_eq {i : Nat} {m : Int} (range : trimRange i = some m) (x : BitVec 16) :
    s.setTrim i x =
      let n := max (-m) (min m x.toInt)
      let w : State := { s with
        win := { s.win with trims := if n = 0 then merase s.win.trims i else mset s.win.trims i (BitVec.ofInt 16 n) } }
      if n = x.toInt then w else w.count 104 := by
  unfold State.setTrim
  rw [range]

theorem State.setTrim_withAdm (u : State) (l : List Adm) (i : Nat) (x : BitVec 16) :
    (u.withAdm l).setTrim i x = (u.setTrim i x).withAdm l := by
  unfold State.setTrim
  split
  · rfl
  · dsimp only
    split <;> rfl

theorem State.setTrim_kept (s : State) (i : Nat) (x : BitVec 16) : Kept (fun p => p = .win ∨ p = .engCtr) s (s.setTrim i x) :=
  (Kept.refl _ s).setTrim (.inl rfl) (.inr rfl) i x

/-- The trim that CAL_USER_SET names. -/
def State.trimmed (c : Cmd) (s : State) : State := s.setTrim (fld c.a 0 12) (BitVec.ofNat 16 (fld c.b 0 16))

/-- CAL_USER_SET is done with the trim in force. -/
theorem exec_calUserSet (h : s.Begins (.calUserSet c)) : exec (.calUserSet c) s
    = .next (((s.taken c).trimmed c).answered 0xA1 c 0 (mgetD ((s.taken c).trimmed c).win.trims (fld c.a 0 12) 0).toNat) := by
  refine exec_of_eff (E := State.trimmed c) (D := fun s => (mgetD (s.trimmed c).win.trims (fld c.a 0 12) 0).toNat) rfl (by decide) h rfl
    (fun u l => ?_) (fun u => ?_) (fun u => ?_)
  · have trimmed : (u.withAdm l).setTrim (fld c.a 0 12) (BitVec.ofNat 16 (fld c.b 0 16)) = (u.trimmed c).withAdm l :=
      State.setTrim_withAdm u l _ _
    unfold effCalUserSet
    dsimp only
    rw [trimmed]
    rfl
  · exact State.live_congr ((State.setTrim_kept u _ _).same .boot (by decide))
  · exact congrArg Link.admitted ((State.setTrim_kept u _ _).same .link (by decide))

/-- An index of no trim is the first bad field of a command whose A is otherwise in order: byte 8 (R445). -/
theorem bodyBad_calUserSet (u : State) (untrimmed : trimRange (fld c.a 0 12) = none) (clean : reservedBits c.a (rowOf 0xA1).aMask 8 = []) :
    u.bodyBad (rowOf 0xA1) fieldsCalUserSet noCheck noBytes c = some (0x0302, 8) := by
  have first : firstOf (reservedBits c.a (rowOf 0xA1).aMask 8 ++ reservedBits c.b (rowOf 0xA1).bMask 16 ++ fieldsCalUserSet u c)
      = some 8 := by
    have bad : fieldsCalUserSet u c = [8] := by
      unfold fieldsCalUserSet
      rw [untrimmed]
      rfl
    rw [clean, bad]
    unfold reservedBits
    split
    · exact congrArg some (Nat.min_eq_right (by omega))
    · rfl
  unfold State.bodyBad
  rw [first]

/-- Settles O24: the command and the register write are both `State.setTrim`; a warm reset copies the trims, a cold one does not. -/
theorem userTrimsAreClamped : Obligations.UserTrimsAreClamped := by
  intro s c u lim put
  have ranges (i : Nat) : trimRange i = lim i := trimRange_eq i
  refine ⟨fun m range h => ?_, fun index offers head clean => ?_, fun i v m small range cold supply calm => ?_, fun torn => ?_,
    ⟨_, rfl, rfl⟩⟩
  · have set : u.trimmed c = put u (fld c.a 0 12) m (BitVec.ofNat 16 (fld c.b 0 16)).toInt :=
      State.setTrim_eq ((ranges _).trans range) _
    intro v
    rw [show v = u.trimmed c from set.symm]
    exact exec_calUserSet h
  · exact exec_refused (i := .calUserSet c) rfl offers
      (.inr ⟨head, fun h => absurd h (by decide), bodyBad_calUserSet u ((ranges _).trans index) clean⟩)
  · have held := trimAt_index ((ranges i).trans range) small
    rw [← regOffset_index small] at held
    refine congrArg Host.Outcome.next ((State.writeReg_present (State.up_of cold supply) calm (State.readRaw_trim held) v).trans ?_)
    rw [State.writeRaw_trim held]
    exact State.setTrim_eq ((ranges i).trans range) _
  · obtain ⟨l, run, -⟩ := execTeardownDone_teardown torn
    exact ⟨_, run, rfl⟩

end Sys2Proof.Machine

namespace Sys2Proof.Machine

variable {s s₀ t v : State} {r : CmdRow} {c : Cmd}

/-! ### Commands whose record keeps more than their packet -/

/-- `exec_replies_last` for a command whose record was written to since it was admitted. -/
theorem exec_replies_record {i : Instr} (hi : Instr.cmdRow? i = some (r, c)) (h : s.Begins i) {a : Adm}
    (admitted : v.link.admitted = (s.taken c).link.admitted ++ [a]) (packet : a.c = c) (op : a.op = r.op) (work : a.work = [])
    (live : v.live = true) {n d : Nat} (he : r.eff c (s.begun r c) = v.finish c.cid c.tag n d) :
    ∃ t, exec i s = .next t ∧ t.Replied r.op c n d a.done ∧ t.ctxs = v.ctxs := by
  obtain ⟨starts, unwatched⟩ := State.Begins.starts hi h
  have left := starts.free_taken
  have isAt : Adm.isAt c.cid c.tag a = true := Adm.isAt_iff.mpr (by rw [Adm.key, packet]; rfl)
  have quiet : unwatchedIn ((s.taken c).link.admitted ++ [a]) c.cid c.tag := by
    intro b hb
    rcases List.mem_append.mp hb with hb | hb
    · exact State.unwatchedIn_begun unwatched (rowOf r.op) b (List.mem_append_left _ hb)
    · cases List.mem_singleton.mp hb
      simp [work]
  have worked : v.withAdm ((s.taken c).link.admitted ++ [a]) = v := by
    unfold State.withAdm
    rw [← admitted]
  have final : v.finish c.cid c.tag n d = (v.reply r.op c.cid c.tag n d a.done).withAdm (s.taken c).link.admitted := by
    rw [← op, ← State.finish_last n d live left isAt quiet, worked]
  refine ⟨v.finish c.cid c.tag n d, ?_, ?_⟩
  · rw [exec_cmdRow hi, State.runCmd_starts starts, he]
    unfold State.ack
    rw [show State.adm? (v.finish c.cid c.tag n d) c.cid c.tag = none by rw [final]; exact left, if_neg (by simp)]
  · rw [final]
    unfold State.reply
    rw [if_neg (by simp [live])]
    refine ⟨⟨left, ?_⟩, rfl⟩
    unfold State.withAdm
    dsimp only
    rw [List.getLast?_concat, Cmd.ofNat_cid]

/-- A command whose row does nothing as it is taken begins with its own record last. -/
theorem State.begun_adm? (ht : r.take = noTake) (h : s.Offers c) :
    (s.begun r c).adm? c.cid c.tag = some ((s.taken c).newBegun (rowOf r.op) c 0) := by
  rw [State.begun_eq ht h]
  unfold State.adm? State.withAdm
  dsimp only
  rw [List.find?_append, h.free_taken, Option.none_or, List.find?_cons_of_pos (State.newBegun_isAt _ _ _ _)]

/-! ### KNEAD_HINT -/

def kneadHintRow : CmdRow := ⟨0x70, noFields, chkKnead, bytesExtent, noTake, effKneadHint⟩

/-- Without a pantry window no tile can move to tier 1, and a hint of no moves is done (R383). -/
theorem exec_kneadHint_none (h : s.Begins (.kneadHint c)) (down : c.b.getLsbD 0 = true) (window : (s.ctx c.cid).knead.size = 0)
    (still : (s.ctx c.cid).knead.jobs = []) : exec (.kneadHint c) s = .next ((s.taken c).answered 0x70 c 0 0) := by
  have hi : Instr.cmdRow? (.kneadHint c) = some (kneadHintRow, c) := rfl
  obtain ⟨starts, unwatched⟩ := State.Begins.starts hi h
  have ctx := begun_ctx hi rfl h c.cid
  refine exec_finishes hi rfl rfl starts unwatched ?_
  have none_moves : effKneadHint c (s.begun kneadHintRow c) = (s.begun kneadHintRow c).hintDone c.cid c.tag := by
    refine congrArg (State.hintDone · c.cid c.tag) ((if_pos down).trans (State.each_same fun i _ => if_pos ?_))
    rw [ctx, window]
    exact .inr (.inl rfl)
  refine none_moves.trans ?_
  unfold State.hintDone
  rw [State.begun_adm? rfl starts.toOffers]
  dsimp only
  rw [ctx, still]
  exact if_neg (by simp [State.newBegun, State.newAdm]; decide)

/-! ### KNEAD_PIN -/

def kneadPinRow : CmdRow := ⟨0x71, noFields, chkKnead, noBytes, noTake, effKneadPin⟩

/-- What KNEAD_PIN does to one tile: its pin, and the move that the pin asks for (R383). -/
def State.pinTile (c : Cmd) (s : State) (i : Nat) : State :=
  let u := s.modTile c.cid i (fun r => r.setPin (c.b.getLsbD 0) (c.b.getLsbD 1))
  if c.b.getLsbD 0 ∧ !c.b.getLsbD 1 then u.askPromotion c.cid i 1
  else if c.b.getLsbD 0 ∧ (u.ctx c.cid).knead.size ≠ 0 ∧ u.kneadable c.cid i ∧ u.atHome c.cid i then
    u.setJob c.cid i (some { kind := 0, cause := 1 })
  else u

theorem State.pinTile_kept (h : Kept offReply s₀ s) (i : Nat) : Kept offReply s₀ (s.pinTile c i) := by
  have pinned := h.modTile (by decide) c.cid i (fun r => r.setPin (c.b.getLsbD 0) (c.b.getLsbD 1))
  exact .ite (fun _ => pinned.askPromotion (by decide) (by decide) (by decide) _ _ _ _ _)
    fun _ => .ite (fun _ => pinned.setJob (by decide) _ _ _) fun _ => pinned

/-- The tiles whose pin KNEAD_PIN changes. -/
def State.repinned (c : Cmd) (s : State) : Nat :=
  ((extent (fld c.a 0 32) c.n).filter
    (fun i => (s.tile c.cid i).setPin (c.b.getLsbD 0) (c.b.getLsbD 1) != s.tile c.cid i)).length

theorem exec_kneadPin (h : s.Begins (.kneadPin c)) :
    ∃ t, exec (.kneadPin c) s = .next t ∧ t.Replied 0x71 c 0 (s.repinned c) c.n := by
  have hi : Instr.cmdRow? (.kneadPin c) = some (kneadPinRow, c) := rfl
  have work : Kept offReply (s.begun kneadPinRow c)
      ((s.begun kneadPinRow c).each (extent (fld c.a 0 32) c.n) (State.pinTile c)) :=
    (Kept.refl _ _).each fun _ i g => State.pinTile_kept g i
  have counts : Adm.Counts (fun a => { a with done := c.n }) c.n := ⟨fun _ => rfl, fun _ => rfl, fun _ => rfl, fun _ => rfl⟩
  have same : (s.begun kneadPinRow c).repinned c = s.repinned c := by
    unfold State.repinned State.tile State.tile?
    rw [begun_ctx hi rfl h]
  obtain ⟨t, run, replied, -⟩ := exec_replies_units hi rfl rfl h work counts (n := 0)
    (d := (s.begun kneadPinRow c).repinned c) rfl
  rw [same] at replied
  exact ⟨t, run, replied⟩

end Sys2Proof.Machine

namespace Sys2Proof.Machine

variable {s s₀ t v : State} {r : CmdRow} {c : Cmd}

/-! ### EXPORT_BEGIN -/

/-- The last id that EXPORT_BEGIN gave in a context (R392). -/
def Ctx.exportId (x : Ctx) : BitVec 32 := x.exp.ids

section
variable (h : State.Reads Ctx.exportId s₀ s)
include h

theorem State.Reads.abandonExport_id (k : Nat) : State.Reads Ctx.exportId s₀ (s.abandonExport k) :=
  .ite (fun _ => h) fun _ =>
    have dropped := (h.countCtx k 109 1).of_kept ((Kept.refl _ _).dropJobs (by decide) _)
    dropped.modCtx rfl

theorem State.Reads.judgeExport_id (k : Nat) : State.Reads Ctx.exportId s₀ (s.judgeExport k) :=
  .ite (fun _ => h) fun _ => .ite (fun _ => h) fun _ =>
    have overtaken : State.Reads Ctx.exportId s₀ (s.modCtx k _) := h.modCtx rfl
    overtaken.countCtx k 110 1

/-- Whatever comes of an EXPORT_BEGIN, the id it gave stands. -/
theorem State.Reads.exportBegun_id (k : Nat) (g : BitVec 16) : State.Reads Ctx.exportId s₀ (s.exportBegun k g) := by
  unfold State.exportBegun
  split
  · exact h
  · refine .ite (fun _ => h) fun _ => ?_
    split
    · exact (State.Reads.abandonExport_id h k).finish ..
    · exact (State.Reads.judgeExport_id h k).finish ..

end

/-- EXPORT_BEGIN gives the id after the last one (R392). -/
theorem effExportBegin_id (c : Cmd) (u : State) :
    ((effExportBegin c u).ctx c.cid).exp.ids = nextId (u.ctx c.cid).exp.ids := by
  have kept := (State.Reads.abandonExport_id (.refl Ctx.exportId u) c.cid).ctx c.cid
  unfold effExportBegin
  dsimp only
  generalize u.abandonExport c.cid = a at kept ⊢
  refine (State.Reads.exportBegun_id (s₀ := a.modCtx c.cid _)
    (.each ((State.Reads.refl _ _).countCtx c.cid 107 1) fun _ i g => ?_) c.cid c.tag).ctx c.cid |>.trans ?_
  · exact g.of_kept ((Kept.refl _ _).askOwn (by decide) ..)
  · rw [State.modCtx_ctx_self]
    exact congrArg nextId kept

def exportBeginRow : CmdRow := ⟨0x80, fieldsExportBegin, chkExportBegin, noBytes, noTake, effExportBegin⟩

theorem exec_exportBegin (h : s.Begins (.exportBegin c)) :
    ∃ t, exec (.exportBegin c) s = .next t ∧ (t.ctx c.cid).exp.ids = nextId (s.ctx c.cid).exp.ids := by
  have hi : Instr.cmdRow? (.exportBegin c) = some (exportBeginRow, c) := rfl
  obtain ⟨t, run, link, -⟩ := exec_begins hi (State.Begins.starts hi h).1
  refine ⟨t, run, ?_⟩
  rw [State.ctx_of_ctxs (link.same .ctxs (by decide)), ← begun_ctx hi rfl h c.cid,
    show exportBeginRow.eff = effExportBegin from rfl]
  exact effExportBegin_id c _

/-! ### RESTORE_BEGIN -/

def restoreBeginRow : CmdRow := ⟨0x82, fieldsRestoreBegin, chkRestoreBegin, noBytes, takeRestoreBegin, effRestoreBegin⟩

/-- The restore that RESTORE_BEGIN opens (R399). -/
def Ctx.openRestore (c : Cmd) (x : Ctx) : Ctx :=
  { x with rst := { x.rst with ids := nextId x.rst.ids, open? := some (nextId x.rst.ids, sealOf c), pieces := [], passed := false,
                               failed := false, holding := true, tiles := [] } }

theorem takeRestoreBegin_eq (c : Cmd) (u : State) :
    takeRestoreBegin c u = ((u.countCtx c.cid 117 (bit (u.ctx c.cid).rst.open?.isSome)).modCtx c.cid (Ctx.openRestore c)).modAdm
      c.cid c.tag (fun a => { a with aux := some (nextId (u.ctx c.cid).rst.ids).toNat }) := by
  unfold takeRestoreBegin
  dsimp only
  rw [State.modCtx_ctx_self, State.ctx_of_ctxs (State.countCtx_ctxs ..)]
  rfl

/-- What RESTORE_BEGIN does before its final reply. -/
def State.restoreBegins (s : State) (k : Nat) : State :=
  let s := s.each (s.ctx k).guardedTiles (fun s t => s.holdTile k t .restore)
  let s := if (s.ctx k).group.joined then ((s.modCtx k Ctx.giveUpBakes).relieveAll k).dropJobs (fun j => j.ctx.toNat == k) else s
  (s.modCtx k (fun x => { x with tiles := mmap x.tiles (fun _ r => { r with crc := none }) })).countCtx k 115

theorem State.restoreBegins_kept (s : State) (k : Nat) : Kept offReply s (s.restoreBegins k) := by
  have held := (Kept.refl offReply s).each (l := (s.ctx k).guardedTiles) (f := fun s t => s.holdTile k t .restore)
    fun _ _ g => g.holdTile (by decide) ..
  unfold State.restoreBegins
  dsimp only
  generalize s.each (s.ctx k).guardedTiles (fun s t => s.holdTile k t .restore) = u at held ⊢
  refine .countCtx (.modCtx (.ite (fun _ => ?_) fun _ => held) (by decide) _ _) (by decide) ..
  exact ((held.modCtx (by decide) _ _).relieveAll (by decide) _).dropJobs (by decide) _

theorem State.restoreBegins_rst (s : State) (k : Nat) : State.Reads Ctx.rst s (s.restoreBegins k) := by
  have held := (State.Reads.refl Ctx.rst s).each (l := (s.ctx k).guardedTiles) (f := fun s t => s.holdTile k t .restore)
    fun _ _ g => g.of_kept ((Kept.refl _ _).holdTile (by decide) ..)
  unfold State.restoreBegins
  dsimp only
  generalize s.each (s.ctx k).guardedTiles (fun s t => s.holdTile k t .restore) = u at held ⊢
  refine State.Reads.countCtx (State.Reads.modCtx (.ite (fun _ => ?_) fun _ => held) rfl) ..
  have given : State.Reads Ctx.rst s (u.modCtx k Ctx.giveUpBakes) := held.modCtx rfl
  exact (given.of_kept ((Kept.refl _ _).relieveAll (by decide) _)).of_kept ((Kept.refl _ _).dropJobs (by decide) _)

theorem effRestoreBegin_eq {u : State} {a : Adm} (found : (u.restoreBegins c.cid).adm? c.cid c.tag = some a) :
    effRestoreBegin c u = (u.restoreBegins c.cid).finish c.cid c.tag 0 (a.aux.getD 0) := by
  unfold State.restoreBegins at found
  dsimp only at found
  unfold effRestoreBegin State.restoreBegins
  dsimp only
  rw [found]
  rfl

end Sys2Proof.Machine

namespace Sys2Proof.Machine

variable {s s₀ t v : State} {r : CmdRow} {c : Cmd}

/-- The record that RESTORE_BEGIN runs under: it holds the restore's id. -/
def State.restoreAdm (s : State) (c : Cmd) : Adm :=
  { (s.taken c).newBegun (rowOf 0x82) c 0 with aux := some (nextId (s.ctx c.cid).rst.ids).toNat }

theorem State.restoreAdm_isAt (s : State) (c : Cmd) : Adm.isAt c.cid c.tag (s.restoreAdm c) = true :=
  State.newBegun_isAt (s.taken c) (rowOf 0x82) c 0
theorem State.restoreAdm_aux (s : State) (c : Cmd) : (s.restoreAdm c).aux.getD 0 = (nextId (s.ctx c.cid).rst.ids).toNat := rfl

theorem State.admitted_restore (s : State) (c : Cmd) :
    s.admitted restoreBeginRow c = (((s.entered restoreBeginRow c).countCtx c.cid 117 (bit (s.ctx c.cid).rst.open?.isSome)).modCtx
      c.cid (Ctx.openRestore c)).modAdm c.cid c.tag (fun a => { a with aux := some (nextId (s.ctx c.cid).rst.ids).toNat }) := by
  rw [State.admitted_eq, show restoreBeginRow.take = takeRestoreBegin from rfl, takeRestoreBegin_eq, State.entered_ctx]

theorem State.begun_restore_admitted (h : s.Offers c) :
    (s.begun restoreBeginRow c).link.admitted = (s.taken c).link.admitted ++ [s.restoreAdm c] := by
  have taken : (s.admitted restoreBeginRow c).link.admitted = (s.taken c).link.admitted
      ++ [{ (s.taken c).newAdm (rowOf 0x82) c with aux := some (nextId (s.ctx c.cid).rst.ids).toNat }] := by
    rw [State.admitted_restore]
    change replaceFirst _ _ (State.countCtx _ _ _ _).link.admitted = _
    rw [State.countCtx_link]
    exact replaceFirst_append h.free_taken (Adm.isAt_new _ _ _)
  change replaceFirst _ _ (s.admitted restoreBeginRow c).link.admitted = _
  rw [taken]
  exact replaceFirst_append h.free_taken (Adm.isAt_new (s.taken c) (rowOf 0x82) c)

theorem State.begun_restore_rst (s : State) (c : Cmd) :
    ((s.begun restoreBeginRow c).ctx c.cid).rst = ((s.ctx c.cid).openRestore c).rst := by
  have begun : (s.begun restoreBeginRow c).ctxs = (s.admitted restoreBeginRow c).ctxs := rfl
  rw [State.ctx_of_ctxs begun, State.admitted_restore, State.ctx_of_ctxs (State.modAdm_ctxs ..), State.modCtx_ctx_self,
    State.ctx_of_ctxs (State.countCtx_ctxs ..), State.entered_ctx]

/-- RESTORE_BEGIN is done with the id of the restore it opens (R399). -/
theorem exec_restoreBegin (h : s.Begins (.restoreBegin c)) :
    ∃ t, exec (.restoreBegin c) s = .next t ∧ t.Replied 0x82 c 0 (nextId (s.ctx c.cid).rst.ids).toNat
      ∧ (t.ctx c.cid).rst = ((s.ctx c.cid).openRestore c).rst := by
  have hi : Instr.cmdRow? (.restoreBegin c) = some (restoreBeginRow, c) := rfl
  obtain ⟨starts, -⟩ := State.Begins.starts hi h
  have boot : (s.admitted restoreBeginRow c).boot = (s.entered restoreBeginRow c).boot := by
    rw [State.admitted_restore]
    exact State.countCtx_boot ..
  have begunLive := State.begun_live starts.accepts boot
  have begunRst := State.begun_restore_rst s c
  have admitted := State.begun_restore_admitted starts.toOffers
  have kept := State.restoreBegins_kept (s.begun restoreBeginRow c) c.cid
  have rst := (State.restoreBegins_rst (s.begun restoreBeginRow c) c.cid).ctx c.cid
  rw [← kept.same .link (by decide)] at admitted
  have live := (State.live_congr (kept.same .boot (by decide))).trans begunLive
  have found : ((s.begun restoreBeginRow c).restoreBegins c.cid).adm? c.cid c.tag = some (s.restoreAdm c) := by
    unfold State.adm?
    rw [admitted, List.find?_append, starts.free_taken, Option.none_or]
    exact List.find?_cons_of_pos (s.restoreAdm_isAt c)
  have done : restoreBeginRow.eff c (s.begun restoreBeginRow c)
      = ((s.begun restoreBeginRow c).restoreBegins c.cid).finish c.cid c.tag 0 (nextId (s.ctx c.cid).rst.ids).toNat := by
    rw [show restoreBeginRow.eff = effRestoreBegin from rfl, effRestoreBegin_eq found, State.restoreAdm_aux]
  obtain ⟨t, run, replied, ctxs⟩ := exec_replies_record hi h admitted rfl rfl rfl live done
  refine ⟨t, run, replied, ?_⟩
  rw [State.ctx_of_ctxs ctxs]
  exact rst.trans begunRst

end Sys2Proof.Machine

namespace Sys2Proof.Machine

variable {s s₀ t v : State} {r : CmdRow} {c : Cmd}

/-! ### SAMPLE_ROW -/

def sampleRowRow : CmdRow := ⟨0xB0, fieldsSampleRow, chkSampleRow, bytesSampleRow, noTake, effSampleRow⟩

/-- No tile of the list is held for a mend, failed or not, or for a rebuild. -/
def State.unheld (s : State) (k : Nat) (ts : List Nat) : Bool :=
  ts.all (fun t => !s.heldFor k t .mendFailed && !s.heldFor k t .mend && !s.heldFor k t .unbuilt)

/-- The value drawn of a row whose tiles can be read, under the seed and the step a command was admitted with (R229). -/
def State.drawn (s : State) (c : Cmd) (ts : List Nat) (seed step : Word) : Nat :=
  Sys2Proof.Machine.sampleRow (f32s c.n (rowBytes c.a.toNat (4 * c.n) (ts.map (fun t => s.valOf c.cid t)))) (rowTemp c)
    (starter seed 1 (BitVec.ofNat 32 (fld c.b 32 32)) step 0)

/-- What reading the row's tiles leaves: they are no longer idle, their far reads end, and their slice has served the bytes. -/
def State.rowRead (s : State) (c : Cmd) (ts : List Nat) : State :=
  (s.each ts (fun s t => (s.touch c.cid t).endRead c.cid t)).serve (addrSlice c.a.toNat) (workClass (rowOf 0xB0) c) (4 * c.n)

theorem State.rowRead_kept (s : State) (c : Cmd) (ts : List Nat) : Kept offReply s (s.rowRead c ts) :=
  .serve ((Kept.refl _ s).each fun _ _ g => (g.touch (by decide) _ _).endRead (by decide) _ _) (by decide) (by decide) _ _ _

/-- A row of readable tiles that nothing holds is drawn from at once. -/
theorem effSampleRow_drawn {u : State} {ts : List Nat} {a : Adm} (tiles : u.rowTiles c.cid c.a.toNat (4 * c.n) = some ts)
    (reads : u.readable c.cid ts = true) (unheld : u.unheld c.cid ts = true) (found : u.adm? c.cid c.tag = some a) :
    effSampleRow c u = ((u.rowRead c ts).modAdm c.cid c.tag (fun a => { a with done := c.n })).finish c.cid c.tag 0
      (u.drawn c ts a.seed a.stepIn) := by
  have free : ∀ t ∈ ts, (u.heldFor c.cid t .mendFailed = false ∧ u.heldFor c.cid t .mend = false)
      ∧ u.heldFor c.cid t .unbuilt = false := by
    simpa only [State.unheld, List.all_eq_true, Bool.and_eq_true, Bool.not_eq_true'] using unheld
  have failed : ts.find? (fun t => u.heldFor c.cid t .mendFailed) = none :=
    List.find?_eq_none.mpr fun t ht => by
      obtain ⟨⟨passed, -⟩, -⟩ := free t ht
      simp [passed]
  have waits : ts.any (fun t => u.heldFor c.cid t .mend || u.heldFor c.cid t .unbuilt) = false :=
    List.any_eq_false.mpr fun t ht => by
      obtain ⟨⟨-, mended⟩, built⟩ := free t ht
      simp [mended, built]
  rw [effSampleRow]
  simp only [tiles, Option.getD_some, failed, waits, Bool.false_eq_true, if_false, State.waitRead, if_pos reads, found]
  rfl

/-- A row that does nothing as it is taken begins on a state that differs from the one before in its link, its clock and its
counters alone. -/
theorem State.begun_update (ht : r.take = noTake) (h : s.Offers c) :
    ∃ l p e, s.begun r c = { s with link := l, power := p, engCtr := e } := by
  rw [State.begun_eq ht h]
  unfold State.taken State.advanceHead State.withAdm
  rw [State.wake_eq]
  exact ⟨_, _, _, rfl⟩

theorem exec_sampleRow {ts : List Nat} (h : s.Begins (.sampleRow c)) (tiles : s.rowTiles c.cid c.a.toNat (4 * c.n) = some ts)
    (reads : s.readable c.cid ts = true) (unheld : s.unheld c.cid ts = true) :
    ∃ t, exec (.sampleRow c) s = .next t
      ∧ t.Replied 0xB0 c 0 (s.drawn c ts (s.ctx c.cid).seed ((s.ctx c.cid).lastStep.getD 0)) c.n := by
  have hi : Instr.cmdRow? (.sampleRow c) = some (sampleRowRow, c) := rfl
  have offers := (State.Begins.starts hi h).1.toOffers
  have found := State.begun_adm? (r := sampleRowRow) rfl offers
  have work := State.rowRead_kept (s.begun sampleRowRow c) c ts
  have counts : Adm.Counts (fun a => { a with done := c.n }) c.n := ⟨fun _ => rfl, fun _ => rfl, fun _ => rfl, fun _ => rfl⟩
  have seed : ((s.taken c).newBegun (rowOf sampleRowRow.op) c 0).seed = (s.ctx c.cid).seed :=
    congrArg Ctx.seed (State.taken_ctx s c c.cid)
  have step : ((s.taken c).newBegun (rowOf sampleRowRow.op) c 0).stepIn = (s.ctx c.cid).lastStep.getD 0 :=
    congrArg (fun x : Ctx => x.lastStep.getD 0) (State.taken_ctx s c c.cid)
  have drawn : effSampleRow c (s.begun sampleRowRow c)
      = (((s.begun sampleRowRow c).rowRead c ts).modAdm c.cid c.tag (fun a => { a with done := c.n })).finish c.cid c.tag 0
        (s.drawn c ts (s.ctx c.cid).seed ((s.ctx c.cid).lastStep.getD 0)) := by
    obtain ⟨l, p, e, begun⟩ := State.begun_update (r := sampleRowRow) rfl offers
    rw [← seed, ← step]
    rw [begun] at found ⊢
    exact effSampleRow_drawn tiles reads unheld found
  obtain ⟨t, run, replied, -⟩ := exec_replies_units hi rfl rfl h work counts drawn
  exact ⟨t, run, replied⟩

/-- Settles O35: each command is done as it begins, or has given its id; its work leaves the replies alone. -/
theorem kneadExportAndRestoreCommands : Obligations.KneadExportAndRestoreCommands := by
  unfold Obligations.KneadExportAndRestoreCommands
  intro s c
  refine ⟨exec_kneadPin, exec_kneadHint_none, exec_exportBegin, fun h => ?_, fun ts h => exec_sampleRow h⟩
  obtain ⟨t, run, replied, rst⟩ := exec_restoreBegin h
  refine ⟨t, run, replied, ?_⟩
  rw [rst]
  exact ⟨rfl, rfl, rfl⟩

end Sys2Proof.Machine
